-- ==== Sys2Proof/Word.lean ====
section
/-! DEFINITION. The word types of the ET9640: bytes, 32-bit words and system time. -/

namespace Sys2Proof

/-- A byte of any addressed memory. -/
abbrev Byte := BitVec 8

/-- A 32-bit word (00 "Headline figures": data word 32 bits; R4: every register is 32 bits wide). -/
abbrev Word := BitVec 32

/-- System time (R287) as one count of 2⁻¹⁶ ns units since the PTP epoch: seconds, nanoseconds and fraction are read from
it by division, so every value is well formed. -/
abbrev Time := Nat

/-- Units of `Time` in one second: 10⁹ × 2¹⁶ (the constant d of R64). -/
abbrev Time.second : Nat := 65536000000000

/-- Units of `Time` in one nanosecond. -/
abbrev Time.ns : Nat := 65536

end Sys2Proof
end

