-- ==== Sys2Proof/Syntax.lean ====
section
/-! DEFINITION. The commands of the block: one constructor of `Instr` per row of spec/opcode_table.json, with its operands.
A command is a register access, an event on a pin, link or port, an instruction a core commits, or a timed event of the
device's own. Values that only the outside world or the analogue side can supply (samples, time-stamps, measured offsets,
test results) are operands. -/

namespace Sys2Proof

/-- Core number, 0–127 (R12). -/
abbrev CoreId := Fin 128
/-- Crew number, 0–15 (R12). -/
abbrev CrewId := Fin 16
/-- Mix slice number, 0–15 (R13). -/
abbrev SliceId := Fin 16

/-- The seven fabric masters (R402), in number order. -/
inductive Master where
  | sc | host | dma | twin | net | eng | dbg
  deriving DecidableEq, Repr

/-- Record severities (R458), in code order. -/
inductive Sev where
  | note | degrade | fault | fatal
  deriving DecidableEq, Repr

/-- The fields of a compute syllable other than OPC (R110). -/
structure CSyl where
  dst : BitVec 5 := 0
  sa : BitVec 5 := 0
  sb : BitVec 5 := 0
  prd : BitVec 3 := 0
  shr : BitVec 3 := 0
  li : Bool := false
  md : BitVec 4 := 0
  deriving DecidableEq, Repr

/-- The fields of a transfer syllable other than TOPC (R110). -/
structure TSyl where
  dr : BitVec 5 := 0
  ar : BitVec 4 := 0
  mr : BitVec 4 := 0
  tprd : BitVec 3 := 0
  ofs : BitVec 11 := 0
  deriving DecidableEq, Repr

/-- One 16-byte beat of a fabric burst with its byte enables (R405); bit i of `en` enables byte i. -/
structure Beat where
  en : BitVec 16
  data : BitVec 128
  deriving DecidableEq, Repr

/-- A fabric burst (R405): the master, the address of its first byte, the direction, the lock attribute (R410) and its beats;
`collides` says that a port of lower number writes the same words in the same bank cycles (R374). -/
structure Burst where
  master : Master
  addr : BitVec 36
  write : Bool
  lock : Bool
  beats : List Beat
  collides : Bool := false
  deriving DecidableEq, Repr

/-- A detector's report (R17, R461): stamped source, code, severity, INFO word, and the DET_STAT bits it is a cause of (R34). -/
structure Report where
  source : BitVec 16
  code : BitVec 12
  sev : Sev
  info : Word
  lapse : BitVec 7
  deriving DecidableEq, Repr

/-- What a network port's access layer sees of a received frame (R284, R289): port, length, FCS verdict, and the system
time at the start-of-frame delimiter as the layer stamps it, before the corrections of R289 and R290. -/
structure RxHdr where
  port : Fin 2
  len : Nat
  fcsOk : Bool
  sfd : Time
  deriving DecidableEq, Repr

/-- A received RTP packet (R302, R305): the fields the filters read, the cox epoch element if present (R310), the payload, and the bytes of its
frame without FCS. -/
structure MediaPacket where
  hdr : RxHdr
  vlan : Option (BitVec 12)
  dstIp : Word
  dstPort : BitVec 16
  srcIp : Word
  ssrc : Word
  pt : BitVec 7
  seq : BitVec 16
  ts : Word
  epoch : Option Word
  payload : List Byte
  bytes : List Byte
  deriving DecidableEq, Repr

/-- A PTP timestamp: 48-bit seconds and nanoseconds (R287). -/
structure PtpTime where
  sec : BitVec 48
  ns : BitVec 32
  deriving DecidableEq, Repr

/-- The data set of an Announce that the best master clock algorithm compares (R291). -/
structure PtpData where
  prio1 : BitVec 8
  cls : BitVec 8
  acc : BitVec 8
  variance : BitVec 16
  prio2 : BitVec 8
  gmid : BitVec 64
  steps : BitVec 16
  utc : BitVec 16
  deriving DecidableEq, Repr

/-- The body of a PTP event or general message as an instance takes it (R291): a one-step or two-step Sync, the Follow_Up of the latter, and
the answers to the instance's own delay requests, `sent` the stamp of the request as the access layer made it (R289). -/
inductive PtpBody where
  | announce (d : PtpData)
  | sync (twoStep : Bool) (ts : PtpTime)
  | followUp (ts : PtpTime)
  | delayResp (ts : PtpTime) (sent : Time)
  | pdelayResp (recv resp : PtpTime) (sent : Time)
  deriving DecidableEq, Repr

/-- A PTP message: its domain, the sender's port identity, sequence number and correction in 2⁻¹⁶ ns. -/
structure PtpMessage where
  hdr : RxHdr
  domain : BitVec 8
  sender : BitVec 80
  seq : BitVec 16
  correction : Int
  body : PtpBody
  deriving DecidableEq, Repr

/-- A frame for the host queue (R286): its bytes without FCS. -/
structure RxFrame where
  hdr : RxHdr
  bytes : List Byte
  deriving DecidableEq, Repr

/-- What the measuring unit gives at a window end for one reference (R320, R335): a signal is present, FOFS in Q24.8 ppb, and
the edge offset of a wired reference in ns. -/
structure RefMeas where
  present : Bool
  fofs : BitVec 32
  phs : BitVec 32
  deriving DecidableEq, Repr

/-- The flags every heartbeat and frame carries (R341, R367). -/
structure TwinFlags where
  hold : Bool
  ready : Bool
  inSync : Bool
  handover : Bool
  seat : Bool
  deriving DecidableEq, Repr

/-- A Twin Link frame's header (R367) with the receiver's verdict on CRC, tag and TYPE: whether TYPE is one of the ten. -/
structure TwinHdr where
  flags : TwinFlags
  epoch : Word
  stroke : BitVec 64
  crcOk : Bool
  tagOk : Bool
  typeOk : Bool
  deriving DecidableEq, Repr

/-- A twin beacon datagram (R342) as received. -/
structure Beacon where
  hdr : RxHdr
  magic : Word
  version : BitVec 8
  flags : TwinFlags
  epoch : Word
  stroke : BitVec 64
  image : Word
  tag : List Byte
  deriving DecidableEq, Repr

/-- A call record as the ring holds it (R50), 32 bytes: target, opcode, flags, id and 16 payload bytes. -/
structure CallRec where
  target : BitVec 64
  opcode : BitVec 16
  flags : BitVec 16
  id : Word
  payload : List Byte
  deriving DecidableEq, Repr

/-- One block of the input section (R358): a source's words of a stroke, its status and its FRAMES count. -/
structure InputBlock where
  src : Nat
  status : BitVec 2
  frames : BitVec 8
  words : List Word
  deriving DecidableEq, Repr

/-- Treatment of a source as a FREEZE frame carries it (R358, R275, R269): the stage (0 none, 1 silence, 2 ramp) with its count,
the last sample delivered, and the positions of the run and mute gates of its port. -/
structure SrcTreat where
  src : Nat
  stage : BitVec 2
  count : Nat
  last : Word
  runP : Nat
  muteP : Nat
  deriving DecidableEq, Repr

/-- Payload of a resync-control frame (R367): a request, the reset command, or the cutover stroke. -/
inductive RsCtl where
  | request
  | resetCmd
  | cutover (c : BitVec 64)
  deriving DecidableEq, Repr

/-- State of a sink (R206): `fill` holds the strokes left, `fade` and `tap` the sample reached. -/
inductive SinkSt where
  | settled
  | fill (left : Nat)
  | fade (n : Nat)
  | tap (k : Nat)
  deriving DecidableEq, Repr

/-- A route change as a ROUTE call or a scene route names it (R51, R205). -/
structure RouteReq where
  src : Nat
  mode : Nat
  len : Nat
  deriving DecidableEq, Repr

/-- One sink (R206–R210, R220, R514). `src` is the live source, `chg` the change in progress, `held` a held ROUTE, `dly`
the delay in force, `dlyOld` and `dlyTgt` the ends of a tap move, `lost` that the sink delivers MASKED until a new ROUTE,
`pres` that its live source is present with its channels, `dom` the domain the source had when last present here, `noBr` that a
lack of channels has been logged, `line` the last samples into the delay line, newest first. `npres` and `ndom` say the same of
the coming source, and `nabs` that it was absent when its ROUTE was applied. -/
structure Sink where
  src : Nat := 0x1FFF
  st : SinkSt := .settled
  chg : Option RouteReq := none
  held : Option RouteReq := none
  dly : Nat := 0
  dlyOld : Nat := 0
  dlyTgt : Nat := 0
  lost : Bool := false
  pres : Bool := true
  dom : Option Nat := none
  noBr : Bool := false
  npres : Bool := true
  ndom : Option Nat := none
  nabs : Bool := false
  line : List Word := []
  deriving DecidableEq, Repr

/-- Domain steps of a synchronous bridge channel (R211–R213). -/
inductive Step where
  | up01 | up12 | dn10 | dn21
  deriving DecidableEq, Repr

/-- A synchronous bridge channel in use (R211): the source it serves, its step, whether it works on the output side, its
input history (newest first) and output of the stroke. -/
structure Bridge where
  src : Nat
  step : Step
  outSide : Bool
  hist : List Word
  outw : List Word
  status : Nat
  deriving DecidableEq, Repr

/-- An asynchronous channel (R217–R219): its configuration in force, RATIO, POS, the samples arrived (their count and the
last 512, newest first), output of the stroke, the underrun treatment, and `inN` the samples that came at the last CATCH. -/
structure Asrc where
  cfg : Word := 0#32
  run : Bool := false
  ratio : Word := 0#32
  pos : Nat := 0
  arrived : Nat := 0
  fifo : List Word := []
  outw : List Word := []
  status : Nat := 0
  unlock : Bool := false
  fill : Nat := 0
  lastw : Word := 0#32
  inN : Nat := 0
  deriving DecidableEq, Repr

/-- A scene's descriptor as applied (R230). -/
structure SceneDesc where
  strips : List Nat
  xpMask : BitVec 16
  xp : Bool
  xpAlign : Bool
  noFork : Bool
  routes : List (Nat × RouteReq)
  deriving DecidableEq, Repr

/-- A recall from its application at F on (R232, R240): the call's ID, the strokes T, F and H, the crossfade X, the pre-roll P′,
its descriptor and the strips it forks. -/
structure Recall where
  id : Word
  scene : Word
  t : Nat
  f : Nat
  hand : Nat
  xf : Nat
  peff : Nat
  short : Bool
  desc : SceneDesc
  forked : List Nat
  deriving DecidableEq, Repr

/-- The scene unit (R230–R249): the armed recall and those that crossfade; `view` the recall that R249 shows, with its counts;
`cuts` the strips that run CUT in the next stroke (R244); `align` the matrix swaps due at the head of a stroke's calls, in order. -/
structure SceneState where
  arm : Option Recall := none
  fades : List Recall := []
  view : Option Recall := none
  nFork : Nat := 0
  nDirect : Nat := 0
  cuts : List Nat := []
  align : List (BitVec 16 × Nat) := []
  deriving DecidableEq, Repr

/-- One item of the resync set (R364) as a RESYNC frame carries it: bytes of the memories it names, a pending call, CALL_RD, the
patch state (R224) by sink and by bridge channel, the live matrix arrays, the stage copy of the meter blocks (R167), and the recall
registers, SCENE_EVT among them, with the recalls they show. -/
inductive RsItem where
  | bytes (addr : Nat) (data : List Byte)
  | stage (addr : Nat) (data : List Byte)
  | call (c : CallRec) (acc : BitVec 64) (due : BitVec 64) (late armed : Bool)
  | callRd (rd : BitVec 17)
  | sink (i : Nat) (x : Sink)
  | bridge (ch : Nat) (b : Option Bridge)
  | asrc (a : Nat) (x : Asrc)
  | tsel (v : BitVec 16)
  | scene (x : SceneState)
  | sceneEvt (v : Word)
  deriving DecidableEq, Repr

/-- The level of DI at the rising and at the falling edge of BCLK in one period of it (R251). -/
structure DiBit where
  atRise : Bool
  atFall : Bool
  deriving DecidableEq, Repr

/-- What DI carries from an FS edge to the next (R251, R252): its levels in each BCLK period, and the number of these periods. -/
structure DiFrame where
  bits : List DiBit
  period : Nat
  deriving DecidableEq, Repr

/-- A loss of the Twin Link (R366, R412): the lanes that still hold block lock, and the TWIN master's burst in progress. -/
structure LinkLoss where
  lock : BitVec 4
  prog : Option Burst
  deriving DecidableEq, Repr

/-- What the decimator of a PDM stream has for the samples of a stroke (R280): a stream settled on `ones` ones in `bits` bits, or its exact
results in units of 2⁻¹⁶ of the last place. -/
inductive PdmIn where
  | steady (ones bits : Nat)
  | exact (xs : List Int)
  deriving DecidableEq, Repr

/-- The kinds of memory (R371, R387 KIND), in KIND order from 1. -/
inductive MemKind where
  | coreProg | coreData | crew | central | matrix | portBuf | geode
  deriving DecidableEq, Repr

/-- A register of a core with the value that a debug access writes (R69, R72, R89): D, ACC, A, M, B, L, the predicates, STAT, SCALE, BXD,
CWB, the count of an open loop level (LC0 outer, LC1 inner) and the bundle address. -/
inductive CoreReg where
  | d (i : BitVec 5) (v : Word)
  | acc (i : BitVec 2) (v : BitVec 80)
  | a (i : BitVec 4) (v : BitVec 24)
  | m (i : BitVec 4) (v : BitVec 24)
  | b (i : BitVec 3) (v : BitVec 24)
  | l (i : BitVec 3) (v : BitVec 24)
  | p (v : BitVec 8)
  | stat (v : Word)
  | scale (v : Word)
  | bxd (v : Word)
  | cwb (v : BitVec 3)
  | lc (inner : Bool) (v : Word)
  | pc (v : BitVec 12)
  deriving DecidableEq, Repr

/-- A debug access that lapses the guarantee (R34): halting a core, stepping it, or writing one data register of it. -/
inductive DebugAct where
  | halt (c : CoreId)
  | resume (c : CoreId)
  | step (c : CoreId)
  | write (c : CoreId) (r : CoreReg)
  deriving DecidableEq, Repr

/-- The three heartbeat paths (R341). -/
inductive TwinPath where
  | link | pins | beacon
  deriving DecidableEq, Repr

/-- Straps as their balls stand (R444). -/
structure Straps where
  seat : Bool
  twinEn : Bool
  bootSrc : BitVec 2
  hostif : Bool
  deriving DecidableEq, Repr

/-- What a release step meets outside the device (R440): the strap levels and the outcome of DRAM training (0: it succeeds,
otherwise the failing step of R394). -/
structure ReleaseIn where
  straps : Straps
  dramFail : BitVec 4
  deriving DecidableEq, Repr

/-- Where a boot fetch found its envelope (R445, R447): the bytes, or a failed fetch. -/
inductive Fetch where
  | bytes (b : List Byte)
  | failed
  deriving DecidableEq, Repr

/-- The commands: the rows of spec/opcode_table.json that have operands, in its order, then those that have none; each docstring names the
row and its rule. -/
inductive Instr where
  /-- CATCH (R44). -/
  | catchStroke (t : Time) (ratios : List (Nat × Word)) (pdm : List (Nat × PdmIn))
  /-- SLICE_DONE (R181). -/
  | sliceDone (sl : SliceId) (cycles : Nat)
  /-- OVERRUN_SINK_RECOVER (R48). -/
  | overrunSinkRecover (entry : Nat)
  /-- CALL_DB (R53). -/
  | callDb (m : Master) (v : Word)
  /-- CALL_ENABLE (R66). -/
  | callEnable (m : Master) (v : Word)
  /-- CVT_CONVERT (R64). -/
  | cvtConvert (m : Master) (v : Word)
  /-- NOP (R114). -/
  | nop (c : CoreId) (f : CSyl) (x : Word)
  /-- MOV (R117). -/
  | mov (c : CoreId) (f : CSyl) (x : Word)
  /-- ADD (R117). -/
  | add (c : CoreId) (f : CSyl) (x : Word)
  /-- ADDS (R117). -/
  | adds (c : CoreId) (f : CSyl) (x : Word)
  /-- SUB (R117). -/
  | sub (c : CoreId) (f : CSyl) (x : Word)
  /-- SUBS (R117). -/
  | subs (c : CoreId) (f : CSyl) (x : Word)
  /-- ABSS (R117). -/
  | abss (c : CoreId) (f : CSyl) (x : Word)
  /-- NEGS (R117). -/
  | negs (c : CoreId) (f : CSyl) (x : Word)
  /-- AND (R117). -/
  | and (c : CoreId) (f : CSyl) (x : Word)
  /-- OR (R117). -/
  | or (c : CoreId) (f : CSyl) (x : Word)
  /-- XOR (R117). -/
  | xor (c : CoreId) (f : CSyl) (x : Word)
  /-- ANDN (R117). -/
  | andn (c : CoreId) (f : CSyl) (x : Word)
  /-- SHL (R118). -/
  | shl (c : CoreId) (f : CSyl) (x : Word)
  /-- SHR (R118). -/
  | shr (c : CoreId) (f : CSyl) (x : Word)
  /-- SRA (R118). -/
  | sra (c : CoreId) (f : CSyl) (x : Word)
  /-- SHLS (R118). -/
  | shls (c : CoreId) (f : CSyl) (x : Word)
  /-- MIN (R117). -/
  | min (c : CoreId) (f : CSyl) (x : Word)
  /-- MAX (R117). -/
  | max (c : CoreId) (f : CSyl) (x : Word)
  /-- SEL (R120). -/
  | sel (c : CoreId) (f : CSyl) (x : Word)
  /-- CMP (R119). -/
  | cmp (c : CoreId) (f : CSyl) (x : Word)
  /-- CLS (R122). -/
  | cls (c : CoreId) (f : CSyl) (x : Word)
  /-- PLOG (R121). -/
  | plog (c : CoreId) (f : CSyl) (x : Word)
  /-- MPY (R123). -/
  | mpy (c : CoreId) (f : CSyl) (x : Word)
  /-- MPYI (R123). -/
  | mpyi (c : CoreId) (f : CSyl) (x : Word)
  /-- MPA (R123). -/
  | mpa (c : CoreId) (f : CSyl) (x : Word)
  /-- MAC (R123). -/
  | mac (c : CoreId) (f : CSyl) (x : Word)
  /-- MSU (R123). -/
  | msu (c : CoreId) (f : CSyl) (x : Word)
  /-- MACSU (R123). -/
  | macsu (c : CoreId) (f : CSyl) (x : Word)
  /-- MVA (R125). -/
  | mva (c : CoreId) (f : CSyl) (x : Word)
  /-- MVA4 (R125). -/
  | mva4 (c : CoreId) (f : CSyl) (x : Word)
  /-- CLRA (R126). -/
  | clra (c : CoreId) (f : CSyl) (x : Word)
  /-- LDA (R126). -/
  | lda (c : CoreId) (f : CSyl) (x : Word)
  /-- ACMB (R126). -/
  | acmb (c : CoreId) (f : CSyl) (x : Word)
  /-- SHA (R126). -/
  | sha (c : CoreId) (f : CSyl) (x : Word)
  /-- MVAR (R126). -/
  | mvar (c : CoreId) (f : CSyl) (x : Word)
  /-- SETAR (R126). -/
  | setar (c : CoreId) (f : CSyl) (x : Word)
  /-- BEXP (R127). -/
  | bexp (c : CoreId) (f : CSyl) (x : Word)
  /-- ZXARM (R129). -/
  | zxarm (c : CoreId) (f : CSyl) (x : Word)
  /-- ZXSTEP (R130). -/
  | zxstep (c : CoreId) (f : CSyl) (x : Word)
  /-- CSRR (R131). -/
  | csrr (c : CoreId) (f : CSyl) (x : Word)
  /-- CSRW (R132). -/
  | csrw (c : CoreId) (f : CSyl) (x : Word)
  /-- BR (R133). -/
  | br (c : CoreId) (f : CSyl) (x : Word)
  /-- JMP (R133). -/
  | jmp (c : CoreId) (f : CSyl) (x : Word)
  /-- CALL (R133). -/
  | call (c : CoreId) (f : CSyl) (x : Word)
  /-- RET (R133). -/
  | ret (c : CoreId) (f : CSyl) (x : Word)
  /-- LOOP (R134). -/
  | loop (c : CoreId) (f : CSyl) (x : Word)
  /-- BARRIER (R105). -/
  | barrier (c : CoreId) (f : CSyl) (x : Word)
  /-- BARRIER_RELEASE (R105). -/
  | barrierRelease (crew : CrewId) (k : Fin 8)
  /-- WAITSTROKE (R104). -/
  | waitstroke (c : CoreId) (f : CSyl) (x : Word)
  /-- CORE_SLEEP (R104). -/
  | coreSleep (c : CoreId) (cycles : Nat)
  /-- TNOP (R114). -/
  | tnop (c : CoreId) (f : TSyl) (w : Word)
  /-- LD_P (R135). -/
  | ldP (c : CoreId) (f : TSyl) (w : Word)
  /-- LD_O (R135). -/
  | ldO (c : CoreId) (f : TSyl) (w : Word)
  /-- LD_PO (R135). -/
  | ldPo (c : CoreId) (f : TSyl) (w : Word)
  /-- LD2_P (R135). -/
  | ld2P (c : CoreId) (f : TSyl) (w : Word)
  /-- LD2_O (R135). -/
  | ld2O (c : CoreId) (f : TSyl) (w : Word)
  /-- LD2_PO (R135). -/
  | ld2Po (c : CoreId) (f : TSyl) (w : Word)
  /-- LD4_P (R135). -/
  | ld4P (c : CoreId) (f : TSyl) (w : Word)
  /-- LD4_O (R135). -/
  | ld4O (c : CoreId) (f : TSyl) (w : Word)
  /-- LD4_PO (R135). -/
  | ld4Po (c : CoreId) (f : TSyl) (w : Word)
  /-- ST_P (R135). -/
  | stP (c : CoreId) (f : TSyl) (w : Word)
  /-- ST_O (R135). -/
  | stO (c : CoreId) (f : TSyl) (w : Word)
  /-- ST_PO (R135). -/
  | stPo (c : CoreId) (f : TSyl) (w : Word)
  /-- ST2_P (R135). -/
  | st2P (c : CoreId) (f : TSyl) (w : Word)
  /-- ST2_O (R135). -/
  | st2O (c : CoreId) (f : TSyl) (w : Word)
  /-- ST2_PO (R135). -/
  | st2Po (c : CoreId) (f : TSyl) (w : Word)
  /-- ST4_P (R135). -/
  | st4P (c : CoreId) (f : TSyl) (w : Word)
  /-- ST4_O (R135). -/
  | st4O (c : CoreId) (f : TSyl) (w : Word)
  /-- ST4_PO (R135). -/
  | st4Po (c : CoreId) (f : TSyl) (w : Word)
  /-- AMODM (R138). -/
  | amodm (c : CoreId) (f : TSyl) (w : Word)
  /-- AMODI (R138). -/
  | amodi (c : CoreId) (f : TSyl) (w : Word)
  /-- SETR (R138). -/
  | setr (c : CoreId) (f : TSyl) (w : Word)
  /-- MVR (R138). -/
  | mvr (c : CoreId) (f : TSyl) (w : Word)
  /-- MRV (R138). -/
  | mrv (c : CoreId) (f : TSyl) (w : Word)
  /-- MBPUT (R139). -/
  | mbput (c : CoreId) (f : TSyl) (w : Word)
  /-- MBGET (R139). -/
  | mbget (c : CoreId) (f : TSyl) (w : Word)
  /-- MBCNT (R139). -/
  | mbcnt (c : CoreId) (f : TSyl) (w : Word)
  /-- MAILBOX_PUT_RELEASE (R106). -/
  | mailboxPutRelease (c : CoreId)
  /-- MAILBOX_GET_RELEASE (R106). -/
  | mailboxGetRelease (c : CoreId)
  /-- CREW_BANK_GRANT (R519). -/
  | crewBankGrant (crew : CrewId) (bank : Fin 16) (waiting : BitVec 9)
  /-- MOVER_BANK_TAKE (R100). -/
  | moverBankTake (c : CoreId) (bank : Fin 4) (waited : Nat) (coreWants : Bool)
  /-- STORE_QUEUE_DRAIN (R99). -/
  | storeQueueDrain (c : CoreId) (window : Bool) (collides : BitVec 4)
  /-- ROUTE_FILL_DONE (R207). -/
  | routeFillDone (sink : Fin 8192)
  /-- ROUTE_FADE_DONE (R208). -/
  | routeFadeDone (sink : Fin 8192)
  /-- ROUTE_TAPMOVE_DONE (R209). -/
  | routeTapmoveDone (sink : Fin 8192)
  /-- PORT_RST (R282). -/
  | portRst (m : Master) (hi : Bool) (v : Word)
  /-- PORT_RESET_RELEASE (R267). -/
  | portResetRelease (u : Fin 52)
  /-- GRP_GO (R268). -/
  | grpGo (m : Master) (v : Word)
  /-- GRP_STOP (R268). -/
  | grpStop (m : Master) (v : Word)
  /-- RUN_RAMP_END (R268). -/
  | runRampEnd (p : Fin 48)
  /-- SLIP_SILENCE_END (R275). -/
  | slipSilenceEnd (p : Fin 48)
  /-- SLIP_RAMP_END (R275). -/
  | slipRampEnd (p : Fin 48)
  /-- PORT_STOPPED (R266). -/
  | portStopped (p : Fin 48)
  /-- PORT_RATE_PUBLISH (R264). -/
  | portRatePublish (p : Fin 48) (windowEnd : Time)
  /-- PDM_EN (R281). -/
  | pdmEn (m : Master) (v : Word)
  /-- PDM_SETTLE_END (R281). -/
  | pdmSettleEnd (k : Fin 32)
  /-- MEDIA_PACKET (R302). -/
  | mediaPacket (pk : MediaPacket)
  /-- PTP_MESSAGE (R291). -/
  | ptpMessage (i : Fin 2) (msg : PtpMessage)
  /-- PTP_LOST (R292). -/
  | ptpLost (i : Fin 2)
  /-- PTP_CFG (R292). -/
  | ptpCfg (m : Master) (v : Word)
  /-- ARP_REQUEST (R285). -/
  | arpRequest (fr : RxFrame)
  /-- IGMP_QUERY (R285). -/
  | igmpQuery (fr : RxFrame)
  /-- ICMP_ECHO (R285). -/
  | icmpEcho (fr : RxFrame)
  /-- HOST_QUEUE_RX (R286). -/
  | hostQueueRx (fr : RxFrame)
  /-- NET_HQ_TXDB (R286). -/
  | netHqTxdb (m : Master) (v : Word)
  /-- NET_CFG (R313). -/
  | netCfg (m : Master) (p : Fin 2) (v : Word) (prog : Option Burst)
  /-- NET_LINK_DOWN (R313). -/
  | netLinkDown (p : Fin 2)
  /-- NET_LINK_UP (R313). -/
  | netLinkUp (p : Fin 2)
  /-- TIME_FORCE (R296). -/
  | timeForce (m : Master)
  /-- TIME_STEP (R296). -/
  | timeStep (m : Master)
  /-- TIME_LATCH (R288). -/
  | timeLatch (m : Master) (t : Time)
  /-- REF_WINDOW_END (R320). -/
  | refWindowEnd (meas : Vector RefMeas 4) (phaseErr : Int) (freqErr : Int)
  /-- DPLL_LOST_LOCK (R327). -/
  | dpllLostLock (phaseErr : Int)
  /-- REF_LOS (R320). -/
  | refLos (r : Fin 4)
  /-- REFQL_WORD (R319). -/
  | refqlWord (r : Fin 2) (word : BitVec 16) (stopOk : Bool)
  /-- QL_LOST (R319). -/
  | qlLost (r : Fin 2)
  /-- REF_CFG (R320). -/
  | refCfg (m : Master) (v : Word)
  /-- REF_CTRL (R324). -/
  | refCtrl (m : Master) (v : Word)
  /-- MARKER (R341). -/
  | marker (h : TwinHdr) (imageId : BitVec 64)
  /-- LEASE_PIN_WORD (R342). -/
  | leasePinWord (bits : BitVec 8) (stopOk : Bool)
  /-- BEACON (R342). -/
  | beacon (b : Beacon)
  /-- OFFER (R350). -/
  | offer (h : TwinHdr) (target : BitVec 64)
  /-- HELLO (R367). -/
  | hello (h : TwinHdr) (imageId : BitVec 64) (nonce : List Byte)
  /-- INPUT (R358). -/
  | input (h : TwinHdr) (blk : InputBlock)
  /-- FREEZE (R358). -/
  | freeze (h : TwinHdr) (blocks : List (Nat × BitVec 2 × BitVec 8)) (ratios : List (Nat × Word)) (treats : List SrcTreat) (sectionOk : Bool)
  /-- CALLS (R358). -/
  | calls (h : TwinHdr) (cs : List (CallRec × BitVec 64)) (rd : BitVec 17)
  /-- CARRY (R358). -/
  | carry (h : TwinHdr) (strip : Nat) (offset : Nat) (words : List Word)
  /-- CLOSE (R360). -/
  | close (h : TwinHdr) (digest : BitVec 64) (sectionOk : Bool)
  /-- RSCTL (R364). -/
  | rsctl (h : TwinHdr) (ctl : RsCtl)
  /-- RESYNC (R364). -/
  | resync (h : TwinHdr) (item : RsItem)
  /-- RESYNC_REQUEST (R364). -/
  | resyncRequest (m : Master)
  /-- TWIN_LINK_DOWN (R366). -/
  | twinLinkDown (l : LinkLoss)
  /-- TWIN_PATH_LOST (R356). -/
  | twinPathLost (p : TwinPath)
  /-- LINK_RESTART (R369). -/
  | linkRestart (m : Master)
  /-- DIAG_CLR (R348). -/
  | diagClr (m : Master)
  /-- FABRIC_BURST (R405). -/
  | fabricBurst (b : Burst)
  /-- COLLIDED_RETRY (R374). -/
  | collidedRetry (stillCollides : Bool)
  /-- FAB_TIMEOUT (R411). -/
  | fabTimeout (b : Burst)
  /-- FAB_LOCK_TMO (R411). -/
  | fabLockTmo (tgt : Fin 3)
  /-- HOST_LOCK (R487). -/
  | hostLock (m : Master) (v : Word)
  /-- ASSAY_PASS (R379). -/
  | assayPass (e : Fin 8)
  /-- ASSAY_ROW (R378). -/
  | assayRow (e : Fin 8) (kind : MemKind) (inst : Nat) (bank : Nat) (row : Nat)
  /-- ASSAY_ROW_DONE (R378). -/
  | assayRowDone (e : Fin 8) (faulty : Bool) (passEnds : Bool) (ms : Nat)
  /-- MEM_CLEAR_DONE (R382). -/
  | memClearDone (k : MemKind)
  /-- STORE_SETTINGS (R386). -/
  | storeSettings (m : Master)
  /-- STORE_BOOT (R385). -/
  | storeBoot (m : Master)
  /-- STORE_REPAIR (R387). -/
  | storeRepair (m : Master)
  /-- STORE_LOG (R385). -/
  | storeLog (m : Master)
  /-- STORE_TRIM (R385). -/
  | storeTrim (m : Master)
  /-- INSTALL (R391). -/
  | install (m : Master) (slot : BitVec 2)
  /-- CLEAR (R391). -/
  | clear (m : Master) (slot : BitVec 2)
  /-- PROVISION_ROOT (R391). -/
  | provisionRoot (m : Master)
  /-- GEODE_LCREQ (R392). -/
  | geodeLcreq (m : Master) (v : Word)
  /-- DRAM_DRIFT_TRACK (R394). -/
  | dramDriftTrack (failStep : BitVec 4)
  /-- DMA_START (R417). -/
  | dmaStart (m : Master)
  /-- DMA_ABORT (R419). -/
  | dmaAbort (m : Master)
  /-- DMA_ABORTED (R419). -/
  | dmaAborted (ch : Fin 16) (issued : Nat)
  /-- DMA_DESC_FETCHED (R416). -/
  | dmaDescFetched (ch : Fin 16)
  /-- DMA_DESC_DONE (R417). -/
  | dmaDescDone (ch : Fin 16)
  /-- DMA_HALT (R420). -/
  | dmaHalt (ch : Fin 16) (addr : BitVec 36) (resp : BitVec 2) (lastWrite : Bool) (issued : Vector Nat 16)
  /-- RESET_RELEASE (R437). -/
  | resetRelease (inp : ReleaseIn)
  /-- FIRMWARE_LOAD (R448). -/
  | firmwareLoad (src : Fetch)
  /-- ENGINE_IMAGE_LOAD (R171). -/
  | engineImageLoad (src : Fetch)
  /-- ENGINE_RELEASE (R42). -/
  | engineRelease (t : Time)
  /-- RST_BOOT_GO (R449). -/
  | rstBootGo (m : Master) (v : Word)
  /-- RESET_N (R439). -/
  | resetN (ns : Nat) (low : Bool)
  /-- TAMPER_N (R439). -/
  | tamperN (ns : Nat) (low : Bool)
  /-- RST_CTRL (R436). -/
  | rstCtrl (m : Master) (v : Word)
  /-- RST_ENG (R436). -/
  | rstEng (m : Master) (v : Word) (prog : Option Burst)
  /-- TRST_N (R412). -/
  | trstN (prog : Option Burst)
  /-- DEBUG_INTRUSION (R34). -/
  | debugIntrusion (act : DebugAct)
  /-- RST_WDT_CFG (R442). -/
  | rstWdtCfg (m : Master) (v : Word)
  /-- RST_WDT_KICK (R442). -/
  | rstWdtKick (m : Master) (v : Word)
  /-- SYS_BOOT_OK (R452). -/
  | sysBootOk (m : Master) (v : Word) (msSinceRelease : Nat)
  /-- AUX_OVERLOAD (R429). -/
  | auxOverload (is18 : Bool)
  /-- PWR_AUX (R429). -/
  | pwrAux (m : Master) (v : Word)
  /-- VIO_LOW (R493). -/
  | vioLow (bank : Fin 6)
  /-- VIO_RESTORE (R493). -/
  | vioRestore (bank : Fin 6) (cls : BitVec 2)
  /-- REQ_RUN (R432). -/
  | reqRun (m : Master)
  /-- REQ_RETAIN (R432). -/
  | reqRetain (m : Master)
  /-- REQ_DORMANT (R432). -/
  | reqDormant (m : Master)
  /-- REQ_RECOVERY (R432). -/
  | reqRecovery (m : Master)
  /-- REQ_SERVICE (R432). -/
  | reqService (m : Master)
  /-- COLLECT_REPORT (R461). -/
  | collectReport (r : Report)
  /-- COALESCE_WINDOW (R462). -/
  | coalesceWindow (index : Nat)
  /-- ERR_POP (R464). -/
  | errPop (m : Master) (v : Word)
  /-- CLR_LOST (R464). -/
  | clrLost (m : Master) (v : Word)
  /-- INJ_ARM (R465). -/
  | injArm (m : Master) (v : Word)
  /-- INJ_DISARM (R465). -/
  | injDisarm (m : Master) (v : Word)
  /-- ASSAY_NOW (R468). -/
  | assayNow (m : Master)
  /-- SERDES_ADAPT (R468). -/
  | serdesAdapt (m : Master)
  /-- DRAM_TRACK (R468). -/
  | dramTrack (m : Master)
  /-- MEM_BIST (R468). -/
  | memBist (m : Master)
  /-- CORE_BIST (R468). -/
  | coreBist (m : Master)
  /-- SLICE_TEST (R468). -/
  | sliceTest (m : Master)
  /-- SAP_LOOP (R468). -/
  | sapLoop (m : Master)
  /-- SERDES_LOOP (R468). -/
  | serdesLoop (m : Master)
  /-- DRAM_TRAIN (R468). -/
  | dramTrain (m : Master)
  /-- TSENSE_CAL (R468). -/
  | tsenseCal (m : Master)
  /-- TEST_COMPLETE (R468). -/
  | testComplete (pass : Bool) (calFail : Bool) (failures : Word) (first : Word) (us : Word) (rows : List (Nat × Nat))
  /-- RESULT_SNAPSHOT_READ (R471). -/
  | resultSnapshotRead (m : Master) (addr : Nat)
  /-- XP_SEL (R197). -/
  | xpSel (m : Master) (v : Word)
  /-- XP_SHD (R192). -/
  | xpShd (m : Master) (v : Word)
  /-- SINK_SEL (R227). -/
  | sinkSel (m : Master) (v : Word)
  /-- LAT_SEL (R228). -/
  | latSel (m : Master) (v : Word)
  /-- CORE_SEL (R488). -/
  | coreSel (m : Master) (v : Word)
  /-- PCIE_MEMORY_WRITE (R477). -/
  | pcieMemoryWrite (bar2 : Bool) (off : Nat) (bytes : List (Option Byte))
  /-- PCIE_MEMORY_READ (R477). -/
  | pcieMemoryRead (bar2 : Bool) (off : Nat) (len : Nat)
  /-- PCIE_CONFIG_REQUEST (R475). -/
  | pcieConfigRequest (off : Nat) (power : Option (BitVec 2))
  /-- PCIE_LINK_DOWN (R475). -/
  | pcieLinkDown (prog : Option Burst)
  /-- PCIE_HOT_RESET (R475). -/
  | pcieHotReset (prog : Option Burst)
  /-- FUNCTION_LEVEL_RESET (R475). -/
  | functionLevelReset (prog : Option Burst)
  /-- SPI_WRITE (R478). -/
  | spiWrite (addr : BitVec 36) (bytes : List Byte)
  /-- SPI_READ (R478). -/
  | spiRead (addr : BitVec 36) (len : Nat)
  /-- QSPI_CMD (R479). -/
  | qspiCmd (m : Master) (v : Word)
  /-- QSPI_DONE (R483). -/
  | qspiDone (data : List Byte)
  /-- SYS_IRQ_ACK (R484). -/
  | sysIrqAck (m : Master) (v : Word)
  /-- MSIX_UNMASK (R484). -/
  | msixUnmask (vec : Fin 64)
  /-- REGISTER_WRITE (R5). -/
  | registerWrite (m : Master) (off : Nat) (v : Word)
  /-- FS_EDGE (R256). -/
  | fsEdge (p : Fin 48) (t : Time) (rising : Bool) (f : DiFrame)
  /-- REF_FIRST_EDGE (R320). -/
  | refFirstEdge (r : Fin 2)
  /-- PWR_MON_PUBLISH (R454). -/
  | pwrMonPublish (mv : Word) (tj : Word) (mw : Word)
  /-- PCIE_LINK_UP (R475). -/
  | pcieLinkUp (speed : BitVec 4) (width : BitVec 3)
  /-- FINISH (R47). -/
  | finish
  /-- CALL_ACCEPT (R53). -/
  | callAccept
  /-- SET_PARAM (R150). -/
  | setParam
  /-- SWAP_BANK (R151). -/
  | swapBank
  /-- ROUTE (R207). -/
  | route
  /-- XP_GAIN (R189). -/
  | xpGain
  /-- XP_SWAP (R190). -/
  | xpSwap
  /-- SCENE_ARM (R240). -/
  | sceneArm
  /-- SCENE_RECALL (R242). -/
  | sceneRecall
  /-- SCENE_XP_ALIGN_SWAP (R242). -/
  | sceneXpAlignSwap
  /-- SCENE_DONE (R240). -/
  | sceneDone
  /-- SCENE_CANCEL (R245). -/
  | sceneCancel
  /-- MUTE (R157). -/
  | mute
  /-- PORT_MASK (R271). -/
  | portMask
  /-- PORT_RAMP (R270). -/
  | portRamp
  /-- MARK (R62). -/
  | mark
  /-- TWIN_HANDOVER (R351). -/
  | twinHandover
  /-- PORT_GROUP_ACTION (R268). -/
  | portGroupAction
  /-- HQ_TX_SEND (R286). -/
  | hqTxSend
  /-- STR_CNT_PUBLISH (R313). -/
  | strCntPublish
  /-- HOLD_SLEW_DONE (R294). -/
  | holdSlewDone
  /-- FREQ_SLEW_DONE (R325). -/
  | freqSlewDone
  /-- BUILDOUT_DONE (R325). -/
  | buildoutDone
  /-- LO_FAULT (R330). -/
  | loFault
  /-- YIELD_COMPLETE (R346). -/
  | yieldComplete
  /-- LEASE_EXPIRED (R343). -/
  | leaseExpired
  /-- ACQUIRE_COX (R353). -/
  | acquireCox
  /-- HANDOVER_RELEASE (R349). -/
  | handoverRelease
  /-- RESYNC_CUTOVER (R364). -/
  | resyncCutover
  /-- TWIN_LINK_UP (R366). -/
  | twinLinkUp
  /-- SLATE_STORE_DONE (R388). -/
  | slateStoreDone
  /-- VGLITCH (R390). -/
  | vglitch
  /-- TGLITCH (R390). -/
  | tglitch
  /-- VSYS_POWER_ON (R427). -/
  | vsysPowerOn
  /-- BROWNOUT (R427). -/
  | brownout
  /-- BOOT_HOST_TIMEOUT (R449). -/
  | bootHostTimeout
  /-- WAKE (R434). -/
  | wake
  /-- DEBUG_RESET (R436). -/
  | debugReset
  /-- WDT_EXPIRY (R442). -/
  | wdtExpiry
  /-- VSYS_LOW (R428). -/
  | vsysLow
  /-- VSYS_HIGH (R428). -/
  | vsysHigh
  /-- RAIL_FAULT (R428). -/
  | railFault
  /-- THERM_WARN (R428). -/
  | thermWarn
  /-- THERM_FAULT (R428). -/
  | thermFault
  /-- THERM_TRIP (R428). -/
  | thermTrip
  /-- RETAIN_ENTER (R434). -/
  | retainEnter
  /-- SPI_STATUS (R478). -/
  | spiStatus
  /-- XIN_RETURN (R330). -/
  | xinReturn
  deriving DecidableEq, Repr

end Sys2Proof
end

