-- ==== Sys2Proof/Config.lean ====
section
/-! DEFINITION. What the spec leaves open: free values, each an opaque constant with no body, so that no proof can use a
value of it. Each is named in the assumption log. -/

namespace Sys2Proof.Config

/-- SHA-384 of a byte string (R448 uses it and gives no arithmetic for it); log entry 4. -/
opaque sha384 : List Byte → List Byte

/-- Whether an ECDSA P-384 signature (key, digest, signature bytes) verifies (R448); log entry 4. -/
opaque ecdsaP384 : List Byte → List Byte → List Byte → Bool

/-- The output of a DEFLATE stream (RFC 1951, R447), none where it does not decompress; log entry 4. -/
opaque inflate : List Byte → Option (List Byte)

/-- Words drawn from the device's entropy source (R389 identity key, R368 session nonces), by the count of draws; log entry 3. -/
opaque entropy : Nat → Word

/-- A byte that the spec calls undetermined: part of a write burst that had no PASS response when a DMA channel stopped
(R418, R421): true where the byte was written, by the count of draws; log entry 3. -/
opaque dmaLanded : Nat → Bool

/-- The value of a core register between a fault and the next CATCH (R108: undefined and unobservable), by draw; log entry 3. -/
opaque faultedReg : Nat → Word

/-- Whether a RESET_N or TAMPER_N low pulse of 100 ns to 1 µs is accepted (R439: accepted whole or rejected whole), by draw;
log entry 3. -/
opaque pulseAccepted : Nat → Bool

/-- System time advance of the internal oscillator while XIN is at fault (R330: no stated accuracy), signed 2⁻¹⁶ ns, by draw;
log entry 3. -/
opaque internalDrift : Nat → Int

/-- The payload bytes of a reply frame (ARP, IGMP, ICMP of R285) that the spec names by protocol only, from the request's
bytes; log entry 5. -/
opaque replyFrame : Nat → List Byte → List Byte

/-- Ciphertext and tag of AES-256-GCM from the key, the IV, the additional authenticated data and the text (R342, R368); log entry 4. -/
opaque gcmText : List Byte → List Byte → List Byte → List Byte → List Byte
opaque gcmTag : List Byte → List Byte → List Byte → List Byte → List Byte

/-- Payload of a Twin Link frame of types 0x02–0x06 and 0x09 from its type and the numbers it carries (R367: the layouts are internal to
the device); log entry 120. -/
opaque linkPayload : Nat → List Nat → List Byte

/-- Payload of a RESYNC frame from the item it carries (R367: the layout is internal to the device); log entry 120. -/
opaque resyncPayload : RsItem → List Byte

/-- Bytes of the resync set that the link carries in a stroke beyond what R365 promises, by draw; log entry 121. -/
opaque resyncExtra : Nat → Nat

/-- Result of a CVT conversion from strokes to time before any rate family is in force (R64 divides by SPS, which is then 0), by
word; log entry 3. -/
opaque cvtNoFamily : Nat → Word

/-- How many rows of a STORE had landed when a reset cut it short (R388), by draw; log entry 3. -/
opaque storeCut : Nat → Nat

/-- A field of the option-and-trim row by the offset of the register that takes it (R446: the row's layout is not given), from
the row's bytes; log entry 3. -/
opaque trimField : List Byte → Nat → Word

/-- The class that PIN_VIO shows for a bank that has fallen below its threshold (R493, R512), by draw; log entry 3. -/
opaque vioLowClass : Nat → Nat

/-- Whether a SYS_BOOT_OK write that comes over the fabric lies within 10 s of the release (R452): the model keeps no clock between
commands; by draw; log entry 3. -/
opaque bootOkInTime : Nat → Bool

/-- Whether a write burst that was answered EXPIRED had been performed by its failing target (R411), by draw; log entry 3. -/
opaque expiredLanded : Nat → Bool

/-- The public key of an ECDSA P-384 private key (R389); log entry 4. -/
opaque p384Public : List Byte → List Byte

/-- The bytes that the retain copy of the sink table takes in DRAM (R434: at most 64 KB, no layout given), by draw; log entry 3. -/
opaque retainTable : Nat → List Byte

/-- How many terms of its 36,864 a slice had evaluated when FINISH stopped it (R181, R185: the model keeps no clock within a stroke), by
draw; log entry 3. -/
opaque sliceTerms : Nat → Nat

/-- The word that a core's load of an address refused to it returns (R145: the access is answered REFUSED, no value is stated), by draw;
log entry 3. -/
opaque refusedLoad : Nat → Word

/-- How many words a faulting core's younger bundles had taken from its mailbox (R139: such words are lost), by draw; log entry 3. -/
opaque mailLost : Nat → Nat

end Sys2Proof.Config
end

