-- ==== Sys2Proof/Machine/Bits.lean ====
section
/-! DEFINITION. Bit fields, sparse tables, byte memory and the check codes that every chapter of the spec shares. -/

namespace Sys2Proof.Machine

/-- The field [hi:lo] of a number. -/
def bitsOf (w hi lo : Nat) : Nat := w / 2 ^ lo % 2 ^ (hi + 1 - lo)

/-- The field [hi:lo] of a 32-bit word. -/
def fld (w : Word) (hi lo : Nat) : Nat := bitsOf w.toNat hi lo

/-- Bit `i` of a word. -/
def bitAt (w : Word) (i : Nat) : Bool := w.getLsbD i

/-- A word from a number, its low 32 bits. -/
def wOf (n : Nat) : Word := BitVec.ofNat 32 n

/-- A word from an integer, two's complement. -/
def wInt (i : Int) : Word := BitVec.ofInt 32 i

/-- The word with bit `i` set where `b` holds. -/
def flag (b : Bool) (i : Nat) : Word := if b then wOf (2 ^ i) else 0#32

/-- The word with `n` placed at bit `lo`. -/
def place (n lo : Nat) : Word := wOf (n * 2 ^ lo)

/-- 64-bit number from its high and low words. -/
def cat64 (hi lo : Word) : BitVec 64 := hi ++ lo

/-- Low and high words of 64 bits. -/
def lo64 (x : BitVec 64) : Word := x.extractLsb' 0 32
def hi64 (x : BitVec 64) : Word := x.extractLsb' 32 32

/-- Increment that stops at `m` (every counter the spec calls saturating). -/
def satInc (m n : Nat) : Nat := if n < m then n + 1 else m

/-- Largest 32-bit count. -/
def max32 : Nat := 4294967295

/-- Signed 32-bit saturation of an exact result, with whether it saturated. -/
def sat32 (x : Int) : Word × Bool :=
  if x > 2147483647 then (0x7FFFFFFF#32, true)
  else if x < -2147483648 then (0x80000000#32, true)
  else (wInt x, false)

/-- Floor of x / 2ⁿ: truncation toward minus infinity (00, "Mechanisms" of R32). -/
def sra (x : Int) (n : Nat) : Int := x / (2 ^ n : Int)

/-- Sparse table: entries by rising key; a key not listed holds the table's default. -/
abbrev Tab (α : Type) := List (Nat × α)

/-- Entry of a sparse table. -/
def tget {α : Type} (d : α) : Tab α → Nat → α
  | [], _ => d
  | (k, v) :: t, i => if i = k then v else if i < k then d else tget d t i

/-- Sets an entry; an entry equal to the default is not listed, so equal tables are equal lists. -/
def tset {α : Type} [DecidableEq α] (d : α) : Tab α → Nat → α → Tab α
  | [], i, v => if v = d then [] else [(i, v)]
  | (k, w) :: t, i, v =>
    if i < k then (if v = d then (k, w) :: t else (i, v) :: (k, w) :: t)
    else if i = k then (if v = d then t else (k, v) :: t)
    else (k, w) :: tset d t i v

/-- Every listed key is above `n`, the keys rise and no entry equals the default. -/
def tabFrom {α : Type} [DecidableEq α] (d : α) : Nat → Tab α → Bool
  | _, [] => true
  | n, (k, v) :: t => decide (n ≤ k) && !decide (v = d) && tabFrom d (k + 1) t

/-- The canonical form of a sparse table. -/
def tabWf {α : Type} [DecidableEq α] (d : α) (t : Tab α) : Bool := tabFrom d 0 t

/-- The table without the keys from `lo` up to `lo + n`. -/
def tclear {α : Type} (t : Tab α) (lo n : Nat) : Tab α := t.filter fun e => e.1 < lo || lo + n ≤ e.1

/-- Byte `a` of a memory; an address not listed reads 0 (log entry 1). -/
def memGet (m : List Host.Cell) (a : Nat) : Byte := tget 0#8 m a

/-- Writes byte `a`. -/
def memPut (m : List Host.Cell) (a : Nat) (b : Byte) : List Host.Cell := tset 0#8 m a b

/-- Writes a run of bytes from `a`. -/
def memPutBytes (m : List Host.Cell) (a : Nat) : List Byte → List Host.Cell
  | [] => m
  | b :: bs => memPutBytes (memPut m a b) (a + 1) bs

/-- Reads `n` bytes from `a`. -/
def memGetBytes (m : List Host.Cell) (a n : Nat) : List Byte := (List.range n).map fun i => memGet m (a + i)

/-- The bytes of a word, little-endian. -/
def leBytes (w : Word) : List Byte :=
  [w.extractLsb' 0 8, w.extractLsb' 8 8, w.extractLsb' 16 8, w.extractLsb' 24 8]

/-- The number whose little-endian bytes are given. -/
def leNat : List Byte → Nat
  | [] => 0
  | b :: bs => b.toNat + 256 * leNat bs

/-- The 32-bit word at byte address `a`, little-endian (R480 chapter: every memory is little-endian). -/
def memWord (m : List Host.Cell) (a : Nat) : Word :=
  memGet m (a + 3) ++ memGet m (a + 2) ++ memGet m (a + 1) ++ memGet m a

/-- Writes the 32-bit word at byte address `a`. -/
def memPutWord (m : List Host.Cell) (a : Nat) (w : Word) : List Host.Cell :=
  memPut (memPut (memPut (memPut m a (w.extractLsb' 0 8)) (a + 1) (w.extractLsb' 8 8))
    (a + 2) (w.extractLsb' 16 8)) (a + 3) (w.extractLsb' 24 8)

/-- Writes consecutive words from `a`. -/
def memPutWords (m : List Host.Cell) (a : Nat) : List Word → List Host.Cell
  | [] => m
  | w :: ws => memPutWords (memPutWord m a w) (a + 4) ws

/-- Reads `n` consecutive words from `a`. -/
def memWords (m : List Host.Cell) (a n : Nat) : List Word := (List.range n).map fun i => memWord m (a + 4 * i)

/-- The `n` bytes of a number, little-endian. -/
def natBytes : Nat → Nat → List Byte
  | 0, _ => []
  | n + 1, x => BitVec.ofNat 8 x :: natBytes n (x / 256)

/-- One bit step of a reflected CRC. -/
def crcStep (poly c : Nat) : Nat := if c % 2 = 1 then (c / 2) ^^^ poly else c / 2

/-- One byte of a reflected CRC. -/
def crcByte (poly c : Nat) (b : Byte) : Nat :=
  let x := c ^^^ b.toNat
  crcStep poly (crcStep poly (crcStep poly (crcStep poly
    (crcStep poly (crcStep poly (crcStep poly (crcStep poly x)))))))

/-- CRC-32 of IEEE 802.3 (polynomial 0x04C1_1DB7, reflected, initial and final inversion). -/
def crc32 (bs : List Byte) : Word := wOf (bs.foldl (crcByte 0xEDB88320) 0xFFFFFFFF ^^^ 0xFFFFFFFF)

/-- Splits a list into runs of `n`, given enough fuel. -/
def chunksAux {α : Type} (n : Nat) : Nat → List α → List (List α)
  | 0, _ => []
  | _, [] => []
  | f + 1, x :: xs => (x :: xs).take n :: chunksAux n f ((x :: xs).drop n)

def chunks {α : Type} (n : Nat) (l : List α) : List (List α) := chunksAux n l.length l

/-- Vector of fixed units: every unit changed by `f`, which also sees the unit's number. -/
def vmap {α : Type} {n : Nat} (f : Nat → α → α) (v : Vector α n) : Vector α n :=
  ⟨⟨(v.toList.zipIdx).map fun p => f p.2 p.1⟩, by simp⟩

/-- Unit `i` of a vector, `d` outside it. -/
def vget {α : Type} {n : Nat} (d : α) (v : Vector α n) (i : Nat) : α := if h : i < n then v[i] else d

/-- Vector with unit `i` replaced; unchanged where there is no unit `i`. -/
def vput {α : Type} {n : Nat} (v : Vector α n) (i : Nat) (x : α) : Vector α n :=
  if h : i < n then v.set i x else v

end Sys2Proof.Machine
end

