-- ==== Sys2Proof/Machine/Flags.lean ====
section
/-! DEFINITION. Saturation and the flags of an Apion core (03, 04): SAT and AOV bits, the accumulator move, compare
conditions and predicate logic. -/

namespace Sys2Proof.Machine

/-- A 32-bit result with the SAT bits it sets (R79). -/
structure Sat where
  val : Word
  sat : BitVec 4
  deriving DecidableEq, Repr

/-- The SAT or AOV bit of lane `n`. -/
def laneBit (n : Nat) (b : Bool) : BitVec 4 := if b then BitVec.ofNat 4 (2 ^ n) else 0#4

/-- `sat32` of the pseudocode (04, Conventions): saturates to 32 bits and sets SAT of lane `n`. -/
def satLane (x : Int) (n : Nat) : Sat := ⟨(sat32 x).1, laneBit n (sat32 x).2⟩

/-- `sat80` (R76): saturates to 80 bits; the AOV bit of lane `n`. -/
def sat80 (x : Int) (n : Nat) : BitVec 80 × BitVec 4 :=
  if x > 2 ^ 79 - 1 then (BitVec.ofInt 80 (2 ^ 79 - 1), laneBit n true)
  else if x < -2 ^ 79 then (BitVec.ofInt 80 (-2 ^ 79), laneBit n true)
  else (BitVec.ofInt 80 x, 0#4)

/-- A five-bit field read as a signed shift, −16 to +15 (R72, R125). -/
def sh5 (b : BitVec 5) : Int := b.toInt

/-- SCALE field of a destination class (R72, R80). -/
def scaleField (scale : Word) (cls : Nat) : Int := (scale.extractLsb' (8 * cls) 5).toInt

/-- x × 2ˢ for s ≥ 0, floor of x / 2⁻ˢ otherwise. -/
def shiftBy (x s : Int) : Int := if 0 ≤ s then x * 2 ^ s.toNat else sra x (-s).toNat

/-- Accumulator move (R77): `s` is the whole shift. -/
def accMove (acc s : Int) (n : Nat) : Sat := satLane (sra (shiftBy acc s) 31) n

/-- Redundant sign bits: 31 − bitlen(x XOR (x >> 31)) (R122). -/
def bitlen (n : Nat) : Nat := if n = 0 then 0 else Nat.log2 n + 1

/-- x XOR (x >> 31), the magnitude BXD tracks (R81). -/
def signFold (x : Word) : Word := x ^^^ (x.sshiftRight 31)

/-- Condition MOD[2:0] of CMP (R119). -/
def cmpCond (c : Nat) (a b : Word) : Bool :=
  match c with
  | 0 => a == b
  | 1 => a != b
  | 2 => a.slt b
  | 3 => !a.slt b
  | 4 => a.sle b
  | 5 => !a.sle b
  | 6 => a.ult b
  | _ => !a.ult b

/-- Function MOD[2:0] of PLOG (R121); 7 is a reserved encoding. -/
def plogFn (c : Nat) (a b : Bool) : Option Bool :=
  match c with
  | 0 => some (a && b)
  | 1 => some (a || b)
  | 2 => some (xor a b)
  | 3 => some (a && !b)
  | 4 => some (!a)
  | 5 => some true
  | 6 => some false
  | _ => none

end Sys2Proof.Machine
end

