-- ==== Sys2Proof/Machine/RegMap.lean ====
section
/-! DEFINITION. The register map (R481): every register of the register tables by name, with its place, its access code
(R5), when a written value acts (R6), the bits a write can change (R9) and its reset value. Tables of R36 R66 R67 R172 R196
R227 R228 R249 R282 R312 R313 R335 R369 R397 R398 R399 R400 R423 R424 R454 R455 R472 R485 R486 R488 R512. -/

namespace Sys2Proof.Machine

/-- Access codes (R5). -/
inductive Acc where
  | rw | ro | wo | w1c | w1s
  deriving DecidableEq, Repr

/-- When a written value acts (R6). -/
inductive Eff where
  | imm | stroke | call | reset
  deriving DecidableEq, Repr

/-- Which select register of R482 names the instance a register acts on. -/
inductive Sel where
  | none | port | ptp | stream | ref | ckout | dma | asrc | inj
  deriving DecidableEq, Repr

/-- One row of a register table: `cnt` registers from offset `off` of the register space, the bits that a write sets
(`rw`), the bits that a written 1 clears (`w1c`), and the reset value. -/
structure RegRow where
  off : Nat
  cnt : Nat := 1
  acc : Acc
  eff : Eff := .imm
  sel : Sel := .none
  rw : Word := 0#32
  w1c : Word := 0#32
  rst : Word := 0#32
  deriving DecidableEq, Repr

namespace Reg

/-- SYS block, SYS_ID (R485). -/
abbrev SYS_ID : Nat := 0x000000
/-- SYS block, SYS_GRADE (R485). -/
abbrev SYS_GRADE : Nat := 0x000004
/-- SYS block, SYS_STRAPS (R485). -/
abbrev SYS_STRAPS : Nat := 0x000008
/-- SYS block, SYS_BOOT_OK (R485). -/
abbrev SYS_BOOT_OK : Nat := 0x00000C
/-- SYS block, SYS_SCRATCH0–3 (R485). -/
abbrev SYS_SCRATCH : Nat := 0x000020
/-- SYS block, SYS_IRQ_CAUSE (R485). -/
abbrev SYS_IRQ_CAUSE : Nat := 0x000100
/-- SYS block, SYS_IRQ_EN (R485). -/
abbrev SYS_IRQ_EN : Nat := 0x000104
/-- SYS block, SYS_IRQ_PIN (R485). -/
abbrev SYS_IRQ_PIN : Nat := 0x000108
/-- SYS block, SYS_IRQ_ACK (R485). -/
abbrev SYS_IRQ_ACK : Nat := 0x00010C
/-- SYS block, SYS_TICK (R485). -/
abbrev SYS_TICK : Nat := 0x000110
/-- SYS block, SYS_IRQ_MAP0–3 (R485). -/
abbrev SYS_IRQ_MAP : Nat := 0x000140

/-- The registers of the SYS block. -/
def rowsSYS : List RegRow := [
  { off := SYS_ID, acc := .ro, rst := 0x96400000#32 },
  { off := SYS_GRADE, acc := .ro },
  { off := SYS_STRAPS, acc := .ro },
  { off := SYS_BOOT_OK, acc := .wo },
  { off := SYS_SCRATCH, cnt := 4, acc := .rw, rw := 0xFFFFFFFF#32 },
  { off := SYS_IRQ_CAUSE, acc := .w1c, w1c := 0xE013#32 },
  { off := SYS_IRQ_EN, acc := .rw, rw := 0xFFFF#32 },
  { off := SYS_IRQ_PIN, acc := .rw, rw := 0xFFFF#32 },
  { off := SYS_IRQ_ACK, acc := .wo },
  { off := SYS_TICK, acc := .rw, eff := .stroke, rw := 0xFFFF#32 },
  { off := SYS_IRQ_MAP, cnt := 4, acc := .rw, rw := 0x3F3F3F3F#32 }]

/-- RST block, RST_CAUSE (R455). -/
abbrev RST_CAUSE : Nat := 0x010000
/-- RST block, RST_CTRL (R455). -/
abbrev RST_CTRL : Nat := 0x010004
/-- RST block, RST_ENG (R455). -/
abbrev RST_ENG : Nat := 0x010008
/-- RST block, RST_STAT (R455). -/
abbrev RST_STAT : Nat := 0x01000C
/-- RST block, RST_WDT_CFG (R455). -/
abbrev RST_WDT_CFG : Nat := 0x010010
/-- RST block, RST_WDT_KICK (R455). -/
abbrev RST_WDT_KICK : Nat := 0x010014
/-- RST block, RST_FSTART (R455). -/
abbrev RST_FSTART : Nat := 0x010018
/-- RST block, RST_BOOT (R455). -/
abbrev RST_BOOT : Nat := 0x01001C
/-- RST block, RST_BOOT_CFG (R455). -/
abbrev RST_BOOT_CFG : Nat := 0x010020
/-- RST block, RST_BOOT_GO (R455). -/
abbrev RST_BOOT_GO : Nat := 0x010024
/-- RST block, RST_BOOT_ADDR (R455). -/
abbrev RST_BOOT_ADDR : Nat := 0x010028

/-- The registers of the RST block. -/
def rowsRST : List RegRow := [
  { off := RST_CAUSE, acc := .w1c, w1c := 0x7FF#32 },
  { off := RST_CTRL, acc := .wo },
  { off := RST_ENG, acc := .rw, rw := 0x1#32 },
  { off := RST_STAT, acc := .ro },
  { off := RST_WDT_CFG, acc := .rw, rw := 0x8000FFFF#32 },
  { off := RST_WDT_KICK, acc := .wo },
  { off := RST_FSTART, acc := .rw, rw := 0x700#32, rst := 0x300#32 },
  { off := RST_BOOT, acc := .ro },
  { off := RST_BOOT_CFG, acc := .rw, rw := 0x8000FFFF#32 },
  { off := RST_BOOT_GO, acc := .w1s },
  { off := RST_BOOT_ADDR, acc := .rw, rw := 0x7FFFC0#32 }]

/-- PWR block, PWR_MODE (R454). -/
abbrev PWR_MODE : Nat := 0x020000
/-- PWR block, PWR_STAT (R454). -/
abbrev PWR_STAT : Nat := 0x020004
/-- PWR block, PWR_OPCFG (R454). -/
abbrev PWR_OPCFG : Nat := 0x020008
/-- PWR block, PWR_OP (R454). -/
abbrev PWR_OP : Nat := 0x02000C
/-- PWR block, PWR_MON (R454). -/
abbrev PWR_MON : Nat := 0x020010
/-- PWR block, PWR_VSYS_MV (R454). -/
abbrev PWR_VSYS_MV : Nat := 0x020014
/-- PWR block, PWR_TJ (R454). -/
abbrev PWR_TJ : Nat := 0x020018
/-- PWR block, PWR_IN_MW (R454). -/
abbrev PWR_IN_MW : Nat := 0x02001C
/-- PWR block, PWR_AUX (R454). -/
abbrev PWR_AUX : Nat := 0x020020
/-- PWR block, PWR_RET_BASE (R454). -/
abbrev PWR_RET_BASE : Nat := 0x020024

/-- The registers of the PWR block. -/
def rowsPWR : List RegRow := [
  { off := PWR_MODE, acc := .rw },
  { off := PWR_STAT, acc := .w1c, w1c := 0xFF#32 },
  { off := PWR_OPCFG, acc := .rw, eff := .stroke, rw := 0x800000FF#32 },
  { off := PWR_OP, acc := .ro },
  { off := PWR_MON, acc := .ro },
  { off := PWR_VSYS_MV, acc := .ro },
  { off := PWR_TJ, acc := .ro },
  { off := PWR_IN_MW, acc := .ro },
  { off := PWR_AUX, acc := .rw, rw := 0x3#32 },
  { off := PWR_RET_BASE, acc := .rw, rw := 0xFF#32 }]

/-- TIME block, TIME_SEC_LO (R312). -/
abbrev TIME_SEC_LO : Nat := 0x030000
/-- TIME block, TIME_SEC_HI (R312). -/
abbrev TIME_SEC_HI : Nat := 0x030004
/-- TIME block, TIME_NS (R312). -/
abbrev TIME_NS : Nat := 0x030008
/-- TIME block, TIME_FRAC (R312). -/
abbrev TIME_FRAC : Nat := 0x03000C
/-- TIME block, TIME_EPOCH (R312). -/
abbrev TIME_EPOCH : Nat := 0x030010
/-- TIME block, TIME_CTRL (R312). -/
abbrev TIME_CTRL : Nat := 0x030014
/-- TIME block, TIME_STAT (R312). -/
abbrev TIME_STAT : Nat := 0x030018
/-- TIME block, TIME_HOLD_NS (R312). -/
abbrev TIME_HOLD_NS : Nat := 0x03001C
/-- TIME block, TIME_SPLIT_NS (R312). -/
abbrev TIME_SPLIT_NS : Nat := 0x030020
/-- TIME block, PTP_SEL (R312). -/
abbrev PTP_SEL : Nat := 0x030040
/-- TIME block, PTP_CFG (R312). -/
abbrev PTP_CFG : Nat := 0x030044
/-- TIME block, PTP_STATE (R312). -/
abbrev PTP_STATE : Nat := 0x030048
/-- TIME block, PTP_OFS_NS (R312). -/
abbrev PTP_OFS_NS : Nat := 0x03004C
/-- TIME block, PTP_OFS_FRAC (R312). -/
abbrev PTP_OFS_FRAC : Nat := 0x030050
/-- TIME block, PTP_DELAY (R312). -/
abbrev PTP_DELAY : Nat := 0x030054
/-- TIME block, PTP_GM (R312). -/
abbrev PTP_GM : Nat := 0x030058
/-- TIME block, PTP_GMID_LO (R312). -/
abbrev PTP_GMID_LO : Nat := 0x03005C
/-- TIME block, PTP_GMID_HI (R312). -/
abbrev PTP_GMID_HI : Nat := 0x030060

/-- The registers of the TIME block. -/
def rowsTIME : List RegRow := [
  { off := TIME_SEC_LO, acc := .ro },
  { off := TIME_SEC_HI, acc := .ro },
  { off := TIME_NS, acc := .ro },
  { off := TIME_FRAC, acc := .ro },
  { off := TIME_EPOCH, acc := .rw, rw := 0xFFFF#32 },
  { off := TIME_CTRL, acc := .w1s },
  { off := TIME_STAT, acc := .w1c, w1c := 0x3#32 },
  { off := TIME_HOLD_NS, acc := .ro },
  { off := TIME_SPLIT_NS, acc := .ro },
  { off := PTP_SEL, acc := .rw, rw := 0x1#32 },
  { off := PTP_CFG, acc := .rw, sel := .ptp, rw := 0xF0FF000F#32 },
  { off := PTP_STATE, acc := .ro, sel := .ptp },
  { off := PTP_OFS_NS, acc := .ro, sel := .ptp },
  { off := PTP_OFS_FRAC, acc := .ro, sel := .ptp },
  { off := PTP_DELAY, acc := .ro, sel := .ptp },
  { off := PTP_GM, acc := .ro, sel := .ptp },
  { off := PTP_GMID_LO, acc := .ro, sel := .ptp },
  { off := PTP_GMID_HI, acc := .ro, sel := .ptp }]

/-- REF block, REF_CTRL (R335). -/
abbrev REF_CTRL : Nat := 0x040000
/-- REF block, REF_STAT (R335). -/
abbrev REF_STAT : Nat := 0x040004
/-- REF block, REF_HIST (R335). -/
abbrev REF_HIST : Nat := 0x040008
/-- REF block, REF_IRQEN (R335). -/
abbrev REF_IRQEN : Nat := 0x04000C
/-- REF block, REF_LIMIT (R335). -/
abbrev REF_LIMIT : Nat := 0x040010
/-- REF block, REF_SLEW (R335). -/
abbrev REF_SLEW : Nat := 0x040014
/-- REF block, REF_HOFS (R335). -/
abbrev REF_HOFS : Nat := 0x040018
/-- REF block, REF_BO (R335). -/
abbrev REF_BO : Nat := 0x04001C
/-- REF block, REF_SEL (R335). -/
abbrev REF_SEL : Nat := 0x040020
/-- REF block, REF_CFG (R335). -/
abbrev REF_CFG : Nat := 0x040024
/-- REF block, REF_MEAS (R335). -/
abbrev REF_MEAS : Nat := 0x040028
/-- REF block, REF_FOFS (R335). -/
abbrev REF_FOFS : Nat := 0x04002C
/-- REF block, REF_PHS (R335). -/
abbrev REF_PHS : Nat := 0x040030
/-- REF block, REF_RSTAT (R335). -/
abbrev REF_RSTAT : Nat := 0x040034
/-- REF block, REF_CCMAP0–15 (R335). -/
abbrev REF_CCMAP : Nat := 0x040040
/-- REF block, LO_CFG (R335). -/
abbrev LO_CFG : Nat := 0x040090
/-- REF block, LO_STAT (R335). -/
abbrev LO_STAT : Nat := 0x040094
/-- REF block, CKOUT_SEL (R335). -/
abbrev CKOUT_SEL : Nat := 0x0400A0
/-- REF block, CKOUT_CFG (R335). -/
abbrev CKOUT_CFG : Nat := 0x0400A4
/-- REF block, CKOUT_STAT (R335). -/
abbrev CKOUT_STAT : Nat := 0x0400A8

/-- The registers of the REF block. -/
def rowsREF : List RegRow := [
  { off := REF_CTRL, acc := .rw, rw := 0xFC000000#32 },
  { off := REF_STAT, acc := .ro },
  { off := REF_HIST, acc := .w1c, w1c := 0x7F#32 },
  { off := REF_IRQEN, acc := .rw, rw := 0x7F#32 },
  { off := REF_LIMIT, acc := .rw, rw := 0xFFFFFFFF#32, rst := 0x6403E8#32 },
  { off := REF_SLEW, acc := .rw, rw := 0xFFFFFFFF#32, rst := 0x320032#32 },
  { off := REF_HOFS, acc := .ro },
  { off := REF_BO, acc := .ro },
  { off := REF_SEL, acc := .rw, rw := 0x3#32 },
  { off := REF_CFG, acc := .rw, sel := .ref, rw := 0xFFC0000F#32 },
  { off := REF_MEAS, acc := .ro, sel := .ref },
  { off := REF_FOFS, acc := .ro, sel := .ref },
  { off := REF_PHS, acc := .ro, sel := .ref },
  { off := REF_RSTAT, acc := .w1c, sel := .ref, w1c := 0x1F#32 },
  { off := REF_CCMAP, cnt := 16, acc := .rw, rw := 0x8000FF0F#32 },
  { off := LO_CFG, acc := .rw, eff := .reset, rw := 0x8000FFFF#32 },
  { off := LO_STAT, acc := .w1c, w1c := 0x1#32 },
  { off := CKOUT_SEL, acc := .rw, rw := 0x7#32 },
  { off := CKOUT_CFG, acc := .rw, eff := .stroke, sel := .ckout, rw := 0xFFFFFFFF#32 },
  { off := CKOUT_STAT, acc := .w1c, w1c := 0x7F#32 }]

/-- PORT block, PORT_SEL (R282). -/
abbrev PORT_SEL : Nat := 0x050000
/-- PORT block, PORT_CFG (R282). -/
abbrev PORT_CFG : Nat := 0x050004
/-- PORT block, PORT_CTRL (R282). -/
abbrev PORT_CTRL : Nat := 0x050008
/-- PORT block, PORT_STATE (R282). -/
abbrev PORT_STATE : Nat := 0x05000C
/-- PORT block, PORT_SLOTS (R282). -/
abbrev PORT_SLOTS : Nat := 0x050010
/-- PORT block, PORT_PHASE (R282). -/
abbrev PORT_PHASE : Nat := 0x050014
/-- PORT block, PORT_STAT (R282). -/
abbrev PORT_STAT : Nat := 0x050018
/-- PORT block, PORT_RATE (R282). -/
abbrev PORT_RATE : Nat := 0x050020
/-- PORT block, PORT_RATE_VAL (R282). -/
abbrev PORT_RATE_VAL : Nat := 0x050024
/-- PORT block, GRP_GO (R282). -/
abbrev GRP_GO : Nat := 0x050040
/-- PORT block, GRP_STOP (R282). -/
abbrev GRP_STOP : Nat := 0x050044
/-- PORT block, GRP_G_LO (R282). -/
abbrev GRP_G_LO : Nat := 0x050048
/-- PORT block, GRP_G_HI (R282). -/
abbrev GRP_G_HI : Nat := 0x05004C
/-- PORT block, PORT_RST0 (R282). -/
abbrev PORT_RST0 : Nat := 0x050050
/-- PORT block, PORT_RST1 (R282). -/
abbrev PORT_RST1 : Nat := 0x050054
/-- PORT block, PORT_IRQ0 (R282). -/
abbrev PORT_IRQ0 : Nat := 0x050058
/-- PORT block, PORT_IRQ1 (R282). -/
abbrev PORT_IRQ1 : Nat := 0x05005C
/-- PORT block, PDM_CFG (R282). -/
abbrev PDM_CFG : Nat := 0x050100
/-- PORT block, PDM_EN (R282). -/
abbrev PDM_EN : Nat := 0x050104
/-- PORT block, PDM_SETTLE (R282). -/
abbrev PDM_SETTLE : Nat := 0x050108
/-- PORT block, PDM_LIVE (R282). -/
abbrev PDM_LIVE : Nat := 0x05010C

/-- The registers of the PORT block. -/
def rowsPORT : List RegRow := [
  { off := PORT_SEL, acc := .rw, rw := 0x3F#32 },
  { off := PORT_CFG, acc := .rw, eff := .reset, sel := .port, rw := 0xFFFFCF3F#32 },
  { off := PORT_CTRL, acc := .rw, sel := .port, rw := 0xE07F03FF#32 },
  { off := PORT_STATE, acc := .ro, sel := .port },
  { off := PORT_SLOTS, acc := .ro, sel := .port, rst := 0xFFFFFFFF#32 },
  { off := PORT_PHASE, acc := .ro, sel := .port },
  { off := PORT_STAT, acc := .w1c, sel := .port, w1c := 0x1FF#32 },
  { off := PORT_RATE, acc := .ro, sel := .port },
  { off := PORT_RATE_VAL, acc := .ro, sel := .port },
  { off := GRP_GO, acc := .wo },
  { off := GRP_STOP, acc := .wo },
  { off := GRP_G_LO, acc := .ro },
  { off := GRP_G_HI, acc := .ro },
  { off := PORT_RST0, acc := .w1s },
  { off := PORT_RST1, acc := .w1s },
  { off := PORT_IRQ0, acc := .ro },
  { off := PORT_IRQ1, acc := .ro },
  { off := PDM_CFG, acc := .rw, eff := .reset, rw := 0xF0F0F0F0#32 },
  { off := PDM_EN, acc := .rw, rw := 0xFFFFFFFF#32 },
  { off := PDM_SETTLE, acc := .rw, rw := 0xFF#32 },
  { off := PDM_LIVE, acc := .ro }]

/-- NET block, NET_CFG (R313). -/
abbrev NET_CFG0 : Nat := 0x060000
/-- NET block, NET_CFG (R313). -/
abbrev NET_CFG1 : Nat := 0x060040
/-- NET block, NET_STAT (R313). -/
abbrev NET_STAT0 : Nat := 0x060004
/-- NET block, NET_STAT (R313). -/
abbrev NET_STAT1 : Nat := 0x060044
/-- NET block, NET_MAC_LO (R313). -/
abbrev NET_MAC_LO0 : Nat := 0x060008
/-- NET block, NET_MAC_LO (R313). -/
abbrev NET_MAC_LO1 : Nat := 0x060048
/-- NET block, NET_MAC_HI (R313). -/
abbrev NET_MAC_HI0 : Nat := 0x06000C
/-- NET block, NET_MAC_HI (R313). -/
abbrev NET_MAC_HI1 : Nat := 0x06004C
/-- NET block, NET_IP (R313). -/
abbrev NET_IP0 : Nat := 0x060010
/-- NET block, NET_IP (R313). -/
abbrev NET_IP1 : Nat := 0x060050
/-- NET block, NET_ASYM_RX (R313). -/
abbrev NET_ASYM_RX0 : Nat := 0x060014
/-- NET block, NET_ASYM_RX (R313). -/
abbrev NET_ASYM_RX1 : Nat := 0x060054
/-- NET block, NET_ASYM_TX (R313). -/
abbrev NET_ASYM_TX0 : Nat := 0x060018
/-- NET block, NET_ASYM_TX (R313). -/
abbrev NET_ASYM_TX1 : Nat := 0x060058
/-- NET block, NET_JBASE (R313). -/
abbrev NET_JBASE : Nat := 0x060080
/-- NET block, STREAM_SEL (R313). -/
abbrev STREAM_SEL : Nat := 0x060100
/-- NET block, STR_CFG (R313). -/
abbrev STR_CFG : Nat := 0x060104
/-- NET block, STR_ADDR (R313). -/
abbrev STR_ADDR : Nat := 0x060108
/-- NET block, STR_UDP (R313). -/
abbrev STR_UDP : Nat := 0x06010C
/-- NET block, STR_MAP (R313). -/
abbrev STR_MAP : Nat := 0x060110
/-- NET block, STR_OFS (R313). -/
abbrev STR_OFS : Nat := 0x060114
/-- NET block, STR_TSOFS (R313). -/
abbrev STR_TSOFS : Nat := 0x060118
/-- NET block, STR_SSRC (R313). -/
abbrev STR_SSRC : Nat := 0x06011C
/-- NET block, STR_SRCIP (R313). -/
abbrev STR_SRCIP : Nat := 0x060120
/-- NET block, STR_STAT (R313). -/
abbrev STR_STAT : Nat := 0x060124
/-- NET block, STR_CNT (R313). -/
abbrev STR_CNT : Nat := 0x060128
/-- NET block, STR_LATE (R313). -/
abbrev STR_LATE : Nat := 0x06012C
/-- NET block, STR_LOST (R313). -/
abbrev STR_LOST : Nat := 0x060130
/-- NET block, STR_STALE (R313). -/
abbrev STR_STALE : Nat := 0x060134
/-- NET block, STR_PDIFF (R313). -/
abbrev STR_PDIFF : Nat := 0x060138
/-- NET block, STR_EPOCH (R313). -/
abbrev STR_EPOCH : Nat := 0x06013C
/-- NET block, NET_HQ_RXBASE (R313). -/
abbrev NET_HQ_RXBASE : Nat := 0x060200
/-- NET block, NET_HQ_RXSIZE (R313). -/
abbrev NET_HQ_RXSIZE : Nat := 0x060204
/-- NET block, NET_HQ_RXWR (R313). -/
abbrev NET_HQ_RXWR : Nat := 0x060208
/-- NET block, NET_HQ_RXRD (R313). -/
abbrev NET_HQ_RXRD : Nat := 0x06020C
/-- NET block, NET_HQ_TXBASE (R313). -/
abbrev NET_HQ_TXBASE : Nat := 0x060210
/-- NET block, NET_HQ_TXSIZE (R313). -/
abbrev NET_HQ_TXSIZE : Nat := 0x060214
/-- NET block, NET_HQ_TXDB (R313). -/
abbrev NET_HQ_TXDB : Nat := 0x060218
/-- NET block, NET_HQ_TXRD (R313). -/
abbrev NET_HQ_TXRD : Nat := 0x06021C

/-- The registers of the NET block. -/
def rowsNET : List RegRow := [
  { off := NET_CFG0, acc := .rw, rw := 0xFF000000#32 },
  { off := NET_CFG1, acc := .rw, rw := 0xFF000000#32 },
  { off := NET_STAT0, acc := .w1c, w1c := 0x1E#32 },
  { off := NET_STAT1, acc := .w1c, w1c := 0x1E#32 },
  { off := NET_MAC_LO0, acc := .rw, rw := 0xFFFFFFFF#32 },
  { off := NET_MAC_LO1, acc := .rw, rw := 0xFFFFFFFF#32 },
  { off := NET_MAC_HI0, acc := .rw, rw := 0xFFFF#32 },
  { off := NET_MAC_HI1, acc := .rw, rw := 0xFFFF#32 },
  { off := NET_IP0, acc := .rw, rw := 0xFFFFFFFF#32 },
  { off := NET_IP1, acc := .rw, rw := 0xFFFFFFFF#32 },
  { off := NET_ASYM_RX0, acc := .rw, rw := 0xFFFFFFFF#32 },
  { off := NET_ASYM_RX1, acc := .rw, rw := 0xFFFFFFFF#32 },
  { off := NET_ASYM_TX0, acc := .rw, rw := 0xFFFFFFFF#32 },
  { off := NET_ASYM_TX1, acc := .rw, rw := 0xFFFFFFFF#32 },
  { off := NET_JBASE, acc := .rw, rw := 0xFFFFFFFF#32 },
  { off := STREAM_SEL, acc := .rw, rw := 0x3FF#32 },
  { off := STR_CFG, acc := .rw, eff := .stroke, sel := .stream, rw := 0xFFF80FFF#32 },
  { off := STR_ADDR, acc := .rw, eff := .stroke, sel := .stream, rw := 0xFFFFFFFF#32 },
  { off := STR_UDP, acc := .rw, eff := .stroke, sel := .stream, rw := 0xFFFF3F7F#32 },
  { off := STR_MAP, acc := .rw, eff := .stroke, sel := .stream, rw := 0x7F03FF#32 },
  { off := STR_OFS, acc := .rw, eff := .stroke, sel := .stream, rw := 0x3FF#32 },
  { off := STR_TSOFS, acc := .rw, eff := .stroke, sel := .stream, rw := 0xFFFFFFFF#32 },
  { off := STR_SSRC, acc := .rw, eff := .stroke, sel := .stream, rw := 0xFFFFFFFF#32 },
  { off := STR_SRCIP, acc := .rw, eff := .stroke, sel := .stream, rw := 0xFFFFFFFF#32 },
  { off := STR_STAT, acc := .w1c, sel := .stream, w1c := 0x3F#32 },
  { off := STR_CNT, acc := .ro, sel := .stream },
  { off := STR_LATE, acc := .ro, sel := .stream },
  { off := STR_LOST, acc := .ro, sel := .stream },
  { off := STR_STALE, acc := .ro, sel := .stream },
  { off := STR_PDIFF, acc := .ro, sel := .stream },
  { off := STR_EPOCH, acc := .ro, sel := .stream },
  { off := NET_HQ_RXBASE, acc := .rw, rw := 0x7FF800#32 },
  { off := NET_HQ_RXSIZE, acc := .rw, rw := 0x1F#32, rst := 0x4#32 },
  { off := NET_HQ_RXWR, acc := .ro },
  { off := NET_HQ_RXRD, acc := .rw, rw := 0x7FF#32 },
  { off := NET_HQ_TXBASE, acc := .rw, rw := 0x7FF800#32 },
  { off := NET_HQ_TXSIZE, acc := .rw, rw := 0x1F#32, rst := 0x4#32 },
  { off := NET_HQ_TXDB, acc := .wo },
  { off := NET_HQ_TXRD, acc := .ro }]

/-- PATCH block, PATCH_STAT (R227). -/
abbrev PATCH_STAT : Nat := 0x070000
/-- PATCH block, SINK_SEL (R227). -/
abbrev SINK_SEL : Nat := 0x070004
/-- PATCH block, SINK_SRC (R227). -/
abbrev SINK_SRC : Nat := 0x070008
/-- PATCH block, SINK_NEXT (R227). -/
abbrev SINK_NEXT : Nat := 0x07000C
/-- PATCH block, SINK_DLY (R227). -/
abbrev SINK_DLY : Nat := 0x070010
/-- PATCH block, BR_USE (R227). -/
abbrev BR_USE : Nat := 0x070014
/-- PATCH block, ASRC_SEL (R227). -/
abbrev ASRC_SEL : Nat := 0x070020
/-- PATCH block, ASRC_CFG (R227). -/
abbrev ASRC_CFG : Nat := 0x070024
/-- PATCH block, ASRC_RATIO (R227). -/
abbrev ASRC_RATIO : Nat := 0x070028
/-- PATCH block, ASRC_FILL (R227). -/
abbrev ASRC_FILL : Nat := 0x07002C
/-- PATCH block, ASRC_STAT (R227). -/
abbrev ASRC_STAT : Nat := 0x070030

/-- The registers of the PATCH block. -/
def rowsPATCH : List RegRow := [
  { off := PATCH_STAT, acc := .w1c, w1c := 0xF#32 },
  { off := SINK_SEL, acc := .rw, rw := 0x1FFF#32 },
  { off := SINK_SRC, acc := .ro },
  { off := SINK_NEXT, acc := .ro },
  { off := SINK_DLY, acc := .ro },
  { off := BR_USE, acc := .ro },
  { off := ASRC_SEL, acc := .rw, rw := 0x7F#32 },
  { off := ASRC_CFG, acc := .rw, eff := .reset, sel := .asrc, rw := 0xF03F00FF#32 },
  { off := ASRC_RATIO, acc := .ro, sel := .asrc },
  { off := ASRC_FILL, acc := .ro, sel := .asrc },
  { off := ASRC_STAT, acc := .w1c, sel := .asrc, w1c := 0x3#32 }]

/-- MIX block, MIX_CFG (R196). -/
abbrev MIX_CFG : Nat := 0x080000
/-- MIX block, MIX_TSEL (R196). -/
abbrev MIX_TSEL : Nat := 0x080004
/-- MIX block, MIX_STAT (R196). -/
abbrev MIX_STAT : Nat := 0x080008
/-- MIX block, MIX_DONE_MAX (R196). -/
abbrev MIX_DONE_MAX : Nat := 0x08000C
/-- MIX block, XP_SEL (R196). -/
abbrev XP_SEL : Nat := 0x080010
/-- MIX block, XP_TGT (R196). -/
abbrev XP_TGT : Nat := 0x080014
/-- MIX block, XP_EFF (R196). -/
abbrev XP_EFF : Nat := 0x080018
/-- MIX block, XP_STEP (R196). -/
abbrev XP_STEP : Nat := 0x08001C
/-- MIX block, XP_SHD (R196). -/
abbrev XP_SHD : Nat := 0x080020
/-- MIX block, XP_SRC (R196). -/
abbrev XP_SRC : Nat := 0x080024
/-- MIX block, MIX_LIMHIT0–15 (R196). -/
abbrev MIX_LIMHIT : Nat := 0x080040

/-- The registers of the MIX block. -/
def rowsMIX : List RegRow := [
  { off := MIX_CFG, acc := .ro },
  { off := MIX_TSEL, acc := .ro },
  { off := MIX_STAT, acc := .w1c, w1c := 0x7#32 },
  { off := MIX_DONE_MAX, acc := .ro },
  { off := XP_SEL, acc := .rw, rw := 0xFFFFF#32 },
  { off := XP_TGT, acc := .ro },
  { off := XP_EFF, acc := .ro },
  { off := XP_STEP, acc := .ro },
  { off := XP_SHD, acc := .rw, eff := .call, rw := 0xFFFFFFFF#32 },
  { off := XP_SRC, acc := .ro },
  { off := MIX_LIMHIT, cnt := 16, acc := .w1c, w1c := 0xFFFFFFFF#32 }]

/-- ENG block, DET_STAT (R36). -/
abbrev DET_STAT : Nat := 0x090200
/-- ENG block, DET_FIRST_LO (R36). -/
abbrev DET_FIRST_LO : Nat := 0x090204
/-- ENG block, DET_FIRST_HI (R36). -/
abbrev DET_FIRST_HI : Nat := 0x090208
/-- ENG block, DET_BASE_LO (R36). -/
abbrev DET_BASE_LO : Nat := 0x09020C
/-- ENG block, DET_BASE_HI (R36). -/
abbrev DET_BASE_HI : Nat := 0x090210
/-- ENG block, STROKE_LO (R67). -/
abbrev STROKE_LO : Nat := 0x090100
/-- ENG block, STROKE_HI (R67). -/
abbrev STROKE_HI : Nat := 0x090104
/-- ENG block, ENG_TSKEW (R67). -/
abbrev ENG_TSKEW : Nat := 0x090108
/-- ENG block, OVR_COUNT (R67). -/
abbrev OVR_COUNT : Nat := 0x09010C
/-- ENG block, ENG_RATE (R67). -/
abbrev ENG_RATE : Nat := 0x090110
/-- ENG block, STRIP_SEL (R172). -/
abbrev STRIP_SEL : Nat := 0x090300
/-- ENG block, STRIP_INFO (R172). -/
abbrev STRIP_INFO : Nat := 0x090304
/-- ENG block, CARRY_BYTES (R172). -/
abbrev CARRY_BYTES : Nat := 0x090308
/-- ENG block, IMG_STAT (R172). -/
abbrev IMG_STAT : Nat := 0x09030C
/-- ENG block, IMG_ID_LO (R172). -/
abbrev IMG_ID_LO : Nat := 0x090310
/-- ENG block, IMG_ID_HI (R172). -/
abbrev IMG_ID_HI : Nat := 0x090314
/-- ENG block, LAT_SEL (R228). -/
abbrev LAT_SEL : Nat := 0x090400
/-- ENG block, LAT_UP (R228). -/
abbrev LAT_UP : Nat := 0x090404
/-- ENG block, LAT_ALN (R228). -/
abbrev LAT_ALN : Nat := 0x090408
/-- ENG block, LAT_ARR (R228). -/
abbrev LAT_ARR : Nat := 0x09040C
/-- ENG block, LAT_TGT (R228). -/
abbrev LAT_TGT : Nat := 0x090410
/-- ENG block, LAT_STRIP (R228). -/
abbrev LAT_STRIP : Nat := 0x090414
/-- ENG block, SCENE_STATE (R249). -/
abbrev SCENE_STATE : Nat := 0x090500
/-- ENG block, SCENE_ID (R249). -/
abbrev SCENE_ID : Nat := 0x090504
/-- ENG block, SCENE_T_LO (R249). -/
abbrev SCENE_T_LO : Nat := 0x090508
/-- ENG block, SCENE_T_HI (R249). -/
abbrev SCENE_T_HI : Nat := 0x09050C
/-- ENG block, SCENE_F_LO (R249). -/
abbrev SCENE_F_LO : Nat := 0x090510
/-- ENG block, SCENE_F_HI (R249). -/
abbrev SCENE_F_HI : Nat := 0x090514
/-- ENG block, SCENE_CNT (R249). -/
abbrev SCENE_CNT : Nat := 0x090518
/-- ENG block, SCENE_EVT (R249). -/
abbrev SCENE_EVT : Nat := 0x09051C
/-- ENG block, FORKCAP0 (R249). -/
abbrev FORKCAP0 : Nat := 0x090520
/-- ENG block, FORKCAP1 (R249). -/
abbrev FORKCAP1 : Nat := 0x090524
/-- ENG block, CORE_SEL (R488). -/
abbrev CORE_SEL : Nat := 0x090600
/-- ENG block, CORE_STAT (R488). -/
abbrev CORE_STAT : Nat := 0x090604
/-- ENG block, CORE_CYC (R488). -/
abbrev CORE_CYC : Nat := 0x090608
/-- ENG block, CORE_CYC_MAX (R488). -/
abbrev CORE_CYC_MAX : Nat := 0x09060C

/-- The registers of the ENG block. -/
def rowsENG : List RegRow := [
  { off := DET_STAT, acc := .w1c, w1c := 0x7F#32 },
  { off := DET_FIRST_LO, acc := .ro },
  { off := DET_FIRST_HI, acc := .ro },
  { off := DET_BASE_LO, acc := .ro },
  { off := DET_BASE_HI, acc := .ro },
  { off := STROKE_LO, acc := .ro },
  { off := STROKE_HI, acc := .ro },
  { off := ENG_TSKEW, acc := .ro },
  { off := OVR_COUNT, acc := .ro },
  { off := ENG_RATE, acc := .ro },
  { off := STRIP_SEL, acc := .rw, rw := 0x7FF#32 },
  { off := STRIP_INFO, acc := .ro },
  { off := CARRY_BYTES, acc := .ro },
  { off := IMG_STAT, acc := .ro },
  { off := IMG_ID_LO, acc := .ro },
  { off := IMG_ID_HI, acc := .ro },
  { off := LAT_SEL, acc := .rw, rw := 0x1FFF#32 },
  { off := LAT_UP, acc := .ro },
  { off := LAT_ALN, acc := .ro },
  { off := LAT_ARR, acc := .ro },
  { off := LAT_TGT, acc := .ro },
  { off := LAT_STRIP, acc := .ro },
  { off := SCENE_STATE, acc := .ro },
  { off := SCENE_ID, acc := .ro },
  { off := SCENE_T_LO, acc := .ro },
  { off := SCENE_T_HI, acc := .ro },
  { off := SCENE_F_LO, acc := .ro },
  { off := SCENE_F_HI, acc := .ro },
  { off := SCENE_CNT, acc := .ro },
  { off := SCENE_EVT, acc := .w1c, w1c := 0x3F#32 },
  { off := FORKCAP0, acc := .ro },
  { off := FORKCAP1, acc := .ro },
  { off := CORE_SEL, acc := .rw, rw := 0x7F#32 },
  { off := CORE_STAT, acc := .ro },
  { off := CORE_CYC, acc := .ro },
  { off := CORE_CYC_MAX, acc := .ro }]

/-- CALL block, CALL_CTRL (R66). -/
abbrev CALL_CTRL : Nat := 0x0A0000
/-- CALL block, CALL_CFG (R66). -/
abbrev CALL_CFG : Nat := 0x0A0004
/-- CALL block, CALL_RING_BASE (R66). -/
abbrev CALL_RING_BASE : Nat := 0x0A0008
/-- CALL block, CALL_RING_SIZE (R66). -/
abbrev CALL_RING_SIZE : Nat := 0x0A000C
/-- CALL block, CALL_DB (R66). -/
abbrev CALL_DB : Nat := 0x0A0010
/-- CALL block, CALL_RD (R66). -/
abbrev CALL_RD : Nat := 0x0A0014
/-- CALL block, RCPT_RING_BASE (R66). -/
abbrev RCPT_RING_BASE : Nat := 0x0A0018
/-- CALL block, RCPT_RING_SIZE (R66). -/
abbrev RCPT_RING_SIZE : Nat := 0x0A001C
/-- CALL block, RCPT_WR (R66). -/
abbrev RCPT_WR : Nat := 0x0A0020
/-- CALL block, RCPT_RD (R66). -/
abbrev RCPT_RD : Nat := 0x0A0024
/-- CALL block, CALL_STAT (R66). -/
abbrev CALL_STAT : Nat := 0x0A0028
/-- CALL block, RCPT_LOST (R66). -/
abbrev RCPT_LOST : Nat := 0x0A002C
/-- CALL block, PEND_COUNT (R66). -/
abbrev PEND_COUNT : Nat := 0x0A0030
/-- CALL block, CVT_SEC_LO (R66). -/
abbrev CVT_SEC_LO : Nat := 0x0A0040
/-- CALL block, CVT_SEC_HI (R66). -/
abbrev CVT_SEC_HI : Nat := 0x0A0044
/-- CALL block, CVT_NS (R66). -/
abbrev CVT_NS : Nat := 0x0A0048
/-- CALL block, CVT_CTRL (R66). -/
abbrev CVT_CTRL : Nat := 0x0A004C
/-- CALL block, CVT_STROKE_LO (R66). -/
abbrev CVT_STROKE_LO : Nat := 0x0A0050
/-- CALL block, CVT_STROKE_HI (R66). -/
abbrev CVT_STROKE_HI : Nat := 0x0A0054

/-- The registers of the CALL block. -/
def rowsCALL : List RegRow := [
  { off := CALL_CTRL, acc := .rw, rw := 0x7#32 },
  { off := CALL_CFG, acc := .rw, eff := .stroke, rw := 0x17F#32, rst := 0x2#32 },
  { off := CALL_RING_BASE, acc := .rw, rw := 0x7FFFE0#32 },
  { off := CALL_RING_SIZE, acc := .rw, rw := 0x1F#32, rst := 0x10#32 },
  { off := CALL_DB, acc := .wo },
  { off := CALL_RD, acc := .ro },
  { off := RCPT_RING_BASE, acc := .rw, rw := 0x7FFFF0#32 },
  { off := RCPT_RING_SIZE, acc := .rw, rw := 0x1F#32, rst := 0x10#32 },
  { off := RCPT_WR, acc := .ro },
  { off := RCPT_RD, acc := .rw, rw := 0x1FFFF#32 },
  { off := CALL_STAT, acc := .w1c, w1c := 0x1F#32 },
  { off := RCPT_LOST, acc := .ro },
  { off := PEND_COUNT, acc := .ro },
  { off := CVT_SEC_LO, acc := .rw, rw := 0xFFFFFFFF#32 },
  { off := CVT_SEC_HI, acc := .rw, rw := 0xFFFFFFFF#32 },
  { off := CVT_NS, acc := .rw, rw := 0xFFFFFFFF#32 },
  { off := CVT_CTRL, acc := .rw, rw := 0x3FFFF#32 },
  { off := CVT_STROKE_LO, acc := .rw, rw := 0xFFFFFFFF#32 },
  { off := CVT_STROKE_HI, acc := .rw, rw := 0xFFFFFFFF#32 }]

/-- TWIN block, TWIN_CFG (R369). -/
abbrev TWIN_CFG : Nat := 0x0B0000
/-- TWIN block, TWIN_POL (R369). -/
abbrev TWIN_POL : Nat := 0x0B0004
/-- TWIN block, TWIN_STATE (R369). -/
abbrev TWIN_STATE : Nat := 0x0B0008
/-- TWIN block, TWIN_STAT (R369). -/
abbrev TWIN_STAT : Nat := 0x0B000C
/-- TWIN block, TWIN_IRQEN (R369). -/
abbrev TWIN_IRQEN : Nat := 0x0B0010
/-- TWIN block, TWIN_CTRL (R369). -/
abbrev TWIN_CTRL : Nat := 0x0B0014
/-- TWIN block, TWIN_EPOCH (R369). -/
abbrev TWIN_EPOCH : Nat := 0x0B0018
/-- TWIN block, TWIN_PEER_EPOCH (R369). -/
abbrev TWIN_PEER_EPOCH : Nat := 0x0B001C
/-- TWIN block, TWIN_LAST_LO (R369). -/
abbrev TWIN_LAST_LO : Nat := 0x0B0020
/-- TWIN block, TWIN_LAST_HI (R369). -/
abbrev TWIN_LAST_HI : Nat := 0x0B0024
/-- TWIN block, TWIN_COMMIT_LO (R369). -/
abbrev TWIN_COMMIT_LO : Nat := 0x0B0028
/-- TWIN block, TWIN_COMMIT_HI (R369). -/
abbrev TWIN_COMMIT_HI : Nat := 0x0B002C
/-- TWIN block, TWIN_UNVER_LO (R369). -/
abbrev TWIN_UNVER_LO : Nat := 0x0B0030
/-- TWIN block, TWIN_UNVER_HI (R369). -/
abbrev TWIN_UNVER_HI : Nat := 0x0B0034
/-- TWIN block, TWIN_UNVER_N (R369). -/
abbrev TWIN_UNVER_N : Nat := 0x0B0038
/-- TWIN block, TWIN_DIFF (R369). -/
abbrev TWIN_DIFF : Nat := 0x0B003C
/-- TWIN block, TWIN_RESYNC (R369). -/
abbrev TWIN_RESYNC : Nat := 0x0B0040
/-- TWIN block, TWIN_LINK (R369). -/
abbrev TWIN_LINK : Nat := 0x0B0044
/-- TWIN block, TWIN_TAGERR (R369). -/
abbrev TWIN_TAGERR : Nat := 0x0B0048
/-- TWIN block, TWIN_BCN_IP (R369). -/
abbrev TWIN_BCN_IP : Nat := 0x0B004C
/-- TWIN block, TWIN_BCN_CFG (R369). -/
abbrev TWIN_BCN_CFG : Nat := 0x0B0050

/-- The registers of the TWIN block. -/
def rowsTWIN : List RegRow := [
  { off := TWIN_CFG, acc := .rw, rw := 0xE3000000#32 },
  { off := TWIN_POL, acc := .rw, rw := 0x1F#32, rst := 0x1F#32 },
  { off := TWIN_STATE, acc := .ro },
  { off := TWIN_STAT, acc := .w1c, w1c := 0xFFF#32 },
  { off := TWIN_IRQEN, acc := .rw, rw := 0xFFF#32 },
  { off := TWIN_CTRL, acc := .w1s },
  { off := TWIN_EPOCH, acc := .ro },
  { off := TWIN_PEER_EPOCH, acc := .ro },
  { off := TWIN_LAST_LO, acc := .ro },
  { off := TWIN_LAST_HI, acc := .ro },
  { off := TWIN_COMMIT_LO, acc := .ro },
  { off := TWIN_COMMIT_HI, acc := .ro },
  { off := TWIN_UNVER_LO, acc := .ro },
  { off := TWIN_UNVER_HI, acc := .ro },
  { off := TWIN_UNVER_N, acc := .ro },
  { off := TWIN_DIFF, acc := .ro },
  { off := TWIN_RESYNC, acc := .ro },
  { off := TWIN_LINK, acc := .ro },
  { off := TWIN_TAGERR, acc := .ro },
  { off := TWIN_BCN_IP, acc := .rw, rw := 0xFFFFFFFF#32 },
  { off := TWIN_BCN_CFG, acc := .rw, rw := 0xFFFF3F03#32 }]

/-- MEM block, MEM_STAT (R397). -/
abbrev MEM_STAT : Nat := 0x0C0000
/-- MEM block, MEM_CE_CNT (R397). -/
abbrev MEM_CE_CNT : Nat := 0x0C0004
/-- MEM block, MEM_UE_CNT (R397). -/
abbrev MEM_UE_CNT : Nat := 0x0C0008
/-- MEM block, MEM_UE_ADDR (R397). -/
abbrev MEM_UE_ADDR : Nat := 0x0C000C
/-- MEM block, MEM_ASSAY (R397). -/
abbrev MEM_ASSAY : Nat := 0x0C0010
/-- MEM block, MEM_ASSAY_RES (R397). -/
abbrev MEM_ASSAY_RES : Nat := 0x0C0014
/-- MEM block, MEM_ASSAY_MS (R397). -/
abbrev MEM_ASSAY_MS : Nat := 0x0C0018
/-- MEM block, MEM_REPAIRS (R397). -/
abbrev MEM_REPAIRS : Nat := 0x0C001C
/-- MEM block, MEM_SPARE_MIN (R397). -/
abbrev MEM_SPARE_MIN : Nat := 0x0C0020
/-- MEM block, MEM_CCLS0–3 (R397). -/
abbrev MEM_CCLS : Nat := 0x0C0040
/-- MEM block, MEM_KCLS0–15 (R397). -/
abbrev MEM_KCLS : Nat := 0x0C0080

/-- The registers of the MEM block. -/
def rowsMEM : List RegRow := [
  { off := MEM_STAT, acc := .w1c, w1c := 0xF#32 },
  { off := MEM_CE_CNT, acc := .ro },
  { off := MEM_UE_CNT, acc := .ro },
  { off := MEM_UE_ADDR, acc := .ro },
  { off := MEM_ASSAY, acc := .rw, rw := 0x800000FF#32, rst := 0x8000000A#32 },
  { off := MEM_ASSAY_RES, acc := .ro },
  { off := MEM_ASSAY_MS, acc := .ro },
  { off := MEM_REPAIRS, acc := .ro },
  { off := MEM_SPARE_MIN, acc := .ro, rst := 0x4#32 },
  { off := MEM_CCLS, cnt := 4, acc := .rw, rw := 0xFFFFFFFF#32 },
  { off := MEM_KCLS, cnt := 16, acc := .rw, rw := 0xFFFFFFFF#32, rst := 0xFFFFFFFF#32 }]

/-- FAB block, FAB_STAT (R423). -/
abbrev FAB_STAT : Nat := 0x0D0000
/-- FAB block, FAB_ERR_INFO (R423). -/
abbrev FAB_ERR_INFO : Nat := 0x0D0004
/-- FAB block, FAB_ERR_ADDR_LO (R423). -/
abbrev FAB_ERR_ADDR_LO : Nat := 0x0D0008
/-- FAB block, FAB_ERR_ADDR_HI (R423). -/
abbrev FAB_ERR_ADDR_HI : Nat := 0x0D000C
/-- FAB block, FAB_LOCK (R423). -/
abbrev FAB_LOCK : Nat := 0x0D0010
/-- FAB block, FAB_UNMAP_CNT (R423). -/
abbrev FAB_UNMAP_CNT : Nat := 0x0D0014
/-- FAB block, FAB_TMO_CNT (R423). -/
abbrev FAB_TMO_CNT : Nat := 0x0D0018

/-- The registers of the FAB block. -/
def rowsFAB : List RegRow := [
  { off := FAB_STAT, acc := .w1c, w1c := 0xF#32 },
  { off := FAB_ERR_INFO, acc := .ro },
  { off := FAB_ERR_ADDR_LO, acc := .ro },
  { off := FAB_ERR_ADDR_HI, acc := .ro },
  { off := FAB_LOCK, acc := .ro },
  { off := FAB_UNMAP_CNT, acc := .ro },
  { off := FAB_TMO_CNT, acc := .ro }]

/-- DMA block, DMA_SEL (R424). -/
abbrev DMA_SEL : Nat := 0x0E0000
/-- DMA block, DMA_CTRL (R424). -/
abbrev DMA_CTRL : Nat := 0x0E0004
/-- DMA block, DMA_HEAD_LO (R424). -/
abbrev DMA_HEAD_LO : Nat := 0x0E0008
/-- DMA block, DMA_HEAD_HI (R424). -/
abbrev DMA_HEAD_HI : Nat := 0x0E000C
/-- DMA block, DMA_STAT (R424). -/
abbrev DMA_STAT : Nat := 0x0E0010
/-- DMA block, DMA_RESID (R424). -/
abbrev DMA_RESID : Nat := 0x0E0014
/-- DMA block, DMA_CUR_LO (R424). -/
abbrev DMA_CUR_LO : Nat := 0x0E0018
/-- DMA block, DMA_CUR_HI (R424). -/
abbrev DMA_CUR_HI : Nat := 0x0E001C
/-- DMA block, DMA_DONE_CNT (R424). -/
abbrev DMA_DONE_CNT : Nat := 0x0E0020
/-- DMA block, DMA_GSTAT (R424). -/
abbrev DMA_GSTAT : Nat := 0x0E0040
/-- DMA block, DMA_IRQ (R424). -/
abbrev DMA_IRQ : Nat := 0x0E0044
/-- DMA block, DMA_IRQEN (R424). -/
abbrev DMA_IRQEN : Nat := 0x0E0048
/-- DMA block, DMA_CHAIN_MAX (R424). -/
abbrev DMA_CHAIN_MAX : Nat := 0x0E004C
/-- DMA block, DMA_ERR_ADDR_LO (R424). -/
abbrev DMA_ERR_ADDR_LO : Nat := 0x0E0050
/-- DMA block, DMA_ERR_ADDR_HI (R424). -/
abbrev DMA_ERR_ADDR_HI : Nat := 0x0E0054

/-- The registers of the DMA block. -/
def rowsDMA : List RegRow := [
  { off := DMA_SEL, acc := .rw, rw := 0xF#32 },
  { off := DMA_CTRL, acc := .w1s, sel := .dma },
  { off := DMA_HEAD_LO, acc := .rw, sel := .dma, rw := 0xFFFFFFE0#32 },
  { off := DMA_HEAD_HI, acc := .rw, sel := .dma, rw := 0xF#32 },
  { off := DMA_STAT, acc := .ro, sel := .dma },
  { off := DMA_RESID, acc := .ro, sel := .dma },
  { off := DMA_CUR_LO, acc := .ro, sel := .dma },
  { off := DMA_CUR_HI, acc := .ro, sel := .dma },
  { off := DMA_DONE_CNT, acc := .ro, sel := .dma },
  { off := DMA_GSTAT, acc := .w1c, w1c := 0x10000#32 },
  { off := DMA_IRQ, acc := .w1c, w1c := 0xFFFF#32 },
  { off := DMA_IRQEN, acc := .rw, rw := 0xFFFF#32 },
  { off := DMA_CHAIN_MAX, acc := .rw, rw := 0xFFFF#32, rst := 0x1000#32 },
  { off := DMA_ERR_ADDR_LO, acc := .ro },
  { off := DMA_ERR_ADDR_HI, acc := .ro }]

/-- ERR block, ERR_CTRL (R472). -/
abbrev ERR_CTRL : Nat := 0x0F0000
/-- ERR block, ERR_STAT (R472). -/
abbrev ERR_STAT : Nat := 0x0F0004
/-- ERR block, ERR_LOG_SEL (R472). -/
abbrev ERR_LOG_SEL : Nat := 0x0F0008
/-- ERR block, ERR_LOG_CNT (R472). -/
abbrev ERR_LOG_CNT : Nat := 0x0F000C
/-- ERR block, ERR_HEAD0–3 (R472). -/
abbrev ERR_HEAD : Nat := 0x0F0010
/-- ERR block, ERR_POP (R472). -/
abbrev ERR_POP : Nat := 0x0F0020
/-- ERR block, ERR_INJ_SLOT (R472). -/
abbrev ERR_INJ_SLOT : Nat := 0x0F0030
/-- ERR block, ERR_INJ_TGT (R472). -/
abbrev ERR_INJ_TGT : Nat := 0x0F0034
/-- ERR block, ERR_INJ_CTRL (R472). -/
abbrev ERR_INJ_CTRL : Nat := 0x0F0038
/-- ERR block, ERR_INJ_CNT (R472). -/
abbrev ERR_INJ_CNT : Nat := 0x0F003C
/-- ERR block, TEST_CMD (R472). -/
abbrev TEST_CMD : Nat := 0x0F0040
/-- ERR block, TEST_ARG (R472). -/
abbrev TEST_ARG : Nat := 0x0F0044
/-- ERR block, TEST_RES0 (R472). -/
abbrev TEST_RES0 : Nat := 0x0F0048
/-- ERR block, TEST_RES1 (R472). -/
abbrev TEST_RES1 : Nat := 0x0F004C
/-- ERR block, TEST_RES2 (R472). -/
abbrev TEST_RES2 : Nat := 0x0F0050
/-- ERR block, TEST_RES3 (R472). -/
abbrev TEST_RES3 : Nat := 0x0F0054

/-- The registers of the ERR block. -/
def rowsERR : List RegRow := [
  { off := ERR_CTRL, acc := .rw, rw := 0xF#32, rst := 0x2#32 },
  { off := ERR_STAT, acc := .w1c, w1c := 0x7F8F#32 },
  { off := ERR_LOG_SEL, acc := .rw, rw := 0x7#32, rst := 0x7#32 },
  { off := ERR_LOG_CNT, acc := .ro },
  { off := ERR_HEAD, cnt := 4, acc := .ro },
  { off := ERR_POP, acc := .wo },
  { off := ERR_INJ_SLOT, acc := .rw, rw := 0x7#32 },
  { off := ERR_INJ_TGT, acc := .rw, sel := .inj, rw := 0xFFFFFFF0#32 },
  { off := ERR_INJ_CTRL, acc := .rw, sel := .inj, rw := 0xB#32, w1c := 0x10#32 },
  { off := ERR_INJ_CNT, acc := .ro, sel := .inj },
  { off := TEST_CMD, acc := .wo },
  { off := TEST_ARG, acc := .rw, rw := 0xFFFFFFFF#32 },
  { off := TEST_RES0, acc := .ro },
  { off := TEST_RES1, acc := .ro },
  { off := TEST_RES2, acc := .ro },
  { off := TEST_RES3, acc := .ro }]

/-- HOST block, HOST_CFG (R486). -/
abbrev HOST_CFG : Nat := 0x100000
/-- HOST block, HOST_STAT (R486). -/
abbrev HOST_STAT : Nat := 0x100004
/-- HOST block, HOST_LINK (R486). -/
abbrev HOST_LINK : Nat := 0x100008
/-- HOST block, HOST_DWIN (R486). -/
abbrev HOST_DWIN : Nat := 0x10000C
/-- HOST block, HOST_LOCK (R486). -/
abbrev HOST_LOCK : Nat := 0x100010
/-- HOST block, QSPI_CFG (R486). -/
abbrev QSPI_CFG : Nat := 0x100020
/-- HOST block, QSPI_CMD (R486). -/
abbrev QSPI_CMD : Nat := 0x100024
/-- HOST block, QSPI_ADDR (R486). -/
abbrev QSPI_ADDR : Nat := 0x100028
/-- HOST block, QSPI_STAT (R486). -/
abbrev QSPI_STAT : Nat := 0x10002C
/-- HOST block, QSPI_BUF0–63 (R486). -/
abbrev QSPI_BUF : Nat := 0x100100
/-- HOST block, MSIX_TBL (R486). -/
abbrev MSIX_TBL : Nat := 0x108000
/-- HOST block, MSIX_PBA (R486). -/
abbrev MSIX_PBA : Nat := 0x109000

/-- The registers of the HOST block. -/
def rowsHOST : List RegRow := [
  { off := HOST_CFG, acc := .rw, rw := 0x1#32 },
  { off := HOST_STAT, acc := .w1c, w1c := 0xF#32 },
  { off := HOST_LINK, acc := .ro },
  { off := HOST_DWIN, acc := .rw, rw := 0x7F#32 },
  { off := HOST_LOCK, acc := .rw, rw := 0xF#32 },
  { off := QSPI_CFG, acc := .rw, rw := 0x80000F0F#32 },
  { off := QSPI_CMD, acc := .wo },
  { off := QSPI_ADDR, acc := .rw, rw := 0xFFFFFFFF#32 },
  { off := QSPI_STAT, acc := .ro },
  { off := QSPI_BUF, cnt := 64, acc := .rw, rw := 0xFFFFFFFF#32 },
  { off := MSIX_TBL, cnt := 256, acc := .rw, rw := 0xFFFFFFFF#32 },
  { off := MSIX_PBA, cnt := 2, acc := .ro }]

/-- SLATE block, SLATE_CMD (R398). -/
abbrev SLATE_CMD : Nat := 0x110000
/-- SLATE block, SLATE_SRC (R398). -/
abbrev SLATE_SRC : Nat := 0x110004
/-- SLATE block, SLATE_LEN (R398). -/
abbrev SLATE_LEN : Nat := 0x110008
/-- SLATE block, SLATE_STAT (R398). -/
abbrev SLATE_STAT : Nat := 0x11000C
/-- SLATE block, SLATE_SEQ0 (R398). -/
abbrev SLATE_SEQ0 : Nat := 0x110010
/-- SLATE block, SLATE_SEQ1 (R398). -/
abbrev SLATE_SEQ1 : Nat := 0x110014
/-- SLATE block, SLATE_LOGHEAD (R398). -/
abbrev SLATE_LOGHEAD : Nat := 0x110018

/-- The registers of the SLATE block. -/
def rowsSLATE : List RegRow := [
  { off := SLATE_CMD, acc := .wo },
  { off := SLATE_SRC, acc := .rw, rw := 0x7FFFC0#32 },
  { off := SLATE_LEN, acc := .rw, rw := 0xFFFFFFFF#32 },
  { off := SLATE_STAT, acc := .ro },
  { off := SLATE_SEQ0, acc := .ro },
  { off := SLATE_SEQ1, acc := .ro },
  { off := SLATE_LOGHEAD, acc := .ro }]

/-- GEODE block, GEODE_STAT (R399). -/
abbrev GEODE_STAT : Nat := 0x120000
/-- GEODE block, GEODE_CMD (R399). -/
abbrev GEODE_CMD : Nat := 0x120004
/-- GEODE block, GEODE_SRC (R399). -/
abbrev GEODE_SRC : Nat := 0x120008
/-- GEODE block, GEODE_LCREQ (R399). -/
abbrev GEODE_LCREQ : Nat := 0x12000C
/-- GEODE block, GEODE_PUB (R399). -/
abbrev GEODE_PUB : Nat := 0x120100
/-- GEODE block, GEODE_ROOT (R399). -/
abbrev GEODE_ROOT : Nat := 0x120180

/-- The registers of the GEODE block. -/
def rowsGEODE : List RegRow := [
  { off := GEODE_STAT, acc := .w1c, w1c := 0x10F#32 },
  { off := GEODE_CMD, acc := .wo },
  { off := GEODE_SRC, acc := .rw, rw := 0x7FFFF0#32 },
  { off := GEODE_LCREQ, acc := .wo },
  { off := GEODE_PUB, cnt := 24, acc := .ro },
  { off := GEODE_ROOT, cnt := 12, acc := .ro }]

/-- DRAM block, DRAM_CFG (R400). -/
abbrev DRAM_CFG : Nat := 0x130000
/-- DRAM block, DRAM_STAT (R400). -/
abbrev DRAM_STAT : Nat := 0x130004
/-- DRAM block, DRAM_SIZE (R400). -/
abbrev DRAM_SIZE : Nat := 0x130008
/-- DRAM block, DRAM_CE_CNT (R400). -/
abbrev DRAM_CE_CNT : Nat := 0x13000C
/-- DRAM block, DRAM_UE_CNT (R400). -/
abbrev DRAM_UE_CNT : Nat := 0x130010

/-- The registers of the DRAM block. -/
def rowsDRAM : List RegRow := [
  { off := DRAM_CFG, acc := .rw, eff := .reset, rw := 0xEF0F0101#32 },
  { off := DRAM_STAT, acc := .ro },
  { off := DRAM_SIZE, acc := .ro },
  { off := DRAM_CE_CNT, acc := .ro },
  { off := DRAM_UE_CNT, acc := .ro }]

/-- PIN block, PIN_VIO (R512). -/
abbrev PIN_VIO : Nat := 0x140000
/-- PIN block, PIN_STAT (R512). -/
abbrev PIN_STAT : Nat := 0x140004
/-- PIN block, PIN_DRV_SAP0–2 (R512). -/
abbrev PIN_DRV_SAP : Nat := 0x140010
/-- PIN block, PIN_DRV_MISC (R512). -/
abbrev PIN_DRV_MISC : Nat := 0x14001C
/-- PIN block, PIN_PULL (R512). -/
abbrev PIN_PULL : Nat := 0x140020

/-- The registers of the PIN block. -/
def rowsPIN : List RegRow := [
  { off := PIN_VIO, acc := .ro },
  { off := PIN_STAT, acc := .w1c, w1c := 0x3F#32 },
  { off := PIN_DRV_SAP, cnt := 3, acc := .rw, rw := 0xFFFFFFFF#32, rst := 0x55555555#32 },
  { off := PIN_DRV_MISC, acc := .rw, rw := 0x3FFF#32, rst := 0x1555#32 },
  { off := PIN_PULL, acc := .rw, rw := 0x3F#32 }]

/-- Every row of the map. -/
def rows : List RegRow :=
  rowsSYS ++ rowsRST ++ rowsPWR ++ rowsTIME ++ rowsREF ++ rowsPORT ++ rowsNET ++ rowsPATCH ++ rowsMIX ++ rowsENG ++ rowsCALL ++ rowsTWIN ++ rowsMEM ++ rowsFAB ++ rowsDMA ++ rowsERR ++ rowsHOST ++ rowsSLATE ++ rowsGEODE ++ rowsDRAM ++ rowsPIN

/-- Reset contents of REF_CCMAP0–9 (R318). -/
def ccmapReset : List Word :=
  [0x8000060F#32, 0x8000070D#32, 0x80000D0E#32, 0x80000E0C#32, 0x80003409#32,
   0x80003A07#32, 0x8000BB05#32, 0x8000C106#32, 0x8000F804#32, 0x8000FF00#32]

/-- Number of blocks of the register space (R481). -/
abbrev blocks : Nat := 21

/-- The row that holds a register-space offset. -/
def rowAt (off : Nat) : Option RegRow := rows.find? fun r => r.off ≤ off && off < r.off + 4 * r.cnt && (off - r.off) % 4 == 0

end Reg

/-- Key of a register's stored value: its offset, plus 2²⁴ for each instance number. -/
def regKey (off inst : Nat) : Nat := off + 16777216 * inst

end Sys2Proof.Machine
end

