-- ==== Sys2Proof/Machine/State.lean ====
section
/-! DEFINITION. The state of the ET9640 as plain data: registers, memories, the records of every unit, the command queue
and the model's own counter of free values. Each field names the rule of spec/ that gives it. -/

namespace Sys2Proof.Machine

/-- Why the model stops with a fault. No command of this model raises one: every error the spec names is a record, a
status bit or an answer on the fabric, and is part of the next state. -/
inductive Fault where
  /-- Raised by nothing; kept so that the type is inhabited (safe: a stop allows no false claim). -/
  | none
  deriving DecidableEq, Repr

/-- Why the model refuses a command. -/
inductive Refusal where
  /-- Raised by an arm of `exec` whose command has no meaning in the model (safe: nothing is claimed of it). -/
  | notModelled (mnemonic : String)
  deriving DecidableEq, Repr

/-- The six modes (R22), in the code order of PWR_MODE.CUR (R454). -/
inductive Mode where
  | dormant | retain | recovery | service | shadow | live
  deriving DecidableEq, Repr

/-- A published result block (R471): validity, publication count and the words after word 0. -/
structure Result where
  valid : Bool := false
  gen : Nat := 0
  words : List Word := []
  deriving DecidableEq, Repr

/-- What the device sends or drives outward, in order: the record of its outputs. -/
inductive Out where
  /-- MSI-X message of a vector: its address and data (R484). -/
  | msix (vec : Nat) (addr : BitVec 64) (data : Word)
  /-- PCI Express completion of a read (R477): the bytes, or Completer Abort. -/
  | completion (bytes : List Byte) (abort : Bool)
  /-- Configuration Request Retry Status, or a configuration completion (R475). -/
  | config (retry : Bool)
  /-- Bytes on SPIS_MISO (R478). -/
  | miso (bytes : List Byte)
  /-- Answer of the fabric to a burst: response code (R406) and read data. -/
  | fabric (master : Master) (resp : BitVec 2) (data : List Byte)
  /-- A QSPI command on the flash pins (R479, R486). -/
  | qspi (cmd : Word) (addr : Word) (data : List Byte)
  /-- A read of the boot flash by the ROM (R479): opcode, quad data, dummy cycles, SCK in Hz, flash address and length. -/
  | flash (opcode : Byte) (quad : Bool) (dummy hz addr len : Nat)
  /-- A network frame sent on a port by the access layer: kind and the fields the spec names (10). -/
  | frame (port : Nat) (kind : Nat) (fields : List Nat) (payload : List Byte)
  /-- Words that a serial port or a transmit stream emits in a stroke (R261, R272, R306); those of a port as its slots carry them. -/
  | emit (unit : Nat) (words : List Word)
  /-- The clocks that a master port drives from the CATCH of a stroke (R252, R254): BCLK in Hz, frames per stroke, the width of the FS pulse
  in BCLK periods, whether FS starts a frame on its rising edge, and whether DO is launched on the falling edge of BCLK. -/
  | sapClk (port bclk frames pulse : Nat) (rising fall : Bool)
  /-- The clock that a PDM group drives, in Hz (R280). -/
  | pdmClk (group hz : Nat)
  /-- The clock that output `i` drives over a stroke (R331–R334): rising edges a second, the time it is high and the displacement of
  its edges from the grid of system time, both in 2⁻¹⁶ ns. -/
  | ckout (i hz high : Nat) (pos : Int)
  /-- The data bits of a pin word on LEASE_OUT (R342). -/
  | pinWord (bits : BitVec 8)
  /-- A Twin Link frame as its bytes (R367). -/
  | link (bytes : List Byte)
  deriving DecidableEq, Repr

/-! ## Errors, injection and self-test (16) -/

/-- A record of a log (R460). `at` is the full stroke counter and `win` the coalescing window of R462 in which it was made. -/
structure LogRec where
  source : BitVec 16
  code : BitVec 12
  sev : Sev
  inj : Bool
  noStroke : Bool
  count : Nat
  seq : BitVec 16
  stroke : BitVec 64
  win : Nat
  info : Word
  deriving DecidableEq, Repr

/-- A log (R461, R463): records oldest first, records lost, and the sequence number of the next record. -/
structure Log where
  recs : List LogRec := []
  lost : Nat := 0
  seq : BitVec 16 := 0#16
  deriving DecidableEq, Repr

/-- An injection slot (R465): ERR_INJ_TGT and ERR_INJ_CTRL's fields, and ERR_INJ_CNT. -/
structure InjSlot where
  tgt : Word := 0#32
  mode : BitVec 2 := 0#2
  act : Bool := false
  fired : Bool := false
  bad : Bool := false
  cnt : Nat := 0
  deriving DecidableEq, Repr

/-- Error collection, injection and self-test (16). `logs` 0–6 are the region logs and 7 the chip log; `win` numbers the
100 µs window of R462; the rest is the running test and its result block (R468, R472). -/
structure ErrState where
  logs : Vector Log 8 := Vector.replicate 8 {}
  win : Nat := 0
  inj : Vector InjSlot 8 := Vector.replicate 8 {}
  testBusy : Bool := false
  testKind : Nat := 0
  testArg : Word := 0#32
  res : Result := {}
  resStatus : Nat := 0
  resKind : Nat := 0
  deriving DecidableEq, Repr

/-! ## Strokes and calls (02) -/

/-- A receipt (R62); `irq` is FLAGS.IRQ of its call (R50). -/
structure Receipt where
  id : Word
  status : Nat
  reason : Nat
  stroke : BitVec 64
  irq : Bool := false
  deriving DecidableEq, Repr

/-- A run of fabric addresses (R31, R52). -/
structure Area where
  lo : Nat
  len : Nat
  deriving DecidableEq, Repr

/-- An accepted call (R53, R54): its record, the stroke of acceptance, the stroke it is to be applied at, whether its receipt
will read LATE, whether it is under policy REJECT and the areas its acceptance armed; `armed` marks a SCENE_ARM applied at its
fork start (R232). -/
structure Pend where
  call : CallRec
  acc : BitVec 64
  due : BitVec 64
  late : Bool
  rej : Bool := false
  arms : List Area := []
  armed : Bool := false
  deriving DecidableEq, Repr

/-- The call unit (R50–R66). -/
structure CallState where
  prod : BitVec 17 := 0#17
  rd : BitVec 17 := 0#17
  rcptWr : BitVec 17 := 0#17
  rcptLost : Nat := 0
  accepted : Nat := 0
  pend : List Pend := []
  wu : Nat := 0
  owed : List Receipt := []
  deriving DecidableEq, Repr

/-! ## The Apion core (03, 04) -/

/-- An open loop level (R89): first and last bundle of the body, remaining count and the count its LOOP loaded. -/
structure LoopLv where
  start : Nat
  stop : Nat
  cnt : Nat
  reload : Nat
  deriving DecidableEq, Repr

/-- A bundle (R110): the compute and transfer opcodes with their fields, and the transfer syllable as the immediate. -/
structure Bundle where
  copc : BitVec 6
  cf : CSyl
  topc : BitVec 5
  tf : TSyl
  imm : Word
  deriving DecidableEq, Repr

/-- What a core does (R103–R108). -/
inductive CoreRun where
  | reset
  | running
  | atBarrier (k : Nat)
  | putHeld
  | getHeld
  | loadHeld
  | draining
  | asleep
  | stopped
  | halted
  deriving DecidableEq, Repr

/-- One entry of a store queue (R99, R136): word addresses (R83) with the words stored, in order. -/
abbrev StoreEnt := List (Nat × Word)

/-- One Apion core (R69, R72, R94, R99, R104, R106). `loops` holds the open levels, outer first; LC0 and LC1 are their
counts. `pc` is 4096 after bundle 4,095 (R109). `held` is the bundle that a mailbox (R106) or an input block not yet written (R515) holds;
`crewTry` and `winTry` count the retries of a queue's head after COLLIDED (R374); `paused` is what the core did when a debug
access halted it. -/
structure Core where
  d : Vector Word 32 := Vector.replicate 32 0#32
  acc : Vector (BitVec 80) 4 := Vector.replicate 4 0#80
  a : Vector (BitVec 24) 16 := Vector.replicate 16 0#24
  m : Vector (BitVec 24) 16 := Vector.replicate 16 0#24
  b : Vector (BitVec 24) 8 := Vector.replicate 8 0#24
  l : Vector (BitVec 24) 8 := Vector.replicate 8 0#24
  p : BitVec 8 := 1#8
  loops : List LoopLv := []
  pc : Nat := 0
  stat : Word := 0#32
  scale : Word := 0#32
  bxd : Word := 0#32
  stroke : Word := 0#32
  cwb : Word := 0#32
  rets : List Nat := []
  run : CoreRun := .reset
  crewQ : List StoreEnt := []
  winQ : List StoreEnt := []
  crewTry : Nat := 0
  winTry : Nat := 0
  mbox : List Word := []
  held : Option Bundle := none
  mover : Vector Nat 4 := Vector.replicate 4 0
  cyc : Nat := 0
  cycMax : Nat := 0
  faultPc : Nat := 0
  faultCode : BitVec 12 := 0#12
  paused : CoreRun := .reset
  deriving DecidableEq, Repr

/-- A crew's units: arrivals at barriers 0–7 by cell bit (R105) and the bank arbitration of R14 and R519 (the priority
holder of each bank, 0–7 the cores and 8 the mover). -/
structure Crew where
  arrived : Vector (BitVec 8) 8 := Vector.replicate 8 0#8
  prio : Vector Nat 16 := Vector.replicate 16 0
  deriving DecidableEq, Repr

/-! ## Memories (13) -/

/-- A row of SRAM (R371, R387): kind, instance, bank and row. -/
structure RowId where
  kind : MemKind
  inst : Nat
  bank : Nat
  row : Nat
  deriving DecidableEq, Repr

/-- A repair (R380, R387): a row served by a spare row of its bank. -/
structure Repair where
  at_ : RowId
  spare : Nat
  deriving DecidableEq, Repr

/-- An Assay engine (R378, R379): whether a pass runs, the row it has borrowed and the last row it took. The buffer and the row hold the same
64 words while the row is borrowed, so the memory itself stands for both. -/
structure Assay where
  pass : Bool := false
  borrowed : Option RowId := none
  last : Option RowId := none
  deriving DecidableEq, Repr

/-- A write burst that met another write in a CONTROL area (R374), and the retries so far. -/
structure Collided where
  b : Burst
  tries : Nat
  deriving DecidableEq, Repr

/-- SRAM service state (R372–R382, R397). `hold` lists the carry words whose hold bit is set, by fabric address (R377);
`ecc` marks words whose stored check bits show a single (1) or a double (2) error. -/
structure MemState where
  ecc : Tab Nat := []
  hold : Tab Bool := []
  ce : Nat := 0
  ue : Nat := 0
  ueAddr : Word := 0#32
  assay : Vector Assay 8 := Vector.replicate 8 {}
  assayRes : Result := {}
  repairs : List Repair := []
  bad : List RowId := []
  repaired : Nat := 0
  clearing : List MemKind := []
  collided : List Collided := []
  deriving DecidableEq, Repr

/-- A STORE into Slate that is running (R385, R388). -/
structure SlateRun where
  item : Nat
  src : Nat
  len : Nat
  deriving DecidableEq, Repr

/-- Slate's controller (R383–R388, R398). -/
structure SlateState where
  run : Option SlateRun := none
  done : Bool := false
  item : Nat := 0
  status : Nat := 0
  logHead : Nat := 0
  repairSeq : Nat := 0
  deriving DecidableEq, Repr

/-- Geode (R389–R392): the key slots, the slots as beacons use them in this stroke (R342), the root digest and the identity key pair (empty: not there), and the wipe causes to be
logged at the next reset release. The life cycle lies in Slate. -/
structure GeodeState where
  keys : Vector (List Byte) 4 := Vector.replicate 4 []
  beaconKeys : Vector (List Byte) 4 := Vector.replicate 4 []
  root : List Byte := []
  idKey : List Byte := []
  idPub : List Byte := []
  wipeLog : Word := 0#32
  deriving DecidableEq, Repr

/-- The DRAM controller (R393–R395, R400). -/
structure DramState where
  cfg : Word := 0#32
  ready : Bool := false
  fail : Bool := false
  failStep : Nat := 0
  ce : Nat := 0
  ue : Nat := 0
  deriving DecidableEq, Repr

/-! ## The engine, its image, the matrix and the patch (01, 02, 05, 06, 07) -/

/-- Where the stroke stands (R30, R44): held in engine-reach reset, released and waiting for the first CATCH, between CATCH and
FINISH, or between FINISH and CATCH. -/
inductive Phase where
  | held | waiting | drive | finished
  deriving DecidableEq, Repr

/-- What the device keeps of a loaded engine image (R168–R171, R195, R225, R226, R516, R517). `own` holds the owner of each
of the 9,728 entries of the OWN section, 255 for none; `lat` the 1,920 strip words of the LAT section and `tgt` its group
targets; `cycles` the 16 worst cases, `fork` the fork capacities in kind order, `chain` the chain barriers of the crews;
`slices` the 16 slice words and `plane` the send-plane offset; `patch` the initial sink table; `kern` and `akern` the
bridge kernels. -/
structure Image where
  family : Bool
  format : Nat
  id : BitVec 64
  entry : List Nat
  barriers : List Nat
  own : List Nat
  lat : List Word
  tgt : List Nat
  cycles : List Nat
  fork : List Nat
  chain : List Nat
  plane : Nat
  slices : List Word
  patch : List Nat
  kern : List Int
  akern : List Int
  carry : Nat
  deriving DecidableEq, Repr

/-- Slip treatment (R48, R275, R276): none, silence with the clean windows or strokes counted, or ramp back at sample m. -/
inductive Treat where
  | none
  | silence (clean : Nat)
  | ramp (m : Nat)
  deriving DecidableEq, Repr

/-- The engine (R36, R42–R49, R167, R172). `img` is the loaded image and `fam` the family in force; `catchAt` the time of the last CATCH and `gridAt` that CATCH on the grid of R40 and R254, from which it is 2 µs late in
SHADOW (R357); `latched` the bank of each strip as latched there; `ovr` the
treatment of owned sinks (by sink), send-plane entries (8,192 + entry) and the bus outputs of a slice (9,728 + slice); `ovrAt` the recent overrun strokes and
`coreOvr` those of each core; `digest` R362's, of stroke `digestOf`. -/
structure EngState where
  stroke : BitVec 64 := 0#64
  tskew : Int := 0
  ovrCount : Nat := 0
  phase : Phase := .held
  detFirst : BitVec 64 := 0#64
  detBase : BitVec 64 := 0#64
  img : Option Image := none
  imgBad : Bool := false
  imgReason : Nat := 0
  fam : Option Bool := none
  catchAt : Time := 0
  gridAt : Time := 0
  latched : Tab Bool := []
  ovr : Tab Treat := []
  ovrAt : List (BitVec 64) := []
  coreOvr : Tab (List (BitVec 64)) := []
  digest : BitVec 64 := 0#64
  digestOf : BitVec 64 := 0#64
  deriving DecidableEq, Repr

/-- The mix matrix (R174–R197); its gain state, SRCMAP and sign store lie in matrix memory. `tselWas` is MIX_TSEL at the
previous CATCH, `out` the bus samples a slice holds until SLICE_DONE, `done` the slices that have signalled done and `doneMax`
MIX_DONE_MAX; `was` the matrix memory as the slices found it at CATCH and `lastOut` the last samples a slice's output block held
before SLICE_DONE (R185). -/
structure MixState where
  tsel : BitVec 16 := 0#16
  tselWas : BitVec 16 := 0#16
  out : Tab (List Word) := []
  done : BitVec 16 := 0#16
  doneMax : Nat := 0
  was : List Host.Cell := []
  lastOut : Tab (List Word) := []
  deriving DecidableEq, Repr

/-- A frozen block of a source or of an output sink (R28, R204): status and samples. -/
structure Blk where
  status : Nat := 3
  words : List Word := []
  deriving DecidableEq, Repr

/-- A sink, and the bridge channels, as they stood before the first ROUTE of a stroke to it (R210). -/
structure SameSink where
  x : Sink
  br : Tab (Option Bridge)
  deriving DecidableEq, Repr

/-- The patch (R199–R228). `blocks` holds the source blocks frozen at CATCH or published at FINISH, `now` those of the strip
sources that chained sinks take in the stroke (R203), `outBlk` the output-sink blocks published at
FINISH and `emitBlk` those frozen for emission; `same` keeps, until the next CATCH, each sink as it was before the first ROUTE
of the stroke (R210); `due` the input blocks of the stroke that the patch writes after a chain barrier (R515). -/
structure PatchState where
  sinks : Tab Sink := []
  bridges : Tab (Option Bridge) := []
  asrc : Tab Asrc := []
  blocks : Tab Blk := []
  now : Tab Blk := []
  outBlk : Tab Blk := []
  emitBlk : Tab Blk := []
  same : Tab (Option SameSink) := []
  due : List Area := []
  deriving DecidableEq, Repr

/-! ## Serial and PDM ports (09) -/

/-- State of a port (R267). -/
inductive PortSt where
  | off | idle | starting | running | stopping
  deriving DecidableEq, Repr

/-- A gate (R269): position p, ramp length in samples N and target. -/
structure Gate where
  p : Nat := 0
  n : Nat := 0
  up : Bool := true
  deriving DecidableEq, Repr

/-- Positions of the two gates at one sample, as gains in units of 2⁻³¹ (R269); 2³¹ passes the sample. -/
structure GatePos where
  run : Nat
  mute : Nat
  deriving DecidableEq, Repr

/-- A frame whose FS edge has been seen (R256): the edge's system time, its slot words and whether its framing was good. -/
structure Frame where
  t : Time
  words : List Word
  ok : Bool
  deriving DecidableEq, Repr

/-- What a port needs to emit the block of a stroke once the emit window has passed (R256, R272, R276): whether it emits data,
the gates by sample, the slot mask, whether the balls are driven, and the ramp of R346. -/
structure EmitPend where
  stroke : BitVec 64
  data : Bool
  gates : List GatePos
  mask : Word
  drive : Bool
  fade : Bool
  deriving DecidableEq, Repr

/-- The FS edges of a rate window (R264): its number in units of 100 ms, edge count, first and last edge. -/
structure EdgeWin where
  k : Nat := 0
  e : Nat := 0
  t1 : Time := 0
  t2 : Time := 0
  deriving DecidableEq, Repr

/-- A serial audio port (R251–R282). `cfg` is PORT_CFG in force; `fmeas` that φ has been measured; `phi` is φ in 2⁻¹⁶ ns;
`win` the frames not yet past both windows, oldest first; `lastw` the last delivered sample of each slot; `etreat` and `laste`
the emit side's treatment; `ew` and `ewWas` the rate window that counts and the one before; `oot` that the last publication was
out of tolerance; `ownPhase` that a member has left its group's phase (R277); `seen` what PORT_STATE shows; `inF` the frames of a FOREIGN port's last window
(R257); `muteWas` the MUTE gate before the first PORT_RAMP of the coming stroke (R273). -/
structure Port where
  cfg : Word := 0#32
  st : PortSt := .off
  held : Bool := true
  slots : Word := 0xFFFFFFFF#32
  phi : Int := 0
  fmeas : Bool := false
  run : Gate := {}
  mute : Gate := {}
  treat : Treat := .none
  clean : Nat := 0
  win : List Frame := []
  lastw : List Word := []
  etreat : Treat := .none
  laste : List Word := []
  emit : Option EmitPend := none
  stopped : Bool := false
  speed : Bool := false
  ew : EdgeWin := {}
  ewWas : EdgeWin := {}
  rate : Result := {}
  cls : Nat := 0
  oot : Bool := false
  ownPhase : Bool := false
  seen : Word := 0#32
  inF : Nat := 0
  muteWas : Option Gate := none
  deriving DecidableEq, Repr

/-- A scheduled GRP_GO or GRP_STOP of a group (R268): the stroke G and whether it starts. -/
structure GrpAct where
  g : BitVec 64
  grp : Nat
  go : Bool
  deriving DecidableEq, Repr

/-- A PDM stream (R281): its PDM_EN bit in force, strokes of settling left, its ramp gate, and whether it is past settling. -/
structure PdmStream where
  on : Bool := false
  settle : Nat := 0
  gate : Gate := {}
  live : Bool := false
  deriving DecidableEq, Repr

/-- A PDM_EN write and the stroke at whose CATCH it acts (R281). -/
structure PdmAct where
  g : BitVec 64
  en : Word
  deriving DecidableEq, Repr

/-- The port unit (R268, R277, R281, R282): the stroke at which ports and streams stand (R441), the scheduled group actions, the phase of each port alignment group, PDM_CFG in force
by group, the PDM groups held in reset. -/
structure PortState where
  ports : Vector Port 48 := Vector.replicate 48 {}
  stroke : BitVec 64 := 0#64
  grp : List GrpAct := []
  grpG : BitVec 64 := 0#64
  grpPhi : Tab (Option Int) := []
  pdmCfg : Word := 0#32
  pdmHeld : BitVec 4 := 15#4
  pdm : Vector PdmStream 32 := Vector.replicate 32 {}
  pdmAct : List PdmAct := []
  deriving DecidableEq, Repr

/-! ## Network and system time (10) -/

/-- The master of a PTP instance (R291): its port identity and data set. -/
structure PtpMaster where
  sender : BitVec 80
  data : PtpData
  deriving DecidableEq, Repr

/-- A two-step Sync that waits for its Follow_Up (R291): its sequence number, ingress stamp and correction. -/
structure PtpWait where
  seq : BitVec 16
  at_ : Time
  corr : Int
  deriving DecidableEq, Repr

/-- A PTP instance (R291–R293): its state (0 DISABLED, 1 LISTENING, 2 UNCALIBRATED, 3 SLAVE), consecutive good Syncs, OFS in
2⁻¹⁶ ns and the OFS with which that run of Syncs began, mean path delay (published in ns, `mpd` in 2⁻¹⁶ ns), its master and the master's data set as published (PTP_GM, clockIdentity,
whether there is one), the last Sync's master-to-slave difference `t21` and seconds, and its publication: `pubAt` is the stroke of the last
one. -/
structure Ptp where
  st : Nat := 0
  good : Nat := 0
  ofs : Int := 0
  base : Int := 0
  delay : Word := 0#32
  gm : Word := 0#32
  gmid : BitVec 64 := 0#64
  known : Bool := false
  master : Option PtpMaster := none
  wait : Option PtpWait := none
  t21 : Int := 0
  mpd : Int := 0
  sec : BitVec 48 := 0#48
  pub : Result := {}
  pubAt : Option (BitVec 64) := none
  deriving DecidableEq, Repr

/-- The ingress stamp of a packet of a pair, by its port and timestamp (R309). -/
structure PairStamp where
  port : Nat
  ts : Word
  at_ : Time
  deriving DecidableEq, Repr

/-- A stream entry in force (R299–R311). `en` is EN as the last CATCH read it, `on` that it passed its checks, `leave` that it has been disabled and delivers its last block (R303). `seq` holds the next sequence number each path expects, `late` the strokes with a
late sample that are not frozen, `pairs` the packets of a pair one port has delivered, by sequence number. -/
structure Stream where
  on : Bool := false
  en : Bool := false
  leave : Bool := false
  seq0 : Option (BitVec 16) := none
  seq1 : Option (BitVec 16) := none
  emax : Word := 0#32
  lateN : Nat := 0
  lost : Nat := 0
  stale : Nat := 0
  pdiff : Word := 0#32
  pub : Result := {}
  late : List Nat := []
  pairs : Tab PairStamp := []
  deriving DecidableEq, Repr

/-- A sample held in the jitter store (R302, R311): its media index and the epoch it came with. -/
structure Stored where
  m : Nat
  epoch : Word
  deriving DecidableEq, Repr

/-- Slip treatment of a receive channel (R303). -/
structure RxTreat where
  treat : Treat := .none
  lastw : Word := 0#32
  deriving DecidableEq, Repr

/-- The network and time blocks. `now` is system time at the last command that gave it, `held` H of R294 and `split` the D of
R295 in 2⁻¹⁶ ns; `waitHost` that the followed instance failed in a split, so that the selector waits for the host (R295, R323); `streams` the entries by STREAM_SEL value; `marks` the jitter store's contents by channel × 1,024 + word;
`txbuf` the samples of a transmit channel not yet sent, newest first. -/
structure NetState where
  now : Time := 0
  held : Int := 0
  isSplit : Bool := false
  split : Int := 0
  splitOk : Bool := false
  waitHost : Bool := false
  ptp : Vector Ptp 2 := Vector.replicate 2 {}
  up : Vector Bool 2 := Vector.replicate 2 false
  streams : Tab Stream := []
  marks : Tab (Option Stored) := []
  rxt : Tab RxTreat := []
  txbuf : Tab (List Word) := []
  rxWr : BitVec 11 := 0#11
  txProd : BitVec 11 := 0#11
  txRd : BitVec 11 := 0#11
  deriving DecidableEq, Repr

/-- What the snapshots of R197, R227, R228 and R488 show: the matrix memory, MIX_TSEL, sinks, cores and the ratios of
the asynchronous channels as at the last FINISH, with what the domains of R201 follow from. -/
structure FinView where
  mat : List Host.Cell := []
  tsel : BitVec 16 := 0#16
  sinks : Tab Sink := []
  core : Tab (Word × Nat × Nat) := []
  ratio : Tab Word := []
  ports : Vector Port 48 := Vector.replicate 48 {}
  asrc : Tab Asrc := []
  streams : Tab Stream := []
  act : Tab Word := []
  deriving DecidableEq, Repr

/-! ## References and clock outputs (11) -/

/-- A reference (R319, R320): state (0 OFF, 1 LOS, 2 PENDING, 3 QUALIFIED), QL in force, windows counted, FOFS and phase of the
last window, publication, `lastQl` the QL of the last valid quality word, `wql` the QL
the words give and `sig` that edges arrive. -/
structure RefSt where
  st : Nat := 0
  ql : Nat := 0
  run : Nat := 0
  fofs : Word := 0#32
  phs : Word := 0#32
  gen : Nat := 0
  valid : Bool := false
  lastQl : Option Nat := none
  wql : Nat := 0
  sig : Bool := false
  deriving DecidableEq, Repr

/-- A clock output (R331–R334): the alignment and offset in force, whether it has lost its input, whether it was enabled at the last CATCH
(`on`), drives its ball (`run`) or has been disabled since it last ran (`low`), the displacement of its edges from the grid of system time in 2⁻¹⁶ ns and where
they belong (`pos`, `goal`), and the CKOUT_CFG whose alignment has been found impossible (`bad`, R332). -/
structure Ckout where
  align : Nat := 0
  ofs : Int := 0
  lost : Bool := false
  on : Bool := false
  run : Bool := false
  low : Bool := false
  pos : Int := 0
  goal : Int := 0
  bad : Option Word := none
  deriving DecidableEq, Repr

/-- The selector, the DPLL (R322–R327: 0 FREERUN, 1 ACQUIRING, 2 LOCKED, 3 HOLDOVER) and the clock outputs. `slew` is the step
of R325 in progress (0 none; under 1 `freq` moves to its target also where no reference is followed), `bo` the built-out offset in ns, `freq` the frequency of system time in Q24.8 ppb, `locks` the
consecutive windows within the lock limits, `windows` the frequencies of windows spent in LOCKED (newest first), `hov` that the
estimate is valid with `hofs` and `hwin`; `firstDone` that system time has been set after
the release (R451); `disag` that REF_DISAGREE has been logged in this window; `intOsc` that the internal oscillator runs
system time (R330); `loCfg` is LO_CFG in force (R6, R446). -/
structure RefState where
  refs : Vector RefSt 4 := Vector.replicate 4 {}
  dpll : Nat := 0
  sel : Option Nat := none
  slew : Nat := 0
  bo : Int := 0
  freq : Int := 0
  locks : Nat := 0
  windows : List Int := []
  hov : Bool := false
  hofs : Int := 0
  hwin : Nat := 0
  firstDone : Bool := false
  disag : Bool := false
  intOsc : Bool := false
  xinBack : Bool := true
  loCfg : Word := 0#32
  ck : Vector Ckout 7 := Vector.replicate 7 {}
  deriving DecidableEq, Repr

/-! ## Twin (12) -/

/-- What a member last heard of its peer on one path (R341, R343, R356). -/
structure PathSt where
  seen : Bool := false
  stroke : BitVec 64 := 0#64
  flags : TwinFlags := { hold := false, ready := false, inSync := false, handover := false, seat := false }
  lost : Bool := false
  deriving DecidableEq, Repr

/-- A FREEZE frame as received (R358): its stroke, block statuses, ratios and treatment states. -/
structure FrzRx where
  stroke : BitVec 64
  blocks : List (Nat × BitVec 2 × BitVec 8)
  ratios : List (Nat × Word)
  treats : List SrcTreat
  deriving DecidableEq, Repr

/-- The twin unit (R338–R369). `last` is L (R343) and `age` the strokes since it at the last FINISH; `epoch` and `peerEpoch`
the cox epochs (R344, R345); `offer` the stroke this holder offers cox for (R349); `take` the stroke at whose CATCH this
shadow acquires (R350, R351); `release` the stroke at whose CATCH the holder stops after self-diagnosis; `yield` a yield's ramp stroke (R346);
`inRx`, `frzRx`, `carryBad`, `callsIn` and `rdIn` hold what the shadow has received of a shipment (R358–R360), `secOf` and `secBad` the stroke
of the state section and that it has lost a frame; `lanes` the lanes in block lock, `seq` SEQ of the next frame (R367) and `skey` the session
key (R368); `resync` and the
`rs` fields the resync (R364). -/
structure TwinState where
  hold : Bool := false
  inSync : Bool := false
  diag : Bool := false
  peerSeen : Bool := false
  unver : Bool := false
  last : BitVec 64 := 0#64
  paths : Vector PathSt 3 := Vector.replicate 3 {}
  epoch : Word := 0#32
  peerEpoch : Word := 0#32
  offer : Option (BitVec 64) := none
  take : Option (BitVec 64) := none
  release : Option (BitVec 64) := none
  yield : Option (BitVec 64) := none
  expired : Bool := false
  commit : BitVec 64 := 0#64
  unverAt : BitVec 64 := 0#64
  unverN : Nat := 0
  diff : Option Nat := none
  up : Bool := false
  lanes : BitVec 4 := 0#4
  seq : BitVec 64 := 0#64
  skey : List Byte := []
  crypt : Bool := false
  rate : Bool := false
  downs : Nat := 0
  tagErr : Nat := 0
  imageDiff : Bool := false
  seatClash : Bool := false
  nonce : List Byte := []
  peerNonce : List Byte := []
  inRx : List InputBlock := []
  frzRx : Option FrzRx := none
  carryBad : Option Nat := none
  callsIn : List Pend := []
  rdIn : Option (BitVec 17) := none
  secOf : Option (BitVec 64) := none
  secBad : Bool := false
  age : Nat := 0
  resync : Bool := false
  rsCut : Option (BitVec 64) := none
  rsReset : Bool := false
  rsSent : Nat := 0
  deriving DecidableEq, Repr

/-! ## Fabric and DMA (14) -/

/-- The fabric (R402–R413). Locks, broken locks and the address of the burst in progress by lock target (0 central memory,
1 matrix memory, 2 register bridge); `last` the master that last held each target port (R408), SC where parked (R409), and `taken`
its consecutive bursts;
`wait` the accesses of other masters that wait for a locked port (R410). -/
structure FabState where
  lock : Vector (Option Nat) 3 := Vector.replicate 3 none
  broken : Vector (Option Nat) 3 := Vector.replicate 3 none
  lastAddr : Vector Nat 3 := Vector.replicate 3 0
  lastWr : Vector Bool 3 := Vector.replicate 3 false
  last : Vector Nat 9 := Vector.replicate 9 0
  taken : Vector Nat 9 := Vector.replicate 9 0
  info : Word := 0#32
  addr : Nat := 0
  unmap : Nat := 0
  tmo : Nat := 0
  wait : List Instr := []
  deriving DecidableEq, Repr

/-- A DMA descriptor (R414). -/
structure Desc where
  src : Nat
  dst : Nat
  len : Nat
  circ : Bool
  irq : Bool
  mode : Nat
  sx : Bool
  next : Nat
  bad : Bool
  deriving DecidableEq, Repr

/-- A DMA channel (R417–R422): `cur` the address of the current or last descriptor, `desc` that descriptor once fetched, `circ`
the head's CIRC, `fetched` the descriptors taken since START, `aborting` that ABORT waits for the bursts in flight. -/
structure DmaCh where
  busy : Bool := false
  code : Nat := 0
  resid : Nat := 0
  cur : Nat := 0
  desc : Option Desc := none
  circ : Bool := false
  fetched : Nat := 0
  done : Nat := 0
  aborting : Bool := false
  deriving DecidableEq, Repr

/-- The DMA engine (R417–R424). -/
structure DmaState where
  ch : Vector DmaCh 16 := Vector.replicate 16 {}
  errAddr : Nat := 0
  errResp : Nat := 0
  deriving DecidableEq, Repr

/-! ## Supply, modes, reset and boot (15), pins (18) -/

/-- What boot waits for (R445, R449). -/
inductive BootWait where
  | none | firmware | engine
  deriving DecidableEq, Repr

/-- A word of central memory to be written: byte offset and value (R450). -/
structure CentralWord where
  off : Nat
  val : Word
  deriving DecidableEq, Repr

/-- Modes, reset and boot. `rel` counts the domains released, in the order of R437; `rstout` that RSTOUT_N is driven low, from a SYSTEM
or DEEP source until the ports step completes (R440, R443); `deep`, `resetN`, `tamper` and `therm` are the sources that stay asserted;
`bootHold` and `modeHold` the ENGINE-reach holds; `newCause` the causes not yet logged (R456) and `thermLog` a trip to be logged at the
next release (R428), `thermInj` one that an injection made (R466); `step`, `result` and `wait` the boot's progress (R445, R455); `fw` that
firmware runs and `fwLen` the length of its envelope, after which the engine's follows in the flash (R447); `busy` a transition in progress to a mode and `modeRes` the last request's result (R454);
`op` the points of the divisions (R431) and `opcfg` the PWR_OPCFG they follow; `retCopy` the sink table of a RETAIN copy (R434);
`retained` that the device leaves
RETAIN; `go` that RST_BOOT_GO has handed over a buffer (R445) `ramped` that the ramp of a mode being left has begun (R433);
`late` the settings' central-memory entries that step 4 still writes (R450);
`mon` the result block of PWR_MON; `vio` the I/O banks below their threshold and `vioCls` the class each bank senses
(R493). -/
structure SysState where
  mode : Mode := .recovery
  straps : Straps := { seat := false, twinEn := false, bootSrc := 0#2, hostif := false }
  rel : Nat := 0
  rstout : Bool := true
  deep : Bool := false
  resetN : Bool := false
  tamper : Bool := false
  therm : Bool := false
  bootHold : Bool := true
  modeHold : Bool := false
  newCause : Word := 0#32
  thermLog : Bool := false
  thermInj : Bool := false
  step : Nat := 0
  result : Nat := 0
  wait : BootWait := .none
  fw : Bool := false
  fwLen : Nat := 0
  busy : Option Mode := none
  modeRes : Nat := 0
  op : Vector Nat 4 := Vector.replicate 4 0
  opcfg : Word := 0#32
  retCopy : Option (Tab Sink) := none
  retained : Bool := false
  go : Bool := false
  ramped : Bool := false
  late : List CentralWord := []
  mon : Result := {}
  vio : BitVec 6 := 0#6
  vioCls : Vector Nat 6 := Vector.replicate 6 0
  deriving DecidableEq, Repr

/-! ## Host interface (17) -/

/-- The host ports (R473–R487). `up`, `speed`, `width` and `d3` are HOST_LINK's; `vecs` the vectors pending after the last
command and `pba` the pending-bit array (R484); `spiErr` and `spiDrop` the status byte's bits (R478); `qbusy` a QSPI_CMD in
progress with its command word and `qdone` QSPI_STAT.DONE (R486). -/
structure HostState where
  up : Bool := false
  speed : Nat := 0
  width : Nat := 0
  d3 : Bool := false
  vecs : BitVec 64 := 0#64
  pba : BitVec 64 := 0#64
  spiErr : Bool := false
  spiDrop : Bool := false
  qbusy : Option Word := none
  qdone : Bool := false
  deriving DecidableEq, Repr

/-! ## The whole machine -/

/-- One fabric master's copies of the banked registers (R482, R64) and its snapshots (R471), keyed by the offset of the
register that took each. -/
structure Bank where
  port : Nat := 0
  stream : Nat := 0
  ref : Nat := 0
  ckout : Nat := 0
  ptp : Nat := 0
  dma : Nat := 0
  xp : Nat := 0
  strip : Nat := 0
  sink : Nat := 0
  asrc : Nat := 0
  lat : Nat := 0
  core : Nat := 0
  log : Nat := 7
  inj : Nat := 0
  cvtSecLo : Word := 0#32
  cvtSecHi : Word := 0#32
  cvtNs : Word := 0#32
  cvtCtrl : Word := 0#32
  cvtStrLo : Word := 0#32
  cvtStrHi : Word := 0#32
  snaps : Tab (List Word) := []
  meter : Option (Nat × List Word) := none
  deriving DecidableEq, Repr

/-- The state. `pending` is the queue of commands that wait, first in first out (the model's own); `freeCtr` counts the free
values drawn (the model's own, log entry 3). `mem` is every addressed RAM by fabric address (R480) and `stage` the cores' copy
of the meter blocks (R167), by the same addresses. `regs` holds the last value written of every stored register (R5, R7)
and `act` the active copy of a STROKE register (R6). -/
structure State where
  pending : List Instr
  freeCtr : Nat
  mem : List Host.Cell
  stage : List Host.Cell
  regs : Tab Word
  act : Tab Word
  banks : Vector Bank 7
  err : ErrState
  call : CallState
  eng : EngState
  cores : Vector Core 128
  crews : Vector Crew 16
  mix : MixState
  patch : PatchState
  scene : SceneState
  fin : FinView
  port : PortState
  net : NetState
  ref : RefState
  twin : TwinState
  msvc : MemState
  slate : SlateState
  geode : GeodeState
  dram : DramState
  fab : FabState
  dma : DmaState
  sys : SysState
  host : HostState
  out : List Out
  deriving DecidableEq, Repr

/-- Reset contents of the stored registers (the Reset column of the register tables; R318 for REF_CCMAP). -/
def Reg.resetTab : Tab Word :=
  let t := Reg.rows.foldl (fun t r =>
    (List.range r.cnt).foldl (fun t i => tset 0#32 t (r.off + 4 * i) r.rst) t) ([] : Tab Word)
  (Reg.ccmapReset.zipIdx).foldl (fun t p => tset 0#32 t (Reg.REF_CCMAP + 4 * p.2) p.1) t

/-- Memory of a delivered part (R392, R383): the CRC of its option-and-trim row, whose other bytes are 0 (log entry 8), and the
life-cycle row in triplicate, DEPLOYED. -/
def State.resetMem : List Host.Cell := [
  (0x1000FFC, 0x89#8), (0x1000FFD, 0x04#8), (0x1000FFE, 0x3B#8), (0x1000FFF, 0x60#8), (0x1001000, 0x01#8), (0x1001001, 0x01#8), (0x1001002, 0x01#8)]

/-- Stored registers at reset: the Reset columns, and the MSI-X entries masked (log entry 9). -/
def State.resetRegs : Tab Word :=
  (List.range 64).foldl (fun t v => tset 0#32 t (Reg.MSIX_TBL + 16 * v + 12) 1#32) (tset 0#32 Reg.resetTab Reg.RST_CAUSE 1#32)

/-- The machine right after VSYS power-on, while the DEEP reset that it asserts still holds (R427, R436): no domain is released. -/
def State.reset : State := {
  pending := [], freeCtr := 0, mem := State.resetMem, stage := [], regs := State.resetRegs, act := [(Reg.CALL_CFG, 2#32)]
  banks := Vector.replicate 7 {}, err := {}, call := {}, eng := {}, cores := Vector.replicate 128 {}
  crews := Vector.replicate 16 {}, mix := {}, patch := {}, scene := {}, fin := {}, port := {}, net := {}, ref := {}, twin := {}
  msvc := {}, slate := {}, geode := {}, dram := {}, fab := {}, dma := {}, sys := { deep := true, newCause := 1#32 }, host := {}, out := [] }

end Sys2Proof.Machine
end

