-- ==== Sys2Proof/Machine/Operands.lean ====
section
/-! DEFINITION. Operand forms of an Apion core: register files, share modes (R74), address generation (R86, R88, R135) and
the syllable fields (R110). -/

namespace Sys2Proof.Machine

/-- Data register; runs wrap from D31 to D0 (R70). -/
def rD (k : Core) (i : Nat) : Word := vget 0#32 k.d (i % 32)
def setD (i : Nat) (v : Word) (k : Core) : Core := { k with d := vput k.d (i % 32) v }

/-- Accumulator. -/
def rAcc (k : Core) (i : Nat) : BitVec 80 := vget 0#80 k.acc i
def setAcc (i : Nat) (v : BitVec 80) (k : Core) : Core := { k with acc := vput k.acc i v }

/-- Address, modifier, base and length registers. -/
def rA (k : Core) (i : Nat) : BitVec 24 := vget 0#24 k.a i
def rM (k : Core) (i : Nat) : BitVec 24 := vget 0#24 k.m i
def rB (k : Core) (i : Nat) : BitVec 24 := vget 0#24 k.b i
def rL (k : Core) (i : Nat) : BitVec 24 := vget 0#24 k.l i
def setA (i : Nat) (v : BitVec 24) (k : Core) : Core := { k with a := vput k.a i v }

/-- Predicate; P0 reads 1 (R71). -/
def rP (k : Core) (i : Nat) : Bool := i == 0 || k.p.getLsbD i

/-- Writes a predicate; a write to P0 is discarded (R71). -/
def setP (i : Nat) (v : Bool) (k : Core) : Core :=
  if i = 0 then k
  else { k with p := if v then k.p ||| BitVec.ofNat 8 (2 ^ i) else k.p &&& ~~~BitVec.ofNat 8 (2 ^ i) }

/-- Operands of lane `i` under a share mode (R74): offsets from SA and SB. -/
def laneOps (shr i : Nat) : Nat × Nat :=
  match shr with
  | 0 => (i, i)
  | 1 => (0, i)
  | 2 => (i, 0)
  | 3 => (i / 2, i)
  | _ => (i % 2, if i = 0 || i = 3 then 0 else 1)

/-- Reverses the low `k` bits of `v` (R86). -/
def revBits : Nat → Nat → Nat
  | 0, _ => 0
  | k + 1, v => (v % 2) * 2 ^ k + revBits k (v / 2)

/-- STAT.BRV bit `n` (R72). -/
def brv (k : Core) (n : Nat) : Bool := bitAt k.stat (16 + n)

/-- `next_addr` (R86) for address register `n`, address `a` and modifier or offset `m`. -/
def nextAddr (c : Core) (n : Nat) (a : BitVec 24) (m : Int) : BitVec 24 :=
  let b := (rB c n).toNat
  let l := (rL c n).toNat
  if n < 4 ∧ brv c n = true then
    let k := if l < 2 then 0 else Nat.log2 l
    let sz : Nat := 2 ^ k
    let u := ((a.toNat : Int) - b).emod sz
    let v := m.emod sz
    let x := (revBits k u.toNat + revBits k v.toNat) % sz
    BitVec.ofNat 24 (b + revBits k x)
  else if n < 8 ∧ l ≠ 0 then
    BitVec.ofNat 24 (b + (((a.toNat : Int) - b + m).emod l).toNat)
  else BitVec.ofInt 24 ((a.toNat : Int) + m)

/-- Addresses of the words after `a` of a multi-word access (R88). -/
def runAddrs (c : Core) (n : Nat) : Nat → BitVec 24 → List Nat
  | 0, _ => []
  | j + 1, a => a.toNat :: runAddrs c n j (if n < 4 ∧ brv c n = true then a + 1 else nextAddr c n a 1)

/-- Addressing modes of loads and stores (R135). -/
inductive AMode where
  | p | o | po
  deriving DecidableEq, Repr

/-- Effective address and the address register after the access (R135). -/
def effAddr (c : Core) (mode : AMode) (f : TSyl) : BitVec 24 × BitVec 24 :=
  let n := f.ar.toNat
  let a := rA c n
  match mode with
  | .p => (a, nextAddr c n a (rM c f.mr.toNat).toInt)
  | .o => (nextAddr c n a f.ofs.toInt, a)
  | .po => (a, nextAddr c n a f.ofs.toInt)

/-- Fields of a compute syllable (R110). -/
def csylOf (w : Word) : CSyl :=
  { dst := w.extractLsb' 21 5, sa := w.extractLsb' 16 5, sb := w.extractLsb' 11 5, prd := w.extractLsb' 8 3,
    shr := w.extractLsb' 5 3, li := w.getLsbD 4, md := w.extractLsb' 0 4 }

/-- Fields of a transfer syllable (R110). -/
def tsylOf (w : Word) : TSyl :=
  { dr := w.extractLsb' 22 5, ar := w.extractLsb' 18 4, mr := w.extractLsb' 14 4, tprd := w.extractLsb' 11 3,
    ofs := w.extractLsb' 0 11 }

/-- A transfer syllable's word (R110). -/
def encT (op : BitVec 5) (f : TSyl) : Word := op ++ f.dr ++ f.ar ++ f.mr ++ f.tprd ++ f.ofs

/-- A compute syllable's word (R110). -/
def encC (op : BitVec 6) (f : CSyl) : Word :=
  op ++ f.dst ++ f.sa ++ f.sb ++ f.prd ++ f.shr ++ BitVec.ofBool f.li ++ f.md

/-- Bundle of a compute command: opcode, fields and the other 32 bits (R110, R111). -/
def mkC (op : BitVec 6) (f : CSyl) (x : Word) : Bundle := ⟨op, f, x.extractLsb' 27 5, tsylOf x, x⟩

/-- Bundle of a transfer command: opcode, fields and the compute syllable's word. -/
def mkT (op : BitVec 5) (f : TSyl) (w : Word) : Bundle := ⟨w.extractLsb' 26 6, csylOf w, op, f, encT op f⟩

/-- TGT of a control instruction: compute bits [25:14] (R110). -/
def tgtOf (f : CSyl) : Nat := f.dst.toNat * 128 + f.sa.toNat * 4 + f.sb.toNat / 8

/-- LEN of LOOP: compute bits [25:16] (R110). -/
def lenOf (f : CSyl) : Nat := f.dst.toNat * 32 + f.sa.toNat

/-- What a bundle's compute syllable reads: the core before the bundle, its number and the immediate. -/
structure CIn where
  k : Core
  n : Nat
  f : CSyl
  imm : Word
  deriving DecidableEq, Repr

/-- Source a and `srcB()` (04, Conventions). -/
def srcA (i : CIn) : Word := rD i.k i.f.sa.toNat
def srcB (i : CIn) : Word := if i.f.li then i.imm else rD i.k i.f.sb.toNat

/-- Core `n` is a crew lead (R12). -/
def isLead (n : Nat) : Bool := n % 8 == 0

end Sys2Proof.Machine
end

