-- ==== Sys2Proof/Machine/Compute.lean ====
section
/-! DEFINITION. The compute syllables of the Apion core (04): for each opcode, which encodings are reserved and what the
syllable does. A meaning answers the results of one syllable; the commit in Machine/Bundle.lean writes them. -/

namespace Sys2Proof.Machine

/-- Control flow of a compute syllable (R133). -/
inductive Ctl where
  | seq
  | jump (t : Nat)
  | call (t : Nat)
  | ret
  | loop (len count : Nat)
  | barrier (k : Nat)
  | waitstroke
  deriving DecidableEq, Repr

/-- Results of a compute syllable: writes, flags and control. `ill` is a reserved encoding (R112). -/
structure CRes where
  ill : Bool := false
  dw : List (Nat × Word) := []
  accw : List (Nat × BitVec 80) := []
  pw : Option (Nat × Bool) := none
  sat : BitVec 4 := 0#4
  aov : BitVec 4 := 0#4
  track : List Word := []
  csrw : Option (Nat × Word) := none
  ctl : Ctl := .seq
  deriving DecidableEq, Repr

/-- The reserved-encoding result. -/
def cIll : CRes := { ill := true }

/-- A result kept only where the encoding is legal. -/
def legal (ok : Bool) (r : CRes) : CRes := if ok then r else cIll

/-- One data register written with the SAT bits of its value. -/
def wD (i : CIn) (v : Word) : CRes := { dw := [(i.f.dst.toNat, v)] }
def wS (i : CIn) (r : Sat) : CRes := { dw := [(i.f.dst.toNat, r.val)], sat := r.sat }

/-- Encoding checks of the integer group (R117): share 000, MOD 0. The shifts of R118 keep the same checks (DESIGN CHOICE, log entry 115). -/
def okInt (f : CSyl) : Bool := f.shr == 0#3 && f.md == 0#4

/-- NOP (R114): every field but PRD is 0. -/
def semNop (i : CIn) : CRes :=
  legal (i.f.dst == 0#5 && i.f.sa == 0#5 && i.f.sb == 0#5 && i.f.shr == 0#3 && !i.f.li && i.f.md == 0#4) {}

/-- MOV (R117). -/
def semMov (i : CIn) : CRes :=
  legal (okInt i.f && (i.f.li || i.f.sb == 0#5)) (wD i (if i.f.li then i.imm else srcA i))

/-- ADD, wrapping (R117). -/
def semAdd (i : CIn) : CRes := legal (okInt i.f) (wD i (srcA i + srcB i))
/-- ADDS, saturating (R117). -/
def semAdds (i : CIn) : CRes := legal (okInt i.f) (wS i (satLane ((srcA i).toInt + (srcB i).toInt) 0))
/-- SUB, wrapping (R117). -/
def semSub (i : CIn) : CRes := legal (okInt i.f) (wD i (srcA i - srcB i))
/-- SUBS, saturating (R117). -/
def semSubs (i : CIn) : CRes := legal (okInt i.f) (wS i (satLane ((srcA i).toInt - (srcB i).toInt) 0))
/-- ABSS (R117): LI is reserved, SB 0. -/
def semAbss (i : CIn) : CRes :=
  legal (okInt i.f && !i.f.li && i.f.sb == 0#5) (wS i (satLane ((srcA i).toInt.natAbs : Int) 0))
/-- NEGS (R117): LI is reserved, SB 0. -/
def semNegs (i : CIn) : CRes :=
  legal (okInt i.f && !i.f.li && i.f.sb == 0#5) (wS i (satLane (-(srcA i).toInt) 0))
/-- AND (R117). -/
def semAnd (i : CIn) : CRes := legal (okInt i.f) (wD i (srcA i &&& srcB i))
/-- OR (R117). -/
def semOr (i : CIn) : CRes := legal (okInt i.f) (wD i (srcA i ||| srcB i))
/-- XOR (R117). -/
def semXor (i : CIn) : CRes := legal (okInt i.f) (wD i (srcA i ^^^ srcB i))
/-- ANDN (R117). -/
def semAndn (i : CIn) : CRes := legal (okInt i.f) (wD i (srcA i &&& ~~~srcB i))
/-- MIN, signed (R117). -/
def semMin (i : CIn) : CRes := legal (okInt i.f) (wD i (if (srcA i).slt (srcB i) then srcA i else srcB i))
/-- MAX, signed (R117). -/
def semMax (i : CIn) : CRes := legal (okInt i.f) (wD i (if (srcA i).slt (srcB i) then srcB i else srcA i))

/-- Shift count (R118). -/
def shCount (i : CIn) : Nat := (srcB i).toNat % 64
/-- SHL (R118). -/
def semShl (i : CIn) : CRes := legal (okInt i.f) (wD i (if shCount i < 32 then srcA i <<< shCount i else 0#32))
/-- SHR (R118). -/
def semShr (i : CIn) : CRes := legal (okInt i.f) (wD i (if shCount i < 32 then srcA i >>> shCount i else 0#32))
/-- SRA (R118). -/
def semSra (i : CIn) : CRes := legal (okInt i.f) (wD i ((srcA i).sshiftRight (Nat.min (shCount i) 31)))
/-- SHLS, saturating (R118). -/
def semShls (i : CIn) : CRes := legal (okInt i.f) (wS i (satLane ((srcA i).toInt * 2 ^ shCount i) 0))

/-- SEL (R120). -/
def semSel (i : CIn) : CRes :=
  legal (i.f.shr == 0#3 && !i.f.md.getLsbD 3 && !i.f.li)
    (wD i (if rP i.k (i.f.md.toNat % 8) then srcA i else rD i.k i.f.sb.toNat))

/-- CMP (R119). -/
def semCmp (i : CIn) : CRes :=
  legal (i.f.shr == 0#3 && decide (i.f.dst.toNat < 8) && !i.f.md.getLsbD 3)
    { pw := some (i.f.dst.toNat, cmpCond (i.f.md.toNat % 8) (srcA i) (srcB i)) }

/-- CLS (R122). -/
def semCls (i : CIn) : CRes :=
  legal (okInt i.f && i.f.sb == 0#5 && !i.f.li) (wD i (wInt (31 - bitlen (signFold (srcA i)).toNat)))

/-- PLOG (R121). -/
def semPlog (i : CIn) : CRes :=
  match plogFn (i.f.md.toNat % 8) (rP i.k (i.f.sa.toNat % 8)) (rP i.k (i.f.sb.toNat % 8)) with
  | none => cIll
  | some b =>
    legal (i.f.shr == 0#3 && decide (i.f.dst.toNat < 8) && decide (i.f.sa.toNat < 8) && decide (i.f.sb.toNat < 8)
      && !i.f.md.getLsbD 3 && !i.f.li) { pw := some (i.f.dst.toNat, b) }

/-- The enabled lanes of a multiply (R123). -/
def lanesOn (f : CSyl) : List Nat := (List.range 4).filter fun j => f.md.getLsbD j

/-- Operands of lane `j` (R74). -/
def opA (i : CIn) (j : Nat) : Word := rD i.k (i.f.sa.toNat + (laneOps i.f.shr.toNat j).1)
def opB (i : CIn) (j : Nat) : Word := rD i.k (i.f.sb.toNat + (laneOps i.f.shr.toNat j).2)

/-- The exact product of lane `j` (R75). -/
def prodOf (i : CIn) (j : Nat) : Int := (opA i j).toInt * (opB i j).toInt

/-- Share modes none, X, Y and pair (R124), or those and complex-cross (R123). -/
def okShr4 (f : CSyl) : Bool := decide (f.shr.toNat < 4) && !f.li
def okShr5 (f : CSyl) : Bool := decide (f.shr.toNat < 5) && !f.li

/-- MPY (R78, R123): products straight to data registers, by the move of R77 with no shift. -/
def semMpy (i : CIn) : CRes :=
  legal (okShr4 i.f)
    { dw := (lanesOn i.f).map fun j => (i.f.dst.toNat + j, (accMove (prodOf i j) 0 j).val),
      sat := (lanesOn i.f).foldl (fun b j => b ||| (accMove (prodOf i j) 0 j).sat) 0#4 }

/-- MPYI (R123): low 32 bits of the product. -/
def semMpyi (i : CIn) : CRes :=
  legal (okShr4 i.f) { dw := (lanesOn i.f).map fun j => (i.f.dst.toNat + j, wInt (prodOf i j)) }

/-- MPA (R123). -/
def semMpa (i : CIn) : CRes :=
  legal (okShr5 i.f && i.f.dst == 0#5) { accw := (lanesOn i.f).map fun j => (j, BitVec.ofInt 80 (prodOf i j)) }

/-- Accumulate `t j` into the enabled lanes (R76). -/
def accum (i : CIn) (t : Nat → Int) : CRes :=
  { accw := (lanesOn i.f).map fun j => (j, (sat80 ((rAcc i.k j).toInt + t j) j).1),
    aov := (lanesOn i.f).foldl (fun b j => b ||| (sat80 ((rAcc i.k j).toInt + t j) j).2) 0#4 }

/-- MAC (R123). A multiply with no lane enabled still faults on a reserved share mode, LI or DST (DESIGN CHOICE, log entry 115). -/
def semMac (i : CIn) : CRes := legal (okShr5 i.f && i.f.dst == 0#5) (accum i (prodOf i))
/-- MSU (R123). -/
def semMsu (i : CIn) : CRes := legal (okShr5 i.f && i.f.dst == 0#5) (accum i fun j => -prodOf i j)
/-- MACSU (R123): opB unsigned, the product halved with a floor. -/
def semMacsu (i : CIn) : CRes :=
  legal (okShr4 i.f && i.f.dst == 0#5) (accum i fun j => sra ((opA i j).toInt * ((opB i j).toNat : Int)) 1)

/-- Whole shift of an accumulator move (R77, R80): the encoded shift, plus SCALE of the class on a crew lead. -/
def moveShift (i : CIn) : Int :=
  sh5 i.f.sa + (if isLead i.n then scaleField i.k.scale (i.f.md.toNat / 4) else 0)

/-- STAT.BXE (R72, R81). -/
def bxe (k : Core) : Bool := bitAt k.stat 20

/-- Moves of accumulators to data registers: destination, accumulator (R125). -/
def accMoves (i : CIn) (l : List (Nat × Nat)) : CRes :=
  let r := l.map fun p => (p.1, accMove (rAcc i.k p.2).toInt (moveShift i) p.2)
  { dw := r.map fun p => (p.1, p.2.val), sat := r.foldl (fun b p => b ||| p.2.sat) 0#4,
    track := if bxe i.k then r.map fun p => p.2.val else [] }

/-- MVA (R125). -/
def semMva (i : CIn) : CRes :=
  legal (i.f.shr == 0#3 && !i.f.li && i.f.sb == 0#5) (accMoves i [(i.f.dst.toNat, i.f.md.toNat % 4)])
/-- MVA4 (R125). -/
def semMva4 (i : CIn) : CRes :=
  legal (i.f.shr == 0#3 && !i.f.li && i.f.sb == 0#5 && i.f.md.toNat % 4 == 0)
    (accMoves i ((List.range 4).map fun j => (i.f.dst.toNat + j, j)))

/-- CLRA (R126). -/
def semClra (i : CIn) : CRes :=
  legal (i.f.shr == 0#3 && !i.f.li && i.f.dst == 0#5 && i.f.sa == 0#5 && i.f.sb == 0#5)
    { accw := (lanesOn i.f).map fun j => (j, 0#80) }
/-- LDA (R126). -/
def semLda (i : CIn) : CRes :=
  legal (i.f.shr == 0#3 && i.f.dst == 0#5 && i.f.sa == 0#5 && decide (i.f.md.toNat < 4))
    { accw := [(i.f.md.toNat % 4, BitVec.ofInt 80 ((srcB i).toInt * 2147483648))] }
/-- ACMB (R126). -/
def semAcmb (i : CIn) : CRes :=
  let a := (rAcc i.k (i.f.sa.toNat % 4)).toInt
  let b := (rAcc i.k (i.f.sb.toNat % 4)).toInt
  let r := sat80 (if i.f.md.getLsbD 0 then a - b else a + b) (i.f.dst.toNat % 4)
  legal (i.f.shr == 0#3 && !i.f.li && decide (i.f.dst.toNat < 4) && decide (i.f.sa.toNat < 4)
      && decide (i.f.sb.toNat < 4) && decide (i.f.md.toNat < 2))
    { accw := [(i.f.dst.toNat % 4, r.1)], aov := r.2 }
/-- SHA (R126). -/
def semSha (i : CIn) : CRes :=
  let n := i.f.md.toNat % 4
  let r := sat80 (shiftBy (rAcc i.k n).toInt (sh5 i.f.sa)) n
  legal (i.f.shr == 0#3 && !i.f.li && i.f.dst == 0#5 && i.f.sb == 0#5 && decide (i.f.md.toNat < 4))
    { accw := [(n, r.1)], aov := r.2 }
/-- MVAR (R126). -/
def semMvar (i : CIn) : CRes :=
  let x := rAcc i.k (i.f.md.toNat % 4)
  let v : Word := match i.f.md.toNat / 4 with
    | 0 => x.extractLsb' 0 32
    | 1 => x.extractLsb' 32 32
    | _ => (x.extractLsb' 64 16).signExtend 32
  legal (i.f.shr == 0#3 && !i.f.li && i.f.sa == 0#5 && i.f.sb == 0#5 && decide (i.f.md.toNat < 12)) (wD i v)
/-- SETAR (R126). -/
def semSetar (i : CIn) : CRes :=
  let n := i.f.md.toNat % 4
  let x := rAcc i.k n
  let d := srcA i
  let v : BitVec 80 := match i.f.md.toNat / 4 with
    | 0 => x.extractLsb' 32 48 ++ d
    | 1 => x.extractLsb' 64 16 ++ d ++ x.extractLsb' 0 32
    | _ => d.extractLsb' 0 16 ++ x.extractLsb' 0 64
  legal (i.f.shr == 0#3 && !i.f.li && i.f.dst == 0#5 && i.f.sb == 0#5 && decide (i.f.md.toNat < 12))
    { accw := [(n, v)] }

/-- BEXP (R82, R127). -/
def semBexp (i : CIn) : CRes :=
  legal (okInt i.f && i.f.sa == 0#5 && i.f.sb == 0#5 && !i.f.li) (wD i (wInt (31 - bitlen i.k.bxd.toNat)))

/-- Writes of a gain group at DST (R128). -/
def gainGroup (i : CIn) (g t z st : Word) : CRes :=
  let d := i.f.dst.toNat
  { dw := [(d, g), (d + 1, t), (d + 2, z), (d + 3, st)] }

/-- Status word of a gain group (R128). -/
def gainStat (wait ramp neg : Bool) (k : Nat) : Word := flag wait 31 ||| flag ramp 30 ||| flag neg 29 ||| wOf (k % 64)

/-- ZXARM (R129): G and NEG unchanged. -/
def semZxarm (i : CIn) : CRes :=
  let d := i.f.dst.toNat
  let tmo := (srcA i).toNat % 256
  let tmo := if tmo = 0 then 120 else tmo
  let b := rD i.k i.f.sb.toNat
  let neg := bitAt (rD i.k (d + 3)) 29
  legal (okInt i.f && !i.f.li)
    (if b = rD i.k d then { dw := [(d + 1, b), (d + 3, gainStat false false neg 0)] }
     else { dw := [(d + 1, b), (d + 2, i.k.stroke + wOf tmo), (d + 3, gainStat true false neg 0)] })

/-- The wait stage of ZXSTEP (R130): G, DL or G0, WAIT, RAMP and K after it. -/
def zxWait (g t z : Word) (wait ramp flip late : Bool) (k : Nat) : Word × Word × Bool × Bool × Nat :=
  if wait then
    if flip then (t, z, false, ramp, k)
    else if late then (g, g, false, true, 0)
    else (g, z, wait, ramp, k)
  else (g, z, wait, ramp, k)

/-- The ramp stage of ZXSTEP (R130): G, RAMP and K after it. -/
def zxRamp (g t z : Word) (ramp : Bool) (k : Nat) : Word × Bool × Nat :=
  if ramp then
    let k := k + 1
    (wInt (z.toInt + sra ((t.toInt - z.toInt) * k) 6), if k = 64 then (false, 0) else (true, k))
  else (g, ramp, k)

/-- ZXSTEP (R130). -/
def semZxstep (i : CIn) : CRes :=
  let d := i.f.dst.toNat
  let g := rD i.k d
  let t := rD i.k (d + 1)
  let z := rD i.k (d + 2)
  let st := rD i.k (d + 3)
  let neg := (srcA i).slt 0#32
  let w := zxWait g t z (bitAt st 31) (bitAt st 30) (neg != bitAt st 29) (!(i.k.stroke - z).slt 0#32) (fld st 5 0)
  let r := zxRamp w.1 t w.2.1 w.2.2.2.1 w.2.2.2.2
  legal (okInt i.f && !i.f.li && i.f.sb == 0#5) (gainGroup i r.1 t w.2.1 (gainStat w.2.2.1 r.2.1 neg r.2.2))

/-- LC of loop level `j` (R72, R89). -/
def lcOf (k : Core) (j : Nat) : Word := wOf ((k.loops[j]?.map LoopLv.cnt).getD 0)

/-- CORE_ID of core `n` (R72). -/
def coreIdOf (n : Nat) : Word :=
  flag (isLead n) 10 ||| place (n / 32) 8 ||| place (n / 8) 4 ||| wOf (n % 8)

/-- A CSR as CSRR reads it (R72, R131). -/
def readCsr (k : Core) (n c : Nat) : Word :=
  match c with
  | 0 => k.stat
  | 1 => if isLead n then k.scale else 0#32
  | 2 => k.bxd
  | 3 => coreIdOf n
  | 4 => k.stroke
  | 5 => k.cwb
  | 6 => lcOf k 0
  | 7 => lcOf k 1
  | _ => 0#32

/-- CSRR (R131). -/
def semCsrr (i : CIn) : CRes :=
  legal (okInt i.f && i.f.sb == 0#5 && !i.f.li) (wD i (readCsr i.k i.n i.f.sa.toNat))
/-- CSRW (R132). -/
def semCsrw (i : CIn) : CRes := legal (okInt i.f && i.f.sa == 0#5) { csrw := some (i.f.dst.toNat, srcB i) }

/-- The bits of SB below TGT are 0 (R110, R133). -/
def okTgt (f : CSyl) : Bool := f.sb.toNat % 8 == 0 && f.shr == 0#3 && !f.li

/-- BR (R133): PRD is its condition. -/
def semBr (i : CIn) : CRes :=
  legal (okTgt i.f && i.f.md.toNat % 4 == 0)
    { ctl := if rP i.k i.f.prd.toNat != i.f.md.getLsbD 2 then .jump (tgtOf i.f) else .seq }
/-- JMP (R133). -/
def semJmp (i : CIn) : CRes :=
  legal (okTgt i.f && i.f.prd == 0#3 && i.f.md == 0#4) { ctl := .jump (tgtOf i.f) }
/-- CALL (R133). -/
def semCall (i : CIn) : CRes :=
  legal (okTgt i.f && i.f.prd == 0#3 && i.f.md == 0#4) { ctl := .call (tgtOf i.f) }
/-- Control instructions with no target: DST, SA and SB are 0. -/
def okBare (f : CSyl) : Bool :=
  f.dst == 0#5 && f.sa == 0#5 && f.sb == 0#5 && f.shr == 0#3 && !f.li && f.prd == 0#3
/-- RET (R133). -/
def semRet (i : CIn) : CRes := legal (okBare i.f && i.f.md == 0#4) { ctl := .ret }
/-- Count of a LOOP (R134). -/
def loopCount (i : CIn) : Nat := if i.f.li then i.imm.toNat % 65536 else (rD i.k i.f.sb.toNat).toNat % 65536
/-- LOOP (R134): the checks that need the bundle's address are in the commit. -/
def semLoop (i : CIn) : CRes :=
  legal (i.f.shr == 0#3 && i.f.prd == 0#3 && i.f.md == 0#4
      && (if i.f.li then i.f.sb == 0#5 && decide (i.imm.toNat < 65536) else true))
    { ctl := .loop (lenOf i.f) (loopCount i) }
/-- BARRIER (R105, R133). -/
def semBarrier (i : CIn) : CRes :=
  legal (okBare i.f && !i.f.md.getLsbD 3) { ctl := .barrier (i.f.md.toNat % 8) }
/-- WAITSTROKE (R104, R133). -/
def semWaitstroke (i : CIn) : CRes := legal (okBare i.f && i.f.md == 0#4) { ctl := .waitstroke }

/-- The compute opcodes (R115) with their meanings; none for an undefined opcode. -/
def semOf (op : Nat) : Option (CIn → CRes) :=
  match op with
  | 0x00 => some semNop | 0x01 => some semMov | 0x02 => some semAdd | 0x03 => some semAdds
  | 0x04 => some semSub | 0x05 => some semSubs | 0x06 => some semAbss | 0x07 => some semNegs
  | 0x08 => some semAnd | 0x09 => some semOr | 0x0A => some semXor | 0x0B => some semAndn
  | 0x0C => some semShl | 0x0D => some semShr | 0x0E => some semSra | 0x0F => some semShls
  | 0x10 => some semMin | 0x11 => some semMax | 0x12 => some semSel | 0x13 => some semCmp
  | 0x14 => some semCls | 0x15 => some semPlog
  | 0x18 => some semMpy | 0x19 => some semMpyi | 0x1A => some semMpa | 0x1B => some semMac
  | 0x1C => some semMsu | 0x1D => some semMacsu
  | 0x20 => some semMva | 0x21 => some semMva4 | 0x22 => some semClra | 0x23 => some semLda
  | 0x24 => some semAcmb | 0x25 => some semSha | 0x26 => some semMvar | 0x27 => some semSetar
  | 0x28 => some semBexp | 0x29 => some semZxarm | 0x2A => some semZxstep | 0x2B => some semCsrr | 0x2C => some semCsrw
  | 0x30 => some semBr | 0x31 => some semJmp | 0x32 => some semCall | 0x33 => some semRet
  | 0x34 => some semLoop | 0x35 => some semBarrier | 0x36 => some semWaitstroke
  | _ => none

/-- The control instructions do not use PRD as a gate (R114). -/
def isControl (op : Nat) : Bool := decide (0x30 ≤ op) && decide (op ≤ 0x36)

/-- The compute syllable of a bundle (R114): under a false predicate it does nothing and faults on nothing but its opcode. -/
def computeRes (n : Nat) (k : Core) (b : Bundle) : CRes :=
  match semOf b.copc.toNat with
  | none => cIll
  | some f =>
    if isControl b.copc.toNat || rP k b.cf.prd.toNat then f { k, n, f := b.cf, imm := b.imm } else {}

end Sys2Proof.Machine
end

