-- ==== Sys2Proof/Machine/Regs.lean ====
section
/-! DEFINITION. The stored registers and the banked copies of the fabric masters (R5, R482): what every other file reads and writes. -/

namespace Sys2Proof.Machine

/-- Value of a stored register. -/
def reg (s : State) (off : Nat) : Word := tget 0#32 s.regs off

/-- Sets a stored register. -/
def setReg (off : Nat) (v : Word) (s : State) : State := { s with regs := tset 0#32 s.regs off v }

/-- Sets bits of a sticky register (the device's side of W1C, R5). -/
def orReg (off : Nat) (v : Word) (s : State) : State := setReg off (reg s off ||| v) s

/-- Active copy of a STROKE register (R6). -/
def actReg (s : State) (off : Nat) : Word := tget 0#32 s.act off

/-- Number of a fabric master (R402). -/
def mNum : Master → Nat
  | .sc => 0 | .host => 1 | .dma => 2 | .twin => 3 | .net => 4 | .eng => 5 | .dbg => 6

/-- A master's banked copies. -/
def bank (s : State) (m : Master) : Bank := vget {} s.banks (mNum m)

/-- Changes a master's banked copies. -/
def setBank (m : Master) (f : Bank → Bank) (s : State) : State :=
  { s with banks := vput s.banks (mNum m) (f (bank s m)) }

end Sys2Proof.Machine
end

