-- ==== Sys2Proof/Machine/TwinWire.lean ====
section
/-! DEFINITION. What a twin member sends (12): its flags (R341), the keys and tags of beacons and link frames (R342, R368), and the
frames of the Twin Link byte by byte (R367). -/

namespace Sys2Proof.Machine

/-- This unit is a twin member (R24, R444). -/
def isTwin (s : State) : Bool := s.sys.straps.twinEn

def twinPol (s : State) (b : Nat) : Bool := bitAt (reg s Reg.TWIN_POL) b
def seatB (s : State) : Bool := s.sys.straps.seat

/-- READY (R369). -/
def ready (s : State) : Bool := !s.twin.diag && s.sys.mode == .shadow && (s.twin.inSync || twinPol s 3)

/-- An offer is outstanding up to its stroke (R349). -/
def offering (s : State) : Bool := match s.twin.offer with
  | some h => decide (s.eng.stroke.toNat < h.toNat)
  | none => false

/-- The flags this member sends (R341). -/
def ownFlags (s : State) : TwinFlags :=
  { hold := s.twin.hold, ready := ready s, inSync := s.twin.inSync, handover := offering s, seat := seatB s }

/-- IMAGE_ID of the loaded image. -/
def imageId (s : State) : BitVec 64 := match s.eng.img with
  | some g => g.id
  | none => 0#64

/-- FLAGS of a heartbeat or a frame (R342, R367). -/
def flagByte (f : TwinFlags) : Nat :=
  let b (x : Bool) (i : Nat) : Nat := if x then 2 ^ i else 0
  b f.hold 0 + b f.ready 1 + b f.inSync 2 + b f.handover 3 + b f.seat 4

/-- ASCII bytes of a string. -/
def ascii (t : String) : List Byte := t.toList.map fun c => BitVec.ofNat 8 c.toNat

/-- HMAC over SHA-384 with its blocks of 128 bytes (R342, R368). -/
def hmac384 (key msg : List Byte) : List Byte :=
  let k := if 128 < key.length then Config.sha384 key else key
  let pad (x : Byte) : List Byte := (k ++ List.replicate (128 - k.length) 0#8).map fun b => b ^^^ x
  Config.sha384 (pad 0x5C#8 ++ Config.sha384 (pad 0x36#8 ++ msg))

/-- Key slot that TWIN_CFG.KSLOT names. -/
def keySlot (s : State) : Nat := fld (reg s Reg.TWIN_CFG) 25 24

/-- The beacon key (R342). -/
def beaconKey (s : State) : List Byte := (hmac384 (vget [] s.geode.beaconKeys (keySlot s)) (ascii "ETBN")).take 32

/-- SEAT as the 4 bytes of an IV, little-endian or in network order. -/
def seatNum (seat : Bool) : Nat := if seat then 1 else 0

/-- The bytes of a beacon that its tag covers (R342). -/
def beaconBytes (f : TwinFlags) (epoch : Word) (stroke : BitVec 64) (image : Word) : List Byte :=
  let be (n x : Nat) : List Byte := (natBytes n x).reverse
  be 4 0x5457424E ++ be 1 1 ++ be 1 (flagByte f) ++ be 2 0
    ++ be 4 epoch.toNat ++ be 8 stroke.toNat ++ be 4 image.toNat ++ be 8 0

/-- The tag of a beacon of the member in `seat` while BAUTH = 1 (R342): GMAC is the tag of GCM over no text. The IV is in the network byte
order of the beacon's fields (DEDUCED, log entry 120). -/
def beaconTag (s : State) (seat : Bool) (stroke : BitVec 64) (bs : List Byte) : List Byte :=
  Config.gcmTag (beaconKey s) ((natBytes 4 (seatNum seat)).reverse ++ (natBytes 8 stroke.toNat).reverse) bs []

/-! ### Link frames (R367, R368) -/

/-- The session key of a link-up (R368), from both nonces. -/
def sessionKey (s : State) : List Byte :=
  let a := if seatB s then s.twin.peerNonce else s.twin.nonce
  let b := if seatB s then s.twin.nonce else s.twin.peerNonce
  (hmac384 (vget [] s.geode.keys (keySlot s)) (ascii "ETWL" ++ a ++ b)).take 32

/-- One frame of the link as it leaves the balls (R367, R368). -/
def linkBytes (s : State) (type : Nat) (stroke : BitVec 64) (payload : List Byte) : List Byte :=
  let head := natBytes 1 type ++ natBytes 1 (flagByte (ownFlags s)) ++ natBytes 2 payload.length ++ natBytes 4 s.twin.epoch.toNat
    ++ natBytes 8 stroke.toNat ++ natBytes 8 s.twin.seq.toNat
  let iv := natBytes 4 (seatNum (seatB s)) ++ natBytes 8 s.twin.seq.toNat
  let body := if s.twin.crypt && type != 0 then
      Config.gcmText s.twin.skey iv head payload ++ Config.gcmTag s.twin.skey iv head payload
    else payload
  head ++ body ++ leBytes (crc32 (head ++ body))

/-- Sends one frame; SEQ counts it. -/
def frameSend (type : Nat) (stroke : BitVec 64) (payload : List Byte) (s : State) : State :=
  { s with out := s.out ++ [.link (linkBytes s type stroke payload)], twin := { s.twin with seq := s.twin.seq + 1 } }

/-- A frame can be sent: the link is up and, for an encrypted one, the session has its key (log entry 120). -/
def linkOpen (s : State) (type : Nat) : Bool := s.twin.up && (!s.twin.crypt || type == 0 || !s.twin.peerNonce.isEmpty)

/-- Sends a payload in as many frames as its length takes (R367: 4,096 bytes each). -/
def linkSend (type : Nat) (stroke : BitVec 64) (payload : List Byte) (s : State) : State :=
  if !linkOpen s type then s
  else if payload.isEmpty then frameSend type stroke [] s
  else (chunks 4096 payload).foldl (fun s p => frameSend type stroke p s) s

/-- An OFFER frame for stroke `h` (R349, R367). -/
def offerSend (h : BitVec 64) (s : State) : State := linkSend 7 s.eng.stroke (natBytes 8 h.toNat) s

end Sys2Proof.Machine
end

