-- ==== Sys2Proof/Machine/Report.lean ====
section
/-! DEFINITION. Records and logs (16): stamping, coalescing, overflow, severities, self-diagnosis and lapses; injection slots. -/

namespace Sys2Proof.Machine

/-- A source ID (R457). -/
def srcId (level region block cell : Nat) : BitVec 16 :=
  BitVec.ofNat 16 (level * 8192 + region * 256 + block * 16 + cell)

/-- Source ID of a core (R12, R457). -/
def coreSrc (n : Nat) : BitVec 16 := srcId 3 (n / 32) (n / 8 % 4) (n % 8)

/-- Source ID of a crew. -/
def crewSrc (c : Nat) : BitVec 16 := srcId 2 (c / 4) (c % 4) 0

/-- Source ID of a mix slice (R198). -/
def sliceSrc (sl : Nat) : BitVec 16 := srcId 1 (sl / 4) (8 + sl % 4) 0

/-- Source ID of a unit of region 6. -/
def sysSrc (block cell : Nat) : BitVec 16 := srcId 1 6 block cell

/-- Number of a severity (R458). -/
def sevNum : Sev → Nat
  | .note => 0 | .degrade => 1 | .fault => 2 | .fatal => 3

/-- The engine is held in an engine-reach reset. -/
def engHeld (s : State) : Bool := s.eng.phase == .held

/-- Two reports belong to one record (R462). -/
def sameRec (r : LogRec) (src : BitVec 16) (code : BitVec 12) (inj held : Bool) (stroke : BitVec 64) (win : Nat) : Bool :=
  r.source == src && r.code == code && r.inj == inj && r.noStroke == held &&
    (if held then r.win == win else r.stroke == stroke)

/-- Coalesces into the records of a log if one of them matches (R462). -/
def coalesce (p : LogRec → Bool) : List LogRec → Option (List LogRec)
  | [] => none
  | r :: rs => if p r then some ({ r with count := satInc 65535 r.count } :: rs) else (coalesce p rs).map (r :: ·)

/-- A log takes a new record (R460, R463); whether it lost one. -/
def logPush (cap : Nat) (l : Log) (r : LogRec) : Log × Bool :=
  let r := { r with seq := l.seq }
  if l.recs.length < cap then ({ l with recs := l.recs ++ [r], seq := l.seq + 1 }, false)
  else ({ recs := l.recs.dropLast ++ [r], lost := satInc 65535 l.lost, seq := l.seq + 1 }, true)

/-- Entries a log holds (R461). -/
def logCap (i : Nat) : Nat := if i = 7 then 256 else 32

/-- ERR_STAT bit of a log's overflow (R472). -/
def ovfBit (i : Nat) : Nat := if i = 7 then 7 else 8 + i

/-- A collector takes a report into log `i`. -/
def collect (i : Nat) (src : BitVec 16) (code : BitVec 12) (sev : Sev) (inj : Bool) (info : Word) (s : State) : State :=
  let l := vget {} s.err.logs i
  let held := engHeld s
  match coalesce (fun r => sameRec r src code inj held s.eng.stroke s.err.win) l.recs with
  | some rs => { s with err := { s.err with logs := vput s.err.logs i { l with recs := rs } } }
  | none =>
    let r : LogRec := { source := src, code, sev, inj, noStroke := held, count := 1, seq := 0#16, stroke := s.eng.stroke,
                        win := s.err.win, info }
    let p := logPush (logCap i) l r
    let s := { s with err := { s.err with logs := vput s.err.logs i p.1 } }
    let s := if p.2 then orReg Reg.ERR_STAT (flag true (ovfBit i)) s else s
    if i = 7 then orReg Reg.ERR_STAT (flag true (sevNum sev)) s else s

/-- A cause of R34 sets its DET_STAT bits; DET_FIRST takes the stroke of lapse `k` when DET_STAT leaves zero (R35, R37). -/
def lapseAt (k : BitVec 64) (bits : Word) (s : State) : State :=
  if bits = 0#32 then s else
  let was := reg s Reg.DET_STAT
  let s := orReg Reg.DET_STAT bits s
  if was = 0#32 then { s with eng := { s.eng with detFirst := k } } else s

/-- A cause whose lapse acts in the current stroke. -/
def lapse (bits : Word) (s : State) : State := lapseAt s.eng.stroke bits s

/-- DET_STAT bits (R36). -/
abbrev detLate : Word := 1#32
abbrev detInj : Word := 2#32
abbrev detUncorr : Word := 4#32
abbrev detDirect : Word := 16#32
abbrev detOverrun : Word := 32#32
abbrev detDebug : Word := 64#32

/-- Self-diagnosis (R348, R349): a member sets DIAG; a holder offers cox for the next stroke (the one after it once FINISH
has passed), sends the OFFER frame and will stop at the next CATCH. -/
def diagnose (s : State) : State :=
  if !isTwin s || s.twin.diag then s else
  let s := { s with twin := { s.twin with diag := true } }
  if s.twin.hold then
    let h := s.eng.stroke + (if s.eng.phase == .finished then 2#64 else 1#64)
    offerSend h { s with twin := { s.twin with offer := some h, release := some (s.eng.stroke + 1) } }
  else s

/-- Records that set DIAG beside FATAL ones (R348): clock faults, and power or thermal records of severity FAULT. -/
def diagCode (code : BitVec 12) (sev : Sev) : Bool :=
  sev == .fatal || code == 0x302#12 || code == 0x617#12 || (code.extractLsb' 8 4 == 8#4 && sev == .fault)

/-- A report (R17, R461): the region collector logs it, then the chip collector; severity effects of R459. -/
def reportI (inj : Bool) (src : BitVec 16) (code : BitVec 12) (sev : Sev) (info : Word) (s : State) : State :=
  let lv := src.extractLsb' 13 3
  let s := if lv = 0#3 ∨ 6 < (src.extractLsb' 8 5).toNat then s else collect (src.extractLsb' 8 5).toNat src code sev inj info s
  let s := collect 7 src code sev inj info s
  if diagCode code sev then diagnose s else s

/-- A report of a real condition. -/
def report (src : BitVec 16) (code : BitVec 12) (sev : Sev) (info : Word := 0#32) (s : State) : State :=
  reportI false src code sev info s

/-- PROG_ERROR (R458): a register write out of range or ignored. -/
def progError (m : Master) (off : Nat) (s : State) : State :=
  report (sysSrc 8 (mNum m)) 0x110#12 .note (wOf off) s

/-- DET_LAPSE (R34, R458): lapse bits with their record. -/
def detLapse (bits : Word) (s : State) : State := report (sysSrc 9 0) 0x303#12 .note bits (lapse bits s)

/-- An armed slot names the detector (R465). -/
def slotNames (sl : InjSlot) (src : BitVec 16) (code : BitVec 12) : Bool :=
  (sl.mode == 1#2 || sl.mode == 2#2) && sl.tgt.extractLsb' 16 16 == src && sl.tgt.extractLsb' 4 12 == code

/-- A slot fires (R467): one-shot returns to off. -/
def slotFire (sl : InjSlot) : InjSlot :=
  { sl with fired := true, cnt := satInc max32 sl.cnt, mode := if sl.mode = 1#2 then 0#2 else sl.mode }

/-- Whether any armed slot names a detector, and whether one of them acts. -/
def injArmed (s : State) (src : BitVec 16) (code : BitVec 12) : Bool := s.err.inj.toList.any fun sl => slotNames sl src code
def injActs (s : State) (src : BitVec 16) (code : BitVec 12) : Bool :=
  s.err.inj.toList.any fun sl => slotNames sl src code && sl.act

/-- All slots that name the detector fire together (R467). -/
def injFire (src : BitVec 16) (code : BitVec 12) (s : State) : State :=
  { s with err := { s.err with inj := vmap (fun _ sl => if slotNames sl src code then slotFire sl else sl) s.err.inj } }

/-- A detector checks its condition (R466): `cond` says the real condition holds, `alters` that an acting injection alters
data or control (DET_STAT.INJECTED, R466). Answers the state with the record made and whether the detector's action follows
(a real condition, or an armed slot with ACT = 1). -/
def detect (alters : Bool) (src : BitVec 16) (code : BitVec 12) (sev : Sev) (info : Word) (cond : Bool) (s : State) :
    State × Bool :=
  if injArmed s src code then
    let acts := injActs s src code
    let s := reportI true src code sev info (injFire src code s)
    (if acts && alters then lapse detInj s else s, acts || cond)
  else if cond then (report src code sev info s, true)
  else (s, false)

end Sys2Proof.Machine
end

