-- ==== Sys2Proof/Machine/Ops.lean ====
section
/-! DEFINITION. The operations every command shares: interrupt causes and MSI-X (R483, R484), result blocks and snapshots
(R471), outputs, and `done`, which ends every command. -/

namespace Sys2Proof.Machine

/-- Something the device drives outward. -/
def emit (o : Out) (s : State) : State := { s with out := s.out ++ [o] }

/-- Register of an instance (R482). -/
def regAt (s : State) (off inst : Nat) : Word := reg s (regKey off inst)
def setRegAt (off inst : Nat) (v : Word) (s : State) : State := setReg (regKey off inst) v s
def orRegAt (off inst : Nat) (v : Word) (s : State) : State := orReg (regKey off inst) v s
def actAt (s : State) (off inst : Nat) : Word := actReg s (regKey off inst)

/-- Latches a W1C interrupt cause (R483). -/
def irqLatch (c : Nat) (s : State) : State := orReg Reg.SYS_IRQ_CAUSE (flag true c) s

/-- PORT_STAT bits of a port that its PORT_CTRL enables (R282). -/
def portIrq (s : State) (p : Nat) : Word :=
  let c := regAt s Reg.PORT_CTRL p
  regAt s Reg.PORT_STAT p
    &&& ((if bitAt c 31 then 0xF#32 else 0#32) ||| (if bitAt c 30 then 0x30#32 else 0#32) ||| (if bitAt c 29 then 0x1C0#32 else 0#32))

/-- PORT_IRQ0 and PORT_IRQ1 (R282): the ports from `lo` with an enabled event. -/
def portIrqs (s : State) (lo n : Nat) : Word :=
  (List.range n).foldl (fun v i => v ||| flag (portIrq s (lo + i) != 0#32) i) 0#32

/-- The network cause (R483): NET_STAT bits [4:1] of a port, or REFUSED of a stream. -/
def netCause (s : State) : Bool :=
  fld (reg s Reg.NET_STAT0) 4 1 != 0 || fld (reg s Reg.NET_STAT1) 4 1 != 0
    || s.net.streams.any fun e => bitAt (regAt s Reg.STR_STAT e.1) 0

/-- The error interrupt (R472): while IRQ_EN, a severity at or above IRQ_SEV, or an overflow while IRQ_OVF. -/
def errCause (s : State) : Bool :=
  let st := reg s Reg.ERR_STAT
  let ctl := reg s Reg.ERR_CTRL
  bitAt ctl 0 && (decide (fld st 3 0 / 2 ^ fld ctl 3 2 ≠ 0) || (bitAt ctl 1 && decide (fld st 14 7 ≠ 0)))

/-- The sixteen interrupt causes (R483). -/
def irqCauses (s : State) : Word :=
  (reg s Reg.SYS_IRQ_CAUSE &&& 0xE013#32)
    ||| flag (portIrqs s 0 32 ||| portIrqs s 32 16 != 0#32) 2
    ||| flag (netCause s) 3
    ||| flag (fld (reg s Reg.TIME_STAT) 1 0 != 0) 5
    ||| flag (reg s Reg.REF_HIST &&& reg s Reg.REF_IRQEN != 0#32) 6
    ||| flag (reg s Reg.DMA_IRQ &&& reg s Reg.DMA_IRQEN != 0#32) 7
    ||| flag (reg s Reg.FAB_STAT != 0#32) 8
    ||| flag (errCause s) 9
    ||| flag (reg s Reg.TWIN_STAT &&& reg s Reg.TWIN_IRQEN != 0#32) 10
    ||| flag (reg s Reg.PWR_STAT != 0#32) 11
    ||| flag (reg s Reg.SCENE_EVT != 0#32) 12

/-- The active causes (R484). -/
def irqActive (s : State) : Word :=
  if reg s Reg.SYS_IRQ_EN = 0#32 then 0#32 else irqCauses s &&& reg s Reg.SYS_IRQ_EN

/-- IRQ_N is low (R484). -/
def irqPin (s : State) : Bool := irqActive s &&& reg s Reg.SYS_IRQ_PIN != 0#32

/-- MSI-X vector of a cause (R484). -/
def vecOf (s : State) (c : Nat) : Nat := fld (reg s (Reg.SYS_IRQ_MAP + 4 * (c / 4))) (8 * (c % 4) + 5) (8 * (c % 4))

/-- The pending vectors (R484): those an active cause maps to, none while the SPI slave is the host port (R473). -/
def vecsPending (s : State) : BitVec 64 :=
  let a := irqActive s
  if a = 0#32 || s.sys.straps.hostif then 0#64
  else (List.range 16).foldl (fun v c => if bitAt a c then v ||| BitVec.ofNat 64 (2 ^ vecOf s c) else v) 0#64

/-- A vector's MSI-X mask bit, bit 0 of its entry's fourth word (R486). -/
def vecMasked (s : State) (v : Nat) : Bool := bitAt (reg s (Reg.MSIX_TBL + 16 * v + 12)) 0

/-- The message of a vector (R484, R486). -/
def vecMsg (s : State) (v : Nat) : Out :=
  .msix v (cat64 (reg s (Reg.MSIX_TBL + 16 * v + 4)) (reg s (Reg.MSIX_TBL + 16 * v))) (reg s (Reg.MSIX_TBL + 16 * v + 8))

/-- The vectors of a set. -/
def vecList (v : BitVec 64) : List Nat := if v = 0#64 then [] else (List.range 64).filter fun i => v.getLsbD i

/-- A vector that becomes pending sends its message, or sets its PBA bit while masked (R484). Changes `host` and `out` only. -/
def settle (s : State) : State :=
  let p := vecsPending s
  let new := vecList (p &&& ~~~s.host.vecs)
  { s with
    host := { s.host with
      vecs := p
      pba := new.foldl (fun b v => if vecMasked s v then b ||| BitVec.ofNat 64 (2 ^ v) else b) s.host.pba }
    out := s.out ++ (new.filter fun v => !vecMasked s v).map (vecMsg s) }

/-- Every command ends here: the interrupts it raises go out, and the next state stands. -/
def done (s : State) : Host.Outcome State Fault Refusal := .next (settle s)

/-- Snapshot a master took of the block whose word 0 lies at `off` (R471). -/
def snapOf (s : State) (m : Master) (off : Nat) : List Word := tget [] (bank s m).snaps off

/-- Takes a snapshot (R471). -/
def snapTake (m : Master) (off : Nat) (ws : List Word) (s : State) : State :=
  setBank m (fun b => { b with snaps := tset [] b.snaps off ws }) s

/-- Word 0 of a result block: VALID, the block's own bits and GEN (R471). -/
def resWord (r : Result) (bits : Word := 0#32) : Word := flag r.valid 31 ||| bits ||| wOf (r.gen % 65536)

/-- Next publication count (R471): it wraps from 0xFFFF to 1. -/
def genNext (g : Nat) : Nat := if g < 65535 then g + 1 else 1

/-- A result block publishes (R471). -/
def publish (ws : List Word) (r : Result) : Result := { valid := true, gen := genNext r.gen, words := ws }

/-- The mode's code in PWR_MODE.CUR (R454). -/
def modeCode : Mode → Nat
  | .dormant => 0 | .retain => 1 | .recovery => 2 | .service => 3 | .shadow => 4 | .live => 5

/-- The engine runs in LIVE or SHADOW mode. -/
def running (s : State) : Bool := s.sys.mode == .live || s.sys.mode == .shadow

/-- Rate family in force (R171): strokes per second (R40), 0 before an image is loaded. -/
def sps (s : State) : Nat :=
  match s.eng.fam with
  | none => 0
  | some f => if f then 11025 else 12000

/-- Samples per stroke of a domain (R144, R201). -/
def domN (d : Nat) : Nat := if d = 0 then 4 else if d = 1 then 8 else 16

/-- Start of stroke k in system time, in 2⁻¹⁶ ns, truncated (R40, R64). -/
def strokeStart (rate k : Nat) : Time := if rate = 0 then 0 else k / rate * Time.second + k % rate * Time.second / rate

/-- One stroke in 2⁻¹⁶ ns. -/
def strokeLen (rate : Nat) : Nat := if rate = 0 then 0 else Time.second / rate

/-- How a ball of an output stands: driven, Hi-Z, or under its weak pull-up (R22, R334, R443). -/
inductive Pad where
  | driven | hiZ | pullUp
  deriving DecidableEq, Repr

/-- The pad of a clock output that its block has enabled (R22, R267, R278, R334): `shd` that it is driven in SHADOW. In SERVICE, which gives
"as the test requires", the ball keeps its pull-up (DESIGN CHOICE, log entry 116). -/
def clockPad (s : State) (shd : Bool) : Pad := match s.sys.mode with
  | .live => .driven
  | .shadow => if shd then .driven else .hiZ
  | .dormant => .hiZ
  | .retain => .hiZ
  | .recovery => .pullUp
  | .service => .pullUp

end Sys2Proof.Machine
end

