-- ==== Sys2Proof/Machine/Mem.lean ====
section
/-! DEFINITION. The memories behind the fabric address map (R480): where each instance lies, reads with ECC (R372), writes,
the carry-hold copy (R377) and clearing (R382). -/

namespace Sys2Proof.Machine

/-- The canonical form of a memory: addresses strictly rising, no entry equal to what an unlisted address reads as (0, log entry 1). -/
abbrev Memory.wf (m : List Host.Cell) : Bool := tabWf 0#8 m

/-- Fabric base addresses (R480). -/
abbrev slateBase : Nat := 0x1000000
abbrev centralBase : Nat := 0x2000000
abbrev matrixBase : Nat := 0x3000000
abbrev crewBase : Nat := 0x4000000
abbrev coreBase : Nat := 0x6000000
abbrev geodeBase : Nat := 0x7000000
abbrev portBase : Nat := 0x8000000
abbrev dramBase : Nat := 0x100000000

/-- Fabric address of bundle `b` of core `n`'s program memory (R84). -/
def progAddr (n b : Nat) : Nat := coreBase + n * 0x20000 + 8 * b
/-- Fabric address of word `w` of core `n`'s data memory (R84). -/
def dataAddr (n w : Nat) : Nat := coreBase + n * 0x20000 + 0x10000 + 4 * w
/-- Fabric address of word `w` of crew `c`'s memory (R83, R480). -/
def crewAddr (c w : Nat) : Nat := crewBase + c * 0x200000 + 4 * w
/-- Fabric address of byte `o` of central memory. -/
def centralAddr (o : Nat) : Nat := centralBase + o
/-- Fabric address of byte `o` of slice `sl`'s matrix memory (R193). -/
def matrixAddr (sl o : Nat) : Nat := matrixBase + sl * 0xA0000 + o

/-- Source ID of the memory that holds an address (R401). -/
def memSrc (a : Nat) : BitVec 16 :=
  if a < centralBase then sysSrc 1 0
  else if a < matrixBase then sysSrc 0 0
  else if a < crewBase then sliceSrc ((a - matrixBase) / 0xA0000)
  else if a < coreBase then crewSrc ((a - crewBase) / 0x200000)
  else if a < geodeBase then coreSrc ((a - coreBase) / 0x20000)
  else if a < portBase then sysSrc 2 0
  else if a < dramBase then srcId 1 4 14 0
  else sysSrc 3 0

/-- Who reads a word (R372): a unit of the engine, or a fabric master. -/
inductive Reader where
  | engine | fabric
  deriving DecidableEq, Repr

/-- A corrected single-bit error (R372, R395): counted, MEM_STAT.CE set. DRAM counts in its own register. -/
def noteCe (a : Nat) (s : State) : State :=
  if dramBase ≤ a then { s with dram := { s.dram with ce := satInc max32 s.dram.ce } }
  else orReg Reg.MEM_STAT 1#32 { s with msvc := { s.msvc with ce := satInc max32 s.msvc.ce } }

/-- A detected double-bit error (R372, R395, R397): counted, the first address kept, and DET_STAT.UNCORR when the engine
reads it (R34). -/
def noteUe (k : Reader) (a : Nat) (s : State) : State :=
  let s :=
    if dramBase ≤ a then { s with dram := { s.dram with ue := satInc max32 s.dram.ue } }
    else
      let first := !bitAt (reg s Reg.MEM_STAT) 1
      orReg Reg.MEM_STAT 2#32 { s with msvc := { s.msvc with
        ue := satInc max32 s.msvc.ue, ueAddr := if first then wOf (a / 16) else s.msvc.ueAddr } }
  if k = .engine then lapse detUncorr s else s

/-- Severity of an uncorrectable error by its reader (R372). -/
def ueSev : Reader → Sev
  | .engine => .fatal
  | .fabric => .fault

/-- Program memory of a core (R84). -/
def isProg (a : Nat) : Bool := decide (coreBase ≤ a) && decide (a < geodeBase) && decide ((a - coreBase) % 0x20000 < 0x8000)

/-- The address whose mark stands for the check bits of the word at `a`: a bundle has one code over its 64 bits (R372). -/
def eccKey (a : Nat) : Nat := if isProg a then a / 8 * 8 else a

/-- No check bits cover the word: DRAM with DRAM_CFG.IECC = 0 (R395). -/
def unchecked (s : State) (a : Nat) : Bool := decide (dramBase ≤ a) && !bitAt s.dram.cfg 30

/-- ECC checks of a read of the word at `a` with stored mark `mark` (0 good, 1 single, 2 double): the state with counts and
records, whether the word is uncorrectable, and whether an injection inverts its bits 0 and 1 (R372, R395, R466). -/
def eccCheck (k : Reader) (a mark : Nat) (s : State) : State × Bool × Bool :=
  if unchecked s a then (s, false, false) else
  let dram := decide (dramBase ≤ a)
  let src := memSrc a
  let ce := detect false src (if dram then 0x021#12 else 0x000#12) .note 0#32 (mark == 1) s
  let s := if ce.2 then noteCe a ce.1 else ce.1
  let inj := injActs s src (if dram then 0x022#12 else 0x001#12)
  let ue := detect true src (if dram then 0x022#12 else 0x001#12) (ueSev k) 0#32 (mark == 2) s
  (if ue.2 then noteUe k a ue.1 else ue.1, ue.2, inj)

/-- Reads the 32-bit word at fabric address `a` (a multiple of 4) as unit `k`: the word as read and whether it was
uncorrectable. -/
def readWord (k : Reader) (a : Nat) (s : State) : State × Word × Bool :=
  let c := eccCheck k a (tget 0 s.msvc.ecc (eccKey a)) s
  (c.1, memWord s.mem a ^^^ (if c.2.2 then 3#32 else 0#32), c.2.1)

/-- Reads words of memory as the engine does. -/
def readSeq (a : Nat) : Nat → State → State × List Word
  | 0, s => (s, [])
  | n + 1, s =>
    let r := readWord .engine a s
    let q := readSeq (a + 4) n r.1
    (q.1, r.2.1 :: q.2)

/-- Writes the word at `a` with good check bits. -/
def writeWord (a : Nat) (w : Word) (s : State) : State :=
  { s with mem := memPutWord s.mem a w, msvc := { s.msvc with ecc := tset 0 s.msvc.ecc (eccKey a) 0 } }

/-- Writes consecutive words. -/
def writeWords (a : Nat) : List Word → State → State
  | [], s => s
  | w :: ws, s => writeWords (a + 4) ws (writeWord a w s)

/-- Word of memory without ECC side effects: what a register view or a reference calculation reads. -/
def peek (s : State) (a : Nat) : Word := memWord s.mem a

/-- Writes bytes: an enabled-byte write of less than a word keeps the other bytes (R372), and the words it touches have good
check bits. -/
def writeBytes (a : Nat) (bs : List Byte) (s : State) : State :=
  { s with
    mem := memPutBytes s.mem a bs
    msvc := { s.msvc with ecc := tclear s.msvc.ecc (eccKey (a / 4 * 4)) ((a + bs.length + 3) / 4 * 4 - eccKey (a / 4 * 4)) } }

/-- Words a memory holds cleared: its bytes and marks from `lo` for `n` bytes are gone (R382). -/
def clearMem (lo n : Nat) (s : State) : State :=
  { s with mem := tclear s.mem lo n, msvc := { s.msvc with ecc := tclear s.msvc.ecc lo n } }

/-- Address range of a kind of memory (R371, R480). -/
def kindRange : MemKind → Nat × Nat
  | .coreProg => (coreBase, 0x1000000)
  | .coreData => (coreBase, 0x1000000)
  | .crew => (crewBase, 0x2000000)
  | .central => (centralBase, 0x800000)
  | .matrix => (matrixBase, 0xA00000)
  | .portBuf => (portBase, 0x200000)
  | .geode => (geodeBase, 0x40000)

/-- Collision class of the word at `a` (R374, R375): true for SAMPLE. -/
def sampleClass (s : State) (a : Nat) : Bool :=
  if centralBase ≤ a && a < centralBase + 0x800000 then
    let i := (a - centralBase) / 0x10000
    bitAt (reg s (Reg.MEM_CCLS + 4 * (i / 32))) (i % 32)
  else if crewBase ≤ a && a < coreBase then
    bitAt (reg s (Reg.MEM_KCLS + 4 * ((a - crewBase) / 0x200000))) ((a - crewBase) % 0x200000 / 0x10000)
  else !(geodeBase ≤ a && a < portBase)

/-- The MEM_COLLIDE detector of a write (R374, R401): MEM_STAT.COLLIDE and the record; whether the write is discarded. -/
def collideCheck (a : Nat) (collides : Bool) (s : State) : State × Bool :=
  let r := detect true (memSrc a) 0x002#12 .degrade 0#32 collides s
  if r.2 then (orReg Reg.MEM_STAT 4#32 r.1, true) else (r.1, false)

/-- Field of a strip descriptor word (R146). -/
def descWord (s : State) (n i : Nat) : Word := peek s (centralAddr (0x3C0000 + n * 0x40 + 4 * i))
def stripKind (s : State) (n : Nat) : Nat := if n < 1920 then fld (descWord s n 0) 31 29 else 0
def stripDom (s : State) (n : Nat) : Nat := fld (descWord s n 0) 28 27
def stripLive (s : State) (n : Nat) : Bool := bitAt (descWord s n 0) 26
def stripMute (s : State) (n : Nat) : Bool := bitAt (descWord s n 0) 25
def stripForked (s : State) (n : Nat) : Bool := bitAt (descWord s n 0) 24
def stripWin (s : State) (n : Nat) : Nat := let w := fld (descWord s n 0) 23 16; if w = 0 then 12 else w
def stripCore (s : State) (n : Nat) : Nat := fld (descWord s n 1) 30 24
def stripCrew (s : State) (n : Nat) : Nat := fld (descWord s n 2) 31 28
def carryBase (s : State) (n : Nat) : Nat := fld (descWord s n 2) 18 0
def carryLen (s : State) (n : Nat) : Nat := fld (descWord s n 3) 15 0
def stripSink0 (s : State) (n : Nat) : Nat := fld (descWord s n 6) 28 16
def stripNsink (s : State) (n : Nat) : Nat := fld (descWord s n 6) 7 0
def stripSrc0 (s : State) (n : Nat) : Nat := fld (descWord s n 7) 28 16
def stripNsrc (s : State) (n : Nat) : Nat := fld (descWord s n 7) 7 0

/-- The strips in use, in ascending order. -/
def stripsUsed (s : State) : List Nat := (List.range 1920).filter fun n => stripKind s n != 0

/-- Every strip number; the sums of R159, R376 and R515 run over the descriptors of all of them. -/
abbrev stripsAll : List Nat := List.range 1920

/-- Words of the hold area of crew `c` (R376). -/
def holdLen (s : State) (c : Nat) : Nat :=
  stripsAll.foldl (fun h n => if stripCrew s n = c then h + carryLen s n else h) 0

/-- Walk of a crew's carry blocks: the hold word of carry word `w`, the hold words taking the blocks in strip order. -/
def holdWalk (s : State) (c w : Nat) : List Nat → Nat → Option Nat
  | [], _ => none
  | n :: ns, at_ =>
    if stripCrew s n = c then
      if carryBase s n ≤ w && w < carryBase s n + carryLen s n then some (at_ + (w - carryBase s n))
      else holdWalk s c w ns (at_ + carryLen s n)
    else holdWalk s c w ns at_

/-- Hold word of crew word `w` of crew `c`, if `w` is a carry word (R376). -/
def holdWord (s : State) (c w : Nat) : Option Nat :=
  if s.eng.img.isNone then none else holdWalk s c w stripsAll (524288 - holdLen s c)

/-- A performed write of a crew word, with the carry-hold copy of its old value (R377). -/
def writeCrew (c w : Nat) (v : Word) (s : State) : State :=
  let a := crewAddr c w
  let s :=
    match holdWord s c w with
    | some h =>
      if tget false s.msvc.hold a then s
      else { writeWord (crewAddr c h) (peek s a) s with
             msvc := { (writeWord (crewAddr c h) (peek s a) s).msvc with hold := tset false s.msvc.hold a true } }
    | none => s
  writeWord a v s

/-- Carry word as the shipment and the comparison read it (R377). -/
def carryRead (s : State) (c w : Nat) : Word :=
  match holdWord s c w with
  | some h => if tget false s.msvc.hold (crewAddr c w) then peek s (crewAddr c h) else peek s (crewAddr c w)
  | none => peek s (crewAddr c w)

end Sys2Proof.Machine
end

