-- ==== Sys2Proof/Machine/Patch.lean ====
section
/-! DEFINITION. The patch (07): domains and presence of sources, bridge channels, route changes, the alignment delay, delivery to
strips and to output slots, and the asynchronous bridges. -/

namespace Sys2Proof.Machine

/-! ### Samples under treatment (R48, R275) -/

/-- The fade of an underrun or slip from `x` over `n` samples (R48, R275). -/
def fadeOut (n : Nat) (x : Word) : List Word := (List.range n).map fun j => wInt (x.toInt * ((n - 1 - j : Nat) : Int) / n)

/-- Ramp sample `m` of 8n (R48, R275). -/
def rampSample (n m : Nat) (v : Word) : Word := wInt (v.toInt * m / (8 * n : Nat))

/-- A block under slip treatment (R275): the treatment after it and the words delivered. `x` is the last sample delivered. -/
def treatBlock (slip : Bool) (n : Nat) (t : Treat) (x : Word) (ws : List Word) : Treat × List Word :=
  if slip then (.silence 0, fadeOut n x)
  else match t with
    | .none => (.none, ws)
    | .silence c =>
      if c < 8 then (.silence (c + 1), ws.map fun _ => 0#32)
      else (.ramp n, (ws.zipIdx).map fun e => rampSample n e.2 e.1)
    | .ramp m => if 8 * n ≤ m then (.none, ws) else (.ramp (m + n), (ws.zipIdx).map fun e => rampSample n (m + e.2) e.1)

/-! ### Sources and sinks (R199–R201) -/

abbrev silence : Nat := 0x1FFF

/-- Reserved IDs (R199). -/
def sinkBad (i : Nat) : Bool := (decide (0x600 ≤ i) && decide (i < 0x800)) || decide (0x1880 ≤ i)
def srcBad (i : Nat) : Bool := (decide (0x620 ≤ i) && decide (i < 0x800)) || (decide (0x1880 ≤ i) && i != silence)

/-- Port `p`. -/
def portAt (s : State) (p : Nat) : Port := vget {} s.port.ports p
def portSlots (c : Word) : Nat := fld c 5 0
def portDom (c : Word) : Nat := fld c 29 28

/-- The strip in use whose sources, or sinks, hold an ID (R146, R200). -/
def stripOfSrc (s : State) (i : Nat) : Option Nat :=
  (stripsUsed s).find? fun n => stripSrc0 s n ≤ i && i < stripSrc0 s n + stripNsrc s n
def stripOfSink (s : State) (i : Nat) : Option Nat :=
  (stripsUsed s).find? fun n => stripSink0 s n ≤ i && i < stripSink0 s n + stripNsink s n

/-- The strip, in use or not, whose descriptor assigns an input ID (R201). -/
def stripNaming (s : State) (i : Nat) : Option Nat :=
  (List.range 1920).find? fun n => stripSink0 s n ≤ i && i < stripSink0 s n + stripNsink s n

/-- First channel and count of a stream entry (R313), by its STREAM_SEL value. -/
def strCh0 (s : State) (k : Nat) : Nat := fld (actAt s Reg.STR_MAP k) 9 0
def strNch (s : State) (k : Nat) : Nat := fld (actAt s Reg.STR_MAP k) 22 16

/-- The running stream entry that covers network channel `c` (port × 1,024 + channel) in a direction (R301). A receive entry just disabled
delivers one block more (R303). -/
def strOf (s : State) (dir c : Nat) : Option Nat :=
  (s.net.streams.find? fun e => e.2.on && e.1 / 256 == dir * 2 + c / 1024
    && strCh0 s e.1 ≤ c % 1024 && c % 1024 < strCh0 s e.1 + strNch s e.1).map (·.1)

/-- Asynchronous channel `a` and the fields of its configuration (R227). -/
def asrcAt (s : State) (a : Nat) : Asrc := tget {} s.patch.asrc a
def putAsrc (a : Nat) (x : Asrc) (s : State) : State := { s with patch := { s.patch with asrc := tset {} s.patch.asrc a x } }
def asrcOut (x : Asrc) : Bool := bitAt x.cfg 30
/-- The engine-side domain; the reserved value, which acts as EN = 0, counts as D1 (log entry 22). -/
def asrcDom (x : Asrc) : Nat := let d := fld x.cfg 29 28; if d = 3 then 1 else d
def asrcPort (x : Asrc) : Nat := fld x.cfg 21 16
def asrcFill (x : Asrc) : Nat := let f := fld x.cfg 7 0; if f = 0 then 48 else Nat.max f 24

/-- PDM group of a stream and whether the stream delivers (R281). -/
def pdmDom (s : State) (k : Nat) : Nat := fld s.port.pdmCfg (8 * (k / 8) + 5) (8 * (k / 8) + 5)

/-- Domain of a source that is present, 3 for FOREIGN; none where it is absent (R201, R514). -/
def srcDom (s : State) (i : Nat) : Option Nat :=
  if i < 0x600 then
    let p := portAt s (i / 32)
    if p.st != .off && decide (i % 32 < portSlots p.cfg) then some (portDom p.cfg) else none
  else if i < 0x620 then some (pdmDom s (i - 0x600))
  else if 0x800 ≤ i && i < 0x1000 then (strOf s 0 (i - 0x800)).map fun k => fld (actAt s Reg.STR_CFG k) 30 29
  else if 0x1000 ≤ i && i < 0x1800 then (stripOfSrc s i).map (stripDom s)
  else if 0x1800 ≤ i && i < 0x1880 then
    let x := asrcAt s (i - 0x1800)
    if x.run then some (if asrcOut x then 3 else asrcDom x) else none
  else none

/-- Domain of a sink (R201); an uncovered network channel counts as D1 (log entry 22). -/
def sinkDom (s : State) (i : Nat) : Nat :=
  if i < 0x600 then portDom (portAt s (i / 32)).cfg
  else if 0x800 ≤ i && i < 0x1000 then
    match strOf s 1 (i - 0x800) with
    | some k => fld (actAt s Reg.STR_CFG k) 30 29
    | none => 1
  else if 0x1000 ≤ i && i < 0x1800 then ((stripNaming s i).map (stripDom s)).getD 1
  else if 0x1800 ≤ i && i < 0x1880 then
    let x := asrcAt s (i - 0x1800)
    if asrcOut x then asrcDom x else 3
  else 1

/-- A sink of the output side (R202). -/
def isOut (s : State) (i : Nat) : Bool :=
  decide (i < 0x600) || (decide (0x800 ≤ i) && decide (i < 0x1000))
    || (decide (0x1800 ≤ i) && decide (i < 0x1880) && asrcOut (asrcAt s (i - 0x1800)))

/-- An input of an asynchronous channel of DIR = 0. -/
def isForeignIn (s : State) (i : Nat) : Bool :=
  decide (0x1800 ≤ i) && decide (i < 0x1880) && !asrcOut (asrcAt s (i - 0x1800))

/-- A sink with an alignment delay line: an input of an input strip (R220). -/
def hasLine (s : State) (i : Nat) : Bool :=
  match stripOfSink s i with
  | some n => stripKind s n == 1
  | none => false

def sinkAt (s : State) (i : Nat) : Sink := tget {} s.patch.sinks i
def putSink (i : Nat) (x : Sink) (s : State) : State := { s with patch := { s.patch with sinks := tset {} s.patch.sinks i x } }

/-- PATCH_STAT bits. -/
def patchStat (b : Nat) (s : State) : State := orReg Reg.PATCH_STAT (flag true b) s
def patchSrc : BitVec 16 := srcId 1 4 0 0

/-! ### Synchronous bridges (R211–R215) -/

/-- The domain steps of a route (R211). -/
def stepsOf (a b : Nat) : List Step :=
  match a, b with
  | 0, 1 => [.up01]
  | 1, 2 => [.up12]
  | 0, 2 => [.up01, .up12]
  | 1, 0 => [.dn10]
  | 2, 1 => [.dn21]
  | 2, 0 => [.dn21, .dn10]
  | _, _ => []

/-- Fill strokes and latency in D2 samples of a step (R215). -/
def stepFill : Step → Nat
  | .up01 => 16 | .dn10 => 16 | .up12 => 8 | .dn21 => 8
def stepLat : Step → Nat
  | .up01 => 128 | .dn10 => 128 | .up12 => 64 | .dn21 => 64

/-- What a bridge channel serves (R211). -/
structure BrKey where
  src : Nat
  step : Step
  out : Bool
  deriving DecidableEq, Repr

/-- Steps from a source to a sink: none for SILENCE or an absent source. -/
def routeSteps (s : State) (src sink : Nat) : List Step :=
  match srcDom s src with
  | some a => stepsOf a (sinkDom s sink)
  | none => []

def routeKeys (s : State) (src sink : Nat) : List BrKey := (routeSteps s src sink).map fun p => ⟨src, p, isOut s sink⟩

/-- Channel that serves a key. -/
def brFind (s : State) (k : BrKey) : Option Bridge :=
  (s.patch.bridges.findSome? fun e => e.2.bind fun b => if b.src = k.src ∧ b.step = k.step ∧ b.outSide = k.out then some b else none)

/-- The keys a sink's live and coming sources need. -/
def sinkKeys (s : State) (i : Nat) (x : Sink) : List BrKey :=
  (if x.lost || !x.pres then [] else routeKeys s x.src i)
    ++ (match x.chg with
      | some c => if x.npres then routeKeys s c.src i else []
      | none => [])

/-- Channels no sink needs are released (R208). -/
def brGc (s : State) : State :=
  let need := s.patch.sinks.flatMap fun e => sinkKeys s e.1 e.2
  { s with patch := { s.patch with bridges := s.patch.bridges.filter fun e =>
      match e.2 with
      | some b => need.contains ⟨b.src, b.step, b.outSide⟩
      | none => false } }

/-- Keys of a route that no running channel covers (R214). -/
def brMissing (s : State) (src sink : Nat) : List BrKey := (routeKeys s src sink).filter fun k => (brFind s k).isNone

/-- Channels free. -/
def brFree (s : State) : Nat := 256 - s.patch.bridges.length

/-- Allocates channels, lowest number first, with empty histories (R211, R213). -/
def brAlloc : List BrKey → State → State
  | [], s => s
  | k :: ks, s =>
    match (List.range 256).find? fun c => (tget none s.patch.bridges c).isNone with
    | none => s
    | some c =>
      let b : Bridge := { src := k.src, step := k.step, outSide := k.out, hist := [], outw := [], status := 3 }
      brAlloc ks { s with patch := { s.patch with bridges := tset none s.patch.bridges c (some b) } }

/-- The channel of key `k` in an earlier table runs on, at its number or at the lowest free one (R210). -/
def brRestore (old : Tab (Option Bridge)) (k : BrKey) (s : State) : State :=
  match old.find? fun e => e.2.any fun b => b.src == k.src && b.step == k.step && b.outSide == k.out with
  | none => s
  | some e =>
    let free (c : Nat) : Bool := (tget none s.patch.bridges c).isNone
    match if free e.1 then some e.1 else (List.range 256).find? free with
    | none => s
    | some c => { s with patch := { s.patch with bridges := tset none s.patch.bridges c e.2 } }

/-- PATCH_NO_BRIDGE (R205, R210, R214). -/
def noBridge (s : State) : State := patchStat 1 (detect false patchSrc 0x340#12 .note 0#32 true s).1

def kern (s : State) (q : Nat) : Int := match s.eng.img with
  | some im => im.kern[q]?.getD 0
  | none => 0

/-- Sample `p` back in a history. -/
def hAt (h : List Word) (p : Nat) : Int := (h[p]?.getD 0#32).toInt

/-- The kernel sum around two neighbours `lo` and `hi` (R213). -/
def kernSum (s : State) (h : List Word) (p : Nat) : Int :=
  (List.range 32).foldl (fun a q => a + kern s q * (hAt h (p + 32 + q) + hAt h (p + 31 - q))) 0

/-- ×2 output of the newest `n` inputs of a history (R213). -/
def upWords (s : State) (h : List Word) (n : Nat) : List Word :=
  (List.range n).flatMap fun k =>
    let p := n - 1 - k
    [wInt (hAt h (p + 32)), (sat32 (sra (kernSum s h p) 30)).1]

/-- ÷2 output of the newest `n` inputs of a history (R213). -/
def dnWords (s : State) (h : List Word) (n : Nat) : List Word :=
  (List.range (n / 2)).map fun k =>
    let p := n - 1 - 2 * k
    let a := (List.range 32).foldl (fun a q => a + kern s q * (hAt h (p + 65 + 2 * q) + hAt h (p + 63 - 2 * q))) 0
    (sat32 (sra (hAt h (p + 64) * 2 ^ 30 + a) 31)).1

/-- Feeds a channel with a stroke's input words. -/
def brFeed (s : State) (b : Bridge) (ws : List Word) (status : Nat) : Bridge :=
  let h := (ws.reverse ++ b.hist).take 144
  let o := match b.step with
    | .up01 => upWords s h ws.length
    | .up12 => upWords s h ws.length
    | .dn10 => dnWords s h ws.length
    | .dn21 => dnWords s h ws.length
  { b with hist := h, outw := o, status := status }

/-! ### Blocks and paths -/

def zeros (n : Nat) : List Word := List.replicate n 0#32

/-- Block of a source as last frozen or published (R28, R515). -/
def srcBlk (s : State) (i n : Nat) : Blk :=
  if i = silence then ⟨0, zeros n⟩
  else if (srcDom s i).isNone then ⟨3, zeros n⟩
  else tget {} s.patch.blocks i

/-- A bridge step's place in a cascade: stage 0 takes the source, stage 1 the other channel. -/
def secondStage (s : State) (b : Bridge) : Bool :=
  match srcDom s b.src, b.step with
  | some 0, .up12 => true
  | some 2, .dn10 => true
  | _, _ => false

/-- All channels of a side take their stroke's input: first stages, then second stages (R211, R213). -/
def brRunStage (out second : Bool) (s : State) : State :=
  { s with patch := { s.patch with bridges := s.patch.bridges.map fun e => (e.1, e.2.map fun b =>
      if b.outSide = out ∧ secondStage s b = second then
        let x := if second then
            (match brFind s ⟨b.src, (match b.step with | .up12 => .up01 | _ => .dn21), out⟩ with
             | some f => ⟨f.status, f.outw⟩
             | none => ⟨3, []⟩)
          else srcBlk s b.src (domN ((srcDom s b.src).getD 1))
        brFeed s b x.words x.status
      else b) } }

def brRun (out : Bool) (s : State) : State := brRunStage out true (brRunStage out false s)

/-! ### Route changes (R205–R210) -/

/-- Equal-power gains S(n, 64) = floor(2³¹ sin(πn / 128)), n = 0 to 64 (R208). -/
def sineTab : List Nat := [
  0, 52701886, 105372028, 157978697, 210490206, 262874923, 315101294, 367137860,
  418953276, 470516330, 521795963, 572761285, 623381597, 673626408, 723465451, 772868705,
  821806413, 870249095, 918167571, 965532978, 1012316784, 1058490807, 1104027236, 1148898640,
  1193077990, 1236538675, 1279254515, 1321199780, 1362349204, 1402677999, 1442161874, 1480777044,
  1518500249, 1555308767, 1591180425, 1626093615, 1660027308, 1692961062, 1724875039, 1755750017,
  1785567396, 1814309216, 1841958164, 1868497585, 1893911494, 1918184580, 1941302224, 1963250501,
  1984016188, 2003586779, 2021950483, 2039096241, 2055013723, 2069693341, 2083126254, 2095304369,
  2106220351, 2115867625, 2124240380, 2131333571, 2137142927, 2141664948, 2144896909, 2146836866,
  2147483647]

/-- S(n, N) of R208 for N = 16, 32 or 64. -/
def eqPow (n N : Nat) : Int := sineTab[n * 64 / N]?.getD 0

/-- `fade` of R208; mode 0 EQUAL_POWER, else LINEAR. -/
def fadeSample (a b : Word) (n N mode : Nat) : Word :=
  if n = N then b
  else if mode = 0 then (sat32 (sra (a.toInt * eqPow (N - n) N + b.toInt * eqPow n N) 31)).1
  else wInt (a.toInt + (b.toInt - a.toInt) * n / (N : Int))

/-- Status of a crossfade (R204). -/
def mixStatus (a b : Nat) : Nat :=
  if a = 1 ∨ b = 1 then 1 else if a = 2 ∨ b = 2 then 2 else if a = 0 ∨ b = 0 then 0 else 3

/-- Length of a fade in samples (R207). -/
def fadeLen (s : State) (i : Nat) (r : RouteReq) : Nat := (if r.mode = 0 then 4 else r.len) * domN (sinkDom s i)

/-- Chain barrier of a crew, if REPORT names one (R203, R517). -/
def chainBar (s : State) (crew : Nat) : Option Nat :=
  match s.eng.img with
  | some im => let k := im.chain[crew]?.getD 255; if k < 8 then some k else none
  | none => none

/-- A chained route (R203). -/
def chained (s : State) (src sink : Nat) : Bool :=
  match stripOfSrc s src, stripOfSink s sink with
  | some a, some b =>
    stripKind s a == 2 && stripKind s b == 3 && stripDom s a == 1 && stripDom s b == 1
      && stripCore s a / 8 == stripCore s b / 8 && (chainBar s (stripCore s b / 8)).isSome
  | _, _ => false

/-- Block of a source as a sink takes it: on a chained route as published in this stroke (R203), else through the last bridge of its
route (R211, R204). -/
def pathBlk (s : State) (src sink : Nat) : Blk :=
  let n := domN (sinkDom s sink)
  if chained s src sink then tget ⟨0, zeros n⟩ s.patch.now src
  else match (routeKeys s src sink).getLast? with
    | none => srcBlk s src n
    | some k => match brFind s k with
      | some b => ⟨b.status, b.outw⟩
      | none => ⟨3, zeros n⟩

/-- The live path of a sink: 0 MASKED where it has lost its source (R210, R514). -/
def liveBlk (s : State) (i : Nat) (x : Sink) : Blk :=
  if x.lost || !x.pres then ⟨3, zeros (domN (sinkDom s i))⟩ else pathBlk s x.src i

/-- The coming path of a sink: 0 MASKED where its source is absent (R514). -/
def nextBlk (s : State) (i : Nat) (x : Sink) (src : Nat) : Blk :=
  if x.npres then pathBlk s src i else ⟨3, zeros (domN (sinkDom s i))⟩

/-- Word of the LAT section for a strip (R226). -/
def latWord (s : State) (n : Nat) : Word := match s.eng.img with
  | some im => im.lat[n]?.getD 0#32
  | none => 0#32

/-- Converts Q24.8 samples of a domain to another, floor (R222). -/
def toDom (x a b : Nat) : Nat := x * domN b / domN a

/-- Capture framing of a source in Q24.8 samples of its domain (R258, R280, R304); that of a FOREIGN slot lies in its bridge's latency. -/
def capFraming (s : State) (i : Nat) : Nat :=
  if i < 0x600 then
    let p := portAt s (i / 32)
    if portDom p.cfg = 3 then 0 else
    ((256 * (Time.second : Int) - 256 * p.phi * (sps s * domN (portDom p.cfg) : Nat)) / Time.second).toNat
  else if i < 0x620 then (if pdmDom s (i - 0x600) = 0 then 18 else 28) * 256
  else if i < 0x1000 then
    match strOf s 0 (i - 0x800) with
    | some k => fld (actAt s Reg.STR_OFS k) 9 0 * 256
    | none => 0
  else 0

/-- Emit framing of a port in 1/256 sample (R258), which the latency of its output sinks counts (R223); that of a FOREIGN port lies in its
bridge's latency. -/
def emitFraming (s : State) (p : Nat) : Int :=
  let x := portAt s p
  if portDom x.cfg = 3 then 0 else 256 * x.phi * (sps s * domN (portDom x.cfg) : Nat) / Time.second

/-- UP of a route in Q24.8 samples of the sink's domain (R220, R223). An output sink has no strip-to-strip hop (R202), and its bridges,
on the output side, do not count; UP from a strip source is then 0 (log entry 112). -/
def upOf (s : State) (src sink : Nat) : Nat :=
  let d := sinkDom s sink
  match srcDom s src with
  | none => 0
  | some a =>
    let br := if isOut s sink then 0 else (routeSteps s src sink).foldl (fun t p => t + stepLat p * 256) 0 * domN d / 16
    if 0x1000 ≤ src && src < 0x1800 then
      let n := (stripOfSrc s src).getD 0
      if isOut s sink then 0
      else (if chained s src sink then 0 else domN d * 256) + toDom (fld (latWord s n) 15 0 * 256) a d + br
    else if 0x1800 ≤ src && src < 0x1880 then
      let x := asrcAt s (src - 0x1800)
      (if x.ratio.toNat = 0 then 0 else toDom ((asrcFill x + 16) * 4294967296 / x.ratio.toNat) a d) + br
    else toDom (capFraming s src) a d + br

/-- Group target of an input-strip sink in D2 samples (R226). -/
def grpTgt (s : State) (sink : Nat) : Nat :=
  match s.eng.img, stripOfSink s sink with
  | some im, some n => im.tgt[fld (latWord s n) 31 28]?.getD 0
  | _, _ => 0

/-- The exact t of R220, before the clamp. -/
def alignT (s : State) (src sink : Nat) : Int :=
  let r := 16 / domN (sinkDom s sink)
  ((grpTgt s sink * 256 : Nat) - (upOf s src sink * r : Nat) : Int) / (256 * r : Nat)

/-- DLY of R220; 0 without a delay line. -/
def alignDly (s : State) (src sink : Nat) : Nat :=
  if hasLine s sink then (Max.max 0 (Min.min 128 (alignT s src sink))).toNat else 0

/-- ALIGN_MISS (R220), once per route change. -/
def alignCheck (src sink : Nat) (s : State) : State :=
  let miss := hasLine s sink && (decide (alignT s src sink < 0) || decide (128 < alignT s src sink))
  let r := detect false patchSrc 0x341#12 .note 0#32 miss s
  if r.2 then patchStat 2 r.1 else r.1

/-- A sink becomes SETTLED on source `src`: its delay at once, its presence noted (R207, R514). -/
def settleOn (src i : Nat) (s : State) : State :=
  let s := alignCheck src i s
  let d := alignDly s src i
  brGc (putSink i { sinkAt s i with
    src := src, st := .settled, chg := none, dly := d, dlyOld := d, dlyTgt := d, lost := false,
    pres := src == silence || (srcDom s src).isSome, dom := srcDom s src, noBr := false,
    npres := true, ndom := none, nabs := false } s)

/-- Ground checks of R205 on the fields alone. -/
def routeFieldsOk (s : State) (sink src mode len : Nat) : Bool :=
  decide (sink < 0x2000) && decide (src < 0x2000) && !sinkBad sink && !srcBad src
    && (!(decide (0x1000 ≤ sink) && decide (sink < 0x1800)) || (stripOfSink s sink).isSome)
    && decide (mode < 3) && (if mode = 1 then decide (len ≤ 64) else len == 0)

/-- Domain checks of R205; deferred for an absent source (R514). -/
def routeDomOk (s : State) (src sink : Nat) : Bool :=
  match srcDom s src with
  | none => true
  | some 3 => isForeignIn s sink && asrcPort (asrcAt s (sink - 0x1800)) == src / 32 && decide (src < 0x600)
  | some _ => !isForeignIn s sink

/-- A switch at sample 0 of T (CUT, or LINEAR of length 0, R207, R210): false where too few channels are free. -/
def routeCut (src i : Nat) (s : State) : State × Bool :=
  let x := sinkAt s i
  let s1 := brGc (putSink i { x with st := .settled, chg := none, held := none, npres := true, ndom := none, nabs := false } s)
  let miss := brMissing s1 src i
  if brFree s1 < miss.length then (noBridge s, false)
  else (settleOn src i (brAlloc miss s1), true)

/-- A change begins on a SETTLED sink (R207, R514): false where too few channels are free. To an absent source it has no FILL. -/
def routeStart (r : RouteReq) (i : Nat) (s : State) : State × Bool :=
  let x := sinkAt s i
  if r.mode = 1 ∧ r.len = 0 then routeCut r.src i s
  else
    let miss := brMissing s r.src i
    if brFree s < miss.length then (noBridge s, false)
    else
      let s := brAlloc miss s
      let f := miss.foldl (fun t k => t + stepFill k.step) 0
      let here := r.src == silence || (srcDom s r.src).isSome
      (putSink i { x with
        chg := some r, st := if f = 0 then .fade 0 else .fill f, npres := here, ndom := srcDom s r.src, nabs := !here } s, true)

/-- The sink as it stood before the first ROUTE of the stroke, with the channels it played through (R210). -/
def sinkRestore (i : Nat) (o : SameSink) (s : State) : State :=
  let s := brGc (putSink i o.x s)
  ((sinkKeys s i o.x).filter fun k => (brFind s k).isNone).foldl (fun s k => brRestore o.br k s) s

/-- The sink before this stroke's ROUTEs, kept for a later one (R210). -/
def sinkKeep (i : Nat) (s : State) : State := match tget none s.patch.same i with
  | some old => sinkRestore i old s
  | none => { s with patch := { s.patch with same := tset none s.patch.same i (some ⟨sinkAt s i, s.patch.bridges⟩) } }

/-- A ROUTE applied to one sink (R207, R210): false where R205 rejects it. -/
def routeApply (i : Nat) (r : RouteReq) (s : State) : State × Bool :=
  if !routeFieldsOk s i r.src r.mode r.len || !routeDomOk s r.src i then (s, false)
  else
    let s0 := s
    let s := sinkKeep i s
    let x := sinkAt s i
    let ok (p : State × Bool) : State × Bool := if p.2 then p else (noBridge s0, false)
    if x.st = .settled ∧ x.src = r.src ∧ !x.lost then (s, true)
    else if r.mode = 2 ∨ isForeignIn s i then ok (routeCut r.src i s)
    else match x.st with
      | .settled => ok (routeStart r i s)
      | _ => (patchStat 3 (putSink i { x with held := some r } s), true)

/-- A held ROUTE starts once the sink is SETTLED (R210). -/
def heldStart (i : Nat) (s : State) : State :=
  let x := sinkAt s i
  match x.held, x.st with
  | some r, .settled =>
    let s := putSink i { x with held := none } s
    if x.src = r.src then s else (routeStart r i s).1
  | _, _ => s

/-- FILL has ended: the fade starts (R207). -/
def fillDone (i : Nat) (s : State) : State :=
  let x := sinkAt s i
  if x.st = .fill 0 then putSink i { x with st := .fade 0 } s else s

/-- The fade has ended: the new source stands; the tap moves where the delay differs (R207, R208), but not for a source that was
absent at the ROUTE (R514). -/
def fadeDone (i : Nat) (s : State) : State :=
  let x := sinkAt s i
  match x.st, x.chg with
  | .fade n, some r =>
    if n < fadeLen s i r then s
    else
      let s := alignCheck r.src i s
      let d := alignDly s r.src i
      let still := d == x.dly || x.nabs
      let x := { x with src := r.src, lost := false, pres := x.npres, dom := x.ndom, dlyTgt := d, npres := true, ndom := none, nabs := false }
      if still then
        heldStart i (brGc (putSink i { x with st := .settled, chg := none, dly := d, dlyOld := d } s))
      else brGc (putSink i { x with st := .tap 0, dlyOld := x.dly } s)
  | _, _ => s

/-- The tap move has ended (R209). -/
def tapDone (i : Nat) (s : State) : State :=
  let x := sinkAt s i
  match x.st with
  | .tap k => if k < 64 then s else heldStart i (putSink i { x with st := .settled, chg := none, dly := x.dlyTgt, dlyOld := x.dlyTgt } s)
  | _ => s

/-- Every change of a sink that has reached its end moves on. -/
def sinkAdvance (i : Nat) (s : State) : State := tapDone i (fadeDone i (fillDone i s))

/-! ### Delivery (R202–R209) -/

/-- One sample at a time through the delay line (R207, R209, R220): line, progress, output (newest first). -/
def lineRun (x : Sink) : List Word → List Word → Nat → List Word → List Word × List Word
  | [], line, _, acc => (line, acc.reverse)
  | v :: vs, line, j, acc =>
    let line := (v :: line).take 129
    let y := match x.st with
      | .tap k =>
        let o := hAt line x.dlyOld
        wInt (o + sra ((hAt line x.dlyTgt - o) * Nat.min 64 (k + j + 1)) 6)
      | _ => wInt (hAt line x.dly)
    lineRun x vs line (j + 1) (y :: acc)

/-- The words of a stroke before the delay line: the live source, or the crossfade (R207, R208). -/
def sinkWords (s : State) (i : Nat) (x : Sink) : Blk :=
  let a := liveBlk s i x
  match x.st, x.chg with
  | .fade n, some r =>
    let b := nextBlk s i x r.src
    let N := fadeLen s i r
    ⟨mixStatus a.status b.status,
      ((a.words.zip b.words).zipIdx).map fun e => fadeSample e.1.1 e.1.2 (Nat.min N (n + e.2 + 1)) N r.mode⟩
  | _, _ => a

/-- Progress of a change by one stroke (R206). -/
def sinkTick (s : State) (i : Nat) (x : Sink) : SinkSt :=
  let n := domN (sinkDom s i)
  match x.st with
  | .fill l => .fill (l - 1)
  | .fade k => .fade (k + n)
  | .tap k => .tap (Nat.min 64 (k + n))
  | .settled => .settled

/-- A sink takes its block of the stroke: the delivered block, and the sink moved on. -/
def sinkRun (i : Nat) (s : State) : State × Blk :=
  let s := sinkAdvance i s
  let x := sinkAt s i
  let b := sinkWords s i x
  if hasLine s i then
    let r := lineRun x b.words x.line 0 []
    (putSink i { x with line := r.1, st := sinkTick s i x } s, ⟨b.status, r.2⟩)
  else (putSink i { x with st := sinkTick s i x } s, b)

/-- Presence of the live source of a sink at a CATCH (R514, R210). -/
def presence (i : Nat) (s : State) : State :=
  let x := sinkAt s i
  if x.src = silence ∨ x.lost = true then s
  else match srcDom s x.src with
    | none => if x.pres then brGc (putSink i { x with pres := false } s) else s
    | some d =>
      if (x.dom.isSome && x.dom != some d) || !routeDomOk s x.src i then
        brGc (patchStat 0 (putSink i { x with lost := true } s))
      else if x.pres then s
      else
        let miss := brMissing s x.src i
        if brFree s < miss.length then
          (if x.noBr then s else noBridge (putSink i { x with noBr := true } s))
        else
          let s := alignCheck x.src i (brAlloc miss s)
          let dl := alignDly s x.src i
          let dly := if x.st = .settled then dl else x.dly
          putSink i { x with pres := true, dom := some d, noBr := false, dly := dly, dlyTgt := dl } s

/-- Presence of the coming source of a sink's change at a CATCH (R514): it takes its channels with no fill. -/
def presNext (i : Nat) (s : State) : State :=
  let x := sinkAt s i
  match x.chg, x.st with
  | none, _ => s
  | some _, .tap _ => s
  | some r, _ =>
    if r.src = silence then s
    else match srcDom s r.src with
      | none => if x.npres then brGc (putSink i { x with npres := false } s) else s
      | some d =>
        if (x.ndom.isSome && x.ndom != some d) || !routeDomOk s r.src i then
          brGc (patchStat 0 (putSink i { x with
            src := r.src, st := .settled, chg := none, lost := true, dom := some d, npres := true, ndom := none, nabs := false } s))
        else if x.npres then s
        else
          let miss := brMissing s r.src i
          if brFree s < miss.length then
            (if x.noBr then s else noBridge (putSink i { x with noBr := true } s))
          else putSink i { x with npres := true, ndom := some d, noBr := false } (brAlloc miss s)

/-! ### The patch area (R515) -/

/-- Strips whose descriptors name a crew, ascending. -/
def crewStrips (s : State) (c : Nat) : List Nat := stripsAll.filter fun n => stripCrew s n == c

/-- I_c and O_c of R515. -/
def areaIn (s : State) (c : Nat) : Nat := (crewStrips s c).foldl (fun t n => t + stripNsink s n * (domN (stripDom s n) + 1)) 0
def areaOut (s : State) (c : Nat) : Nat := (crewStrips s c).foldl (fun t n => t + stripNsrc s n * domN (stripDom s n)) 0

/-- First word of crew `c`'s patch area. -/
def areaBase (s : State) (c : Nat) : Nat := 524288 - holdLen s c - 2 * (areaIn s c + areaOut s c)

/-- Word offset of a strip's block inside an input or source half. -/
def inOfs (s : State) (c n : Nat) : Nat :=
  ((crewStrips s c).filter (· < n)).foldl (fun t k => t + stripNsink s k * (domN (stripDom s k) + 1)) 0
def outOfs (s : State) (c n : Nat) : Nat :=
  ((crewStrips s c).filter (· < n)).foldl (fun t k => t + stripNsrc s k * domN (stripDom s k)) 0

/-- Fabric address of a strip input's block in input half `h`. -/
def inAddr (s : State) (h i : Nat) : Nat :=
  let n := (stripOfSink s i).getD 0
  let c := stripCrew s n
  crewAddr c (areaBase s c + h * areaIn s c + inOfs s c n + (i - stripSink0 s n) * (domN (stripDom s n) + 1))

/-- Fabric address of a strip source's block in source half `h`. -/
def outAddr (s : State) (h i : Nat) : Nat :=
  let n := (stripOfSrc s i).getD 0
  let c := stripCrew s n
  crewAddr c (areaBase s c + 2 * areaIn s c + h * areaOut s c + outOfs s c n + (i - stripSrc0 s n) * domN (stripDom s n))

/-- The input sinks of the strips in use, ascending. -/
def stripSinks (s : State) : List Nat :=
  let used := stripsUsed s
  ((List.range 0x800).map (0x1000 + ·)).filter fun i =>
    used.any fun n => stripSink0 s n ≤ i && i < stripSink0 s n + stripNsink s n

/-- The sources of the strips in use, ascending. -/
def stripSrcs (s : State) : List Nat :=
  let used := stripsUsed s
  ((List.range 0x800).map (0x1000 + ·)).filter fun i =>
    used.any fun n => stripSrc0 s n ≤ i && i < stripSrc0 s n + stripNsrc s n

/-- A strip input's block goes to its input half (R515). -/
def writeInput (i : Nat) (b : Blk) (s : State) : State :=
  let h := s.eng.stroke.toNat % 2
  writeWords (inAddr s h i) (wOf b.status :: b.words) s

/-- A strip input's block of the stroke, in bytes of the fabric. -/
def inArea (s : State) (i : Nat) : Area :=
  ⟨inAddr s (s.eng.stroke.toNat % 2) i, 4 * (domN (stripDom s ((stripOfSink s i).getD 0)) + 1)⟩

/-- The treatment of an owned entry (R48), and the owner that the OWN section gives it (R516): a sink, or 8,192 + a send-plane entry. -/
def treatOf (s : State) (e : Nat) : Treat := tget .none s.eng.ovr e
def putTreat (e : Nat) (t : Treat) (s : State) : State := { s with eng := { s.eng with ovr := tset .none s.eng.ovr e t } }
def ownerOf (s : State) (e : Nat) : Option Nat := match s.eng.img with
  | some im => (im.own[e]?).filter (· < 128)
  | none => none

/-- Words that go to an owned sink in a stroke while its treatment lasts (R48). -/
def treatWords (e : Nat) (ws : List Word) (s : State) : State × List Word :=
  if treatOf s e = .none then (s, ws)
  else
    let r := treatBlock false ws.length (treatOf s e) 0#32 ws
    (putTreat e r.1 s, r.2)

/-- A strip input takes its block of the stroke (R203, R515). -/
def deliverInput (i : Nat) (s : State) : State :=
  let r := sinkRun i s
  let q := treatWords i r.2.words r.1
  writeInput i { r.2 with words := q.2 } q.1

/-- Delivery to one strip input at CATCH; a chained sink waits for its barrier (R203, R515). -/
def deliverStrip (i : Nat) (s : State) : State :=
  let x := sinkAt s i
  if chained s x.src i || (match x.chg with | some c => chained s c.src i | none => false) then
    { s with patch := { s.patch with due := s.patch.due ++ [inArea s i] } }
  else deliverInput i s

/-- The block of a strip source in source half `h` as the patch reads it (R515); a strip source carries VALID. -/
def readSrc (h i : Nat) (s : State) : State × Blk :=
  let r := readSeq (outAddr s h i) (domN ((srcDom s i).getD 1)) s
  (r.1, ⟨0, r.2⟩)

/-- Publication of a strip source after FINISH (R202, R515), and to the chained sinks of its crew (R203). -/
def publishSrc (h i : Nat) (s : State) : State :=
  let r := readSrc h i s
  { r.1 with patch := { r.1.patch with blocks := tset {} r.1.patch.blocks i r.2 } }
def publishNow (h i : Nat) (s : State) : State :=
  let r := readSrc h i s
  { r.1 with patch := { r.1.patch with now := tset {} r.1.patch.now i r.2 } }

/-- Delivery of the chained sinks of a crew once its chain barrier has released (R203). -/
def deliverChained (crew : Nat) (s : State) : State :=
  let h := s.eng.stroke.toNat % 2
  (stripSinks s).foldl (fun s i =>
    let x := sinkAt s i
    let ch (q : Nat) : Bool := chained s q i
    if stripCrew s ((stripOfSink s i).getD 0) = crew ∧ s.patch.due.contains (inArea s i) = true then
      let s := { s with patch := { s.patch with due := s.patch.due.filter (· != inArea s i) } }
      let s := if ch x.src then publishNow h x.src s else s
      let s := match x.chg with
        | some c => if ch c.src then publishNow h c.src s else s
        | none => s
      deliverInput i s
    else s) s

/-- PATCH_DELIVERY at CATCH (R515): presence, input-side bridges, then the strip inputs in ascending sink ID. -/
def patchDeliver (s : State) : State :=
  let s := (s.patch.sinks.map (·.1)).foldl (fun s i => presNext i (presence i s)) s
  (stripSinks s).foldl (fun s i => deliverStrip i s) (brRun false s)

/-- Sinks of the output side in the table (R202); every other one takes SILENCE, and so publishes 0 VALID. -/
def outSinks (s : State) : List Nat := (s.patch.sinks.map (·.1)).filter (isOut s)

/-- An output sink's block in a table of output blocks: zeros with status VALID where the sink table gives it SILENCE. -/
def outBlkIn (s : State) (t : Tab Blk) (i : Nat) : Blk := tget ⟨0, zeros (domN (sinkDom s i))⟩ t i

/-- PATCH_PUBLISH after FINISH (R202): strip sources, output-side bridges, then the output blocks. -/
def patchPublish (s : State) : State :=
  let h := s.eng.stroke.toNat % 2
  let s := (stripSrcs s).foldl (fun s i => publishSrc h i s) s
  let s := { s with patch := { s.patch with outBlk := [] } }
  (outSinks s).foldl (fun s i =>
    let r := sinkRun i s
    { r.1 with patch := { r.1.patch with outBlk := tset {} r.1.patch.outBlk i r.2 } }) (brRun true s)

/-! ### Asynchronous bridges (R217–R219) -/

/-- Tap `t` of phase `ph` of the asynchronous kernel (R217). -/
def akern (s : State) (ph t : Nat) : Int := match s.eng.img with
  | some im => im.akern[ph * 32 + t]?.getD 0
  | none => 0

/-- Input sample `i` of a channel, counted from its first; `fifo` is newest first. -/
def asrcTap (x : Asrc) (i : Nat) : Int := hAt x.fifo (x.arrived - 1 - i)

/-- Output sample at position `p` (R217). -/
def asrcSample (s : State) (x : Asrc) (p : Nat) : Word :=
  let i := p / 16777216
  let ph := p / 65536 % 256
  let w := p % 65536
  let acc := (List.range 32).foldl (fun a t =>
    let c := akern s ph t + sra ((akern s (ph + 1) t - akern s ph t) * w) 16
    a + c * asrcTap x (i + t - 15)) 0
  (sat32 (sra acc 31)).1

/-- A tap of one of `n` outputs has not arrived, or has been overwritten (R219). -/
def asrcBad (x : Asrc) (n : Nat) : Bool :=
  let lo := x.pos / 16777216
  let hi := (x.pos + x.ratio.toNat * (n - 1)) / 16777216
  decide (x.arrived ≤ hi + 16) || decide (lo < 15) || decide (lo + 512 < x.arrived + 15)

/-- POS as at enable: the FIFO holds FILL_TGT samples ahead of the newest tap (R217). -/
def asrcPos (x : Asrc) : Nat := (x.arrived - 17 - asrcFill x) * 16777216

/-- An enabled channel in a stroke: `ws` the input words that arrived, `n` the output samples; `force` that frames were lost (R257) (R217–R219). -/
def asrcRun (a n : Nat) (ws : List Word) (force : Bool) (s : State) : State :=
  let x := asrcAt s a
  let n' := x.arrived + ws.length
  let x := { x with fifo := (ws.reverse ++ x.fifo).take 512, arrived := n', inN := ws.length, fill := n' - 17 - x.pos / 16777216 }
  let r := detect true patchSrc 0x342#12 .degrade 0#32 ((asrcBad x n || force) && !x.unlock) s
  if r.2 then
    orRegAt Reg.ASRC_STAT a 2#32 (putAsrc a { x with pos := asrcPos x, outw := fadeOut n x.lastw, status := 1, lastw := 0#32 } r.1)
  else if x.unlock then putAsrc a { x with outw := zeros n, status := 1 } r.1
  else
    let o := (List.range n).map fun j => asrcSample s x (x.pos + x.ratio.toNat * j)
    putAsrc a { x with pos := x.pos + n * x.ratio.toNat, outw := o, status := 0, lastw := o.getLast?.getD 0#32 } r.1

/-- The foreign port of a channel stops (R219). -/
def asrcUnlock (port : Nat) (s : State) : State :=
  s.patch.asrc.foldl (fun s e =>
    if e.2.run && asrcPort e.2 == port && !(asrcAt s e.1).unlock then
      let r := detect false patchSrc 0x343#12 .degrade 0#32 true s
      orRegAt Reg.ASRC_STAT e.1 1#32 (putAsrc e.1 { asrcAt r.1 e.1 with unlock := true } r.1)
    else s) s

/-! ### Commands -/

/-- ROUTE_FILL_DONE (R207). -/
def execRouteFillDone (sink : Fin 8192) (s : State) : Host.Outcome State Fault Refusal := done (fillDone sink.val s)
/-- ROUTE_FADE_DONE (R208). -/
def execRouteFadeDone (sink : Fin 8192) (s : State) : Host.Outcome State Fault Refusal := done (fadeDone sink.val s)
/-- ROUTE_TAPMOVE_DONE (R209). -/
def execRouteTapmoveDone (sink : Fin 8192) (s : State) : Host.Outcome State Fault Refusal := done (tapDone sink.val s)

end Sys2Proof.Machine
end

