-- ==== Sys2Proof/Machine/Matrix.lean ====
section
/-! DEFINITION. The mix matrix (06): matrix memory, gain stepping, the evaluation of a slice, its output stage, and the two
calls that move targets. -/

namespace Sys2Proof.Machine

/-! ### Image words and matrix memory (R175, R193, R195) -/

/-- Slice word of the loaded image (R195); 0 before an image is loaded. -/
def sliceWord (s : State) (sl : Nat) : Word := match s.eng.img with
  | some im => im.slices[sl]?.getD 0#32
  | none => 0#32

def sliceOn (s : State) (sl : Nat) : Bool := bitAt (sliceWord s sl) 31
def sliceZout (s : State) (sl : Nat) : Bool := bitAt (sliceWord s sl) 30
def sliceCrew (s : State) (sl : Nat) : Nat := fld (sliceWord s sl) 23 20
def sliceBase (s : State) (sl : Nat) : Nat := fld (sliceWord s sl) 18 0
def planeOf (s : State) : Nat := match s.eng.img with
  | some im => im.plane
  | none => 0

/-- Crosspoints of the matrix and of a slice (R175). -/
abbrev xpCount : Nat := 589824
abbrev sliceXp : Nat := 36864

/-- Destination bus of a crosspoint, and its term of that bus (R175). -/
def xpBus (x : Nat) : Nat := if x < 524288 then x / 1024 else (x - 524288) / 128
def xpTerm (x : Nat) : Nat := if x < 524288 then x % 1024 else 1024 + (x - 524288) % 128

/-- Slice and local index r of a crosspoint (R175). -/
def xpSlice (x : Nat) : Nat := xpBus x / 32
def xpLocal (x : Nat) : Nat := 1152 * (xpBus x % 32) + xpTerm x

/-- Addresses of R193. -/
def curAddr (sl r : Nat) : Nat := matrixAddr sl (4 * r)
def tgtAddr (sl : Nat) (y : Bool) (r : Nat) : Nat := matrixAddr sl (0x24000 + (if y then 0x24000 else 0) + 4 * r)
def stepAddr (sl r : Nat) : Nat := matrixAddr sl (0x6C000 + 2 * r)
def srcmapAddr (sl q : Nat) : Nat := matrixAddr sl (0x7E000 + 2 * q)
def signAddr (sl i : Nat) : Nat := matrixAddr sl (0x80000 + i / 8)

/-- Halfword at an even address. -/
def half (m : List Host.Cell) (a : Nat) : Nat := (memGet m a).toNat + 256 * (memGet m (a + 1)).toNat

/-- Array in force in a slice (R190). -/
def tselOf (s : State) (sl : Nat) : Bool := s.mix.tsel.getLsbD sl

/-- The halfword at `a` as a slice reads it. -/
def readHalf (a : Nat) (s : State) : State × Nat :=
  let r := readWord .engine (a / 4 * 4) s
  (r.1, if a % 4 = 0 then fld r.2.1 15 0 else fld r.2.1 31 16)

/-- Writes a halfword, the rest of its word kept (R372). -/
def writeHalf (a v : Nat) (s : State) : State := writeBytes a (natBytes 2 v) s

/-! ### Gain stepping (R186, R187) -/

/-- A crosspoint's stepping state (R186). -/
structure XpSt where
  cur : Word
  wait : Bool
  ramp : Bool
  arm : Bool
  cnt : Nat
  deriving DecidableEq, Repr

/-- The step word of R186 and back. -/
def stepWord (x : XpSt) : Nat :=
  (if x.wait then 0x8000 else 0) + (if x.ramp then 0x4000 else 0) + (if x.arm then 0x2000 else 0) + x.cnt % 256
def stepOf (cur : Word) (w : Nat) : XpSt :=
  { cur, wait := bitsOf w 15 15 == 1, ramp := bitsOf w 14 14 == 1, arm := bitsOf w 13 13 == 1, cnt := w % 256 }

/-- Gain `k` of 64 of a ramp from `cur` to `t` (R187). -/
def xpRamp (cur t : Word) (k : Nat) : Word := wInt (cur.toInt + sra ((t.toInt - cur.toInt) * k) 6)

/-- The gain of sample 7 of the stroke before (R187): `t` is the target in force then. -/
def xpEff (x : XpSt) (t : Word) : Word := if x.ramp then xpRamp x.cur t x.cnt else x.cur

/-- The head of `xp_stroke` (R187): re-arming from `ge`, or the count of a wait. -/
def xpHead (rearm : Bool) (ge t : Word) (tmo : Nat) (x : XpSt) : XpSt :=
  if rearm then
    if t = ge then { cur := ge, wait := false, ramp := false, arm := false, cnt := 0 }
    else { cur := ge, wait := true, ramp := false, arm := false, cnt := tmo }
  else if x.wait then { x with cnt := x.cnt - 1 }
  else x

/-- One sample of `xp_stroke` (R187): `flip` says that its sign differs from the sample before. -/
def xpSample (t : Word) (flip : Bool) (x : XpSt) : XpSt × Word :=
  let x :=
    if x.wait then
      if flip then { x with cur := t, wait := false }
      else if x.cnt = 0 then { x with wait := false, ramp := true }
      else x
    else x
  if x.ramp then
    let k := x.cnt + 1
    let g := xpRamp x.cur t k
    (if k = 64 then { x with cur := t, ramp := false, cnt := 0 } else { x with cnt := k }, g)
  else (x, x.cur)

/-- The samples of a stroke (R187): the gains, in order. -/
def xpSamples (t : Word) : List Word → Bool → XpSt → XpSt × List Word
  | [], _, x => (x, [])
  | v :: vs, np, x =>
    let neg := decide (v.toInt < 0)
    let r := xpSample t (neg != np) x
    let q := xpSamples t vs neg r.1
    (q.1, r.2 :: q.2)

/-! ### Output stage (R183, R184) -/

/-- Settings of a bus (R184). -/
structure BusSet where
  sh : Int
  en : Bool
  thr : Int
  knee : Int
  tmo : Nat
  bad : Bool
  deriving DecidableEq, Repr

def busDefault : BusSet := { sh := 0, en := true, thr := 0x7FFFFFFF, knee := 0x5A9DF7AB, tmo := 120, bad := false }

/-- Settings from words 0, 252, 253 and 254 of the live bank (R184). -/
def busSetOf (w0 w252 w253 w254 : Word) : BusSet :=
  let sh := fld w252 4 0
  let thr := w253.toInt
  let knee := w254.toInt
  let zero := thr = 0 ∧ knee = 0
  let good := 0 < knee ∧ knee < thr
  { sh := if sh < 16 then (sh : Int) else (sh : Int) - 32
    en := bitAt w252 31
    thr := if good then thr else busDefault.thr
    knee := if good then knee else busDefault.knee
    tmo := let t := fld w0 7 0; if t = 0 then 120 else t
    bad := decide (¬ zero) && decide (¬ good) }

/-- Word `w` of the bank of strip `n` that the last CATCH latched (R148). -/
def bankAddr (n : Nat) (b : Bool) (w : Nat) : Nat := centralAddr (n * 0x800 + (if b then 0x400 else 0) + 4 * w)
def latchedAt (s : State) (n : Nat) : Bool := tget false s.eng.latched n

/-- Settings of bus `b` in the stroke (R184). -/
def busSet (b : Nat) (s : State) : State × BusSet :=
  let n := 1024 + b
  if stripKind s n = 0 then (s, busDefault)
  else
    let l := latchedAt s n
    let r0 := readWord .engine (bankAddr n l 0) s
    let r1 := readWord .engine (bankAddr n l 252) r0.1
    let r2 := readWord .engine (bankAddr n l 253) r1.1
    let r3 := readWord .engine (bankAddr n l 254) r2.1
    (r3.1, busSetOf r0.2.1 r1.2.1 r2.2.1 r3.2.1)

/-- `bus_out` (R183): the output and whether the bus limited or clipped. -/
def busOut (acc : Int) (b : BusSet) : Word × Bool :=
  let r := if 0 ≤ b.sh then acc * 2 ^ b.sh.toNat / 2 ^ 27 else acc / 2 ^ (27 + b.sh.natAbs)
  if !b.en then sat32 r
  else
    let a : Int := r.natAbs
    if a ≤ b.knee then (wInt r, false)
    else
      let u := a - b.knee
      let d := b.thr - b.knee
      let o := if 2 * d ≤ u then b.thr else b.knee + u - u * u / (4 * d)
      (wInt (if r < 0 then -o else o), true)

/-! ### Evaluation (R179–R181) -/

/-- Half of the send plane that the slices read in stroke S (R177). -/
def readHalfOf (s : State) : Nat := (s.eng.stroke.toNat + 1) % 2
def planeAddr (s : State) (h : Nat) : Nat := centralAddr (planeOf s + h * 0xC000)

/-- What one slice carries through its evaluation: the state, and the exact accumulators of the 32 buses by sample. -/
structure SliceRun where
  s : State
  acc : List (List Int)

/-- Adds the products of a term to bus `lb` (R179, R180). -/
def accAdd (lb : Nat) (xs gs : List Word) (acc : List (List Int)) : List (List Int) :=
  acc.set lb (((acc[lb]?.getD []).zip (xs.zip gs)).map fun e => e.1 + e.2.1.toInt * e.2.2.toInt)

/-- Term `k` of local bus `lb` of slice `sl` (R179, R187, R188): `plane` holds the words of the read half, `signs` those of
the sign store. -/
def evalTerm (sl : Nat) (tmos : List Nat) (plane signs : List Word) (k lb : Nat) (r : SliceRun) : SliceRun :=
  let i := 1152 * lb + k
  let y := tselOf r.s sl
  let src := if k < 1024 then (r.s, k) else
    let m := readHalf (srcmapAddr sl (128 * lb + (k - 1024))) r.s
    (m.1, 1024 + m.2 % 512)
  let xs := (plane.drop (8 * src.2)).take 8
  let c := readWord .engine (curAddr sl i) src.1
  let t := readWord .engine (tgtAddr sl y i) c.1
  let w := readHalf (stepAddr sl i) t.1
  let st := stepOf c.2.1 w.2
  let was := memWord r.s.fin.mat (tgtAddr sl (r.s.fin.tsel.getLsbD sl) i)
  let rearm := st.arm || (y != r.s.mix.tselWas.getLsbD sl)
  let h := xpHead rearm (xpEff st was) t.2.1 (tmos[lb]?.getD 120) st
  let np := bitAt (signs[src.2 / 32]?.getD 0#32) (src.2 % 32)
  let q := xpSamples t.2.1 xs np h
  { s := writeHalf (stepAddr sl i) (stepWord q.1) (writeWord (curAddr sl i) q.1.cur w.1)
    acc := accAdd lb xs q.2 r.acc }

/-- The sign store after the last term (R186): bit i is the sign of sample 7 of source i. -/
def signStore (sl : Nat) (plane : List Word) (s : State) : State :=
  writeBytes (matrixAddr sl 0x80000) ((List.range 192).map fun b =>
    BitVec.ofNat 8 ((List.range 8).foldl (fun v j =>
      if (plane[8 * (8 * b + j) + 7]?.getD 0#32).toInt < 0 then v + 2 ^ j else v) 0)) s

/-- The output stage of a slice (R183, R184): outputs in bus order, MIX_LIMHIT bits, and the once-per-stroke MIX_LIM_BAD. -/
def outStage (sl : Nat) (sets : List BusSet) (r : SliceRun) : State :=
  let outs := (r.acc.zip sets).map fun e => e.1.map fun a => busOut a e.2
  let hits := (outs.zipIdx).foldl (fun v e => if e.1.any (·.2) then v ||| flag true e.2 else v) 0#32
  let s := orReg (Reg.MIX_LIMHIT + 4 * sl) hits r.s
  let d := detect false (sliceSrc sl) 0x330#12 .note 0#32 (sets.any (·.bad)) s
  let s := if d.2 then orReg Reg.MIX_STAT 4#32 d.1 else d.1
  { s with mix := { s.mix with out := tset [] s.mix.out sl (outs.flatMap fun l => l.map (·.1)) } }

/-- The settings of a slice's 32 buses. -/
def busSets (sl : Nat) (s : State) : State × List BusSet :=
  (List.range 32).foldl (fun p lb => let r := busSet (32 * sl + lb) p.1; (r.1, p.2 ++ [r.2])) (s, [])

/-- SLICE_EVALUATE (R179): terms ascend, and within a term the buses. -/
def sliceEval (plane : List Word) (sl : Nat) (s : State) : State :=
  let b := busSets sl s
  let tmos := b.2.map (·.tmo)
  let g := readSeq (signAddr sl 0) 48 b.1
  let r0 : SliceRun := { s := g.1, acc := List.replicate 32 (List.replicate 8 0) }
  let r := (List.range 1152).foldl (fun r k =>
    (List.range 32).foldl (fun r lb => evalTerm sl tmos plane g.2 k lb r) r) r0
  outStage sl b.2 { r with s := signStore sl plane r.s }

/-- The matrix memory, as the snapshots keep it. -/
def matCells (m : List Host.Cell) : List Host.Cell := m.filter fun e => matrixBase ≤ e.1 && e.1 < crewBase

/-- The last sample of each bus in a slice's output block (R185). -/
def lastWords (sl : Nat) (s : State) : List Word :=
  (List.range 32).map fun lb => peek s (crewAddr (sliceCrew s sl) (sliceBase s sl + 8 * lb + 7))

/-- Crosspoint `r` of a slice stands as the slice found it at CATCH. -/
def xpBack (sl r : Nat) (s : State) : State :=
  writeHalf (stepAddr sl r) (half s.mix.was (stepAddr sl r)) (writeWord (curAddr sl r) (memWord s.mix.was (curAddr sl r)) s)

/-- A slice that is stopped after `q` terms: the later crosspoints, and the sign store unless all terms were done, stand as at CATCH
(R179, R185, R186). -/
def sliceBack (sl q : Nat) (s : State) : State :=
  let s := ((List.range sliceXp).drop q).foldl (fun s o => xpBack sl (1152 * (o % 32) + o / 32) s) s
  if q < sliceXp then writeBytes (signAddr sl 0) (memGetBytes s.mix.was (signAddr sl 0) 192) s else s

/-- A slice that overran (R185): it stops after a number of terms that is a free value, unless it had signalled done; its 32 bus outputs
fade from the last sample of the stroke before (R48). -/
def sliceStop (sl : Nat) (s : State) : State :=
  if !sliceOn s sl then s
  else
    let ended := s.mix.done.getLsbD sl
    let x := if ended then tget [] s.mix.lastOut sl else lastWords sl s
    let s := if ended then s else
      { sliceBack sl (Config.sliceTerms s.freeCtr) s with freeCtr := s.freeCtr + 1 }
    let s := writeWords (crewAddr (sliceCrew s sl) (sliceBase s sl)) (x.flatMap (fadeOut 8)) s
    putTreat (9728 + sl) (.silence 0) { s with mix := { s.mix with out := tset [] s.mix.out sl [] } }

/-- All slices at a CATCH (R179, R182): enabled slices evaluate; a disabled slice signals done, and writes its zero block
where ZOUT = 1. -/
def slicesRun (s : State) : State :=
  let on := (List.range 16).filter (sliceOn s)
  let off := (List.range 16).filter fun sl => !sliceOn s sl
  let d := off.foldl (fun (v : BitVec 16) sl => v ||| BitVec.ofNat 16 (2 ^ sl)) 0#16
  let s := { s with mix := { s.mix with out := [], done := d, was := matCells s.mem, lastOut := [] } }
  let s := off.foldl (fun s sl => if sliceZout s sl then
    writeWords (crewAddr (sliceCrew s sl) (sliceBase s sl)) (List.replicate 256 0#32) s else s) s
  let s := if on.isEmpty then s else
    let p := readSeq (planeAddr s (readHalfOf s)) 12288 s
    on.foldl (fun s sl => sliceEval p.2 sl s) p.1
  { s with mix := { s.mix with tselWas := s.mix.tsel } }

/-- The bus outputs of a slice while the treatment of an overrun lasts (R48, R185). -/
def treatBuses (sl : Nat) (ws : List Word) (s : State) : State × List Word :=
  let t := treatOf s (9728 + sl)
  if t = .none then (s, ws)
  else (putTreat (9728 + sl) (treatBlock false 8 t 0#32 (ws.take 8)).1 s,
    (chunks 8 ws).flatMap fun b => (treatBlock false 8 t 0#32 b).2)

/-- A slice writes its output block and signals done (R181, R185). -/
def sliceDone (sl cycles : Nat) (s : State) : State :=
  if s.eng.phase != .drive || s.mix.done.getLsbD sl then s else
  match tget [] s.mix.out sl with
  | [] => s
  | ws =>
    let r := treatBuses sl ws s
    let x := lastWords sl r.1
    let s := writeWords (crewAddr (sliceCrew r.1 sl) (sliceBase r.1 sl)) r.2 r.1
    { s with mix := { s.mix with
      lastOut := tset [] s.mix.lastOut sl x
      out := tset [] s.mix.out sl [], done := s.mix.done ||| BitVec.ofNat 16 (2 ^ sl),
      doneMax := Nat.max s.mix.doneMax (Nat.min cycles 65535) } }

/-- SLICE_DONE (R181). -/
def execSliceDone (sl : SliceId) (cycles : Nat) (s : State) : Host.Outcome State Fault Refusal :=
  done (sliceDone sl.val cycles s)

/-! ### Calls and load (R189–R195) -/

/-- XP_GAIN at its application (R189): the target in force, and ARM. -/
def xpGain (x : Nat) (t : Word) (s : State) : State :=
  let sl := xpSlice x
  let r := xpLocal x
  let a := stepAddr sl r
  writeHalf a (half s.mem a ||| 0x2000) (writeWord (tgtAddr sl (tselOf s sl) r) t s)

/-- Slices a mask names; 0 means all (R190). -/
def sliceMask (mask : BitVec 16) : BitVec 16 := if mask = 0#16 then 0xFFFF#16 else mask

/-- XP_SWAP at its application (R190). -/
def xpSwap (mask : BitVec 16) (s : State) : State :=
  orReg Reg.MIX_STAT 1#32 { s with mix := { s.mix with tsel := s.mix.tsel ^^^ sliceMask mask } }

/-- A mask names a slice the image disables (R182, R231). -/
def maskDisabled (s : State) (mask : BitVec 16) : Bool :=
  (List.range 16).any fun sl => (sliceMask mask).getLsbD sl && !sliceOn s sl

/-- Shadow array of a slice: whether it is Y. -/
def shadowY (s : State) (sl : Nat) : Bool := !tselOf s sl

/-- Crosspoint snapshot of XP_SEL (R197), as at the most recent FINISH: XP_TGT, XP_EFF, XP_STEP, XP_SRC. -/
def xpSnap (s : State) (x : Nat) : List Word :=
  let m := s.fin.mat
  let sl := xpSlice x
  let r := xpLocal x
  let t := memWord m (tgtAddr sl (s.fin.tsel.getLsbD sl) r)
  let w := half m (stepAddr sl r)
  let bus := place (xpBus x) 16
  let src := if x < 524288 then bus ||| wOf (x % 1024)
    else flag true 31 ||| bus ||| wOf (half m (srcmapAddr sl (128 * (xpBus x % 32) + (x - 524288) % 128)) % 512)
  [t, xpEff (stepOf (memWord m (curAddr sl r)) w) t, wOf w, src]

end Sys2Proof.Machine
end

