-- ==== Sys2Proof/Machine/Bundle.lean ====
section
/-! DEFINITION. The commit of an Apion bundle (03, 04): fetch, faults (R108, R109), transfer syllables (R135–R139), store
queues (R99, R101), zero-overhead loops (R89–R91), control flow (R133), barriers and mailboxes (R105, R106). -/

namespace Sys2Proof.Machine

/-- Core `n`. -/
def coreAt (s : State) (n : Nat) : Core := vget {} s.cores n
/-- Replaces core `n`. -/
def putCore (n : Nat) (k : Core) (s : State) : State := { s with cores := vput s.cores n k }

/-- What a core does, or did when a debug access halted it (R34, R104). -/
def coreDoes (k : Core) : CoreRun := if k.run = .halted then k.paused else k.run

/-- Crew `c`. -/
def crewAt (s : State) (c : Nat) : Crew := vget {} s.crews c

/-! ### Addresses of a core (R83) -/

/-- Where a word address of a core lies (R83). -/
inductive Region where
  | data | crew | window
  deriving DecidableEq, Repr

/-- Region and fabric address of word address `w` of core `n` (R83, R84); none where unmapped. -/
def mapWord (n : Nat) (k : Core) (w : Nat) : Option (Region × Nat) :=
  if w < 0x4000 then some (.data, dataAddr n w)
  else if 0x80000 ≤ w && w < 0x100000 then some (.crew, crewAddr (n / 8) (w - 0x80000))
  else if 0x100000 ≤ w && w < 0x140000 then
    some (.window, centralAddr (0x100000 * fld k.cwb 2 0 + 4 * (w - 0x100000)))
  else none

/-- Meter blocks in central memory (R145). -/
def isMeter (a : Nat) : Bool := centralBase + 0x3E0000 ≤ a && a < centralBase + 0x3EF000

/-- The youngest queued value of an address (R101). -/
def queued (q : List StoreEnt) (a : Nat) : Option Word :=
  ((q.flatten.reverse).find? fun e => e.1 == a).map (·.2)

/-- The firmware area of central memory, refused to every master but SC (R145). -/
def firmwareArea (a : Nat) : Bool := decide (centralBase + 0x780000 ≤ a) && decide (a < matrixBase)

/-- A core's load of one word (R99, R101, R109, R167): own queued stores first, the stage copy for meter blocks. A word of the firmware
area is refused, and a free value comes back (R145, log entry 114). -/
def loadWord (k : Core) (a : Nat) (s : State) : State × Word :=
  match queued (k.crewQ ++ k.winQ) a with
  | some w => (s, w)
  | none =>
    if firmwareArea a then ({ s with freeCtr := s.freeCtr + 1 }, Config.refusedLoad s.freeCtr)
    else if isMeter a then
      let c := eccCheck .engine a 0 s
      (c.1, memWord c.1.stage a ^^^ (if c.2.2 then 3#32 else 0#32))
    else let r := readWord .engine a s; (r.1, r.2.1)

/-- Loads words in order. -/
def loadWords (k : Core) : List Nat → State → State × List Word
  | [], s => (s, [])
  | a :: as, s =>
    let r := loadWord k a s
    let t := loadWords k as r.1
    (t.1, r.2 :: t.2)

/-! ### Store queues (R99) -/

/-- A crew-memory store reaches memory, with the carry-hold copy (R377). -/
def storeCrew (a : Nat) (v : Word) (s : State) : State :=
  writeCrew ((a - crewBase) / 0x200000) ((a - crewBase) % 0x200000 / 4) v s

/-- A word of the send plane whose row or return entry has no owner, and so stays 0 (R178, R516). -/
def planeUnowned (s : State) (a : Nat) : Bool :=
  let o := a - planeAddr s 0
  s.eng.img.isSome && decide (planeAddr s 0 ≤ a) && decide (o < 0x18000) && (ownerOf s (8192 + o % 0xC000 / 32)).isNone

/-- A window store reaches central memory: meter blocks take the stage copy, whose words 0 and 7 keep (R167); the firmware area (R145)
and send-plane entries without an owner (R178) take none. -/
def storeWindow (a : Nat) (v : Word) (s : State) : State :=
  if firmwareArea a || planeUnowned s a then s
  else if isMeter a then
    (if a % 32 = 0 ∨ a % 32 = 28 then s else { s with stage := memPutWord s.stage a v })
  else writeWord a v s

/-- Writes an entry's words in order. -/
def drainEnt (window : Bool) : StoreEnt → State → State
  | [], s => s
  | e :: es, s => drainEnt window es (if window then storeWindow e.1 e.2 s else storeCrew e.1 e.2 s)

/-- The head entry of a queue drains (R99). -/
def drainHead (n : Nat) (window : Bool) (s : State) : State :=
  let k := coreAt s n
  match (if window then k.winQ else k.crewQ) with
  | [] => s
  | e :: q => drainEnt window e (putCore n (if window then { k with winQ := q, winTry := 0 } else { k with crewQ := q, crewTry := 0 }) s)

/-- Both queues drain in order; they hold at most 4 and 2 entries. -/
def drainAll (n : Nat) (s : State) : State :=
  let s := drainHead n false (drainHead n false (drainHead n false (drainHead n false s)))
  drainHead n true (drainHead n true s)

/-- A store enters its queue; one that finds it full holds until the head has drained (R99). -/
def enqueue (n : Nat) (window : Bool) (e : StoreEnt) (s : State) : State :=
  if e.isEmpty then s else
  let k := coreAt s n
  let full := if window then decide (2 ≤ k.winQ.length) else decide (4 ≤ k.crewQ.length)
  let s := if full then drainHead n window s else s
  let k := coreAt s n
  putCore n (if window then { k with winQ := k.winQ ++ [e] } else { k with crewQ := k.crewQ ++ [e] }) s

/-- A committed store: local words at once, crew and window words one entry in their queue (R99, R136). -/
def storeWords (n : Nat) (l : List ((Region × Nat) × Word)) (s : State) : State :=
  let s := (l.filter fun e => e.1.1 == .data).foldl (fun s e => writeWord e.1.2 e.2 s) s
  let s := enqueue n false ((l.filter fun e => e.1.1 == .crew).map fun e => (e.1.2, e.2)) s
  enqueue n true ((l.filter fun e => e.1.1 == .window).map fun e => (e.1.2, e.2)) s

/-! ### Transfer syllables (R116, R135–R139) -/

/-- Transfer operations. -/
inductive XOp where
  | tnop
  | ld (j : Nat) (mode : AMode)
  | st (j : Nat) (mode : AMode)
  | amodm | amodi | mvr | mrv | setr
  | mbput | mbget | mbcnt
  deriving DecidableEq, Repr

/-- The transfer opcodes (R116). -/
def xopOf (op : Nat) : Option XOp :=
  match op with
  | 0x00 => some .tnop
  | 0x01 => some (.ld 1 .p) | 0x02 => some (.ld 1 .o) | 0x03 => some (.ld 1 .po)
  | 0x04 => some (.ld 2 .p) | 0x05 => some (.ld 2 .o) | 0x06 => some (.ld 2 .po)
  | 0x07 => some (.ld 4 .p) | 0x08 => some (.ld 4 .o) | 0x09 => some (.ld 4 .po)
  | 0x0A => some (.st 1 .p) | 0x0B => some (.st 1 .o) | 0x0C => some (.st 1 .po)
  | 0x0D => some (.st 2 .p) | 0x0E => some (.st 2 .o) | 0x0F => some (.st 2 .po)
  | 0x10 => some (.st 4 .p) | 0x11 => some (.st 4 .o) | 0x12 => some (.st 4 .po)
  | 0x13 => some .amodm | 0x14 => some .amodi | 0x15 => some .mvr | 0x16 => some .mrv | 0x17 => some .setr
  | 0x18 => some .mbput | 0x19 => some .mbget | 0x1A => some .mbcnt
  | _ => none

/-- Fields of a class register are legal (R138). -/
def okClass (f : TSyl) : Bool := f.mr.toNat % 4 == 0 && (decide (f.mr.toNat / 4 < 2) || decide (f.ar.toNat < 8))

/-- Fields that must be 0 (R114, R135, R138, R139). -/
def okMode (mode : AMode) (f : TSyl) : Bool :=
  match mode with
  | .p => f.ofs == 0#11
  | .o => f.mr == 0#4
  | .po => f.mr == 0#4

def xopOk (x : XOp) (f : TSyl) : Bool :=
  match x with
  | .tnop => f.dr == 0#5 && f.ar == 0#4 && f.mr == 0#4 && f.ofs == 0#11
  | .ld _ mode => okMode mode f
  | .st _ mode => okMode mode f
  | .amodm => f.dr == 0#5 && f.ofs == 0#11
  | .amodi => f.dr == 0#5 && f.mr == 0#4
  | .mvr => f.ofs == 0#11 && okClass f
  | .mrv => f.ofs == 0#11 && okClass f
  | .setr => f.dr == 0#5 && okClass f
  | .mbput => f.ofs == 0#11 && f.mr == 0#4 && decide (f.ar.toNat < 8)
  | .mbget => f.ofs == 0#11 && f.mr == 0#4 && f.ar == 0#4
  | .mbcnt => f.ofs == 0#11 && f.mr == 0#4 && f.ar == 0#4

/-- Register of a class (R138): 0 A, 1 M, 2 B, 3 L. -/
def readClass (k : Core) (cls i : Nat) : BitVec 24 :=
  match cls with
  | 0 => rA k i
  | 1 => rM k i
  | 2 => rB k i
  | _ => rL k i
def writeClass (cls i : Nat) (v : BitVec 24) (k : Core) : Core :=
  match cls with
  | 0 => setA i v k
  | 1 => { k with m := vput k.m i v }
  | 2 => { k with b := vput k.b i v }
  | _ => { k with l := vput k.l i v }

/-- The post-modify of a transfer, done whatever its predicate (R87, R138): the address register and its new value. -/
def postMod (k : Core) (x : XOp) (f : TSyl) : Option (Nat × BitVec 24) :=
  let n := f.ar.toNat
  match x with
  | .ld _ .o => none
  | .st _ .o => none
  | .ld _ mode => some (n, (effAddr k mode f).2)
  | .st _ mode => some (n, (effAddr k mode f).2)
  | .amodm => some (n, nextAddr k n (rA k n) (rM k f.mr.toNat).toInt)
  | .amodi => some (n, nextAddr k n (rA k n) f.ofs.toInt)
  | _ => none

/-- Word addresses of a load or store (R135, R88). -/
def accAddrs (k : Core) (x : XOp) (f : TSyl) : List Nat :=
  match x with
  | .ld j mode => runAddrs k f.ar.toNat j (effAddr k mode f).1
  | .st j mode => runAddrs k f.ar.toNat j (effAddr k mode f).1
  | _ => []

/-- The transfer syllable of a bundle: none where the bundle carries an immediate (R111), or the opcode is undefined. -/
def xferOf (b : Bundle) : Option XOp := if b.cf.li then some .tnop else xopOf b.topc.toNat

/-- The transfer acts: it is there and its predicate holds. -/
def xferOn (k : Core) (b : Bundle) : Bool := !b.cf.li && rP k b.tf.tprd.toNat

/-! ### Faults (R108, R109) -/

abbrev cIllegal : BitVec 12 := 0x200#12
abbrev cAddr : BitVec 12 := 0x201#12
abbrev cLoopNest : BitVec 12 := 0x202#12
abbrev cCsr : BitVec 12 := 0x203#12
abbrev cFetch : BitVec 12 := 0x204#12
abbrev cStack : BitVec 12 := 0x205#12
abbrev cBarrier : BitVec 12 := 0x206#12

/-- Member mask of a barrier (R105), from the image. -/
def barMask (s : State) (crew k : Nat) : Nat :=
  match s.eng.img with
  | none => 0
  | some im => im.barriers[8 * crew + k]?.getD 0

/-- Checks of LOOP at bundle `pc` (R89, R134): a fault code, if any. A LOOP whose fields are reserved faults CORE_ILLEGAL before this is
reached; with two levels open CORE_LOOP_NEST comes before the end-bundle checks (DESIGN CHOICE, log entry 21). -/
def loopFault (k : Core) (pc len : Nat) : Option (BitVec 12) :=
  if 2 ≤ k.loops.length then some cLoopNest
  else if 4095 < pc + 1 + len then some cIllegal
  else match k.loops.getLast? with
    | none => none
    | some o => if o.stop = pc ∨ o.stop < pc + 1 + len then some cIllegal else none

/-- Faults of the control part (R94, R105, R134). -/
def ctlFault (s : State) (n : Nat) (k : Core) (c : Ctl) : Option (BitVec 12) :=
  match c with
  | .call _ => if 4 ≤ k.rets.length then some cStack else none
  | .ret => if k.rets.isEmpty then some cStack else none
  | .loop len _ => loopFault k k.pc len
  | .barrier j => if (barMask s (n / 8) j).testBit (n % 8) then none else some cBarrier
  | _ => none

/-- Fault of the transfer syllable (R85, R112, R114). -/
def xferFault (n : Nat) (k : Core) (b : Bundle) : Option (BitVec 12) :=
  match xferOf b with
  | none => some cIllegal
  | some x =>
    if !xferOn k b then none
    else if !xopOk x b.tf then some cIllegal
    else if (accAddrs k x b.tf).all fun w => (mapWord n k w).isSome then none
    else some cAddr

/-- The fault of a bundle: the compute syllable's first, then the transfer's (log entry 21). -/
def bundleFault (s : State) (n : Nat) (k : Core) (b : Bundle) (r : CRes) : Option (BitVec 12) :=
  if r.ill then some cIllegal
  else match ctlFault s n k r.ctl with
    | some c => some c
    | none => xferFault n k b

/-- Free values for the registers of a stopped core (R108: undefined until the next CATCH). -/
def faulted (ctr : Nat) (k : Core) : Core :=
  { k with
    d := vmap (fun i _ => Config.faultedReg (ctr + i)) k.d
    acc := vmap (fun i _ => (Config.faultedReg (ctr + 32 + i)).zeroExtend 80) k.acc
    a := vmap (fun i _ => (Config.faultedReg (ctr + 36 + i)).truncate 24) k.a
    m := vmap (fun i _ => (Config.faultedReg (ctr + 52 + i)).truncate 24) k.m
    b := vmap (fun i _ => (Config.faultedReg (ctr + 68 + i)).truncate 24) k.b
    l := vmap (fun i _ => (Config.faultedReg (ctr + 76 + i)).truncate 24) k.l
    p := (Config.faultedReg (ctr + 84)).truncate 8
    stat := Config.faultedReg (ctr + 85), scale := Config.faultedReg (ctr + 86), bxd := Config.faultedReg (ctr + 87)
    cwb := Config.faultedReg (ctr + 88)
    loops := (List.range 2).map fun i =>
      let f (j : Nat) : Nat := (Config.faultedReg (ctr + 89 + 4 * i + j)).toNat
      ⟨f 0, f 1, f 2, f 3⟩ }

/-- A core fault (R108): the bundle does not commit, the core stops until CATCH and its record is logged. Words that younger bundles had
taken from its mailbox are lost (R139): at most the three between M2 and CM (R92). -/
def coreFault (n : Nat) (code : BitVec 12) (s : State) : State :=
  let k := coreAt s n
  let k := { faulted s.freeCtr k with
    run := .stopped, held := none, mbox := k.mbox.drop (Config.mailLost (s.freeCtr + 97) % 4), faultCode := code, faultPc := if 4096 ≤ k.pc then 4095 else k.pc }
  report (coreSrc n) code .fault 0#32 (putCore n k { s with freeCtr := s.freeCtr + 98 })

/-! ### Program counter (R89–R91, R133, R134) -/

/-- Closes the levels whose body does not hold a taken target (R91). -/
def closeLoops (t : Nat) (l : List LoopLv) : List LoopLv :=
  match l with
  | [] => []
  | [o] => if o.start ≤ t ∧ t ≤ o.stop then [o] else []
  | o :: i :: _ =>
    if i.start ≤ t ∧ t ≤ i.stop then [o, i]
    else if o.start ≤ t ∧ t ≤ o.stop then [o] else []

/-- The loop step at the end of bundle `pc` (R89, R90): levels and next bundle. -/
def loopStep (pc : Nat) (l : List LoopLv) : List LoopLv × Nat :=
  match l with
  | [] => ([], pc + 1)
  | [o] =>
    if o.stop = pc then
      (if o.cnt - 1 = 0 then ([], pc + 1) else ([{ o with cnt := o.cnt - 1 }], o.start))
    else ([o], pc + 1)
  | o :: i :: _ =>
    if i.stop = pc then
      if i.cnt - 1 = 0 then
        if o.stop = pc then
          (if o.cnt - 1 = 0 then ([], pc + 1)
           else ([{ o with cnt := o.cnt - 1 }, { i with cnt := i.reload }], i.start))
        else ([o], pc + 1)
      else ([o, { i with cnt := i.cnt - 1 }], i.start)
    else ([o, i], pc + 1)

/-- Where a bundle's control part leads: loop levels, return stack and next bundle. A CALL to a target outside an open loop body closes the
level like a jump, and a CALL in bundle 4,095 returns to 4,096, where the fetch faults (DESIGN CHOICE, log entry 115). -/
def nextPc (k : Core) (c : Ctl) : Core :=
  match c with
  | .jump t => { k with loops := closeLoops t k.loops, pc := t }
  | .call t => { k with loops := closeLoops t k.loops, pc := t, rets := (k.pc + 1) :: k.rets }
  | .ret =>
    let t := k.rets.headD 0
    { k with loops := closeLoops t k.loops, pc := t, rets := k.rets.tail }
  | .loop len cnt =>
    if cnt = 0 then { k with pc := k.pc + 2 + len }
    else { k with pc := k.pc + 1, loops := k.loops ++ [⟨k.pc + 1, k.pc + 1 + len, cnt, cnt⟩] }
  | _ =>
    let r := loopStep k.pc k.loops
    { k with loops := r.1, pc := r.2 }

/-! ### Commit -/

/-- A CSR write at commit (R72, R132). -/
def writeCsr (n c : Nat) (v : Word) (k : Core) : Core :=
  match c with
  | 0 => { k with stat := (v &&& 0x1F0000#32) ||| (k.stat &&& 0xFF#32 &&& ~~~v) }
  | 1 => if isLead n then { k with scale := v &&& 0x1F1F1F1F#32 } else k
  | 2 => { k with bxd := v }
  | 5 => { k with cwb := v &&& 7#32 }
  | _ => k

/-- A CSR write that is discarded with a record (R72). -/
def csrBad (c : Nat) : Bool := !(c == 0 || c == 1 || c == 2 || c == 5)

/-- Register and flag writes of the compute syllable. -/
def writeC (n : Nat) (r : CRes) (k : Core) : Core :=
  let k := r.dw.foldl (fun k e => setD e.1 e.2 k) k
  let k := r.accw.foldl (fun k e => setAcc e.1 e.2 k) k
  let k := match r.pw with
    | some e => setP e.1 e.2 k
    | none => k
  let k := { k with stat := k.stat ||| (r.sat.zeroExtend 32) ||| (r.aov.zeroExtend 32 <<< 4),
                    bxd := r.track.foldl (fun b v => b ||| signFold v) k.bxd }
  match r.csrw with
  | some e => writeCsr n e.1 e.2 k
  | none => k

/-- A load's registers, without those the compute syllable writes (R97). -/
def writeLoad (r : CRes) (dr : Nat) (ws : List Word) (k : Core) : Core :=
  (ws.zipIdx).foldl (fun k e =>
    if r.dw.any fun d => d.1 % 32 == (dr + e.2) % 32 then k else setD (dr + e.2) e.1 k) k

/-- Appends a word to a mailbox (R106). -/
def mailPut (n : Nat) (w : Word) (s : State) : State :=
  let k := coreAt s n
  putCore n { k with mbox := k.mbox ++ [w] } s

/-- The transfer's effect on registers, memory and mailboxes; `old` is the core before the bundle (R113). -/
def xferAct (n : Nat) (old : Core) (b : Bundle) (r : CRes) (s : State) : State :=
  match xferOf b with
  | none => s
  | some x =>
    let s := match (if b.cf.li then none else postMod old x b.tf) with
      | some e => putCore n (setA e.1 e.2 (coreAt s n)) s
      | none => s
    if !xferOn old b then s else
    let f := b.tf
    let dr := f.dr.toNat
    match x with
    | .ld _ _ =>
      let t := loadWords old ((accAddrs old x f).map fun w => ((mapWord n old w).getD (.data, 0)).2) s
      putCore n (writeLoad r dr t.2 (coreAt t.1 n)) t.1
    | .st _ _ =>
      storeWords n (((accAddrs old x f).zipIdx).map fun e =>
        ((mapWord n old e.1).getD (.data, 0), rD old (dr + e.2))) s
    | .mvr => putCore n (writeClass (f.mr.toNat / 4) f.ar.toNat ((rD old dr).truncate 24) (coreAt s n)) s
    | .mrv =>
      let c := f.mr.toNat / 4
      let v := readClass old c f.ar.toNat
      putCore n (writeLoad r dr [if c = 1 then v.signExtend 32 else v.zeroExtend 32] (coreAt s n)) s
    | .setr =>
      let c := f.mr.toNat / 4
      putCore n (writeClass c f.ar.toNat (if c = 1 then f.ofs.signExtend 24 else f.ofs.zeroExtend 24) (coreAt s n)) s
    | .mbput => mailPut (n / 8 * 8 + f.ar.toNat) (rD old dr) s
    | .mbget =>
      let k := coreAt s n
      putCore n (writeLoad r dr [old.mbox.headD 0#32] { k with mbox := k.mbox.tail }) s
    | .mbcnt => putCore n (writeLoad r dr [wOf old.mbox.length] (coreAt s n)) s
    | _ => s

/-- What a control part does beyond the program counter (R104, R105). -/
def ctlAct (n : Nat) (c : Ctl) (s : State) : State :=
  match c with
  | .barrier j =>
    let s := drainAll n s
    let cr := crewAt s (n / 8)
    let cr := { cr with arrived := vput cr.arrived j (vget 0#8 cr.arrived j ||| BitVec.ofNat 8 (2 ^ (n % 8))) }
    let s := { s with crews := vput s.crews (n / 8) cr }
    putCore n { coreAt s n with run := .atBarrier j } s
  | .waitstroke => putCore n { coreAt s n with run := .draining } s
  | _ => s

/-- The bundle commits. -/
def commit (n : Nat) (b : Bundle) (r : CRes) (s : State) : State :=
  let old := coreAt s n
  let s := putCore n (nextPc (writeC n r old) r.ctl) s
  let s := xferAct n old b r s
  let s := match r.csrw with
    | some e => if csrBad e.1 then report (coreSrc n) cCsr .note 0#32 s else s
    | none => s
  ctlAct n r.ctl { s with cores := vput s.cores n { coreAt s n with held := none } }

/-- The word lies in an input block that the patch has not yet written in the stroke (R515). -/
def inputDue (s : State) (a : Nat) : Bool := s.patch.due.any fun x => decide (x.lo ≤ a) && decide (a < x.lo + x.len)

/-- A transfer that must wait: a put to a full mailbox, a get from an empty one (R106), a load from an input block not yet
written (R515). -/
def xferHold (s : State) (n : Nat) (k : Core) (b : Bundle) : Option CoreRun :=
  if !xferOn k b then none else
  match xferOf b with
  | some (.ld j m) =>
    if (accAddrs k (.ld j m) b.tf).any fun w => inputDue s ((mapWord n k w).getD (.data, 0)).2 then some .loadHeld else none
  | some .mbput => if 4 ≤ (coreAt s (n / 8 * 8 + b.tf.ar.toNat)).mbox.length then some .putHeld else none
  | some .mbget => if k.mbox.isEmpty then some .getHeld else none
  | _ => none

/-- The fault codes of a core, in code order (R109). -/
def coreCodes : List (BitVec 12) := [cIllegal, cAddr, cLoopNest, cFetch, cStack, cBarrier]

/-- The injection check of a bundle (R466): the first of the core's detectors that an armed slot names. Answers the state
after the record and the fault that then acts. -/
def coreInject (n : Nat) (real : Option (BitVec 12)) (s : State) : State × Option (BitVec 12) :=
  match coreCodes.find? fun c => injArmed s (coreSrc n) c with
  | none => (s, real)
  | some c =>
    let r := detect true (coreSrc n) c .fault 0#32 false s
    (r.1, if r.2 then some c else real)

/-- The fetch of the bundle (R84, R109): past bundle 4,095, or an uncorrectable program word. -/
def fetchCheck (n : Nat) (k : Core) (s : State) : State × Bool :=
  if 4096 ≤ k.pc then (s, true)
  else
    let a := progAddr n k.pc
    let c := eccCheck .engine a (tget 0 s.msvc.ecc (eccKey a)) s
    (c.1, c.2.1)

/-- Core `n` issues bundle `b`: it commits, waits (R106, R515), or faults. A core that is not running issues nothing (log
entry 7). -/
def runBundle (n : Nat) (b : Bundle) (s : State) : State :=
  let k := coreAt s n
  if k.run ≠ .running then s else
  let f := fetchCheck n k s
  let s := f.1
  let r := computeRes n k b
  let i := coreInject n (if f.2 then some cFetch else bundleFault s n k b r) s
  match i.2 with
  | some c => coreFault n c i.1
  | none =>
    match xferHold i.1 n k b with
    | some h => putCore n { coreAt i.1 n with run := h, held := some b } i.1
    | none => commit n b r i.1

/-- A held bundle tries again; the core runs on where it commits (R106, R515). -/
def retryHeld (n : Nat) (was : CoreRun) (s : State) : State :=
  let k := coreAt s n
  match k.held with
  | none => s
  | some b =>
    if k.run ≠ was then s
    else match xferHold s n k b with
      | some _ => s
      | none => commit n b (computeRes n k b) (putCore n { k with run := .running } s)

end Sys2Proof.Machine
end

