-- ==== Sys2Proof/Machine/Cores.lean ====
section
/-! DEFINITION. The commands of an Apion core (03, 04): one meaning per instruction of R115 and R116, each a bundle that
carries it beside the other syllable's bits, and the events of its units. -/

namespace Sys2Proof.Machine

/-! ### Compute syllables (R115) -/

/-- NOP (R114): compute opcode 0x00. -/
def execNop (c : CoreId) (f : CSyl) (x : Word) (s : State) : Host.Outcome State Fault Refusal :=
  done (runBundle c.val (mkC 0x00#6 f x) s)

/-- MOV (R117): compute opcode 0x01. -/
def execMov (c : CoreId) (f : CSyl) (x : Word) (s : State) : Host.Outcome State Fault Refusal :=
  done (runBundle c.val (mkC 0x01#6 f x) s)

/-- ADD (R117): compute opcode 0x02. -/
def execAdd (c : CoreId) (f : CSyl) (x : Word) (s : State) : Host.Outcome State Fault Refusal :=
  done (runBundle c.val (mkC 0x02#6 f x) s)

/-- ADDS (R117): compute opcode 0x03. -/
def execAdds (c : CoreId) (f : CSyl) (x : Word) (s : State) : Host.Outcome State Fault Refusal :=
  done (runBundle c.val (mkC 0x03#6 f x) s)

/-- SUB (R117): compute opcode 0x04. -/
def execSub (c : CoreId) (f : CSyl) (x : Word) (s : State) : Host.Outcome State Fault Refusal :=
  done (runBundle c.val (mkC 0x04#6 f x) s)

/-- SUBS (R117): compute opcode 0x05. -/
def execSubs (c : CoreId) (f : CSyl) (x : Word) (s : State) : Host.Outcome State Fault Refusal :=
  done (runBundle c.val (mkC 0x05#6 f x) s)

/-- ABSS (R117): compute opcode 0x06. -/
def execAbss (c : CoreId) (f : CSyl) (x : Word) (s : State) : Host.Outcome State Fault Refusal :=
  done (runBundle c.val (mkC 0x06#6 f x) s)

/-- NEGS (R117): compute opcode 0x07. -/
def execNegs (c : CoreId) (f : CSyl) (x : Word) (s : State) : Host.Outcome State Fault Refusal :=
  done (runBundle c.val (mkC 0x07#6 f x) s)

/-- AND (R117): compute opcode 0x08. -/
def execAnd (c : CoreId) (f : CSyl) (x : Word) (s : State) : Host.Outcome State Fault Refusal :=
  done (runBundle c.val (mkC 0x08#6 f x) s)

/-- OR (R117): compute opcode 0x09. -/
def execOr (c : CoreId) (f : CSyl) (x : Word) (s : State) : Host.Outcome State Fault Refusal :=
  done (runBundle c.val (mkC 0x09#6 f x) s)

/-- XOR (R117): compute opcode 0x0A. -/
def execXor (c : CoreId) (f : CSyl) (x : Word) (s : State) : Host.Outcome State Fault Refusal :=
  done (runBundle c.val (mkC 0x0A#6 f x) s)

/-- ANDN (R117): compute opcode 0x0B. -/
def execAndn (c : CoreId) (f : CSyl) (x : Word) (s : State) : Host.Outcome State Fault Refusal :=
  done (runBundle c.val (mkC 0x0B#6 f x) s)

/-- SHL (R118): compute opcode 0x0C. -/
def execShl (c : CoreId) (f : CSyl) (x : Word) (s : State) : Host.Outcome State Fault Refusal :=
  done (runBundle c.val (mkC 0x0C#6 f x) s)

/-- SHR (R118): compute opcode 0x0D. -/
def execShr (c : CoreId) (f : CSyl) (x : Word) (s : State) : Host.Outcome State Fault Refusal :=
  done (runBundle c.val (mkC 0x0D#6 f x) s)

/-- SRA (R118): compute opcode 0x0E. -/
def execSra (c : CoreId) (f : CSyl) (x : Word) (s : State) : Host.Outcome State Fault Refusal :=
  done (runBundle c.val (mkC 0x0E#6 f x) s)

/-- SHLS (R118): compute opcode 0x0F. -/
def execShls (c : CoreId) (f : CSyl) (x : Word) (s : State) : Host.Outcome State Fault Refusal :=
  done (runBundle c.val (mkC 0x0F#6 f x) s)

/-- MIN (R117): compute opcode 0x10. -/
def execMin (c : CoreId) (f : CSyl) (x : Word) (s : State) : Host.Outcome State Fault Refusal :=
  done (runBundle c.val (mkC 0x10#6 f x) s)

/-- MAX (R117): compute opcode 0x11. -/
def execMax (c : CoreId) (f : CSyl) (x : Word) (s : State) : Host.Outcome State Fault Refusal :=
  done (runBundle c.val (mkC 0x11#6 f x) s)

/-- SEL (R120): compute opcode 0x12. -/
def execSel (c : CoreId) (f : CSyl) (x : Word) (s : State) : Host.Outcome State Fault Refusal :=
  done (runBundle c.val (mkC 0x12#6 f x) s)

/-- CMP (R119): compute opcode 0x13. -/
def execCmp (c : CoreId) (f : CSyl) (x : Word) (s : State) : Host.Outcome State Fault Refusal :=
  done (runBundle c.val (mkC 0x13#6 f x) s)

/-- CLS (R122): compute opcode 0x14. -/
def execCls (c : CoreId) (f : CSyl) (x : Word) (s : State) : Host.Outcome State Fault Refusal :=
  done (runBundle c.val (mkC 0x14#6 f x) s)

/-- PLOG (R121): compute opcode 0x15. -/
def execPlog (c : CoreId) (f : CSyl) (x : Word) (s : State) : Host.Outcome State Fault Refusal :=
  done (runBundle c.val (mkC 0x15#6 f x) s)

/-- MPY (R123): compute opcode 0x18. -/
def execMpy (c : CoreId) (f : CSyl) (x : Word) (s : State) : Host.Outcome State Fault Refusal :=
  done (runBundle c.val (mkC 0x18#6 f x) s)

/-- MPYI (R123): compute opcode 0x19. -/
def execMpyi (c : CoreId) (f : CSyl) (x : Word) (s : State) : Host.Outcome State Fault Refusal :=
  done (runBundle c.val (mkC 0x19#6 f x) s)

/-- MPA (R123): compute opcode 0x1A. -/
def execMpa (c : CoreId) (f : CSyl) (x : Word) (s : State) : Host.Outcome State Fault Refusal :=
  done (runBundle c.val (mkC 0x1A#6 f x) s)

/-- MAC (R123): compute opcode 0x1B. -/
def execMac (c : CoreId) (f : CSyl) (x : Word) (s : State) : Host.Outcome State Fault Refusal :=
  done (runBundle c.val (mkC 0x1B#6 f x) s)

/-- MSU (R123): compute opcode 0x1C. -/
def execMsu (c : CoreId) (f : CSyl) (x : Word) (s : State) : Host.Outcome State Fault Refusal :=
  done (runBundle c.val (mkC 0x1C#6 f x) s)

/-- MACSU (R123): compute opcode 0x1D. -/
def execMacsu (c : CoreId) (f : CSyl) (x : Word) (s : State) : Host.Outcome State Fault Refusal :=
  done (runBundle c.val (mkC 0x1D#6 f x) s)

/-- MVA (R125): compute opcode 0x20. -/
def execMva (c : CoreId) (f : CSyl) (x : Word) (s : State) : Host.Outcome State Fault Refusal :=
  done (runBundle c.val (mkC 0x20#6 f x) s)

/-- MVA4 (R125): compute opcode 0x21. -/
def execMva4 (c : CoreId) (f : CSyl) (x : Word) (s : State) : Host.Outcome State Fault Refusal :=
  done (runBundle c.val (mkC 0x21#6 f x) s)

/-- CLRA (R126): compute opcode 0x22. -/
def execClra (c : CoreId) (f : CSyl) (x : Word) (s : State) : Host.Outcome State Fault Refusal :=
  done (runBundle c.val (mkC 0x22#6 f x) s)

/-- LDA (R126): compute opcode 0x23. -/
def execLda (c : CoreId) (f : CSyl) (x : Word) (s : State) : Host.Outcome State Fault Refusal :=
  done (runBundle c.val (mkC 0x23#6 f x) s)

/-- ACMB (R126): compute opcode 0x24. -/
def execAcmb (c : CoreId) (f : CSyl) (x : Word) (s : State) : Host.Outcome State Fault Refusal :=
  done (runBundle c.val (mkC 0x24#6 f x) s)

/-- SHA (R126): compute opcode 0x25. -/
def execSha (c : CoreId) (f : CSyl) (x : Word) (s : State) : Host.Outcome State Fault Refusal :=
  done (runBundle c.val (mkC 0x25#6 f x) s)

/-- MVAR (R126): compute opcode 0x26. -/
def execMvar (c : CoreId) (f : CSyl) (x : Word) (s : State) : Host.Outcome State Fault Refusal :=
  done (runBundle c.val (mkC 0x26#6 f x) s)

/-- SETAR (R126): compute opcode 0x27. -/
def execSetar (c : CoreId) (f : CSyl) (x : Word) (s : State) : Host.Outcome State Fault Refusal :=
  done (runBundle c.val (mkC 0x27#6 f x) s)

/-- BEXP (R127): compute opcode 0x28. -/
def execBexp (c : CoreId) (f : CSyl) (x : Word) (s : State) : Host.Outcome State Fault Refusal :=
  done (runBundle c.val (mkC 0x28#6 f x) s)

/-- ZXARM (R129): compute opcode 0x29. -/
def execZxarm (c : CoreId) (f : CSyl) (x : Word) (s : State) : Host.Outcome State Fault Refusal :=
  done (runBundle c.val (mkC 0x29#6 f x) s)

/-- ZXSTEP (R130): compute opcode 0x2A. -/
def execZxstep (c : CoreId) (f : CSyl) (x : Word) (s : State) : Host.Outcome State Fault Refusal :=
  done (runBundle c.val (mkC 0x2A#6 f x) s)

/-- CSRR (R131): compute opcode 0x2B. -/
def execCsrr (c : CoreId) (f : CSyl) (x : Word) (s : State) : Host.Outcome State Fault Refusal :=
  done (runBundle c.val (mkC 0x2B#6 f x) s)

/-- CSRW (R132): compute opcode 0x2C. -/
def execCsrw (c : CoreId) (f : CSyl) (x : Word) (s : State) : Host.Outcome State Fault Refusal :=
  done (runBundle c.val (mkC 0x2C#6 f x) s)

/-- BR (R133): compute opcode 0x30. -/
def execBr (c : CoreId) (f : CSyl) (x : Word) (s : State) : Host.Outcome State Fault Refusal :=
  done (runBundle c.val (mkC 0x30#6 f x) s)

/-- JMP (R133): compute opcode 0x31. -/
def execJmp (c : CoreId) (f : CSyl) (x : Word) (s : State) : Host.Outcome State Fault Refusal :=
  done (runBundle c.val (mkC 0x31#6 f x) s)

/-- CALL (R133): compute opcode 0x32. -/
def execCall (c : CoreId) (f : CSyl) (x : Word) (s : State) : Host.Outcome State Fault Refusal :=
  done (runBundle c.val (mkC 0x32#6 f x) s)

/-- RET (R133): compute opcode 0x33. -/
def execRet (c : CoreId) (f : CSyl) (x : Word) (s : State) : Host.Outcome State Fault Refusal :=
  done (runBundle c.val (mkC 0x33#6 f x) s)

/-- LOOP (R134): compute opcode 0x34. -/
def execLoop (c : CoreId) (f : CSyl) (x : Word) (s : State) : Host.Outcome State Fault Refusal :=
  done (runBundle c.val (mkC 0x34#6 f x) s)

/-- BARRIER (R105): compute opcode 0x35. -/
def execBarrier (c : CoreId) (f : CSyl) (x : Word) (s : State) : Host.Outcome State Fault Refusal :=
  done (runBundle c.val (mkC 0x35#6 f x) s)

/-- WAITSTROKE (R104): compute opcode 0x36. -/
def execWaitstroke (c : CoreId) (f : CSyl) (x : Word) (s : State) : Host.Outcome State Fault Refusal :=
  done (runBundle c.val (mkC 0x36#6 f x) s)

/-! ### Transfer syllables (R116) -/

/-- TNOP (R114): transfer opcode 0x00. -/
def execTnop (c : CoreId) (f : TSyl) (w : Word) (s : State) : Host.Outcome State Fault Refusal :=
  done (runBundle c.val (mkT 0x00#5 f w) s)

/-- LD_P (R135): transfer opcode 0x01. -/
def execLdP (c : CoreId) (f : TSyl) (w : Word) (s : State) : Host.Outcome State Fault Refusal :=
  done (runBundle c.val (mkT 0x01#5 f w) s)

/-- LD_O (R135): transfer opcode 0x02. -/
def execLdO (c : CoreId) (f : TSyl) (w : Word) (s : State) : Host.Outcome State Fault Refusal :=
  done (runBundle c.val (mkT 0x02#5 f w) s)

/-- LD_PO (R135): transfer opcode 0x03. -/
def execLdPo (c : CoreId) (f : TSyl) (w : Word) (s : State) : Host.Outcome State Fault Refusal :=
  done (runBundle c.val (mkT 0x03#5 f w) s)

/-- LD2_P (R135): transfer opcode 0x04. -/
def execLd2P (c : CoreId) (f : TSyl) (w : Word) (s : State) : Host.Outcome State Fault Refusal :=
  done (runBundle c.val (mkT 0x04#5 f w) s)

/-- LD2_O (R135): transfer opcode 0x05. -/
def execLd2O (c : CoreId) (f : TSyl) (w : Word) (s : State) : Host.Outcome State Fault Refusal :=
  done (runBundle c.val (mkT 0x05#5 f w) s)

/-- LD2_PO (R135): transfer opcode 0x06. -/
def execLd2Po (c : CoreId) (f : TSyl) (w : Word) (s : State) : Host.Outcome State Fault Refusal :=
  done (runBundle c.val (mkT 0x06#5 f w) s)

/-- LD4_P (R135): transfer opcode 0x07. -/
def execLd4P (c : CoreId) (f : TSyl) (w : Word) (s : State) : Host.Outcome State Fault Refusal :=
  done (runBundle c.val (mkT 0x07#5 f w) s)

/-- LD4_O (R135): transfer opcode 0x08. -/
def execLd4O (c : CoreId) (f : TSyl) (w : Word) (s : State) : Host.Outcome State Fault Refusal :=
  done (runBundle c.val (mkT 0x08#5 f w) s)

/-- LD4_PO (R135): transfer opcode 0x09. -/
def execLd4Po (c : CoreId) (f : TSyl) (w : Word) (s : State) : Host.Outcome State Fault Refusal :=
  done (runBundle c.val (mkT 0x09#5 f w) s)

/-- ST_P (R135): transfer opcode 0x0A. -/
def execStP (c : CoreId) (f : TSyl) (w : Word) (s : State) : Host.Outcome State Fault Refusal :=
  done (runBundle c.val (mkT 0x0A#5 f w) s)

/-- ST_O (R135): transfer opcode 0x0B. -/
def execStO (c : CoreId) (f : TSyl) (w : Word) (s : State) : Host.Outcome State Fault Refusal :=
  done (runBundle c.val (mkT 0x0B#5 f w) s)

/-- ST_PO (R135): transfer opcode 0x0C. -/
def execStPo (c : CoreId) (f : TSyl) (w : Word) (s : State) : Host.Outcome State Fault Refusal :=
  done (runBundle c.val (mkT 0x0C#5 f w) s)

/-- ST2_P (R135): transfer opcode 0x0D. -/
def execSt2P (c : CoreId) (f : TSyl) (w : Word) (s : State) : Host.Outcome State Fault Refusal :=
  done (runBundle c.val (mkT 0x0D#5 f w) s)

/-- ST2_O (R135): transfer opcode 0x0E. -/
def execSt2O (c : CoreId) (f : TSyl) (w : Word) (s : State) : Host.Outcome State Fault Refusal :=
  done (runBundle c.val (mkT 0x0E#5 f w) s)

/-- ST2_PO (R135): transfer opcode 0x0F. -/
def execSt2Po (c : CoreId) (f : TSyl) (w : Word) (s : State) : Host.Outcome State Fault Refusal :=
  done (runBundle c.val (mkT 0x0F#5 f w) s)

/-- ST4_P (R135): transfer opcode 0x10. -/
def execSt4P (c : CoreId) (f : TSyl) (w : Word) (s : State) : Host.Outcome State Fault Refusal :=
  done (runBundle c.val (mkT 0x10#5 f w) s)

/-- ST4_O (R135): transfer opcode 0x11. -/
def execSt4O (c : CoreId) (f : TSyl) (w : Word) (s : State) : Host.Outcome State Fault Refusal :=
  done (runBundle c.val (mkT 0x11#5 f w) s)

/-- ST4_PO (R135): transfer opcode 0x12. -/
def execSt4Po (c : CoreId) (f : TSyl) (w : Word) (s : State) : Host.Outcome State Fault Refusal :=
  done (runBundle c.val (mkT 0x12#5 f w) s)

/-- AMODM (R138): transfer opcode 0x13. -/
def execAmodm (c : CoreId) (f : TSyl) (w : Word) (s : State) : Host.Outcome State Fault Refusal :=
  done (runBundle c.val (mkT 0x13#5 f w) s)

/-- AMODI (R138): transfer opcode 0x14. -/
def execAmodi (c : CoreId) (f : TSyl) (w : Word) (s : State) : Host.Outcome State Fault Refusal :=
  done (runBundle c.val (mkT 0x14#5 f w) s)

/-- SETR (R138): transfer opcode 0x17. -/
def execSetr (c : CoreId) (f : TSyl) (w : Word) (s : State) : Host.Outcome State Fault Refusal :=
  done (runBundle c.val (mkT 0x17#5 f w) s)

/-- MVR (R138): transfer opcode 0x15. -/
def execMvr (c : CoreId) (f : TSyl) (w : Word) (s : State) : Host.Outcome State Fault Refusal :=
  done (runBundle c.val (mkT 0x15#5 f w) s)

/-- MRV (R138): transfer opcode 0x16. -/
def execMrv (c : CoreId) (f : TSyl) (w : Word) (s : State) : Host.Outcome State Fault Refusal :=
  done (runBundle c.val (mkT 0x16#5 f w) s)

/-- MBPUT (R139): transfer opcode 0x18. -/
def execMbput (c : CoreId) (f : TSyl) (w : Word) (s : State) : Host.Outcome State Fault Refusal :=
  done (runBundle c.val (mkT 0x18#5 f w) s)

/-- MBGET (R139): transfer opcode 0x19. -/
def execMbget (c : CoreId) (f : TSyl) (w : Word) (s : State) : Host.Outcome State Fault Refusal :=
  done (runBundle c.val (mkT 0x19#5 f w) s)

/-- MBCNT (R139): transfer opcode 0x1A. -/
def execMbcnt (c : CoreId) (f : TSyl) (w : Word) (s : State) : Host.Outcome State Fault Refusal :=
  done (runBundle c.val (mkT 0x1A#5 f w) s)

/-! ### Barriers, sleep, mailboxes, banks and queues -/

/-- Every member of barrier `k` of a crew has arrived, and for barrier 7 the division's slices are done (R105). -/
def barrierReady (s : State) (crew k : Nat) : Bool :=
  let mask := barMask s crew k
  let arr := (vget 0#8 (crewAt s crew).arrived k).toNat
  mask != 0 && (mask &&& arr) == mask && (k != 7 || fld (wOf s.mix.done.toNat) (crew / 4 * 4 + 3) (crew / 4 * 4) == 15)

/-- A core that waits at barrier `k` of crew `crew` runs on, one that debug halted there once it is resumed. -/
def coreFreed (crew k i : Nat) (c : Core) : Core :=
  if i / 8 = crew ∧ c.run = .atBarrier k then { c with run := .running }
  else if i / 8 = crew ∧ c.run = .halted ∧ c.paused = .atBarrier k then { c with paused := .running }
  else c

/-- The waiting cores of a barrier run on (R105). -/
def barrierGo (crew k : Nat) (s : State) : State :=
  { s with
    crews := vput s.crews crew { crewAt s crew with arrived := vput (crewAt s crew).arrived k 0#8 }
    cores := vmap (fun i c => coreFreed crew k i c) s.cores }

/-- The core falls asleep (R104): CORE_CYC takes its cycles, CORE_CYC_MAX the largest (R488). -/
def coreAsleep (n cycles : Nat) (s : State) : State :=
  let k := coreAt s n
  if k.run = .draining ∧ k.crewQ = [] ∧ k.winQ = [] then
    putCore n { k with run := .asleep, cyc := cycles, cycMax := Nat.max k.cycMax cycles } s
  else s

/-- CORE_SLEEP (R104). -/
def execCoreSleep (c : CoreId) (cycles : Nat) (s : State) : Host.Outcome State Fault Refusal :=
  done (coreAsleep c.val cycles s)

/-- MAILBOX_PUT_RELEASE (R106). -/
def execMailboxPutRelease (c : CoreId) (s : State) : Host.Outcome State Fault Refusal :=
  done (retryHeld c.val .putHeld s)

/-- MAILBOX_GET_RELEASE (R106). -/
def execMailboxGetRelease (c : CoreId) (s : State) : Host.Outcome State Fault Refusal :=
  done (retryHeld c.val .getHeld s)

/-- First waiting requester in the rotation from the priority holder (R519). -/
def bankWinner (prio : Nat) (waiting : BitVec 9) : Option Nat :=
  ((List.range 9).map fun i => (prio + i) % 9).find? fun r => waiting.getLsbD r

/-- A crew bank grants; priority passes to the requester after the one granted (R14, R519). -/
def bankGrant (crew bank : Nat) (waiting : BitVec 9) (s : State) : State :=
  let cr := crewAt s crew
  match bankWinner (vget 0 cr.prio bank) waiting with
  | none => s
  | some r => { s with crews := vput s.crews crew { cr with prio := vput cr.prio bank ((r + 1) % 9) } }

/-- CREW_BANK_GRANT (R519). -/
def execCrewBankGrant (crew : CrewId) (bank : Fin 16) (waiting : BitVec 9) (s : State) :
    Host.Outcome State Fault Refusal :=
  done (bankGrant crew.val bank.val waiting s)

/-- A mover request at a local bank (R100): it takes the bank in a cycle the core does not use it, or once it has waited 16
cycles; otherwise it goes on waiting. -/
def moverTake (n b waited : Nat) (coreWants : Bool) (s : State) : State :=
  let k := coreAt s n
  putCore n { k with mover := vput k.mover b (if coreWants && decide (waited < 16) then waited else 0) } s

/-- MOVER_BANK_TAKE (R100). -/
def execMoverBankTake (c : CoreId) (bank : Fin 4) (waited : Nat) (coreWants : Bool) (s : State) :
    Host.Outcome State Fault Refusal :=
  done (moverTake c.val bank.val waited coreWants s)

/-- The words of a queue's head entry that meet a write of a lower port, as `mask` says, and those that do not. -/
def hitWords (mask : BitVec 4) (e : StoreEnt) : StoreEnt := ((e.zipIdx).filter fun x => mask.getLsbD x.2).map (·.1)
def freeWords (mask : BitVec 4) (e : StoreEnt) : StoreEnt := ((e.zipIdx).filter fun x => !mask.getLsbD x.2).map (·.1)

/-- The collided words of a head entry that are discarded (R374): those of a SAMPLE area, and all of them after 16 retries. -/
def lostWords (tries : Nat) (l : StoreEnt) (s : State) : StoreEnt := l.filter fun w => sampleClass s w.1 || decide (16 ≤ tries)

/-- The collided words that wait in the queue for the next try. -/
def heldWords (tries : Nat) (l : StoreEnt) (s : State) : StoreEnt := l.filter fun w => !(sampleClass s w.1 || decide (16 ≤ tries))

/-- The head of a queue becomes the words that still wait, or goes. -/
def headKeep (n : Nat) (window : Bool) (l : StoreEnt) (s : State) : State :=
  let k := coreAt s n
  let next (q : List StoreEnt) (tries : Nat) : List StoreEnt × Nat := if l.isEmpty then (q.tail, 0) else (l :: q.tail, tries + 1)
  putCore n (if window then { k with winQ := (next k.winQ k.winTry).1, winTry := (next k.winQ k.winTry).2 }
    else { k with crewQ := (next k.crewQ k.crewTry).1, crewTry := (next k.crewQ k.crewTry).2 }) s

/-- A drain of entry `e` whose words of `mask` meet a write of a lower port (R374): the other words are written; of the collided ones
those of a SAMPLE area are discarded with MEM_COLLIDE, and those of a CONTROL area answer COLLIDED and are tried again, up to 16 times. -/
def drainCollided (n : Nat) (window : Bool) (mask : BitVec 4) (e : StoreEnt) (s : State) : State :=
  let tries := if window then (coreAt s n).winTry else (coreAt s n).crewTry
  let hit := hitWords mask e
  let keep := heldWords tries hit s
  let s := drainEnt window (freeWords mask e) s
  let s := (lostWords tries hit s).foldl (fun s w => (collideCheck w.1 true s).1) s
  headKeep n window keep s

/-- The head entry of a queue goes to memory, but for its words that collide (R99, R374). -/
def queueDrain (n : Nat) (window : Bool) (collides : BitVec 4) (s : State) : State :=
  match (if window then (coreAt s n).winQ else (coreAt s n).crewQ) with
  | [] => s
  | e :: _ => if (hitWords collides e).isEmpty then drainHead n window s else drainCollided n window collides e s

/-- STORE_QUEUE_DRAIN (R99). -/
def execStoreQueueDrain (c : CoreId) (window : Bool) (collides : BitVec 4) (s : State) :
    Host.Outcome State Fault Refusal :=
  done (queueDrain c.val window collides s)

end Sys2Proof.Machine
end

