-- ==== Sys2Proof/Machine/Ports.lean ====
section
/-! DEFINITION. Serial audio and PDM ports (09): configuration and reset, frames and windows, gates, slips, blocks in port buffer
memory, rate measurement, and the commands of the port unit. -/

namespace Sys2Proof.Machine

/-! ### Gates (R156, R269) -/

/-- π · 2⁹⁶, truncated. -/
abbrev piFx : Nat := 248902613312231085230521944622

/-- Taylor sum of the sine in units of 2⁻⁹⁶: `t` is the term of odd order `k`, `x2` the square of the argument. -/
def sinSum (x2 : Nat) : Nat → Nat → Nat → Int
  | 0, _, _ => 0
  | f + 1, k, t => (t : Int) - sinSum x2 f (k + 2) (t * x2 / 2 ^ 96 / ((k + 1) * (k + 2)))

/-- `upg` of R156: floor(2³¹ sin²(πp / 2N)), at most 0x7FFF_FFFF. The last 2⁻³⁰ added absorbs the truncations of the sum where the
exact value is an integer; no other value lies that close below one. -/
def upg (p n : Nat) : Nat :=
  let x := piFx * p / (2 * n)
  let s := sinSum (x * x / 2 ^ 96) 16 1 x
  Nat.min 0x7FFFFFFF (((s * s).toNat / 2 ^ 96 * 2 ^ 31 + 2 ^ 66) / 2 ^ 96)

/-- Gain of a gate at position `p` of `n` in units of 2⁻³¹ (R269): 1 at `n`, 0 at 0. -/
def gateGain (p n : Nat) : Nat := if p = n then 2147483648 else if p = 0 then 0 else upg p n

/-- A sample through a gate (R156): floor. -/
def gated (v : Word) (g : Nat) : Word := if g = 2147483648 then v else wInt (sra (v.toInt * g) 31)

/-- One step of a gate toward its target (R269). -/
def gateStep (g : Gate) : Gate := { g with p := if g.up then Nat.min g.n (g.p + 1) else g.p - 1 }

/-- A gate turned to a target with a new length in samples; the position is rescaled where the length differs (R269). -/
def gateAim (g : Gate) (up : Bool) (n : Nat) : Gate :=
  { p := if g.n = n then g.p else if g.n = 0 then 0 else g.p * n / g.n, n := n, up := up }

/-- The two gates over `n` samples (R269, R273): both move. -/
def gateRun : Nat → Gate → Gate → Gate × Gate × List GatePos
  | 0, r, m => (r, m, [])
  | n + 1, r, m =>
    let r := gateStep r
    let m := gateStep m
    let q := gateRun n r m
    (q.1, q.2.1, ⟨gateGain r.p r.n, gateGain m.p m.n⟩ :: q.2.2)

/-- Words through both gates, RUN first (R269, R272). -/
def gateWords (gs : List GatePos) (ws : List Word) : List Word :=
  (ws.zip gs).map fun e => gated (gated e.1 e.2.run) e.2.mute

/-! ### Configuration (R252, R253, R282) -/

def cfgMaster (c : Word) : Bool := bitAt c 30
def cfgFmt (c : Word) : Nat := fld c 27 26
def cfgSlotw (c : Word) : Nat := fld c 25 24
def cfgWlen (c : Word) : Nat := fld c 23 22
def cfgPack (c : Word) : Nat := fld c 21 20
def cfgGrp (c : Word) : Nat := fld c 11 8

/-- Bits of a width code of SLOTW or WLEN. -/
def widthOf (c : Nat) : Nat := if c = 0 then 16 else if c = 1 then 24 else 32

/-- Slot capacity of a domain (R253); a FOREIGN port's depends on its class. -/
def slotCap (d : Nat) : Nat := if d = 0 then 32 else if d = 1 then 16 else if d = 2 then 8 else 32

/-- The tests of R253: true where PORT_CFG is refused. -/
def cfgBad (c : Word) : Bool :=
  let d := portDom c
  let n := portSlots c
  decide (slotCap d < n) || decide (n < 2) || (decide (cfgFmt c < 2) && n != 2)
    || (cfgMaster c && cfgFmt c == 2 && !(n == 2 || n == 4 || n == 8 || n == 16 || n == 32))
    || (cfgMaster c && d == 3)
    || cfgFmt c == 3 || cfgSlotw c == 3 || cfgWlen c == 3 || cfgPack c == 3
    || decide (widthOf (cfgSlotw c) < widthOf (cfgWlen c))

/-- Nominal rates of the classes 1–7 (R265). -/
def classRate (c : Nat) : Nat :=
  if c = 1 then 32000 else if c = 2 then 44100 else if c = 3 then 48000 else if c = 4 then 88200
  else if c = 5 then 96000 else if c = 6 then 176400 else if c = 7 then 192000 else 0

/-- Frames per stroke n of a port: by its domain (R253), or for a FOREIGN port the whole frames of its class in a stroke
(log entry 24). -/
def portN (s : State) (p : Port) : Nat :=
  let d := portDom p.cfg
  if d < 3 then domN d else if p.cls = 0 ∨ sps s = 0 then 4 else classRate p.cls / sps s

/-- Most frames of a FOREIGN block (R257). -/
def foreignMax (c : Word) : Nat := if portSlots c = 0 then 18 else Nat.min 18 (256 / portSlots c)

def putPort (p : Nat) (x : Port) (s : State) : State := { s with port := { s.port with ports := vput s.port.ports p x } }

/-- Source ID of a port, and of a PDM group (R283). -/
def portSrc (p : Nat) : BitVec 16 := srcId 1 4 (p / 16) (p % 16)
def pdmSrc (g : Nat) : BitVec 16 := srcId 1 4 4 g

def portStat (p b : Nat) (s : State) : State := orRegAt Reg.PORT_STAT p (flag true b) s

/-- RUN gate length of a port in samples (R269, R282). -/
def runLen (s : State) (p : Nat) (x : Port) : Nat :=
  let l := fld (regAt s Reg.PORT_CTRL p) 22 16
  (if l = 0 then 2 else Nat.min l 64) * portN s x

/-- The stroke at which ports and streams stand: the engine's while it runs, else that of system time (R441). -/
def ioStroke (s : State) : BitVec 64 :=
  if s.eng.phase == .drive || s.eng.phase == .finished then s.eng.stroke else s.port.stroke

/-- I/O bank of a port (R492) is low (R493). -/
def portVioLow (s : State) (p : Nat) : Bool := s.sys.vio.getLsbD (p / 16)

/-! ### Reset and group actions (R267, R268) -/

/-- A port reset is asserted (R267): OFF at once. -/
def portReset (p : Nat) (s : State) : State :=
  let x := portAt s p
  putPort p { x with st := .off, held := true, win := [], emit := none } s

/-- Release of a port reset (R253, R267, R269, R271). A configuration is validated where EN = 1 (DEDUCED, log entry 28). -/
def portRelease (p : Nat) (s : State) : State :=
  let x := portAt s p
  if !x.held then s else
  let c := regAt s Reg.PORT_CFG p
  let slots := 0xFFFFFFFF#32
  let base : Port := { cfg := c, held := false, slots := slots, seen := x.seen, rate := { x.rate with valid := false } }
  let r := detect false (portSrc p) 0x405#12 .note 0#32 (bitAt c 31 && cfgBad c) s
  if r.2 then portStat p 7 (putPort p { base with cfg := 0#32 } r.1)
  else if !bitAt c 31 then putPort p { base with cfg := 0#32 } r.1
  else
    let n := portN s base
    let m : Gate := { p := 2 * n, n := 2 * n, up := true }
    let g : Gate := { p := 0, n := runLen s p base, up := false }
    putPort p { base with st := .idle, run := g, mute := m, fmeas := cfgMaster c } r.1

/-- PDM clock group `g` is held in reset, or released with PDM_CFG as written (R281, R282). -/
def pdmReset (g : Nat) (s : State) : State :=
  { s with port := { s.port with pdmHeld := s.port.pdmHeld ||| BitVec.ofNat 4 (2 ^ g) } }
def pdmRelease (g : Nat) (s : State) : State :=
  if !s.port.pdmHeld.getLsbD g then s else
  let m := wOf (0xF0 * 2 ^ (8 * g))
  { s with port := { s.port with
    pdmHeld := s.port.pdmHeld &&& ~~~(BitVec.ofNat 4 (2 ^ g))
    pdmCfg := (s.port.pdmCfg &&& ~~~m) ||| (reg s Reg.PDM_CFG &&& m) } }

/-- Unit `u` of PORT_RST: ports 0–47, then the PDM clock groups. -/
def unitReset (u : Nat) (s : State) : State := if u < 48 then portReset u s else pdmReset (u - 48) s
def unitRelease (u : Nat) (s : State) : State := if u < 48 then portRelease u s else pdmRelease (u - 48) s

/-- A SAP_LOOP test holds this port (R470). -/
def loopPort (s : State) (u : Nat) : Bool := s.err.testBusy && s.err.testKind == 0x13 && fld s.err.testArg 5 0 == u

/-- PORT_RST0 or PORT_RST1 (R282): a pulse of each named unit; a test of that port ends
unpublished (R469). -/
def portRstWrite (hi : Bool) (v : Word) (s : State) : State :=
  (List.range 32).foldl (fun s i =>
    let u := if hi then 32 + i else i
    if bitAt v i ∧ u < 52 then
      let s := unitReset u s
      if loopPort s u then { s with err := { s.err with testBusy := false } } else s
    else s) s

/-- PORT_RST (R282). -/
def execPortRst (_m : Master) (hi : Bool) (v : Word) (s : State) : Host.Outcome State Fault Refusal := done (portRstWrite hi v s)

/-- PORT_RESET_RELEASE (R267): once the ports step has been passed (R437), and unless a test holds the port (R470). -/
def execPortResetRelease (u : Fin 52) (s : State) : Host.Outcome State Fault Refusal :=
  done (if s.sys.rel = 8 && !loopPort s u.val then unitRelease u.val s else s)

/-- GRP_GO or GRP_STOP (R268, R273): the action at G = A + 2; of two writes for one group and G the later stands. -/
def grpWrite (go : Bool) (v : Word) (s : State) : State :=
  let g := ioStroke s + 2#64
  let named := (List.range 16).filter fun i => bitAt v i
  { s with port := { s.port with
    grpG := g
    grp := (s.port.grp.filter fun a => !(a.g == g && named.contains a.grp)) ++ named.map fun i => ⟨g, i, go⟩ } }

/-- GRP_GO (R268). -/
def execGrpGo (_m : Master) (v : Word) (s : State) : Host.Outcome State Fault Refusal := done (grpWrite true v s)
/-- GRP_STOP (R268). -/
def execGrpStop (_m : Master) (v : Word) (s : State) : Host.Outcome State Fault Refusal := done (grpWrite false v s)

/-- One port meets a group action (R268, R273). -/
def portAct (go : Bool) (p : Nat) (s : State) : State :=
  let x := portAt s p
  let n := runLen s p x
  if go then
    match x.st with
    | .idle => putPort p { x with st := .starting, run := { p := 0, n := n, up := true } } s
    | .stopping => putPort p { x with st := .starting, run := gateAim x.run true n } s
    | _ => s
  else
    match x.st with
    | .starting => putPort p { x with st := .stopping, run := gateAim x.run false n } s
    | .running => putPort p { x with st := .stopping, run := gateAim x.run false n } s
    | _ => s

/-- The group actions due at stroke `t` (R268), oldest first. -/
def grpDue (t : BitVec 64) (s : State) : State :=
  let due := s.port.grp.filter fun a => decide (a.g.toNat ≤ t.toNat)
  let s := due.foldl (fun s a =>
    (List.range 48).foldl (fun s p => if cfgGrp (portAt s p).cfg = a.grp then portAct a.go p s else s) s) s
  { s with port := { s.port with grp := s.port.grp.filter fun a => decide (t.toNat < a.g.toNat) } }

/-- The stroke whose CATCH comes next once FINISH has passed, the current one before. -/
def strokeDue (s : State) : BitVec 64 := if s.eng.phase = .finished then s.eng.stroke + 1#64 else s.eng.stroke

/-- Calls are applied between a FINISH and the next CATCH, or before the first CATCH (R44, R58). -/
def callsOpen (s : State) : Bool := s.eng.phase == .finished || s.eng.phase == .waiting

/-- PORT_GROUP_ACTION (R268): the actions of the stroke at hand; a CATCH performs any that are left. -/
def execPortGroupAction (s : State) : Host.Outcome State Fault Refusal := done (grpDue (if callsOpen s then strokeDue s else ioStroke s) s)

/-- The end of a RUN ramp (R268): RUNNING at the end of the up-ramp, IDLE after the down-ramp. -/
def runRampEnd (x : Port) : Port :=
  match x.st with
  | .starting => if x.run.p = x.run.n then { x with st := .running } else x
  | .stopping => if x.run.p = 0 then { x with st := .idle } else x
  | _ => x

/-- RUN_RAMP_END (R268). -/
def execRunRampEnd (p : Fin 48) (s : State) : Host.Outcome State Fault Refusal :=
  done (putPort p.val (runRampEnd (portAt s p.val)) s)

/-- SLIP_SILENCE_END (R275): after 8 clean windows the ramp back begins. -/
def execSlipSilenceEnd (p : Fin 48) (s : State) : Host.Outcome State Fault Refusal :=
  let x := portAt s p.val
  done (if x.treat = .silence 8 then putPort p.val { x with treat := .ramp 0 } s else s)

/-- SLIP_RAMP_END (R275): after the ramp of 8 strokes the port passes samples as received. -/
def execSlipRampEnd (p : Fin 48) (s : State) : Host.Outcome State Fault Refusal :=
  let x := portAt s p.val
  done (if x.treat = .ramp (8 * portN s x) then putPort p.val { x with treat := .none } s else s)

/-! ### Frames (R256, R266) -/

/-- φ of an edge at `t` against a grid that starts at `c`, rate `r` frames per second, in (−½Pf, ½Pf] (R256). -/
def phaseOf (r : Nat) (c t : Time) : Int :=
  if r = 0 then 0 else
  let x := (((t : Int) - c) * r) % (Time.second : Int)
  let y := if 2 * x > (Time.second : Int) then x - Time.second else x
  y / r

/-- More than a quarter of a frame apart (R277). -/
def farApart (r : Nat) (a b : Int) : Bool := decide (4 * (a - b).natAbs * r > Time.second)

/-! ### The serial line (R251, R252, R254) -/

/-- FS starts slot 0 on its rising edge: falling in I2S, rising otherwise, inverted by FSINV (R252). -/
def fsRising (c : Word) : Bool := (cfgFmt c != 0) != bitAt c 19

/-- BCLK periods from the FS edge to the first data bit (R252). -/
def dataStart (c : Word) : Nat := if cfgFmt c = 0 then 1 else if cfgFmt c = 2 && bitAt c 16 then 1 else 0

/-- The bits of a frame as the port captures them: at the rising edge of BCLK, or with BCKINV at the falling one (R251). -/
def capBits (c : Word) (bits : List DiBit) : List Bool := bits.map fun b => if bitAt c 18 then b.atFall else b.atRise

/-- A word from its bits, MSB first. -/
def msbWord (bits : List Bool) : Word := wOf (bits.foldl (fun v b => 2 * v + if b then 1 else 0) 0)

/-- The word of slot `i`: its first WLEN bits; the rest of the slot is ignored (R252). -/
def slotIn (c : Word) (bits : List DiBit) (i : Nat) : Word :=
  let n := widthOf (cfgWlen c)
  let bs := ((capBits c bits).drop (dataStart c + i * widthOf (cfgSlotw c))).take n
  msbWord (bs ++ List.replicate (n - bs.length) false)

/-- BCLK periods of a frame (R252). -/
def frameBits (c : Word) : Nat := portSlots c * widthOf (cfgSlotw c)

/-- BCLK and FS of a port (R251, R267, R278): an OFF port's keep their pull-up, a slave's are inputs. -/
def sapPad (s : State) (p : Nat) : Pad :=
  let x := portAt s p
  if portVioLow s p then .hiZ
  else if x.st = .off then .pullUp
  else if !cfgMaster x.cfg then .hiZ
  else clockPad s (bitAt x.cfg 14)

/-- Width of the FS pulse in BCLK periods (R252): half the frame in the two-slot formats. -/
def fsPulse (c : Word) : Nat := if cfgFmt c = 2 ∧ bitAt c 17 = false then 1 else widthOf (cfgSlotw c)

/-- A master port drives BCLK and FS over the stroke (R254). -/
def sapClocks (p : Nat) (s : State) : State :=
  let c := (portAt s p).cfg
  if sapPad s p = .driven then
    emit (.sapClk p (frameBits c * (sps s * portN s (portAt s p))) (portN s (portAt s p)) (fsPulse c) (fsRising c) (!bitAt c 18)) s
  else s

/-- The grid edge nearest to `t` for a grid that starts at `c`, of `r` frames a second (R254). -/
def gridEdge (r : Nat) (c t : Time) : Time := ((t : Int) - phaseOf r c t).toNat

/-- A slave port measures φ (R256, R277): the group shares the phase of its first measurement. -/
def measurePhi (p : Nat) (t : Time) (s : State) : State :=
  let x := portAt s p
  let r := sps s * portN s x
  let m := phaseOf r s.eng.gridAt t
  let g := cfgGrp x.cfg
  match tget none s.port.grpPhi g with
  | none => putPort p { x with phi := m, fmeas := true, ownPhase := false }
      { s with port := { s.port with grpPhi := tset none s.port.grpPhi g (some m) } }
  | some q =>
    if farApart r m q then putPort p { x with phi := m, fmeas := true, ownPhase := true } s
    else putPort p { x with phi := q, fmeas := true, ownPhase := false } s

/-- Counts an edge in its rate window (R264). -/
def countEdge (t : Time) (x : Port) : Port :=
  let k := t / 6553600000000
  if k = x.ew.k then { x with ew := { x.ew with e := x.ew.e + 1, t1 := if x.ew.e = 0 then t else x.ew.t1, t2 := t } }
  else if x.ew.k < k then { x with ewWas := x.ew, ew := { k := k, e := 1, t1 := t, t2 := t } }
  else x

/-- An asynchronous channel's foreign port runs again (R219). -/
def asrcRelock (p : Nat) (s : State) : State :=
  s.patch.asrc.foldl (fun s e =>
    if e.2.run && asrcPort e.2 == p && (asrcAt s e.1).unlock then
      let x := asrcAt s e.1
      putAsrc e.1 { x with unlock := false, pos := asrcPos x } s
    else s) s

/-- An FS edge (R252, R256, R264, R266): the edge that starts slot 0 begins a frame, whose bits follow with the BCLK periods to the next; a
stopped port counts as running again, φ is measured where it is due, and the frame waits for its window. The edges that a master port
drives are those of its grid (R254). Inputs of a bank below its threshold are not seen or read 0 (R493). -/
def fsEdge (p : Nat) (at_ : Time) (rising : Bool) (bits : List DiBit) (period : Nat) (s : State) : State :=
  let x := portAt s p
  let low := portVioLow s p
  let own := sapPad s p == .driven
  if x.st = .off ∨ (low = true ∧ cfgMaster x.cfg = false) ∨ rising ≠ fsRising x.cfg then s else
  let t := if own then gridEdge (sps s * portN s x) s.eng.gridAt at_ else at_
  let words := (List.range (portSlots x.cfg)).map (slotIn x.cfg bits)
  let framingOk := own || period == frameBits x.cfg
  let slave := !cfgMaster x.cfg && portDom x.cfg != 3
  let was := x.stopped
  let x := countEdge t { x with stopped := false, fmeas := x.fmeas && !was }
  let s := putPort p x s
  let s := if was then asrcRelock p s else s
  let s := if slave && !x.fmeas then measurePhi p t s else s
  if x.speed then s else
  let x := portAt s p
  let ws := if low then words.map fun _ => 0#32 else words
  putPort p { x with win := x.win ++ [⟨t, ws, framingOk⟩] } s

/-- FS_EDGE (R256). -/
def execFsEdge (p : Fin 48) (t : Time) (rising : Bool) (f : DiFrame) (s : State) : Host.Outcome State Fault Refusal :=
  done (fsEdge p.val t rising f.bits f.period s)

/-- No FS edge for 1 ms (R266): a slave port counts as stopped, once. -/
def portStop (p : Nat) (s : State) : State :=
  let x := portAt s p
  let r := detect false (portSrc p) 0x406#12 .degrade 0#32 (x.st != .off && !cfgMaster x.cfg && !x.stopped) s
  if r.2 then
    let s := portStat p 3 (putPort p { portAt r.1 p with stopped := true } r.1)
    if portDom x.cfg = 3 then asrcUnlock p s else s
  else r.1

/-- PORT_STOPPED (R266). -/
def execPortStopped (p : Fin 48) (s : State) : Host.Outcome State Fault Refusal := done (portStop p.val s)

/-! ### Rate (R264, R265, R255) -/

/-- RATE of a window (R264). -/
def rateOf (w : EdgeWin) : Nat := if w.e < 2 ∨ w.t2 ≤ w.t1 then 0 else 1024 * (w.e - 1) * Time.second / (w.t2 - w.t1)

/-- CLASS of a RATE (R265): within 2 % of a nominal rate. -/
def classOf (rate : Nat) : Nat :=
  (((List.range 7).map (· + 1)).find? fun c =>
    rate != 0 && decide (((rate : Int) - 1024 * classRate c).natAbs * 50 ≤ 1024 * classRate c)).getD 0

/-- Publication of the rate of the window that ends at `e` (R264, R265, R255). A FOREIGN port of no class has no expected rate
and raises no RATE_OOT (log entry 24). -/
def ratePublish (p : Nat) (e : Time) (s : State) : State :=
  let x := portAt s p
  if x.st = .off then s else
  let k := e / 6553600000000 - 1
  let w := if x.ew.k = k then x.ew else if x.ewWas.k = k then x.ewWas else {}
  let rate := rateOf w
  let cls := classOf rate
  let want := if portDom x.cfg < 3 then sps s * domN (portDom x.cfg) else classRate cls
  let tol := let t := fld (regAt s Reg.PORT_CTRL p) 9 0; if t = 0 then 100 else t
  let off := want != 0 && decide (((rate : Int) - 1024 * want).natAbs * 1000000 > tol * (1024 * want))
  let oot := detect false (portSrc p) 0x402#12 .note 0#32 (off && !x.oot) s
  let s := if oot.2 then portStat p 4 oot.1 else oot.1
  let chg := detect false (portSrc p) 0x403#12 .note 0#32 (if x.rate.valid then cls != x.cls else cls == 0) s
  let s := if chg.2 then portStat p 5 chg.1 else chg.1
  let fast := !cfgMaster x.cfg && decide (portSlots x.cfg * widthOf (cfgSlotw x.cfg) * classRate cls > 49152000)
  let spd := detect false (portSrc p) 0x407#12 .fault 0#32 (fast && !x.speed) s
  let s := if spd.2 then portStat p 8 spd.1 else spd.1
  let y := portAt s p
  putPort p { y with rate := publish [wOf rate] y.rate, cls := cls, oot := off, speed := fast } s

/-- PORT_RATE_PUBLISH (R264). -/
def execPortRatePublish (p : Fin 48) (windowEnd : Time) (s : State) : Host.Outcome State Fault Refusal :=
  done (ratePublish p.val windowEnd s)

/-! ### Blocks in port buffer memory (R259–R262) -/

/-- A captured word of WLEN bits as Q1.31, and a Q1.31 value as the word sent (R259). -/
def wordIn (c w : Word) : Word := w <<< (32 - widthOf (cfgWlen c))
def wordOut (c v : Word) : Word := wInt (sra v.toInt (32 - widthOf (cfgWlen c))) &&& wOf (2 ^ widthOf (cfgWlen c) - 1)

/-- A slot as DO carries it: its SLOTW bits, those past WLEN driven 0 (R252). -/
def slotOut (c v : Word) : Word := wordOut c v <<< (widthOf (cfgSlotw c) - widthOf (cfgWlen c))

/-- What the block holds of a sample (R261): 24 bits where WLEN = 24. -/
def stored (c v : Word) : Word := if cfgWlen c = 1 then v &&& 0xFFFFFF00#32 else v

/-- The bytes of a sample in a block (R261). -/
def packWord (c v : Word) : List Byte :=
  if cfgWlen c = 1 then
    let u := wInt (sra v.toInt 8)
    if cfgPack c = 2 then (leBytes u).take 3 else if cfgPack c = 1 then leBytes u else leBytes (stored c v)
  else leBytes v

/-- A block's 0x400 bytes (R261): rows by slot; bytes past the last slot read 0. A FOREIGN port's stride is F samples. -/
def blockBytes (c : Word) (rows : List (List Word)) : List Byte :=
  let bs := rows.flatMap fun r =>
    let l := r.flatMap (packWord c)
    if portDom c = 3 then
      let b := if cfgWlen c = 1 ∧ cfgPack c = 2 then 3 else 4
      l ++ List.replicate (foreignMax c * b - l.length) 0#8
    else l
  (bs ++ List.replicate (1024 - bs.length) 0#8).take 1024

/-- Address of block `i` of a port's capture (false) or emit (true) ring (R260). -/
def ringAddr (emit : Bool) (p i : Nat) : Nat := portBase + (if emit then 0xC0000 else 0) + p * 0x4000 + i * 0x400

/-- Words 3–6 of a header, or of any time-stamp: nanoseconds, seconds low and high, fraction (R262). -/
def stampWords (t : Time) : List Word :=
  let sec := t / Time.second
  let u := t % Time.second
  [wOf (u / 65536), wOf sec, wOf (sec / 4294967296), wOf (u % 65536)]

/-- Address of the header of stroke `k`'s block (R260, R262). -/
def headerAddr (emit : Bool) (p : Nat) (k : BitVec 64) : Nat :=
  portBase + 0x180000 + ((48 * (if emit then 1 else 0) + p) * 16 + k.toNat % 16) * 32

/-- Writes a block header (R262). -/
def putHeader (emit : Bool) (p : Nat) (k : BitVec 64) (status frames : Nat) (ts : Option Time) (s : State) : State :=
  writeWords (headerAddr emit p k) ([flag ts.isSome 31 ||| place status 24 ||| wOf (Nat.min frames 255), lo64 k, hi64 k]
    ++ (match ts with | some t => stampWords t | none => zeros 4) ++ [0#32]) s

/-! ### The freezing CATCH (R256, R272–R277) -/

/-- The frames of a window of stroke `k` that starts at `c` (R256): edges at or after c + φ + lo/2 Pf and before c + φ + hi/2 Pf. -/
def framesIn (s : State) (x : Port) (c : Time) (lo hi : Int) : List Frame :=
  let r : Int := sps s * portN s x
  x.win.filter fun f =>
    let d := 2 * ((f.t : Int) - c - x.phi) * r
    decide (lo * Time.second ≤ d) && decide (d < hi * Time.second)

/-- Detector that reports once for each of `n` slots (R283, R464). -/
def detectSlots (n : Nat) (alters : Bool) (src : BitVec 16) (code : BitVec 12) (cond : Bool) (s : State) : State × Bool :=
  let inj := injArmed s src code
  let r := detect alters src code .degrade 0#32 cond s
  if inj || cond then ((List.range (n - 1)).foldl (fun s _ => reportI inj src code .degrade 0#32 s) r.1, r.2) else r

/-- Rows by slot of a list of frames. -/
def rowsOf (slots : Nat) (fs : List Frame) : List (List Word) :=
  (List.range slots).map fun i => fs.map fun f => f.words[i]?.getD 0#32

/-- Freezes a port's rows: the source blocks of R28 with the slot mask's status (R262), the ring block and the header. -/
def freezeRows (p : Nat) (k : BitVec 64) (status frames : Nat) (ts : Option Time) (rows : List (List Word)) (s : State) : State :=
  let x := portAt s p
  let rows := (rows.zipIdx).map fun e => if bitAt x.slots e.2 then e.1.map (stored x.cfg) else e.1.map fun _ => 0#32
  let s := (List.range 32).foldl (fun s i =>
    let b : Blk := match rows[i]? with
      | some r => ⟨if bitAt x.slots i then status else 3, r⟩
      | none => {}
    { s with patch := { s.patch with blocks := tset {} s.patch.blocks (32 * p + i) b } }) s
  putHeader false p k status frames ts (writeBytes (ringAddr false p (k.toNat % 16)) (blockBytes x.cfg rows) s)

/-- PORT_UNDERRUN and PORT_OVERRUN of an engine-domain window (R274): the state, the status, and whether a slip follows. -/
def windowCheck (p n frames : Nat) (bad : Bool) (s : State) : State × Nat × Bool :=
  let slots := portSlots (portAt s p).cfg
  let under := bad || decide (frames < n)
  let u := detectSlots slots true (portSrc p) 0x400#12 under s
  let s := if u.2 then portStat p 0 u.1 else u.1
  let o := detectSlots slots false (portSrc p) 0x401#12 (!under && decide (n < frames)) s
  let s := if o.2 then portStat p 1 o.1 else o.1
  (s, if u.2 then 1 else if o.2 then 2 else 0, u.2 || o.2)

/-- PORT_ALIGN (R277), at each freezing CATCH: a slave member whose first frame lies more than a quarter frame from the group phase runs on
its own. -/
def alignCheckPort (p : Nat) (c : Time) (f : Option Frame) (s : State) : State :=
  let x := portAt s p
  let r := sps s * portN s x
  match f, tget none s.port.grpPhi (cfgGrp x.cfg) with
  | some f, some g =>
    let m := phaseOf r c f.t
    let d := detect false (portSrc p) 0x404#12 .degrade 0#32 (!cfgMaster x.cfg && farApart r m g) s
    if d.2 then portStat p 6 (putPort p { portAt d.1 p with ownPhase := true, phi := m } d.1) else d.1
  | _, _ => s

/-- The capture block of stroke `k`, begun at `c`, freezes (R256, R257, R272, R274, R275). `gs` holds the gates of the stroke. -/
def captureFreeze (p : Nat) (k : BitVec 64) (c : Time) (moving : Bool) (gs : List GatePos) (s : State) : State :=
  let x := portAt s p
  let slots := portSlots x.cfg
  let n := portN s x
  if x.st = .off then freezeRows p k 3 0 none [] s
  else if portDom x.cfg = 3 then
    let f := x.win.take (foreignMax x.cfg)
    let lost := moving && decide (f.length < x.win.length)
    let o := detectSlots slots false (portSrc p) 0x401#12 lost s
    let s := if o.2 then portStat p 1 o.1 else o.1
    let rows := (rowsOf slots f).map fun r => r.map (wordIn x.cfg)
    let pad := gs ++ List.replicate (f.length - gs.length) (gs.getLast?.getD ⟨0, 0⟩)
    let rows := if moving then rows.map (gateWords pad) else rows.map fun r => r.map fun _ => 0#32
    let s := putPort p { portAt s p with inF := f.length } s
    freezeRows p k (if !moving then 3 else if x.speed then 1 else if o.2 then 2 else 0) x.win.length (x.win.head?.map (·.t)) rows s
  else
    let all := framesIn s x c (-3) (2 * n - 3)
    let good := all.filter (·.ok)
    let ts := all.head?.map (·.t)
    if !moving then
      let s := alignCheckPort p c all.head? (putPort p { x with lastw := zeros slots } s)
      freezeRows p k 3 all.length ts (List.replicate slots (zeros n)) s
    else
      let w := windowCheck p n good.length (all.any fun f => !f.ok) s
      let f := good.take n
      let rows := (rowsOf slots f).map fun r => ((r.map (wordIn x.cfg)) ++ zeros (n - f.length))
      let t := rows.zipIdx.map fun e => treatBlock w.2.2 n x.treat (x.lastw[e.2]?.getD 0#32) e.1
      let x := portAt w.1 p
      let treat := (treatBlock w.2.2 n x.treat 0#32 (zeros n)).1
      let clean := if w.2.2 then 0 else satInc 8 x.clean
      let lastw := t.map fun e => e.2.getLast?.getD 0#32
      let s := putPort p { x with treat := treat, clean := clean, lastw := lastw, fmeas := x.fmeas && (cfgMaster x.cfg || !w.2.2) } w.1
      let s := alignCheckPort p c all.head? s
      freezeRows p k w.2.1 all.length ts (t.map fun e => gateWords gs e.2) s

/-- DIR = 1 channels of a FOREIGN port in the order of its slots (log entry 25). -/
def foreignOut (s : State) (p : Nat) : List Nat :=
  (s.patch.asrc.filter fun e => e.2.run && asrcOut e.2 && asrcPort e.2 == p).map (·.1)

/-- The words a slot has for a stroke whose output blocks are `blks`: its output block, or for a FOREIGN port those of its channel. -/
def slotWords (s : State) (blks : Tab Blk) (p i : Nat) : List Word :=
  if portDom (portAt s p).cfg = 3 then
    match (foreignOut s p)[i]? with
    | some a => (asrcAt s a).outw
    | none => zeros (foreignMax (portAt s p).cfg)
  else
    let n := domN (portDom (portAt s p).cfg)
    let ws := (tget {} blks (32 * p + i)).words
    if ws.length = n then ws else zeros n

/-- The one-stroke ramp of R346 over `ws`. -/
def fadeWords (ws : List Word) : List Word := (ws.zipIdx).map fun e => gated e.1 (gateGain (ws.length - 1 - e.2) ws.length)

/-- Words of a slot in a window of `m` frames (R276): the first, or the block with its last word repeated. -/
def fitFrames (m : Nat) (ws : List Word) : List Word := ws.take m ++ List.replicate (m - ws.length) (ws.getLast?.getD 0#32)

/-- The emit window of the pending stroke has passed (R272, R276): the port's words go out and the emit header is written. A FOREIGN port
sends one frame at each FS edge (R257). -/
def emitEnd (p : Nat) (c : Time) (s : State) : State :=
  let x := portAt s p
  match x.emit with
  | none => s
  | some e =>
    let slots := portSlots x.cfg
    let n := portN s x
    let foreign := portDom x.cfg == 3
    let fs := framesIn s x c (-1) (2 * n - 1)
    let m := if cfgMaster x.cfg then n else if foreign then Nat.min x.win.length (foreignMax x.cfg) else fs.length
    let slip := e.data && !cfgMaster x.cfg && !foreign && m != n
    let rows := (List.range slots).map (slotWords s s.patch.emitBlk p)
    let t := if e.data then (rows.zipIdx).map fun r => (treatBlock slip n x.etreat (x.laste[r.2]?.getD 0#32) r.1).2
      else rows.map fun r => r.map fun _ => 0#32
    let laste := t.map fun r => r.getLast?.getD 0#32
    let outw := t.map fun r =>
      let r := if e.data then gateWords (e.gates ++ List.replicate (r.length - e.gates.length) (e.gates.getLast?.getD ⟨0, 0⟩)) r else r
      let r := if e.fade then fadeWords r else r
      fitFrames m r
    let etreat := if e.data then (treatBlock slip n x.etreat 0#32 (zeros n)).1 else .none
    let s := putPort p { x with etreat := etreat, laste := laste, emit := none } s
    let s := if slip then portStat p 2 s else s
    let status := if !e.data then 3 else if slip then (if m < n then 1 else 2) else 0
    let s := putHeader true p e.stroke status m (if cfgMaster x.cfg then some c else fs.head?.map (·.t)) s
    if !e.drive then s else
    (outw.zipIdx).foldl (fun s r =>
      if bitAt e.mask r.2 then emit (.emit (32 * p + r.2) (r.1.map (slotOut x.cfg))) s
      else if bitAt x.cfg 15 then s
      else emit (.emit (32 * p + r.2) (r.1.map fun _ => 0#32)) s) s

/-- PORT_STATE (R282) as at this CATCH. -/
def portStateWord (x : Port) : Word :=
  let st := match x.st with
    | .off => 0 | .idle => 1 | .starting => 2 | .running => 3 | .stopping => 4
  let tr := match x.treat with
    | .none => 0 | .silence _ => 1 | .ramp _ => 2
  place st 29 ||| flag (!x.mute.up) 28 ||| place tr 26 ||| place x.clean 22 ||| place (x.run.p % 2048) 11 ||| wOf (x.mute.p % 2048)

/-- One port at the CATCH of stroke `t` (R268, R272): the stroke `k` before it began at `c`; its emission ends and that of `t`
is prepared. -/
def portCatch (k t : BitVec 64) (c : Time) (fade : Bool) (p : Nat) (s : State) : State :=
  let x := portAt s p
  if x.st = .off then
    let s := captureFreeze p k c false [] s
    putPort p { portAt s p with seen := portStateWord (portAt s p), emit := none, muteWas := none } s
  else
  let s := sapClocks p (emitEnd p c s)
  let x := { portAt s p with muteWas := none }
  let n := portN s x
  let x := if x.st = .stopping then runRampEnd x else x
  let moving := x.st != .idle
  let q := if moving then gateRun n x.run x.mute else (x.run, x.mute, [])
  let s := putPort p { x with run := q.1, mute := q.2.1 } s
  let s := captureFreeze p k c moving q.2.2 s
  let x := portAt s p
  let x := if x.st = .starting then runRampEnd x else x
  let keep := if portDom x.cfg = 3 then [] else
    x.win.filter fun f => decide ((2 * n - 3) * Time.second ≤ 2 * ((f.t : Int) - c - x.phi) * (sps s * n : Nat))
  let drive := s.sys.mode == .live && !portVioLow s p
  let e : EmitPend := { stroke := t, data := moving && !x.speed, gates := q.2.2, mask := x.slots, drive := drive, fade := fade }
  putPort p { x with win := keep, emit := some e, seen := portStateWord x } s

/-- The emit block of stroke `t` goes to its ring once the output blocks are frozen (R260, R272). -/
def portEmitBlock (t : BitVec 64) (p : Nat) (s : State) : State :=
  let x := portAt s p
  if x.emit.isNone then s else
  writeBytes (ringAddr true p (t.toNat % 16))
    (blockBytes x.cfg ((List.range (portSlots x.cfg)).map (slotWords s s.patch.emitBlk p))) s

/-- A group with no port left forgets its phase (log entry 26). -/
def grpForget (s : State) : State :=
  let used (g : Nat) : Bool :=
    s.port.ports.toList.any fun x => x.st != .off && !cfgMaster x.cfg && portDom x.cfg != 3 && cfgGrp x.cfg == g
  { s with port := { s.port with grpPhi := s.port.grpPhi.filter fun e => used e.1 } }

/-! ### Calls (R270, R271) -/

/-- PORT_MASK at its application (R271). -/
def portMask (p : Nat) (m : Word) (s : State) : State := putPort p { portAt s p with slots := m } s

/-- PORT_RAMP at its application (R270): a direction equal to the target changes nothing. Of two for one port and stroke the later stands,
on the gate as it was before the first (R273). -/
def portRamp (p : Nat) (up : Bool) (len : Nat) (s : State) : State :=
  let x := portAt s p
  let g := x.muteWas.getD x.mute
  putPort p { x with muteWas := some g, mute := if g.up = up then g else gateAim g up (len * portN s x) } s

/-! ### PDM (R279–R281) -/

/-- A group's clock runs (R281): enabled in the configuration its last reset release took. -/
def pdmOn (s : State) (k : Nat) : Bool := !s.port.pdmHeld.getLsbD (k / 8) && bitAt s.port.pdmCfg (8 * (k / 8) + 7)

def pdmAt (s : State) (k : Nat) : PdmStream := vget {} s.port.pdm k
def putPdm (k : Nat) (x : PdmStream) (s : State) : State := { s with port := { s.port with pdm := vput s.port.pdm k x } }

/-- PDM_EN written (R281): it acts on the block frozen at the CATCH of A + 2. -/
def pdmEnWrite (v : Word) (s : State) : State :=
  setReg Reg.PDM_EN v { s with port := { s.port with pdmAct := s.port.pdmAct ++ [⟨ioStroke s + 2#64, v⟩] } }

/-- PDM_EN (R281). -/
def execPdmEn (_m : Master) (v : Word) (s : State) : Host.Outcome State Fault Refusal := done (pdmEnWrite v s)

/-- PDM_SETTLE in force (R282). -/
def pdmSettle (s : State) : Nat := let t := fld (reg s Reg.PDM_SETTLE) 7 0; if t = 0 then 120 else t

/-- A stream's bit changes (R281). -/
def pdmSet (k : Nat) (on : Bool) (s : State) : State :=
  let x := pdmAt s k
  if x.on = on then s
  else if on then putPdm k { on := true, settle := pdmSettle s, gate := { p := 0, n := 2 * domN (pdmDom s k), up := true }, live := false } s
  else putPdm k { x with on := false, gate := { x.gate with up := false } } s

/-- PDM_EN writes due at stroke `t`. -/
def pdmDue (t : BitVec 64) (s : State) : State :=
  let due := s.port.pdmAct.filter fun a => decide (a.g.toNat ≤ t.toNat)
  let s := due.foldl (fun s a => (List.range 32).foldl (fun s k => pdmSet k (bitAt a.en k) s) s) s
  { s with port := { s.port with pdmAct := s.port.pdmAct.filter fun a => decide (t.toNat < a.g.toNat) } }

/-- The settle time of a stream has passed (R281). -/
def pdmSettled (k : Nat) (s : State) : State :=
  let x := pdmAt s k
  if x.on && x.settle == 0 && !x.live then putPdm k { x with live := true } s else s

/-- PDM_SETTLE_END (R281). -/
def execPdmSettleEnd (k : Fin 32) (s : State) : Host.Outcome State Fault Refusal := done (pdmSettled k.val s)

/-- What a stream settles to (R280): floor((2d − 1) · 2³¹) for d = ones / bits, saturated. -/
def pdmSteady (ones bits : Nat) : Word := if bits = 0 then 0#32 else (sat32 (((2 * ones : Int) - bits) * 2 ^ 31 / (bits : Int))).1

/-- The decimator's output samples (R280): requantised toward minus infinity and saturated. -/
def pdmWords (n : Nat) : PdmIn → List Word
  | .steady ones bits => List.replicate n (pdmSteady ones bits)
  | .exact xs => xs.map fun x => (sat32 (sra x 16)).1

/-- The clock of a PDM group over the stroke (R280, R281): OSR times the D0 rate where the group is enabled and the ball is driven. -/
def pdmClock (g : Nat) (s : State) : State :=
  let c := s.port.pdmCfg
  if !s.port.pdmHeld.getLsbD g && bitAt c (8 * g + 7) && !s.sys.vio.getLsbD 3 && clockPad s (bitAt c (8 * g + 4)) == .driven then
    emit (.pdmClk g ((if bitAt c (8 * g + 6) then 128 else 64) * (4 * sps s))) s
  else s

/-- A stream's block of stroke `j` freezes (R281): `ws` is the decimator's output. -/
def pdmCatch (j : BitVec 64) (ws : List Word) (k : Nat) (s : State) : State :=
  let s := pdmSettled k s
  let x := pdmAt s k
  let n := domN (pdmDom s k)
  let ws := (ws ++ zeros n).take n
  let q := gateRun n x.gate { p := 1, n := 1, up := true }
  let r : PdmStream × Blk :=
    if !pdmOn s k then (if x.on then { x with settle := pdmSettle s, live := false, gate := { x.gate with p := 0 } } else {}, ⟨3, zeros n⟩)
    else if x.on && !x.live then ({ x with settle := x.settle - 1 }, ⟨3, zeros n⟩)
    else if !x.on && x.gate.p == 0 then ({}, ⟨3, zeros n⟩)
    else ({ x with gate := q.1 }, ⟨0, gateWords q.2.2 ws⟩)
  let s := putPdm k r.1 s
  let s := { s with patch := { s.patch with blocks := tset {} s.patch.blocks (0x600 + k) r.2 } }
  writeWords (portBase + 0x18C000 + k * 0x200 + j.toNat % 16 * 0x20) (r.2.words ++ zeros (8 - n)) s

/-- PDM_LIVE (R282). -/
def pdmLive (s : State) : Word :=
  (List.range 32).foldl (fun v k => v ||| flag ((pdmAt s k).on && (pdmAt s k).live && pdmOn s k) k) 0#32

/-! ### All ports at a CATCH -/

/-- The ports and PDM streams at the CATCH of stroke `t`; `k` is the stroke before and `c` its CATCH. -/
def portsCatch (k t : BitVec 64) (c : Time) (fade : Bool) (pdm : List (Nat × PdmIn)) (s : State) : State :=
  let s := grpForget (grpDue t { s with port := { s.port with stroke := t } })
  let s := (List.range 48).foldl (fun s p => portCatch k t c fade p s) s
  let s := (List.range 4).foldl (fun s g => pdmClock g s) s
  (List.range 32).foldl (fun s i =>
    pdmCatch k (pdmWords (domN (pdmDom s i)) (((pdm.find? fun e => e.1 == i).map (·.2)).getD (.exact []))) i s) (pdmDue t s)

end Sys2Proof.Machine
end

