-- ==== Sys2Proof/Machine/Strips.lean ====
section
/-! DEFINITION. Strips (05) and what calls do to them: descriptors and banks, the areas that acceptance arms (R31, R52), scene
descriptors, fork words and the selection of forks (08). -/

namespace Sys2Proof.Machine

/-! ### Descriptors and banks (R145–R148) -/

/-- Address of word 0 of a descriptor. -/
def descAddr (n : Nat) : Nat := centralAddr (0x3C0000 + n * 0x40)

/-- Sets bit `b` of word 0 of strip `n`'s descriptor (R146). -/
def setDescBit (n b : Nat) (v : Bool) (s : State) : State :=
  let w := descWord s n 0
  writeWord (descAddr n) (if v then w ||| flag true b else w &&& ~~~(flag true b)) s

/-- LIVE toggles (R151). -/
def toggleLive (n : Nat) (s : State) : State := setDescBit n 26 (!stripLive s n) s

/-- The shadow bank of a strip (R148), and the shadow target array of a slice (R190). -/
def shadowBank (s : State) (n : Nat) : Area := ⟨centralAddr (n * 0x800 + (if stripLive s n then 0 else 0x400)), 0x400⟩
def shadowArr (s : State) (sl : Nat) : Area := ⟨tgtAddr sl (shadowY s sl) 0, 0x24000⟩

def Area.has (x : Area) (a : Nat) : Bool := decide (x.lo ≤ a) && decide (a < x.lo + x.len)

/-- The areas that are armed (R31, R52, R240, R242): those of accepted calls, the former live banks of forked strips through H,
and the shadow arrays of a matrix swap still due. -/
def armedAreas (s : State) : List Area :=
  s.call.pend.flatMap (·.arms)
    ++ (s.scene.fades.flatMap fun r => r.forked.map (shadowBank s))
    ++ s.scene.align.flatMap fun m => ((List.range 16).filter fun sl => (sliceMask m.1).getLsbD sl).map (shadowArr s)

def armedAt (s : State) (a : Nat) : Bool := (armedAreas s).any fun x => x.has a

/-- The strips of a range or bitmap that are in use (R151). -/
def usedOf (s : State) (l : List Nat) : List Nat := l.filter fun n => stripKind s n != 0

/-- Byte `i` of a run of words. -/
def wbyte (ws : List Word) (i : Nat) : Nat := fld (ws[i / 4]?.getD 0#32) (8 * (i % 4) + 7) (8 * (i % 4))
/-- Bit `n` of a bitmap that starts at byte `o`. -/
def wbit (ws : List Word) (o n : Nat) : Bool := wbyte ws (o + n / 8) / 2 ^ (n % 8) % 2 == 1
/-- Little-endian field of `n` bytes. -/
def wfield (ws : List Word) (o : Nat) : Nat → Nat
  | 0 => 0
  | n + 1 => wbyte ws o + 256 * wfield ws (o + 1) n

/-! ### Payloads (R51) -/

def pbyte (p : List Byte) (i : Nat) : Nat := (p[i]?.getD 0#8).toNat
def pfield (p : List Byte) (o n : Nat) : Nat := leNat ((p.drop o).take n)
/-- Bytes `o` to 15 are zero. -/
def pzero (p : List Byte) (o : Nat) : Bool := (p.drop o).all fun b => b == 0#8

/-- A pointer into central memory, aligned to 32, to an area of `len` bytes (R51). -/
def ptrOk (a len : Nat) : Bool := a % 32 == 0 && decide (a + len ≤ 0x800000)

/-- Scene descriptor from its words (R230). -/
def sceneOf (ws : List Word) : SceneDesc :=
  let f := wbyte ws 6
  { strips := (List.range 1920).filter fun n => wbit ws 32 n
    xpMask := BitVec.ofNat 16 (wfield ws 4 2)
    xp := f % 2 == 1
    xpAlign := f / 2 % 2 == 1
    noFork := f / 4 % 2 == 1
    routes := (List.range (wfield ws 8 2)).map fun i =>
      (wfield ws (272 + 8 * i) 2, ⟨wfield ws (272 + 8 * i + 2) 2, wbyte ws (272 + 8 * i + 4), wbyte ws (272 + 8 * i + 5)⟩) }

/-- A ROUTE breaks R205 on a ground other than bridge channels. -/
def routeBad (s : State) (sink : Nat) (r : RouteReq) : Bool :=
  !routeFieldsOk s sink r.src r.mode r.len || !routeDomOk s r.src sink

/-- R231: a descriptor, its words read as `ws`, is refused. -/
def sceneBad (s : State) (scene p x : Nat) (ws : List Word) : Bool :=
  let d := sceneOf ws
  let n := wfield ws 8 2
  wfield ws 0 4 != scene || scene == 0xFFFFFFFF || decide (8 ≤ wbyte ws 6) || wbyte ws 7 != 0
    || (List.range 22).any (fun i => wbyte ws (10 + i) != 0) || (d.xpAlign && !d.xp) || decide (256 < n)
    || decide (1024 < p) || decide (64 < x) || (d.xp && maskDisabled s d.xpMask)
    || (List.range n).any (fun i => wfield ws (272 + 8 * i + 6) 2 != 0)
    || d.routes.any fun e => routeBad s e.1 e.2

/-! ### Forks (R235–R240) -/

/-- The fork word of a recall in stroke `k` (R237). -/
def forkWord (r : Recall) (k : Nat) : Word :=
  if k < r.f ∨ r.hand < k then 0#32
  else if k < r.t then
    place 1 29 ||| flag (k == r.f) 28 ||| flag (k == r.hand) 27 ||| place r.xf 8
  else place 2 29 ||| flag (k == r.f) 28 ||| flag (k == r.hand) 27 ||| place r.xf 8 ||| wOf (k - r.t)

/-- ROLE = CUT (R237). -/
def cutWord : Word := place 3 29

/-- Address of a strip's fork word. -/
def forkAddr (n : Nat) : Nat := centralAddr (0x3F0000 + 4 * n)

def putFork (n : Nat) (w : Word) (s : State) : State := writeWord (forkAddr n) w s

/-- A strip runs SINGLE again: its fork word and FORKED are cleared (R240, R244, R245). -/
def forkClear (n : Nat) (s : State) : State := setDescBit n 24 false (putFork n 0#32 s)

/-- A comes before B in the order of R235: longer carry first, then the lower strip. -/
def forkBefore (s : State) (a b : Nat) : Bool :=
  decide (carryLen s b < carryLen s a) || (carryLen s a == carryLen s b && decide (a < b))

/-- Insertion into a list in the order of R235. -/
def forkInsert (s : State) (n : Nat) : List Nat → List Nat
  | [] => [n]
  | m :: ms => if forkBefore s n m then n :: m :: ms else m :: forkInsert s n ms

/-- Fork capacity of a kind (R236). -/
def forkCap (s : State) (kind : Nat) : Nat := match s.eng.img with
  | some im => im.fork[kind - 1]?.getD 0
  | none => 0

/-- The strips a recall forks (R235). -/
def forkChoice (s : State) (d : SceneDesc) : List Nat :=
  if d.noFork then [] else
  [1, 2, 3, 4].flatMap fun k =>
    let c := d.strips.filter fun n => stripKind s n == k && decide (0 < carryLen s n) && !stripForked s n
    (c.foldl (fun l n => forkInsert s n l) []).take (forkCap s k)

/-- SCENE_EVT bits (R249). -/
def sceneEvt (b : Nat) (s : State) : State := orReg Reg.SCENE_EVT (flag true b) s

/-- A strip leaves the recall that forks it (R244, R245): armed recalls abandon the fork area. -/
def recallWithout (r : Recall) (n : Nat) : Recall :=
  { r with forked := r.forked.filter (· != n), desc := { r.desc with strips := r.desc.strips.filter (· != n) } }

/-- A crossfade of strip `n` ends by CUT (R244): the strip runs CUT in the stroke at hand and SINGLE after. -/
def fadeCut (n : Nat) (s : State) : State :=
  let s := sceneEvt 5 (detect false (sysSrc 0 0) 0x350#12 .note 0#32 true s).1
  putFork n cutWord { s with scene := { s.scene with
    fades := s.scene.fades.map fun r => { r with forked := r.forked.filter (· != n) }
    cuts := s.scene.cuts ++ [n] } }

/-- SWAP_BANK of one strip at its application (R151, R244). -/
def swapStrip (n : Nat) (s : State) : State :=
  if stripKind s n = 0 then s
  else match s.scene.arm with
    | some r =>
      if r.forked.contains n then
        toggleLive n (sceneEvt 4 (forkClear n { s with scene := { s.scene with arm := some (recallWithout r n) } }))
      else if s.scene.fades.any fun q => q.forked.contains n then toggleLive n (fadeCut n s)
      else toggleLive n s
    | none =>
      if s.scene.fades.any fun q => q.forked.contains n then toggleLive n (fadeCut n s) else toggleLive n s

/-- The armed recall ends without its recall stroke (R245): its forks are abandoned. -/
def recallDrop (s : State) : State :=
  match s.scene.arm with
  | none => s
  | some r =>
    let s := r.forked.foldl (fun s n => forkClear n s) s
    { s with scene := { s.scene with arm := none } }

/-- FORK_WORD_WRITE after the FINISH of stroke `k` (R237): the words of stroke k + 1, but for those that an application or
SCENE_DONE writes; strips that ran CUT run SINGLE. -/
def forkWrite (k : Nat) (s : State) : State :=
  let s := s.scene.cuts.foldl (fun s n => forkClear n s) { s with scene := { s.scene with cuts := [] } }
  let s := match s.scene.arm with
    | some r =>
      let w := if k + 1 < r.t then forkWord r (k + 1) else place 1 29 ||| place r.xf 8
      r.forked.foldl (fun s n => putFork n w s) s
    | none => s
  s.scene.fades.foldl (fun s r =>
    if k + 1 ≤ r.hand then r.forked.foldl (fun s n => putFork n (forkWord r (k + 1)) s) s else s) s

/-- SCENE_DONE (R240): after the FINISH of H. -/
def sceneDone (s : State) : State :=
  let k := s.eng.stroke.toNat
  if s.eng.phase != .finished then s
  else
    let past := s.scene.fades.filter fun r => decide (r.hand ≤ k)
    if past.isEmpty then s
    else
      let s := past.foldl (fun s r => r.forked.foldl (fun s n => forkClear n s) s) s
      sceneEvt 0 { s with scene := { s.scene with fades := s.scene.fades.filter fun r => decide (k < r.hand) } }

/-- SCENE_DONE (R240). -/
def execSceneDone (s : State) : Host.Outcome State Fault Refusal := done (sceneDone s)

/-- The matrix swaps under XP_ALIGN, at the head of the calls of stroke T + 1, in the order of their recalls (R242). -/
def alignSwap (s : State) : State :=
  match s.scene.align with
  | [] => s
  | ms =>
    if callsOpen s ∧ ms.all (fun m => decide (m.2 ≤ (strokeDue s).toNat)) = true then
      ms.foldl (fun s m => xpSwap m.1 s) { s with scene := { s.scene with align := [] } }
    else s

/-- SCENE_XP_ALIGN_SWAP (R242). -/
def execSceneXpAlignSwap (s : State) : Host.Outcome State Fault Refusal := done (alignSwap s)

/-- The recall that SCENE_STATE shows (R249): the armed one, else the one that crossfades, else the last. -/
def sceneShown (s : State) : Option Recall := match s.scene.arm with
  | some r => some r
  | none => match s.scene.fades.getLast? with
    | some r => some r
    | none => s.scene.view

/-- SCENE_STATE (R249). -/
def sceneStateWord (s : State) : Word :=
  let ph := if s.scene.arm.isSome then 1 else if s.scene.fades.isEmpty then 0 else 2
  match sceneShown s with
  | none => 0#32
  | some r => place ph 30 ||| flag r.short 29 ||| place r.peff 16 ||| wOf r.xf

/-- STRIP_INFO of a strip (R172). -/
def stripInfo (s : State) (n : Nat) : Word :=
  let w := descWord s n 0
  place (stripKind s n) 29 ||| place (stripDom s n) 27 ||| flag (stripLive s n) 26 ||| flag (latchedAt s n) 25
    ||| flag (bitAt w 25) 24 ||| flag (bitAt w 24) 23 ||| flag (armedAt s (shadowBank s n).lo) 22 ||| wOf (stripCore s n)

end Sys2Proof.Machine
end

