-- ==== Sys2Proof/Machine/FabMem.lean ====
section
/-! DEFINITION. The memory targets of the fabric (14): decode and paths, the rules by which a target refuses a burst (R31, R32, R84,
R193, R382, R384, R390, R394, R395), reads and writes with ECC, read-modify-write and collisions. -/

namespace Sys2Proof.Machine

/-! ### Responses and decode (R402, R403, R406) -/

abbrev rPass : BitVec 2 := 0#2
abbrev rRefused : BitVec 2 := 1#2
abbrev rUnmapped : BitVec 2 := 2#2
abbrev rExpired : BitVec 2 := 3#2

/-- Target number of an address (R402). -/
def targetOf (a : Nat) : Nat :=
  if a < 0x1000000 then 7
  else if a < 0x1800000 then 5
  else if 0x2000000 ≤ a ∧ a < 0x2800000 then 0
  else if 0x3000000 ≤ a ∧ a < 0x3A00000 then 3
  else if 0x4000000 ≤ a ∧ a < 0x6000000 then 1
  else if 0x6000000 ≤ a ∧ a < 0x7000000 then 2
  else if 0x7000000 ≤ a ∧ a < 0x7040000 then 6
  else if 0x8000000 ≤ a ∧ a < 0x8200000 then 4
  else if 0x100000000 ≤ a ∧ a < 0x300000000 then 8
  else 15

/-- A path of R403. -/
inductive Path where
  | rw | ro | guarded | no
  deriving DecidableEq, Repr

/-- The life cycle as the row reads: the majority of its three copies (R392). -/
def lcNow (s : State) : Nat :=
  let copy (i : Nat) : Nat := (memGet s.mem (slateBase + 0x1000 + i)).toNat % 4
  let a := copy 0
  let b := copy 1
  let c := copy 2
  if a = b ∨ a = c then a else if b = c then b else a

/-- The table of R403. -/
def pathOf (lc : Nat) (m : Master) (t : Nat) : Path :=
  if t = 15 then .no else
  match m with
  | .sc => if t = 5 then .ro else .rw
  | .host => if t = 5 then .ro else if t = 6 then .guarded else .rw
  | .dma => if t = 5 then .ro else if t = 6 then .guarded else if t = 7 then .no else .rw
  | .twin => if t = 0 ∨ t = 1 ∨ t = 3 ∨ t = 4 ∨ t = 8 then .rw else .no
  | .net => if t = 0 ∨ t = 8 then .rw else if t = 4 then .ro else .no
  | .eng => if t = 0 ∨ t = 8 then .rw else .no
  | .dbg => if t = 5 then .ro else if t = 6 then (if lc = 0 then .rw else .guarded) else .rw

/-- A word that a burst touches: its address, its byte enables and its data. -/
structure BusWord where
  a : Nat
  en : BitVec 4
  d : Word
  deriving DecidableEq, Repr

/-- The words of a burst, those with no byte enabled left out. -/
def burstWords (b : Burst) : List BusWord :=
  ((b.beats.zipIdx).flatMap fun e => (List.range 4).map fun j =>
    BusWord.mk (b.addr.toNat + 16 * e.2 + 4 * j) (e.1.en.extractLsb' (4 * j) 4) (e.1.data.extractLsb' (32 * j) 32)).filter
      fun w => w.en != 0#4

/-- A burst that keeps the form of R405: 1 to 16 beats from a 16-byte boundary. -/
def burstOk (b : Burst) : Bool := decide (0 < b.beats.length) && decide (b.beats.length ≤ 16) && b.addr.toNat % 16 == 0

/-- It crosses a 4 KB boundary (R405). -/
def burst4k (b : Burst) : Bool := b.addr.toNat / 4096 != (b.addr.toNat + 16 * b.beats.length - 1) / 4096

/-- Fabric source ID of a master (R425). -/
def fabSrc (m : Master) : BitVec 16 := sysSrc 4 (mNum m)

/-- FAB_ERR_INFO and FAB_ERR_ADDR capture the first event while VALID = 0 (R423). -/
def fabCapture (m : Master) (t : Nat) (resp : BitVec 2) (write : Bool) (a : Nat) (s : State) : State :=
  if bitAt s.fab.info 31 then s
  else
    let w := flag true 31 ||| place t 24 ||| place (mNum m) 16 ||| place resp.toNat 8 ||| flag write 0
    { s with fab := { s.fab with info := w, addr := a } }

/-- Every UNMAPPED answer counts (R406); its record is `decodeBurst`'s. -/
def noteUnmapped (m : Master) (t : Nat) (write : Bool) (a : Nat) (s : State) : State :=
  let s := fabCapture m t rUnmapped write a s
  orReg Reg.FAB_STAT 1#32 { s with fab := { s.fab with unmap := satInc max32 s.fab.unmap } }

/-! ### Slate's settings slots (R386) -/

def slotAddr (i : Nat) : Nat := slateBase + 0x410000 + i * 0x100000
def slotLen (s : State) (i : Nat) : Nat := (peek s (slotAddr i + 8)).toNat
def slotSeq (s : State) (i : Nat) : Word := peek s (slotAddr i + 4)

/-- A slot is valid: MAGIC right and CRC matching (R386). -/
def slotValid (s : State) (i : Nat) : Bool :=
  peek s (slotAddr i) == 0x53544C53#32 && decide (slotLen s i ≤ 0xFFFC0)
    && crc32 (memGetBytes s.mem (slotAddr i + 64) (slotLen s i)) == peek s (slotAddr i + 12)

/-- The newest valid slot (R386). -/
def slotNewest (s : State) : Option Nat :=
  match slotValid s 0, slotValid s 1 with
  | true, true => some (if 0 < (slotSeq s 0 - slotSeq s 1).toInt then 0 else 1)
  | true, false => some 0
  | false, true => some 1
  | false, false => none

/-- The slot that a SETTINGS STORE writes. -/
def slotTarget (s : State) : Nat := match slotNewest s with
  | some 0 => 1
  | _ => 0

/-- Slate range of an item (R383, R385). -/
def itemArea (s : State) (item : Nat) : Area :=
  if item = 0 then ⟨slotAddr (slotTarget s), 0x100000⟩
  else if item = 1 then ⟨slateBase + 0x10000, 0x400000⟩
  else if item = 2 then ⟨slateBase + 0x610000, 0x10000⟩
  else if item = 3 then ⟨slateBase + 0x620000, 0x1E0000⟩
  else ⟨slateBase, 0x1000⟩

/-! ### DRAM size (R395, R400) -/

/-- Usable DRAM in bytes. -/
def dramBytes (s : State) : Nat :=
  let c := s.dram.cfg
  let fitted := 2 ^ fld c 19 16 * 2 * (if bitAt c 8 then 2 else 1) * 134217728
  if bitAt c 30 then fitted / 8 * 7 else fitted

/-- DRAM serves accesses (R394). -/
def dramReady (s : State) : Bool := s.dram.ready && bitAt s.dram.cfg 31 && decide (fld s.dram.cfg 27 24 < 6)

/-! ### Who owns a word (R31, R32, R84, R193) -/

/-- The memory kinds behind an address. -/
def kindsAt (a : Nat) : List MemKind :=
  match targetOf a with
  | 0 => [.central] | 1 => [.crew] | 2 => [.coreProg, .coreData] | 3 => [.matrix] | 4 => [.portBuf] | 6 => [.geode] | _ => []

/-- The memory is being cleared (R382). -/
def clearingAt (s : State) (a : Nat) : Bool := (kindsAt a).any s.msvc.clearing.contains

/-- An address that no master of this kind may access at its target: a window's hole (R84), the firmware area (R145, R447),
a Slate item being stored (R388), DRAM that is absent or not ready (R394, R395), reserved matrix space for writes (R193). -/
def closedAt (s : State) (m : Master) (write : Bool) (a : Nat) : Bool :=
  match targetOf a with
  | 0 => m != .sc && decide (centralBase + 0x780000 ≤ a)
  | 2 => decide (0x8000 ≤ (a - coreBase) % 0x20000) && decide ((a - coreBase) % 0x20000 < 0x10000)
  | 3 => write && decide (0x800C0 ≤ (a - matrixBase) % 0xA0000)
  | 5 => match s.slate.run with
    | some r => (itemArea s r.item).has a
    | none => false
  | 8 => !dramReady s || decide (dramBytes s ≤ a - dramBase)
  | _ => false

/-- A crew word that is engine-owned even while the engine is held (R32, R515): a carry word, or a word of the patch area. -/
def crewOwned (s : State) (c w : Nat) : Bool :=
  match s.eng.img with
  | none => false
  | some _ =>
    (decide (areaBase s c ≤ w) && decide (w < 524288 - holdLen s c))
      || stripsAll.any fun n => stripCrew s n == c && decide (carryBase s n ≤ w) && decide (w < carryBase s n + carryLen s n)

/-- An engine-owned word (R32). -/
def ownedAt (s : State) (a : Nat) : Bool :=
  match targetOf a with
  | 0 =>
    let o := a - centralBase
    if o < 0x3C0000 then (o / 0x400 % 2 == 1) == stripLive s (o / 0x800)
    else decide (o < 0x3DE000) || (decide (0x3E0000 ≤ o) && decide (o < 0x3EF000)) || (decide (0x3F0000 ≤ o) && decide (o < 0x3F1E00))
      || (s.eng.img.isSome && decide (planeOf s ≤ o) && decide (o < planeOf s + 0x18000))
  | 1 => !engHeld s || crewOwned s ((a - crewBase) / 0x200000) ((a - crewBase) % 0x200000 / 4)
  | 2 => !engHeld s
  | 3 =>
    let sl := (a - matrixBase) / 0xA0000
    let o := (a - matrixBase) % 0xA0000
    if o < 0x24000 then true
    else if o < 0x48000 then !tselOf s sl
    else if o < 0x6C000 then tselOf s sl
    else decide (o < 0x800C0)
  | 4 => true
  | 8 =>
    let u := (a - dramBase) / 4096
    s.eng.img.isSome && (stripsUsed s).any fun n =>
      decide ((descWord s n 4).toNat ≤ u) && decide (u < (descWord s n 4).toNat + (descWord s n 5).toNat)
  | _ => false

/-- The masters that R32 bars from engine-owned areas. -/
def guardedMaster : Master → Bool
  | .host | .dma | .net | .dbg => true
  | _ => false

/-! ### Reads -/

/-- A meter word as a fabric master reads it (R166, R471): word 0 takes the master's snapshot of the block. -/
def readMeter (m : Master) (a : Nat) (s : State) : State × Word × Bool :=
  let n := (a - (centralBase + 0x3E0000)) / 32
  let w := (a - (centralBase + 0x3E0000)) / 4 % 8
  let r := readWord .fabric a s
  if w = 0 then
    let ws := memWords s.mem a 8
    (setBank m (fun b => { b with meter := some (n, r.2.1 :: ws.tail) }) r.1, r.2)
  else
    match (bank s m).meter with
    | some q => (r.1, if q.1 = n then q.2[w]?.getD 0#32 else 0#32, r.2.2)
    | none => (r.1, 0#32, r.2.2)

def isMeterWord (a : Nat) : Bool := decide (centralBase + 0x3E0000 ≤ a) && decide (a < centralBase + 0x3EF000)

/-- Reads the words of a burst in order: the words and whether one was uncorrectable. -/
def readBeats (m : Master) : List BusWord → State → State × List (Nat × Word) × Bool
  | [], s => (s, [], false)
  | w :: ws, s =>
    let r := if isMeterWord w.a then readMeter m w.a s else readWord .fabric w.a s
    let q := readBeats m ws r.1
    (q.1, (w.a, r.2.1) :: q.2.1, r.2.2 || q.2.2)

/-- The answer of a target: the state, the response and read data by word address. -/
structure Answer where
  s : State
  resp : BitVec 2
  data : List (Nat × Word)

/-- A read of a memory target (R372, R406): an uncorrectable word makes the answer REFUSED with zero data. -/
def memRead (b : Burst) (s : State) : Answer :=
  let ws := burstWords b
  if ws.any fun w => clearingAt s w.a || closedAt s b.master false w.a then ⟨s, rRefused, []⟩
  else
    let r := readBeats b.master ws s
    if r.2.2 then ⟨r.1, rRefused, []⟩ else ⟨r.1, rPass, r.2.1⟩

/-! ### Writes -/

/-- The bytes of `old` with the enabled bytes of `d` (R372). -/
def mergeWord (old d : Word) (en : BitVec 4) : Word :=
  let f (i : Nat) : BitVec 8 := (if en.getLsbD i then d else old).extractLsb' (8 * i) 8
  f 3 ++ f 2 ++ f 1 ++ f 0

/-- A performed write of one word: the carry-hold copy in crew memory (R377). -/
def putBusWord (a : Nat) (v : Word) (s : State) : State :=
  if targetOf a = 1 then writeCrew ((a - crewBase) / 0x200000) ((a - crewBase) % 0x200000 / 4) v s else writeWord a v s

/-- The word at `a` is written whole by the burst `ws`: a bundle is one word of 64 bits (R372). -/
def wholeWord (ws : List BusWord) (w : BusWord) : Bool :=
  w.en == 15#4 && (!isProg w.a || ws.any fun v => v.a == 2 * (w.a / 8 * 8) + 4 - w.a && v.en == 15#4)

/-- One word of the write burst `all` (R372): part of a word is a read-modify-write, not performed over an uncorrectable word. -/
def writeBusWord (all : List BusWord) (w : BusWord) (s : State) : State × Bool :=
  if wholeWord all w then (putBusWord w.a w.d s, true)
  else
    let r := readWord .fabric w.a s
    if r.2.2 then (r.1, false) else (putBusWord w.a (mergeWord r.2.1 w.d w.en) r.1, true)

/-- The words of a write burst in order; false from the word that could not be performed (R403). -/
def writeWordsIn (all : List BusWord) : List BusWord → State → State × Bool
  | [], s => (s, true)
  | w :: ws, s =>
    let r := writeBusWord all w s
    if r.2 then writeWordsIn all ws r.1 else (r.1, false)
def writeBeats (ws : List BusWord) (s : State) : State × Bool := writeWordsIn ws ws s

/-- INFO of BANK_ARMED and ENGINE_OWNED (R458): bits [35:4] of the address. -/
def infoAddr : Option BusWord → Word
  | some w => wOf (w.a / 16)
  | none => 0#32

/-- The rules by which a target judges a write burst as a whole (R403): refused before any beat, or performed. BANK_ARMED comes
before ENGINE_OWNED; in SERVICE a write to an engine-owned area is performed as a direct write (R32, R34). -/
def judgeWrite (m : Master) (ws : List BusWord) (s : State) : State × Bool :=
  if ws.any fun w => clearingAt s w.a || closedAt s m true w.a then (s, false)
  else
    let hit := ws.find? fun w => armedAt s w.a
    let r := detect false (fabSrc m) 0x304#12 .note (infoAddr hit) hit.isSome s
    if r.2 then
      (if ws.any fun w => targetOf w.a == 3 then orReg Reg.MIX_STAT 2#32 r.1 else r.1, false)
    else
      let s := r.1
      let bad := if guardedMaster m then ws.find? fun w => ownedAt s w.a else none
      let own := bad.isSome
      let q := detect false (fabSrc m) 0x305#12 .note (infoAddr bad) (own && s.sys.mode != .service) s
      if q.2 then (q.1, false)
      else (if own then detLapse detDirect q.1 else q.1, true)

/-- A write burst that passed its judgement is performed. -/
def writePerform (b : Burst) (s : State) : Answer :=
  let r := writeBeats (burstWords b) s
  ⟨r.1, if r.2 then rPass else rRefused, []⟩

/-- A write of a memory target (R374): where it collides, its words are discarded in a SAMPLE area, and in a CONTROL area the target port, or
the crew mover for a crew window, tries again, the burst waiting; none for the answer says so. -/
def memWrite (b : Burst) (s : State) : State × Option (BitVec 2) :=
  let ws := burstWords b
  let j := judgeWrite b.master ws s
  if !j.2 then (j.1, some rRefused)
  else
    match ws with
    | [] => (j.1, some rPass)
    | w :: rest =>
      if sampleClass j.1 w.a && b.collides then (ws.foldl (fun s w => (collideCheck w.a true s).1) j.1, some rPass)
      else if sampleClass j.1 w.a then
        let c := collideCheck w.a false j.1
        let r := writeBeats (if c.2 then rest else ws) c.1
        (r.1, some (if r.2 then rPass else rRefused))
      else if b.collides then
        ({ j.1 with msvc := { j.1.msvc with collided := j.1.msvc.collided ++ [⟨b, 0⟩] } }, none)
      else
        let r := writePerform b j.1
        (r.s, some r.resp)

/-- Geode turned an access away (R390). -/
def geodeDenied (s : State) : State := (detect false (sysSrc 2 0) 0xA01#12 .note 0#32 true s).1

/-- An access that the default target answers (R403, R406, R481): no path, no target, or no register block. -/
def noTarget (s : State) (b : Burst) : Bool :=
  let a := b.addr.toNat
  pathOf (lcNow s) b.master (targetOf a) == .no || (targetOf a == 7 && decide (0x150000 ≤ a))

/-- The decode of a burst (R405, R406): whether it is answered UNMAPPED, which is counted and logged. -/
def decodeBurst (b : Burst) (s : State) : State × Bool :=
  let t := targetOf b.addr.toNat
  let r := detect false (fabSrc b.master) 0x100#12 .note 0#32 (noTarget s b) s
  if r.2 then (noteUnmapped b.master t b.write b.addr.toNat r.1, true) else (r.1, false)

/-- Weight of a master, and its place in the rotation ENG, TWIN, NET, HOST, DMA, SC, DBG (R16, R408). -/
def fabWeight : Master → Nat
  | .eng => 4 | .twin => 4 | .net => 2 | .host => 2 | .dma => 2 | .sc => 1 | .dbg => 1
def fabPlace : Nat → Nat
  | 5 => 0 | 3 => 1 | 4 => 2 | 1 => 3 | 2 => 4 | 0 => 5 | _ => 6

/-- A burst on the gateway ports of the divisions: ENG at central memory, which the fabric neither arbitrates nor locks (R404). -/
def gateway (b : Burst) : Bool := b.master == .eng && targetOf b.addr.toNat == 0

/-- The target port grants a burst (R408): its master, and how many consecutive bursts that makes, up to the master's weight. -/
def granted (b : Burst) (s : State) : State :=
  if gateway b then s else
  let t := targetOf b.addr.toNat
  let n := vget 0 s.fab.taken t
  let more := vget 0 s.fab.last t == mNum b.master && decide (n < fabWeight b.master)
  { s with fab := { s.fab with
    last := vput s.fab.last t (mNum b.master), taken := vput s.fab.taken t (if more then n + 1 else 1) } }

/-- The order in which a target port grants waiting masters (R16, R408): the last holder while its weight lasts, then the rotation. -/
def fabRank (b : Burst) (s : State) : Nat :=
  let t := targetOf b.addr.toNat
  let last := vget 0 s.fab.last t
  if last = mNum b.master ∧ vget 0 s.fab.taken t < fabWeight b.master then 0
  else (fabPlace (mNum b.master) + 6 - fabPlace last) % 7 + 1

/-- A decoded burst at a memory target (R403): false where it waits for a retry. The register bridge is no memory target. -/
def memServe (b : Burst) (s : State) : Answer × Bool :=
  if targetOf b.addr.toNat = 7 then (⟨s, rRefused, []⟩, true)
  else
  match pathOf (lcNow s) b.master (targetOf b.addr.toNat) with
  | .no => (⟨s, rUnmapped, []⟩, true)
  | .guarded => (⟨geodeDenied s, rRefused, []⟩, true)
  | .ro => if b.write then (⟨s, rRefused, []⟩, true) else (memRead b s, true)
  | .rw =>
    if b.write then
      match memWrite b s with
      | (s, some r) => (⟨s, r, []⟩, true)
      | (s, none) => (⟨s, rPass, []⟩, false)
    else (memRead b s, true)

/-- A burst of a master that has no path to the register bridge (R403, R405, R406). -/
def memBurst (b : Burst) (s : State) : Answer × Bool :=
  if !burstOk b || burst4k b then (⟨s, rRefused, []⟩, true)
  else
    let d := decodeBurst b s
    if d.2 then (⟨d.1, rUnmapped, []⟩, true) else memServe b (granted b d.1)

/-- Read data of an answer as bytes of the burst's beats: zero where nothing was read (R406). -/
def answerBytes (b : Burst) (r : Answer) : List Byte :=
  (List.range (4 * b.beats.length)).flatMap fun i =>
    let a := b.addr.toNat + 4 * i
    leBytes (((r.data.find? fun e => e.1 == a).map (·.2)).getD 0#32)

/-- Beats that write bytes from an address on, with the enables of those bytes alone: the burst starts at the 16-byte boundary. -/
def beatsOf (a : Nat) (bs : List (Option Byte)) : List Beat :=
  let l := List.replicate (a % 16) (none : Option Byte) ++ bs
  (chunks 16 l).map fun c =>
    { en := (c.zipIdx).foldl (fun (v : BitVec 16) e => if e.1.isSome then v ||| BitVec.ofNat 16 (2 ^ e.2) else v) 0#16
      data := BitVec.ofNat 128 (leNat (c.map fun x => x.getD 0#8)) }

/-- A read burst of `n` bytes from `a`. -/
def readBurst (m : Master) (a n : Nat) : Burst :=
  { master := m, addr := BitVec.ofNat 36 (a / 16 * 16), write := false, lock := false, beats := beatsOf a (List.replicate n (some 0#8)) }

/-- A write burst of bytes from `a`. -/
def writeBurst (m : Master) (a : Nat) (bs : List (Option Byte)) : Burst :=
  { master := m, addr := BitVec.ofNat 36 (a / 16 * 16), write := true, lock := false, beats := beatsOf a bs }

end Sys2Proof.Machine
end

