-- ==== Sys2Proof/Machine/Logs.lean ====
section
/-! DEFINITION. Logs as the host reads them and injection arming (16): records as words (R460), ERR_POP (R464), the slots and which
detectors exist (R465), reports and coalescing windows (R461, R462). -/

namespace Sys2Proof.Machine

/-- A record's four words (R460). -/
def recWords (r : LogRec) : List Word :=
  [place r.source.toNat 16 ||| place r.code.toNat 4 ||| place (sevNum r.sev) 2 ||| flag r.inj 1 ||| flag r.noStroke 0,
   place r.count 16 ||| wOf r.seq.toNat, lo64 r.stroke, r.info]

/-- ERR_HEAD0–3 of a log (R472): zeros when it is empty. -/
def headWords (s : State) (i : Nat) : List Word :=
  match (vget {} s.err.logs i).recs with
  | [] => [0#32, 0#32, 0#32, 0#32]
  | r :: _ => recWords r

/-- ERR_LOG_CNT of a log (R472). -/
def logCount (s : State) (i : Nat) : Word :=
  let l := vget {} s.err.logs i
  place l.lost 16 ||| wOf l.recs.length

/-- A write to ERR_POP (R464): bit 8 zeroes LOST, else the oldest record goes. -/
def errPopWrite (v : Word) (s : State) : State :=
  let i := fld v 2 0
  let l := vget {} s.err.logs i
  let l := if bitAt v 8 then { l with lost := 0 } else { l with recs := l.recs.tail }
  { s with err := { s.err with logs := vput s.err.logs i l } }

/-- ERR_POP (R464). -/
def execErrPop (_m : Master) (v : Word) (s : State) : Host.Outcome State Fault Refusal := done (errPopWrite v s)

/-- CLR_LOST (R464). -/
def execClrLost (_m : Master) (v : Word) (s : State) : Host.Outcome State Fault Refusal := done (errPopWrite v s)

/-- COLLECT_REPORT (R461): the report's lapse bits (R34), then the logs. -/
def collectReport (r : Report) (s : State) : State :=
  report r.source r.code r.sev r.info (lapse (r.lapse.setWidth 32) s)
def execCollectReport (r : Report) (s : State) : Host.Outcome State Fault Refusal := done (collectReport r s)

/-- COALESCE_WINDOW (R462): window `index` opens while the engine is held in reset. -/
def coalesceWindow (index : Nat) (s : State) : State :=
  if engHeld s then { s with err := { s.err with win := index } } else s
def execCoalesceWindow (index : Nat) (s : State) : Host.Outcome State Fault Refusal := done (coalesceWindow index s)

/-! ### Which detectors exist (R465) -/

/-- A code is one of a run. -/
def codeIn (c : BitVec 12) (lo hi : Nat) : Bool := decide (lo ≤ c.toNat) && decide (c.toNat ≤ hi)

/-- Unit numbers of a source: level, region, block, cell (R457). -/
def srcLevel (x : BitVec 16) : Nat := bitsOf x.toNat 15 13
def srcRegion (x : BitVec 16) : Nat := bitsOf x.toNat 12 8
def srcBlock (x : BitVec 16) : Nat := bitsOf x.toNat 7 4
def srcCell (x : BitVec 16) : Nat := bitsOf x.toNat 3 0

/-- Codes of an SRAM and its Assay engine (R401). -/
def memCode (c : BitVec 12) : Bool := codeIn c 0x000 0x002 || codeIn c 0x010 0x011

/-- Codes with a detector at a unit of region 4: the patch, the ports, the PDM groups, port buffer memory (R229, R283, R401). -/
def ioDetector (b k : Nat) (c : BitVec 12) : Bool :=
  (b == 0 && k == 0 && codeIn c 0x340 0x343) || (decide (b < 3) && codeIn c 0x400 0x407)
    || (b == 4 && decide (k < 4) && codeIn c 0x400 0x401) || (b == 14 && k == 0 && memCode c)

/-- Codes with a detector at a unit of region 5: network ports, PTP, references, clock outputs (R314, R336). -/
def netDetector (b k : Nat) (c : BitVec 12) : Bool :=
  (decide (b < 2) && k == 0 && codeIn c 0x500 0x503)
    || ((b == 2 || b == 3) && k == 0 && codeIn c 0x600 0x602)
    || (b == 4 && ((decide (k < 4) && (codeIn c 0x610 0x610 || codeIn c 0x613 0x613 || codeIn c 0x615 0x616))
        || (k == 15 && (codeIn c 0x611 0x612 || codeIn c 0x614 0x614 || codeIn c 0x617 0x617))))

/-- Codes with a detector at a unit of region 6. -/
def sysDetector (b k : Nat) (c : BitVec 12) : Bool :=
  (b == 0 && k == 0 && (memCode c || codeIn c 0x301 0x302 || codeIn c 0x310 0x312 || codeIn c 0x320 0x320 || codeIn c 0x350 0x351))
    || (b == 1 && k == 0 && codeIn c 0x940 0x940)
    || (b == 2 && k == 0 && (memCode c || codeIn c 0xA00 0xA01))
    || (b == 3 && k == 0 && codeIn c 0x020 0x022)
    || (b == 4 && decide (k < 7) && (codeIn c 0x100 0x103 || codeIn c 0x304 0x305))
    || (b == 5 && (codeIn c 0xB01 0xB03 || (k == 0 && c == 0xB00#12)))
    || (b == 6 && ((k == 0 && codeIn c 0x800 0x806) || (decide (1 ≤ k) && decide (k ≤ 6) && c == 0x807#12)))
    || (b == 7 && k == 0 && codeIn c 0x900 0x905)
    || (b == 8 && decide (k < 7) && c == 0x110#12)
    || (b == 9 && k == 0 && c == 0x303#12)
    || (b == 12 && k == 0 && codeIn c 0x700 0x70B)

/-- A pair of source and code that has a detector (R465; the code tables of the chapters). -/
def hasDetector (x : BitVec 16) (c : BitVec 12) : Bool :=
  let r := srcRegion x
  let b := srcBlock x
  let k := srcCell x
  match srcLevel x with
  | 0 => x == 0#16 && (c == 0xC00#12 || codeIn c 0xC10 0xC11)
  | 1 =>
    if r < 4 then decide (8 ≤ b) && decide (b < 12) && k == 0 && (c == 0x300#12 || c == 0x330#12 || memCode c)
    else if r = 4 then ioDetector b k c
    else if r = 5 then netDetector b k c
    else r == 6 && sysDetector b k c
  | 2 => decide (r < 4) && decide (b < 4) && k == 0 && memCode c
  | 3 => decide (r < 4) && decide (b < 4) && decide (k < 8) && (codeIn c 0x200 0x206 || c == 0x300#12 || memCode c)
  | _ => false

/-! ### The slots (R465, R467) -/

/-- Slot a master's ERR_INJ_SLOT names. -/
def injSlot (s : State) (m : Master) : InjSlot := vget {} s.err.inj (bank s m).inj
def putSlot (m : Master) (x : InjSlot) (s : State) : State :=
  { s with err := { s.err with inj := vput s.err.inj (bank s m).inj x } }

/-- ERR_INJ_CTRL as read (R472). -/
def injCtrl (x : InjSlot) : Word := flag x.bad 5 ||| flag x.fired 4 ||| flag x.act 3 ||| wOf x.mode.toNat

/-- A write to ERR_INJ_TGT: ignored while MODE ≠ 0 (R472). -/
def injTgtWrite (m : Master) (v : Word) (s : State) : State :=
  let x := injSlot s m
  if x.mode = 0#2 then putSlot m { x with tgt := v &&& 0xFFFFFFF0#32 } s else s

/-- FIRED after a write whose bit 4 is `v`'s. -/
def firedAfter (x : InjSlot) (v : Word) : Bool := x.fired && !bitAt v 4

/-- Arming (R465): a pair without a detector sets BAD and leaves the slot off. -/
def injArming (m : Master) (v : Word) (s : State) : State :=
  let x := injSlot s m
  let ok := hasDetector (x.tgt.extractLsb' 16 16) (x.tgt.extractLsb' 4 12)
  let r := detect false 0#16 0xC00#12 .note x.tgt (!ok) s
  let x := injSlot r.1 m
  let x := { x with act := bitAt v 3, fired := firedAfter x v, bad := r.2, mode := 0#2 }
  if r.2 then putSlot m x r.1 else putSlot m { x with cnt := 0, mode := v.extractLsb' 0 2 } r.1

/-- Disarming (R465): no key. -/
def injDisarming (m : Master) (v : Word) (s : State) : State :=
  let x := injSlot s m
  putSlot m { x with mode := 0#2, act := bitAt v 3, fired := firedAfter x v } s

/-- A write to ERR_INJ_CTRL (R465, R472): MODE 1 or 2 needs the key, MODE 3 acts as 0 and is logged. -/
def injCtrlWrite (m : Master) (v : Word) (s : State) : State :=
  let mode := fld v 1 0
  if mode = 0 then injDisarming m v s
  else if mode = 3 then injDisarming m v (progError m Reg.ERR_INJ_CTRL s)
  else if fld v 31 16 = 0x494A then injArming m v s
  else progError m Reg.ERR_INJ_CTRL s

/-- INJ_ARM (R465). -/
def execInjArm (m : Master) (v : Word) (s : State) : Host.Outcome State Fault Refusal := done (injCtrlWrite m v s)

/-- INJ_DISARM (R465). -/
def execInjDisarm (m : Master) (v : Word) (s : State) : Host.Outcome State Fault Refusal := done (injCtrlWrite m v s)

/-- A monitor's timed detection (R466): where an armed slot names it, the detection is the injection's. -/
def detectTimed (alters : Bool) (src : BitVec 16) (code : BitVec 12) (sev : Sev) (info : Word) (s : State) : State × Bool :=
  detect alters src code sev info (!injArmed s src code) s

end Sys2Proof.Machine
end

