-- ==== Sys2Proof/Machine/MemSvc.lean ====
section
/-! DEFINITION. Memory service (13): clearing (R382), Assay and repairs (R378–R381), Slate's STORE (R383–R388), Geode and the life
cycle (R389–R392), DRAM training (R394). -/

namespace Sys2Proof.Machine

/-! ### Kinds, banks and rows (R371) -/

/-- KIND of a memory (R387). -/
def kindNum : MemKind → Nat
  | .coreProg => 1 | .coreData => 2 | .crew => 3 | .central => 4 | .matrix => 5 | .portBuf => 6 | .geode => 7

def kindOf (n : Nat) : Option MemKind :=
  [MemKind.coreProg, .coreData, .crew, .central, .matrix, .portBuf, .geode].find? fun k => kindNum k == n

/-- Instances, banks and rows per bank of a kind (R371). -/
def kindInst : MemKind → Nat
  | .coreProg => 128 | .coreData => 128 | .crew => 16 | .matrix => 16 | _ => 1
def kindBanks : MemKind → Nat
  | .coreProg => 1 | .coreData => 4 | .crew => 16 | .central => 32 | .matrix => 10 | .portBuf => 16 | .geode => 4
def kindRows : MemKind → Nat
  | .coreProg => 64 | .coreData => 64 | .crew => 512 | .central => 1024 | .matrix => 256 | .portBuf => 512 | .geode => 256

/-- Bytes of one index: a bundle in program memory, else a word. -/
def kindUnit : MemKind → Nat
  | .coreProg => 8
  | _ => 4

/-- First fabric address of an instance (R480). -/
def instBase (k : MemKind) (i : Nat) : Nat :=
  match k with
  | .coreProg => progAddr i 0
  | .coreData => dataAddr i 0
  | .crew => crewAddr i 0
  | .central => centralBase
  | .matrix => matrixAddr i 0
  | .portBuf => portBase
  | .geode => geodeBase

/-- Bytes of one instance. -/
def instBytes (k : MemKind) : Nat := kindBanks k * kindRows k * 64 * kindUnit k

/-- Word offset of index `x` of a bank (R371). -/
def bankWord (k : MemKind) (bank x : Nat) : Nat := if k = .matrix then bank * 16384 + x else x * kindBanks k + bank

/-- Fabric addresses of a row's 64 indices. -/
def rowAddrs (r : RowId) : List Nat :=
  (List.range 64).map fun i => instBase r.kind r.inst + kindUnit r.kind * bankWord r.kind r.bank (64 * r.row + i)

/-- An address belongs to instance `i` of a kind. -/
def inInst (k : MemKind) (i a : Nat) : Bool := decide (instBase k i ≤ a) && decide (a < instBase k i + instBytes k)

/-- An address belongs to a kind (R480). -/
def inKind (k : MemKind) (a : Nat) : Bool :=
  match k with
  | .coreProg => decide (coreBase ≤ a) && decide (a < geodeBase) && decide ((a - coreBase) % 0x20000 < 0x8000)
  | .coreData => decide (coreBase ≤ a) && decide (a < geodeBase) && decide (0x10000 ≤ (a - coreBase) % 0x20000)
  | k => decide ((kindRange k).1 ≤ a) && decide (a < (kindRange k).1 + (kindRange k).2)

/-- Zero words with valid check bits wherever `p` holds (R382). -/
def zeroWhere (p : Nat → Bool) (s : State) : State :=
  { s with
    mem := s.mem.filter fun e => !p e.1
    msvc := { s.msvc with ecc := s.msvc.ecc.filter fun e => !p e.1, hold := s.msvc.hold.filter fun e => !p e.1 } }

/-- MEM_CLEAR_DONE (R382). -/
def memClearDone (k : MemKind) (s : State) : State :=
  if s.msvc.clearing.contains k then
    let s := zeroWhere (inKind k) s
    { s with msvc := { s.msvc with clearing := s.msvc.clearing.filter fun j => j != k } }
  else s
def execMemClearDone (k : MemKind) (s : State) : Host.Outcome State Fault Refusal := done (memClearDone k s)

/-! ### Assay (R378–R380) -/

/-- The Assay engine of a row: 0–6 the regions, 7 Geode's (R378). -/
def assayOf (k : MemKind) (i : Nat) : Nat :=
  match k with
  | .coreProg => i / 32 | .coreData => i / 32 | .crew => i / 4 | .matrix => i / 4 | .portBuf => 4 | .central => 6 | .geode => 7

/-- A spare row, numbered after the addressable rows of its bank. -/
def isSpare (r : RowId) : Bool := decide (kindRows r.kind ≤ r.row)

/-- The repair that a spare row serves. -/
def servedBy (s : State) (r : RowId) : Option Repair :=
  s.msvc.repairs.find? fun p => p.at_.kind == r.kind && p.at_.inst == r.inst && p.at_.bank == r.bank && p.spare + kindRows r.kind == r.row

/-- A row that exists and may be tested: an addressable row or a spare in use, not in the bad-row list (R379, R380). -/
def rowOk (s : State) (r : RowId) : Bool :=
  decide (r.inst < kindInst r.kind) && decide (r.bank < kindBanks r.kind) && (!isSpare r || (servedBy s r).isSome)
    && !s.msvc.bad.contains r && !s.msvc.clearing.contains r.kind

/-- Place of a row in a pass (R379): by kind, instance, bank and row, spare rows last. -/
def rowOrder (r : RowId) : Nat :=
  ((((if isSpare r then 8 else 0) + kindNum r.kind) * 128 + r.inst) * 32 + r.bank) * 2048 + r.row

def assayAt (s : State) (e : Nat) : Assay := vget {} s.msvc.assay e
def putAssay (e : Nat) (x : Assay) (s : State) : State := { s with msvc := { s.msvc with assay := vput s.msvc.assay e x } }

/-- Assay runs in this mode (R379). -/
def assayMode (s : State) : Bool := !(s.sys.mode == .dormant || s.sys.mode == .retain)

/-- An engine starts a pass. -/
def assayStart (e : Nat) (s : State) : State :=
  let x := assayAt s e
  if x.pass || !assayMode s then s else putAssay e { x with pass := true, last := none } s

/-- ASSAY_PASS (R379). -/
def execAssayPass (e : Fin 8) (s : State) : Host.Outcome State Fault Refusal :=
  done (if bitAt (reg s Reg.MEM_ASSAY) 31 then assayStart e.val s else s)

/-- The save (R378): each index read with correction and its check bits recomputed. -/
def saveRow : List Nat → State → State
  | [], s => s
  | a :: as, s =>
    let r := readWord .fabric a s
    saveRow as (writeWord a r.2.1 r.1)

/-- Where a row's words lie: a spare in use serves the row it repairs. -/
def rowHome (s : State) (r : RowId) : RowId :=
  match servedBy s r with
  | some p => p.at_
  | none => r

/-- ASSAY_ROW (R378): the next row of the pass is saved and borrowed. -/
def assayRow (e : Nat) (r : RowId) (s : State) : State :=
  let x := assayAt s e
  let next := match x.last with
    | some l => decide (rowOrder l < rowOrder r)
    | none => true
  if x.pass && x.borrowed.isNone && assayMode s && assayOf r.kind r.inst == e && rowOk s r && next then
    putAssay e { x with borrowed := some r, last := some r } (saveRow (rowAddrs (rowHome s r)) s)
  else s
def execAssayRow (e : Fin 8) (kind : MemKind) (inst bank row : Nat) (s : State) : Host.Outcome State Fault Refusal :=
  done (assayRow e.val ⟨kind, inst, bank, row⟩ s)

/-- Free spare rows of a bank, in ascending order (R380). -/
def freeSpares (s : State) (k : MemKind) (i b : Nat) : List Nat :=
  (List.range 4).filter fun n =>
    !(s.msvc.repairs.any fun p => p.at_.kind == k && p.at_.inst == i && p.at_.bank == b && p.spare == n)
      && !s.msvc.bad.contains ⟨k, i, b, kindRows k + n⟩

/-- MEM_SPARE_MIN (R397): the fewest free spare rows of any bank. -/
def spareMin (s : State) : Nat :=
  let f (m : Nat) (r : RowId) := Nat.min m (freeSpares s r.kind r.inst r.bank).length
  s.msvc.bad.foldl f ((s.msvc.repairs.map (·.at_)).foldl f 4)

/-- A faulty row moves to a spare row; a faulty spare in use moves its row on and is not used again (R380). -/
def repairRow (r : RowId) (n : Nat) (s : State) : State :=
  let home := rowHome s r
  let keep := s.msvc.repairs.filter fun p => p.at_ != home
  { s with msvc := { s.msvc with
      repairs := keep ++ [{ at_ := home, spare := n }]
      bad := if isSpare r then s.msvc.bad ++ [r] else s.msvc.bad
      repaired := satInc 65535 s.msvc.repaired } }

/-- Where the restore goes when the march has ended (R380). -/
def restoreRow (r : RowId) (faulty : Bool) (s : State) : State :=
  let src := memSrc (instBase r.kind r.inst)
  let free := freeSpares s r.kind r.inst r.bank
  let d := detect false src 0x010#12 .note 0#32 (faulty && !free.isEmpty) s
  let s := if d.2 then (match free with
    | n :: _ => repairRow r n d.1
    | [] => d.1) else d.1
  let q := detect false src 0x011#12 .fault 0#32 (faulty && free.isEmpty) s
  if q.2 then orReg Reg.MEM_STAT 8#32 { q.1 with msvc := { q.1.msvc with bad := q.1.msvc.bad ++ [r] } } else q.1

/-- ASSAY_ROW_DONE (R378, R380): the row is restored and the redirect released; a pass that ends publishes its duration. -/
def assayRowDone (e : Nat) (faulty passEnds : Bool) (ms : Nat) (s : State) : State :=
  let x := assayAt s e
  match x.borrowed with
  | none => s
  | some r =>
    let s := putAssay e { x with borrowed := none, pass := x.pass && !passEnds } (restoreRow r faulty s)
    if passEnds then { s with msvc := { s.msvc with assayRes := publish [wOf ms] s.msvc.assayRes } } else s
def execAssayRowDone (e : Fin 8) (faulty passEnds : Bool) (ms : Nat) (s : State) : Host.Outcome State Fault Refusal :=
  done (assayRowDone e.val faulty passEnds ms s)

/-- MEM_STAT as read (R397). -/
def memStat (s : State) : Word :=
  (reg s Reg.MEM_STAT &&& 0xF#32) ||| flag (s.msvc.repaired != 0) 4 ||| flag (!s.msvc.clearing.isEmpty) 5

/-! ### Slate (R383–R388) -/

/-- The repair map's word of a repair (R387). -/
def repairWord (p : Repair) : Word :=
  place (kindNum p.at_.kind) 28 ||| place p.at_.inst 21 ||| place p.at_.bank 16 ||| place p.at_.row 6 ||| place p.spare 4

def repairOf (w : Word) : Option Repair :=
  (kindOf (fld w 31 28)).map fun k => { at_ := ⟨k, fld w 27 21, fld w 20 16, fld w 15 6⟩, spare := fld w 5 4 }

/-- The repair map as bytes (R387). -/
def repairMap (s : State) : List Byte :=
  let es := (s.msvc.repairs.map repairWord).flatMap leBytes
  leBytes 0x52504D52#32 ++ leBytes (wOf s.msvc.repairs.length) ++ leBytes (wOf (s.slate.repairSeq + 1)) ++ leBytes (crc32 es) ++ es

/-- Address of the repair map. -/
abbrev mapAddr : Nat := slateBase + 0x610000

/-- The stored map is loaded at a SYSTEM or DEEP release (R381); a map whose CRC fails is not taken (R388). -/
def loadRepairs (s : State) : State :=
  let n := Nat.min 16380 (peek s (mapAddr + 4)).toNat
  let ok := peek s mapAddr == 0x52504D52#32 && crc32 (memGetBytes s.mem (mapAddr + 16) (4 * n)) == peek s (mapAddr + 12)
  { s with msvc := { s.msvc with
      repairs := if ok then (memWords s.mem (mapAddr + 16) n).filterMap repairOf else []
      bad := [], repaired := 0 } }

/-- The chip log's records as 64-byte rows, four to a row (R385). -/
def logRows (s : State) : List (List Byte) :=
  (chunks 4 (vget {} s.err.logs 7).recs).map fun rs =>
    let b := (rs.flatMap recWords).flatMap leBytes
    b ++ List.replicate (64 - b.length) 0#8

/-- A slot's header row (R386). -/
def slotHeader (magic seq : Word) (data : List Byte) : List Byte :=
  leBytes magic ++ leBytes seq ++ leBytes (wOf data.length) ++ leBytes (crc32 data) ++ List.replicate 48 0#8

/-- A row of Slate with its address. -/
structure SlateRow where
  a : Nat
  b : List Byte
  deriving DecidableEq, Repr

def rowsFrom (a : Nat) (bs : List (List Byte)) : List SlateRow := (bs.zipIdx).map fun e => ⟨a + 64 * e.2, e.1⟩

/-- Rows of the log ring (R383). -/
abbrev logRingRows : Nat := 30720

/-- The rows a STORE writes, in order (R385, R386). -/
def storeRows (s : State) (r : SlateRun) : List SlateRow :=
  let data := memGetBytes s.mem (centralAddr r.src) r.len
  if r.item = 0 then
    let i := slotTarget s
    let seq := match slotNewest s with
      | some j => slotSeq s j + 1
      | none => 1#32
    [⟨slotAddr i, slotHeader 0#32 seq data⟩] ++ rowsFrom (slotAddr i + 64) (chunks 64 data)
      ++ [⟨slotAddr i, slotHeader 0x53544C53#32 seq data⟩]
  else if r.item = 1 then rowsFrom (slateBase + 0x10000) (chunks 64 data)
  else if r.item = 2 then rowsFrom mapAddr (chunks 64 (repairMap s))
  else if r.item = 3 then
    ((logRows s).zipIdx).map fun e => ⟨slateBase + 0x620000 + 64 * ((s.slate.logHead + e.2) % logRingRows), e.1⟩
  else rowsFrom slateBase (chunks 64 data)

def putRows : List SlateRow → State → State
  | [], s => s
  | r :: rs, s => putRows rs (writeBytes r.a r.b s)

def slateEnd (status : Nat) (s : State) : State := irqLatch 13 { s with slate := { s.slate with status } }

/-- A STORE is taken, or refused with its cause (R385, R388). -/
def storeStart (item : Nat) (modeOk : Bool) (src len : Nat) (lenOk crcOk : Bool) (s : State) : State :=
  if s.slate.run.isSome then slateEnd 2 s
  else
    let s := { s with slate := { s.slate with done := false, item } }
    if !modeOk then slateEnd 3 s
    else if !lenOk then slateEnd 4 s
    else if !crcOk then slateEnd 5 s
    else { s with slate := { s.slate with run := some ⟨item, src, len⟩, status := 0 } }

/-- SLATE_SRC and SLATE_LEN (R385): a multiple of 64; the data must lie in central memory. -/
def slateSrc (s : State) : Nat := (reg s Reg.SLATE_SRC).toNat
def slateLen (s : State) : Nat := (reg s Reg.SLATE_LEN).toNat
def slateFits (s : State) (lo hi : Nat) : Bool :=
  decide (lo ≤ slateLen s) && decide (slateLen s ≤ hi) && slateLen s % 64 == 0 && decide (slateSrc s + slateLen s ≤ 0x800000)

/-- SETTINGS (R385, R386). -/
def storeSettings (s : State) : State := storeStart 0 (assayMode s) (slateSrc s) (slateLen s) (slateFits s 64 1048512) true s
/-- BOOT (R385). -/
def storeBoot (s : State) : State :=
  storeStart 1 (s.sys.mode == .recovery || s.sys.mode == .service) (slateSrc s) (slateLen s) (slateFits s 0 4194304) true s
/-- REPAIR (R385, R387). -/
def storeRepair (s : State) : State := storeStart 2 (assayMode s) 0 0 true true s
/-- LOG (R385). -/
def storeLog (s : State) : State := storeStart 3 (assayMode s) 0 0 true true s
/-- TRIM (R385): only with a right CRC. -/
def storeTrim (s : State) : State :=
  let bs := memGetBytes s.mem (centralAddr (slateSrc s)) 4096
  storeStart 4 (s.sys.mode == .service && lcNow s == 0) (slateSrc s) 4096 (slateFits s 4096 4096)
    (crc32 (bs.take 4092) == wOf (leNat (bs.drop 4092))) s

def execStoreSettings (_m : Master) (s : State) : Host.Outcome State Fault Refusal := done (storeSettings s)
def execStoreBoot (_m : Master) (s : State) : Host.Outcome State Fault Refusal := done (storeBoot s)
def execStoreRepair (_m : Master) (s : State) : Host.Outcome State Fault Refusal := done (storeRepair s)
def execStoreLog (_m : Master) (s : State) : Host.Outcome State Fault Refusal := done (storeLog s)
def execStoreTrim (_m : Master) (s : State) : Host.Outcome State Fault Refusal := done (storeTrim s)

/-- A write to SLATE_CMD (R385, R398). -/
def slateCmdWrite (m : Master) (v : Word) (s : State) : State :=
  match fld v 2 0 with
  | 0 => storeSettings s
  | 1 => storeBoot s
  | 2 => storeRepair s
  | 3 => storeLog s
  | 4 => storeTrim s
  | _ => progError m Reg.SLATE_CMD s

/-- SLATE_STORE_DONE (R388): the item is written whole; REPAIR_PEND falls with a stored map, the log head moves on. -/
def slateStoreDone (s : State) : State :=
  match s.slate.run with
  | none => s
  | some r =>
    let n := (logRows s).length
    let t := putRows (storeRows s r) s
    let t := if r.item = 2 then { t with msvc := { t.msvc with repaired := 0 }, slate := { t.slate with repairSeq := t.slate.repairSeq + 1 } }
      else if r.item = 3 then { t with slate := { t.slate with logHead := (t.slate.logHead + n) % logRingRows } }
      else t
    slateEnd 1 { t with slate := { t.slate with run := none, done := true } }
def execSlateStoreDone (s : State) : Host.Outcome State Fault Refusal := done (slateStoreDone s)

/-- A SYSTEM or DEEP reset ends a STORE after the row in progress (R388): how many rows had landed is a free value. -/
def storeAbort (s : State) : State :=
  match s.slate.run with
  | none => s
  | some r =>
    let rows := storeRows s r
    let n := 1 + Config.storeCut s.freeCtr % rows.length
    let t := putRows (rows.take n) { s with freeCtr := s.freeCtr + 1 }
    { t with slate := { t.slate with run := none, done := false, status := 6 } }

/-- SLATE_STAT (R398). -/
def slateStat (s : State) : Word :=
  flag s.slate.run.isSome 31 ||| flag s.slate.done 30 ||| place s.slate.item 16 ||| wOf s.slate.status

/-- SLATE_SEQ0 and SLATE_SEQ1 (R398). -/
def slateSeq (s : State) (i : Nat) : Word := if slotValid s i then slotSeq s i else 0#32

/-! ### Geode (R389–R392) -/

/-- Everything in Geode is wiped (R390): the slots, the identity key and the store. -/
def geodeWipe (cause : Nat) (s : State) : State :=
  let s := zeroWhere (inKind .geode) s
  let s := orReg Reg.GEODE_STAT (flag true cause) s
  { s with geode := { s.geode with
      keys := Vector.replicate 4 [], beaconKeys := Vector.replicate 4 [], root := [], idKey := [], idPub := [], wipeLog := s.geode.wipeLog ||| flag true cause } }

/-- VGLITCH (R390). -/
def execVglitch (s : State) : Host.Outcome State Fault Refusal := done (geodeWipe 1 s)
/-- TGLITCH (R390). -/
def execTglitch (s : State) : Host.Outcome State Fault Refusal := done (geodeWipe 2 s)

/-- The source bytes of a GEODE_CMD, and the state with them zeroed (R391). -/
def geodeTake (n : Nat) (s : State) : List Byte × State :=
  let a := centralAddr (reg s Reg.GEODE_SRC).toNat
  (memGetBytes s.mem a n, writeBytes a (List.replicate n 0#8) s)

def geodeRefused (s : State) : State := orReg Reg.GEODE_STAT 0x100#32 s

/-- INSTALL (R391). While strokes run, beacons use the new key from the next one (R342). -/
def geodeInstall (slot : Nat) (s : State) : State :=
  if assayMode s then
    let r := geodeTake 32 s
    let g := r.2.geode
    let strokes := s.eng.phase == .drive || s.eng.phase == .finished
    { r.2 with geode := { g with
        keys := vput g.keys slot r.1, beaconKeys := if strokes then g.beaconKeys else vput g.keys slot r.1 } }
  else geodeRefused s

/-- CLEAR (R391). -/
def geodeClear (slot : Nat) (s : State) : State :=
  if assayMode s then { s with geode := { s.geode with
    keys := vput s.geode.keys slot [], beaconKeys := vput s.geode.beaconKeys slot [] } } else geodeRefused s

/-- PROVISION_ROOT (R391). -/
def geodeProvision (s : State) : State :=
  if s.geode.root.isEmpty || lcNow s == 0 then
    let r := geodeTake 48 s
    { r.2 with geode := { r.2.geode with root := r.1 } }
  else geodeRefused s

def execInstall (_m : Master) (slot : BitVec 2) (s : State) : Host.Outcome State Fault Refusal := done (geodeInstall slot.toNat s)
def execClear (_m : Master) (slot : BitVec 2) (s : State) : Host.Outcome State Fault Refusal := done (geodeClear slot.toNat s)
def execProvisionRoot (_m : Master) (s : State) : Host.Outcome State Fault Refusal := done (geodeProvision s)

/-- A write to GEODE_CMD (R399). -/
def geodeCmdWrite (v : Word) (s : State) : State :=
  match fld v 1 0 with
  | 1 => geodeInstall (fld v 9 8) s
  | 2 => geodeClear (fld v 9 8) s
  | 3 => geodeProvision s
  | _ => geodeRefused s

/-- GEODE_STAT (R399). -/
def geodeStat (s : State) : Word :=
  (reg s Reg.GEODE_STAT &&& 0x10F#32) ||| place (lcNow s) 30 ||| flag (!s.geode.root.isEmpty) 29
    ||| (List.range 4).foldl (fun w i => w ||| flag (!(vget [] s.geode.keys i).isEmpty) (24 + i)) 0#32

/-- Word `i` of a byte string: GEODE_PUB and GEODE_ROOT. -/
def bytesWord (bs : List Byte) (i : Nat) : Word := wOf (leNat ((bs.drop (4 * i)).take 4))

/-- The life-cycle row is written in triplicate (R392). -/
def lcWrite (n : Nat) (s : State) : State :=
  writeBytes (slateBase + 0x1000) (List.replicate 3 (BitVec.ofNat 8 n)) s

/-- The boot image, settings, repair map and log are erased (R392). -/
def slateErase (s : State) : State := zeroWhere (fun a => decide (slateBase + 0x10000 ≤ a) && decide (a < slateBase + 0x800000)) s

/-! ### DRAM (R394) -/

/-- Training ends with the failing step, 0 for none (R394). -/
def dramTrained (step : Nat) (s : State) : State :=
  let d := detect false (sysSrc 3 0) 0x020#12 .fault 0#32 (step != 0) s
  { d.1 with dram := { d.1.dram with ready := !d.2, fail := d.2, failStep := if d.2 then step else 0 } }

/-- The interface is enabled with a RATE code that is not reserved (R400). -/
def dramOn (s : State) : Bool := bitAt s.dram.cfg 31 && decide (fld s.dram.cfg 27 24 < 6)

/-- DRAM_DRIFT_TRACK (R394): tracking that fails leaves the interface unusable. -/
def dramDriftTrack (step : Nat) (s : State) : State := if s.dram.ready && dramOn s then dramTrained step s else s
def execDramDriftTrack (failStep : BitVec 4) (s : State) : Host.Outcome State Fault Refusal := done (dramDriftTrack failStep.toNat s)

/-- DRAM_STAT (R400). -/
def dramStat (s : State) : Word := flag s.dram.ready 31 ||| flag s.dram.fail 30 ||| wOf s.dram.failStep

end Sys2Proof.Machine
end

