-- ==== Sys2Proof/Machine/Image.lean ====
section
/-! DEFINITION. Signed envelopes (R447, R448) and the engine image: its container (R168, R169), the loader's checks in their
fixed order (R518) and the load itself (R171, R195, R225, R226). -/

namespace Sys2Proof.Machine

/-! ### Envelopes (R447, R448) -/

/-- Length of the signed bytes of an envelope: its header, its payload and the padding to 16. -/
def envSigned (bs : List Byte) : Nat := 128 + (pfield bs 8 4 + 15) / 16 * 16

/-- Length of an envelope with its signature. -/
def envLen (bs : List Byte) : Nat := envSigned bs + 96

/-- The header of an envelope: MAGIC, FORMAT, TYPE and the reserved bytes. -/
def envHeadOk (type : Nat) (bs : List Byte) : Bool :=
  pfield bs 0 4 == 0x564E4545 && pfield bs 4 2 == 1 && pbyte bs 6 == type && decide (pbyte bs 7 < 2)
    && ((bs.drop 112).take 16).all (· == 0#8) && decide (envLen bs ≤ bs.length)
    && (pbyte bs 7 == 1 || pfield bs 12 4 == pfield bs 8 4)

/-- The signature of an envelope under the root digest (R389, R448); no root digest passes nothing. -/
def envSigOk (root : List Byte) (bs : List Byte) : Bool :=
  let key := (bs.drop 16).take 96
  !root.isEmpty && Config.sha384 key == root
    && Config.ecdsaP384 key (Config.sha384 (bs.take (envSigned bs))) ((bs.drop (envSigned bs)).take 96)

/-- Payload of an envelope that passes (R448), at most `most` bytes after decompression. -/
def envOpen (root : List Byte) (type most : Nat) (bs : List Byte) : Option (List Byte) :=
  if !envHeadOk type bs || !envSigOk root bs then none
  else
    let p := (bs.drop 128).take (pfield bs 8 4)
    let q := if pbyte bs 7 = 1 then Config.inflate p else some p
    q.filter fun x => x.length == pfield bs 12 4 && decide (x.length ≤ most)

/-! ### The container (R168, R169) -/

/-- A section entry (R168). -/
structure Sect where
  type : Nat
  sel : Nat
  ofs : Nat
  len : Nat
  crc : Nat
  deriving DecidableEq, Repr

def imgNsect (f : List Byte) : Nat := pfield f 8 4

/-- The section table, in table order. -/
def imgSects (f : List Byte) : List Sect :=
  (List.range (imgNsect f)).map fun i =>
    let b := (f.drop (64 + 16 * i)).take 16
    { type := pfield b 0 2, sel := pfield b 2 2, ofs := pfield b 4 4, len := pfield b 8 4, crc := pfield b 12 4 }

/-- Bytes of a section. -/
def sectBytes (f : List Byte) (x : Sect) : List Byte := (f.drop x.ofs).take x.len

/-- Bytes of the section of a type and SEL; empty where the image has none. -/
def imgSect (f : List Byte) (type sel : Nat) : List Byte :=
  match (imgSects f).find? fun x => x.type == type && x.sel == sel with
  | some x => sectBytes f x
  | none => []

/-- Units that a section type's SEL ranges over (R169). -/
def selCount (type : Nat) : Nat := if type < 3 then 128 else if type = 3 then 16 else 1

/-- Length of a section of a type (R169, R195, R225, R226, R516, R517). -/
def lenOk (type len : Nat) : Bool :=
  match type with
  | 1 => len % 8 == 0 && decide (len ≤ 32768)
  | 2 => len % 4 == 0 && decide (len ≤ 65536)
  | 3 => len % 4 == 0 && decide (len ≤ 2097152)
  | 4 => len == 256
  | 5 => len == 128
  | 6 => len == 122880
  | 7 => len == 3932160
  | 8 => len == 2490496
  | 9 => len == 49408
  | 10 => len == 9728
  | 11 => len == 7744
  | _ => decide (96 ≤ len) && decide (len ≤ 4096)

/-- An entry of the section table stands by itself (R518 step 3). -/
def sectOk (f : List Byte) (x : Sect) : Bool :=
  decide (1 ≤ x.type) && decide (x.type ≤ 12) && decide (x.sel < selCount x.type) && x.ofs % 16 == 0
    && decide (x.ofs + x.len ≤ f.length) && lenOk x.type x.len

/-- How often a type and SEL appear. -/
def sectTimes (l : List Sect) (type sel : Nat) : Nat := (l.filter fun x => x.type == type && x.sel == sel).length

/-- Presence and uniqueness of the types (R169). -/
def sectsOk (l : List Sect) : Bool :=
  (l.all fun x => sectTimes l x.type x.sel == 1) && [4, 5, 6, 7, 8, 9, 10, 11, 12].all fun t => sectTimes l t 0 == 1

/-! ### Contents (R518 step 5) -/

/-- Word `i` and halfword `i` of a section. -/
def sWord (b : List Byte) (i : Nat) : Word := wOf (pfield b (4 * i) 4)
def sHalf (b : List Byte) (i : Nat) : Nat := pfield b (2 * i) 2

/-- The next `n` words of a section. -/
def sWords : Nat → List Byte → List Word
  | 0, _ => []
  | n + 1, l => wOf (leNat (l.take 4)) :: sWords n (l.drop 4)

/-- Every halfword lies below a limit. -/
def halvesBelow (lim : Nat) : List Byte → Bool
  | a :: b :: l => decide (a.toNat + 256 * b.toNat < lim) && halvesBelow lim l
  | _ => true

/-- Byte 1 of each of `n` parameter banks is 0 (R147, R518). -/
def banksOk : Nat → List Byte → Bool
  | 0, _ => true
  | n + 1, l => pbyte l 1 == 0 && banksOk n (l.drop 1024)

/-- Word `i` of descriptor `n`. -/
def dWord (desc : List Byte) (n i : Nat) : Word := sWord desc (16 * n + i)

/-- A descriptor keeps its own encodings (R146, R518). -/
def descOk (desc : List Byte) (n : Nat) : Bool :=
  let w := dWord desc n
  decide (fld (w 0) 31 29 < 5) && decide (fld (w 0) 28 27 < 3) && !bitAt (w 0) 24 && fld (w 0) 15 11 == 0
    && !bitAt (w 1) 31 && fld (w 1) 23 12 == 0 && fld (w 2) 27 19 == 0 && fld (w 3) 31 16 == 0
    && fld (w 6) 31 29 == 0 && fld (w 6) 15 8 == 0 && fld (w 7) 31 29 == 0 && fld (w 7) 15 8 == 0 && !bitAt (w 8) 0

/-- Slice word `sl` keeps its encoding (R195, R182). -/
def sliceWordOk (w : Word) : Bool :=
  fld w 29 24 == 0 && bitsOf w.toNat 19 19 == 0 && fld w 7 0 == 0 && !(bitAt w 31 && bitAt w 30)
    && (bitAt w 31 || bitAt w 30 || w == 0#32)

/-- The MATRIX section (R195). -/
def matrixOk (m : List Byte) : Bool :=
  (sWord m 0).toNat % 65536 == 0 && sWord m 1 == 0#32 && ((List.range 16).all fun i => sliceWordOk (sWord m (2 + i)))
    && ((m.drop 72).take 56).all (· == 0#8) && halvesBelow 512 ((m.drop 2359424).take 131072)

/-- The LAT section (R226); `desc` tells the input strips. -/
def latOk (l desc : List Byte) : Bool :=
  (List.range 1920).all fun n =>
    let w := sWord l (16 + n)
    fld w 27 16 == 0 && (fld (dWord desc n 0) 31 29 == 1 || fld w 31 28 == 0)

/-- The REPORT section (R517). -/
def reportOk (r : List Byte) : Bool :=
  decide (sHalf r 34 ≤ 1024) && decide (sHalf r 35 ≤ 512) && decide (sHalf r 36 ≤ 128) && decide (sHalf r 37 ≤ 256)
    && ((List.range 16).all fun c => decide (pbyte r (76 + c) < 7) || pbyte r (76 + c) == 255)
    && ((r.drop 92).take 4).all (· == 0#8)

/-- Every section's own fields (R518 step 5). -/
def contentsOk (f : List Byte) : Bool :=
  let desc := imgSect f 6 0
  halvesBelow 4096 (imgSect f 4 0)
    && ((List.range 1920).all fun n => descOk desc n)
    && banksOk 3840 (imgSect f 7 0)
    && matrixOk (imgSect f 8 0)
    && halvesBelow 8192 ((imgSect f 9 0).take 16384)
    && ((imgSect f 10 0).all fun b => decide (b.toNat < 128) || b == 255#8)
    && latOk (imgSect f 11 0) desc
    && reportOk (imgSect f 12 0)

/-! ### The load -/

/-- What the device keeps of an image (R168–R170, R195, R225, R226, R516, R517). -/
def imageOf (f : List Byte) : Image :=
  let m := imgSect f 8 0
  let p := imgSect f 9 0
  let l := imgSect f 11 0
  let r := imgSect f 12 0
  { family := pbyte f 6 == 1
    format := pfield f 4 2
    id := BitVec.ofNat 64 (pfield f 16 8)
    entry := (List.range 128).map (sHalf (imgSect f 4 0))
    barriers := (imgSect f 5 0).map (·.toNat)
    own := (imgSect f 10 0).map (·.toNat)
    lat := (List.range 1920).map fun n => sWord l (16 + n)
    tgt := (List.range 16).map fun g => (sWord l g).toNat
    cycles := (List.range 16).map fun i => (sWord r i).toNat
    fork := (List.range 4).map fun k => sHalf r (34 + k)
    chain := (List.range 16).map fun c => pbyte r (76 + c)
    plane := (sWord m 0).toNat
    slices := (List.range 16).map fun i => sWord m (2 + i)
    patch := (List.range 8192).map (sHalf p)
    kern := (List.range 32).map fun q => (sWord p (4096 + q)).toInt
    akern := (List.range 8224).map fun q => (sWord p (4128 + q)).toInt
    carry := (sWord r 16).toNat }

/-- The state with the image's descriptors and records alone: what the rules between fields and sections are read from. -/
def imageTry (f : List Byte) (s : State) : State :=
  let t := writeBytes (centralAddr 0x3C0000) (imgSect f 6 0) s
  { t with eng := { t.eng with img := some (imageOf f) } }

/-- The kind of a strip's range (R142). -/
def rangeKind (n : Nat) : Nat := if n < 1024 then 1 else if n < 1536 then 2 else if n < 1664 then 3 else 4

/-- Two runs share an element. -/
def Area.meets (x y : Area) : Bool := decide (x.lo < y.lo + y.len) && decide (y.lo < x.lo + x.len)

/-- No two runs of a list meet. -/
def apart : List Area → Bool
  | [] => true
  | x :: xs => !(xs.any x.meets) && apart xs

/-- A run of IDs lies wholly in the strip range (R200). -/
def idsOk (lo n : Nat) : Bool := n == 0 || (decide (0x1000 ≤ lo) && decide (lo + n ≤ 0x1800))

/-- A strip in use keeps the rules of its kind and domain (R142–R144, R200), and long state needs the DRAM (R394). -/
def stripUseOk (s : State) (n : Nat) : Bool :=
  let d := stripDom s n
  stripKind s n == rangeKind n
    && (stripKind s n != 2 || (d == 1 && stripNsink s n == 0))
    && (stripKind s n != 1 || d != 2 || (decide (n < 512) && stripKind s (n + 512) == 0))
    && (descWord s n 5 == 0#32 || dramReady s)

/-- A descriptor keeps the rules between its fields (R518 step 6): its own number, its crew and its ID ranges (R146, R200), and in
use those of its kind. -/
def stripOk (s : State) (n : Nat) : Bool :=
  fld (descWord s n 0) 10 0 == n && stripCrew s n == stripCore s n / 8
    && idsOk (stripSink0 s n) (stripNsink s n) && idsOk (stripSrc0 s n) (stripNsrc s n)
    && (stripKind s n == 0 || stripUseOk s n)

/-- The ID ranges of different strips are apart (R200). -/
def idsApart (s : State) : Bool :=
  apart ((stripsAll.map fun n => Area.mk (stripSink0 s n) (stripNsink s n)).filter fun x => x.len != 0)
    && apart ((stripsAll.map fun n => Area.mk (stripSrc0 s n) (stripNsrc s n)).filter fun x => x.len != 0)

/-- Shipped-carry total in bytes (R159). -/
def carryTotal (s : State) : Nat := 4 * stripsAll.foldl (fun t n => t + carryLen s n) 0

/-- A slice's output block is named (R182). -/
def sliceNamed (s : State) (sl : Nat) : Bool := sliceOn s sl || sliceZout s sl

/-- The crew-memory areas that R236 keeps apart, in words: carry blocks with their fork areas, output blocks, the patch area
and the hold area. -/
def crewAreas (s : State) (c : Nat) : List Area :=
  ((crewStrips s c).map fun n =>
      Area.mk (carryBase s n) (carryLen s n * (if forkCap s (stripKind s n) = 0 then 1 else 2)))
    ++ (((List.range 16).filter fun sl => sliceNamed s sl && sliceCrew s sl == c).map fun sl => Area.mk (sliceBase s sl) 256)
    ++ [⟨areaBase s c, 2 * (areaIn s c + areaOut s c)⟩, ⟨524288 - holdLen s c, holdLen s c⟩]

/-- R236 for one crew, with its CREW section of `bytes` bytes. -/
def crewOk (s : State) (c bytes : Nat) : Bool :=
  let l := (crewAreas s c).filter fun x => x.len != 0
  decide (holdLen s c + 2 * (areaIn s c + areaOut s c) ≤ 524288) && apart l && (l.all fun x => decide (x.lo + x.len ≤ 524288))
    && decide (bytes ≤ 4 * (524288 - holdLen s c))

/-- A slice keeps R182 and R185. -/
def sliceOk (s : State) (sl : Nat) : Bool :=
  let strips := (List.range 32).map fun b => 1024 + 32 * sl + b
  if sliceNamed s sl then
    sliceCrew s sl / 4 == sl / 4 && strips.all fun n => stripKind s n == 0 || stripCrew s n == sliceCrew s sl
  else strips.all fun n => stripKind s n == 0

/-- The send plane keeps clear of the strip area and the firmware area (R195). -/
def planeOk (s : State) : Bool := decide (0x3F1E00 ≤ planeOf s) && decide (planeOf s + 0x18000 ≤ 0x780000)

/-- The initial routes that name a source. -/
structure InitRoute where
  sink : Nat
  src : Nat
  deriving DecidableEq, Repr

def initRoutes (im : Image) : List InitRoute := ((im.patch.zipIdx).map fun e => ⟨e.2, e.1⟩).filter fun r => r.src != silence

/-- The initial routes keep R205 (R226), bridge channels included. -/
def routesOk (s : State) (im : Image) : Bool :=
  let rs := initRoutes im
  (rs.all fun r => routeFieldsOk s r.sink r.src 0 0 && routeDomOk s r.src r.sink)
    && decide ((rs.flatMap fun r => routeKeys s r.src r.sink).dedup.length ≤ 256)

/-- The rules between fields and sections (R518 step 6), on the state of `imageTry`. -/
def relationsOk (f : List Byte) (s : State) : Bool :=
  let im := imageOf f
  ((List.range 16).all fun c => crewOk s c (imgSect f 3 c).length)
    && (stripsAll.all (stripOk s)) && idsApart s && decide (carryTotal s ≤ 262144)
    && planeOk s && ((List.range 16).all (sliceOk s)) && routesOk s im && im.carry == carryTotal s

/-- A division's worst case at 1.0 GHz passes 80,000 cycles (R171). -/
def tooSlow (im : Image) : Bool := (List.range 4).any fun d => decide (80000 < im.cycles[4 * d + 3]?.getD 0)

/-- REASON of the refusal of an image container, 0 for none (R171, R518 steps 2 to 7). -/
def imageReason (f : List Byte) (s : State) : Nat :=
  let l := imgSects f
  let family := pbyte f 6 == 1
  if pfield f 0 4 != 0x4D495445 || pfield f 4 2 != 1 || decide (1 < pbyte f 6) || pbyte f 7 != 0
      || !(((f.drop 24).take 36).all (· == 0#8)) || pfield f 12 4 != f.length || decide (f.length < 64) then 1
  else if (crc32 (f.take 60)).toNat != pfield f 60 4 then 2
  else if s.eng.fam.isSome && s.eng.fam != some family then 3
  else if decide (f.length < 64 + 16 * imgNsect f) || !(l.all (sectOk f)) || !sectsOk l then 4
  else if l.any fun x => (crc32 (sectBytes f x)).toNat != x.crc then 2
  else if !contentsOk f then 4
  else if !relationsOk f (imageTry f s) then 5
  else if tooSlow (imageOf f) then 6
  else 0

/-- Targets of a slice in local order (R175, R195). -/
def sliceTargets (m : List Byte) (sl : Nat) : List Word :=
  (List.range 32).flatMap fun r =>
    let b := 32 * sl + r
    sWords 1024 (m.drop (128 + 4096 * b)) ++ sWords 128 (m.drop (2097280 + 512 * b))

/-- Matrix memory of a slice at a load (R195): CUR, X and Y hold the targets, SRCMAP its slots, the rest is clear. -/
def loadSlice (m : List Byte) (sl : Nat) (s : State) : State :=
  let t := sliceTargets m sl
  let s := writeWords (tgtAddr sl true 0) t (writeWords (tgtAddr sl false 0) t (writeWords (curAddr sl 0) t s))
  writeBytes (srcmapAddr sl 0) ((m.drop (2359424 + 8192 * sl)).take 8192) s

/-- The memories an image fills (R169, R195): a unit without a section holds zeros. -/
def loadMemories (f : List Byte) (s : State) : State :=
  let s := zeroWhere (fun a => decide (matrixBase ≤ a) && decide (a < geodeBase)) s
  let s := (List.range 128).foldl (fun s n =>
    writeBytes (dataAddr n 0) (imgSect f 2 n) (writeBytes (progAddr n 0) (imgSect f 1 n) s)) s
  let s := (List.range 16).foldl (fun s c => writeBytes (crewAddr c 0) (imgSect f 3 c) s) s
  let s := writeBytes (centralAddr 0x3C0000) (imgSect f 6 0) s
  let s := writeBytes (centralAddr 0) (imgSect f 7 0) s
  (List.range 16).foldl (fun s sl => loadSlice (imgSect f 8 0) sl s) s

/-- The sink table of a PATCH section: every sink SETTLED on its source (R225, R30). -/
def initSinks (im : Image) : Tab Sink :=
  (initRoutes im).foldl (fun t r => tset {} t r.sink { src := r.src, pres := false }) []

/-- An initial route whose source is present at the load takes its channels then (R211). -/
def loadRoute (r : InitRoute) (s : State) : State :=
  if (srcDom s r.src).isSome then
    putSink r.sink { sinkAt s r.sink with pres := true, dom := srcDom s r.src } (brAlloc (brMissing s r.src r.sink) s)
  else s

/-- A good image is loaded (R171): memories, sink table, records and the family in force. -/
def imageTake (f : List Byte) (s : State) : State :=
  let im := imageOf f
  let s := loadMemories f s
  (initRoutes im).foldl (fun s r => loadRoute r s) { s with
    eng := { s.eng with img := some im, imgBad := false, imgReason := 0, fam := some (s.eng.fam.getD im.family) }
    patch := { s.patch with sinks := initSinks im, bridges := [], same := [] }
    mix := { s.mix with tsel := 0#16, tselWas := 0#16 } }

/-- IMAGE_BAD with its REASON (R171, R173): no image is loaded, so the engine stays in reset (log entry 32). -/
def imageRefuse (reason : Nat) (s : State) : State :=
  { s with eng := { s.eng with img := none, imgBad := true, imgReason := reason } }

/-- An engine envelope is verified and its image loaded (R171, R518): whether it is good. -/
def imageLoad (bs : List Byte) (s : State) : State × Bool :=
  let f := envOpen s.geode.root 2 max32 bs
  let why := match f with
    | none => 7
    | some f => imageReason f s
  let d := detect false (sysSrc 0 0) 0x320#12 .fault (wOf why) (why != 0) s
  if d.2 then (imageRefuse why d.1, false)
  else (imageTake (f.getD []) d.1, true)

/-- IMG_STAT and CARRY_BYTES (R172). -/
def imgStat (s : State) : Word :=
  flag s.eng.img.isSome 31 ||| flag s.eng.imgBad 30 ||| place s.eng.imgReason 16
    ||| (match s.eng.img with
      | some im => flag im.family 8 ||| wOf (im.format % 256)
      | none => 0#32)
def carryBytes (s : State) : Word := if s.eng.img.isSome then wOf (carryTotal s) else 0#32

/-- FORKCAP0 and FORKCAP1 (R249). -/
def forkcap (s : State) (i : Nat) : Word := place (forkCap s (if i = 0 then 2 else 4)) 16 ||| wOf (forkCap s (if i = 0 then 1 else 3))

end Sys2Proof.Machine
end

