-- ==== Sys2Proof/Machine/Calls.lean ====
section
/-! DEFINITION. The call unit (02): doorbell, acceptance, receipts, application under the write-unit limit, the meaning of every call
but TWIN_HANDOVER, and the conversion registers. -/

namespace Sys2Proof.Machine

/-- Source ID of the call unit (R68, R250): region 6. -/
def callSrc : BitVec 16 := sysSrc 0 0

def callStat (b : Nat) (s : State) : State := orReg Reg.CALL_STAT (flag true b) s

/-! ### Receipts (R62, R63) -/

/-- Entries of the two rings (R66). -/
def callSize (s : State) : Nat := 2 ^ fld (reg s Reg.CALL_RING_SIZE) 4 0
def rcptSize (s : State) : Nat := 2 ^ fld (reg s Reg.RCPT_RING_SIZE) 4 0

/-- The receipt ring is full (R63). -/
def rcptFull (s : State) : Bool := decide (rcptSize s ≤ (s.call.rcptWr - (reg s Reg.RCPT_RD).truncate 17).toNat)

/-- STATUS and REASON of receipts (R62). -/
abbrev stOnTime : Nat := 1
abbrev stLate : Nat := 2
abbrev stRejected : Nat := 3
abbrev stCancelled : Nat := 4

/-- The receipt's words (R62). -/
def rcptWords (r : Receipt) : List Word := [r.id, wOf (r.status + 65536 * r.reason), lo64 r.stroke, hi64 r.stroke]

/-- A receipt goes to the ring, or is dropped where the ring is full (R63). LATE_SEEN and REJ_SEEN are set for a dropped one too
(R66 says that a receipt was produced; DESIGN CHOICE, log entry 110). -/
def writeReceipt (r : Receipt) (s : State) : State :=
  let s := if r.status = stLate then callStat 3 s else s
  let s := if r.status = stRejected then callStat 4 s else s
  let o := detect true callSrc 0x311#12 .note 0#32 (rcptFull s) s
  if o.2 then callStat 1 { o.1 with call := { o.1.call with rcptLost := satInc max32 o.1.call.rcptLost } }
  else
    let s := o.1
    let a := centralAddr (fld (reg s Reg.RCPT_RING_BASE) 22 4 * 16 + s.call.rcptWr.toNat % rcptSize s * 16)
    let s := writeWords a (rcptWords r) { s with call := { s.call with rcptWr := s.call.rcptWr + 1 } }
    let c := reg s Reg.CALL_CTRL
    if bitAt c 1 || (bitAt c 2 && r.status != stOnTime) || r.irq then irqLatch 0 s else s

/-- FLAGS.IRQ of a call (R50). -/
def callIrq (c : CallRec) : Bool := c.flags.getLsbD 2

/-- A call that changes no covered value (R60). -/
def callQuiet (c : CallRec) : Bool := c.opcode == 0xB#16 || c.opcode == 0xC#16

/-- Receipt of a call applied at stroke `u` (R62); a LATE one lapses the guarantee (R60). -/
def receiptApplied (p : Pend) (u : BitVec 64) (s : State) : State :=
  let late := p.late || decide (p.due.toNat < u.toNat)
  let s := writeReceipt ⟨p.call.id, if late then stLate else stOnTime, 0, u, callIrq p.call⟩ s
  if late && !callQuiet p.call then lapseAt u detLate s else s

/-- Receipt of a call rejected or cancelled. -/
def receiptEnd (c : CallRec) (status reason : Nat) (u : BitVec 64) (s : State) : State :=
  writeReceipt ⟨c.id, status, reason, u, callIrq c⟩ s

/-- Receipts owed for calls that a reset discarded are written after it releases (R61), into the ring as configured then, whatever
CALL_CTRL.EN says (DESIGN CHOICE, log entry 110). -/
def receiptsOwed (s : State) : State :=
  s.call.owed.foldl (fun s r => writeReceipt r s) { s with call := { s.call with owed := [] } }

/-! ### The ring (R53, R54) -/

/-- Entries of the ring not yet accepted (R53): the producer index less CALL_RD. It is negative where the CALL_RD that a shipment
gave lies ahead of this unit's own producer index (R55); a distance above the ring's size is read so (log entry 111). -/
def callHeld (s : State) : Int :=
  let h := (s.call.prod - s.call.rd).toNat
  if h ≤ callSize s then h else (h : Int) - 131072

/-- CALL_DB (R53): moving back, or past what the ring holds, is ignored. -/
def callDbWrite (v : Word) (s : State) : State :=
  let new : BitVec 17 := v.truncate 17
  let bad := decide ((callSize s : Int) < callHeld s + (new - s.call.prod).toNat)
  let r := detect true callSrc 0x310#12 .note 0#32 (new != s.call.prod && bad) s
  if r.2 then callStat 2 r.1 else { r.1 with call := { r.1.call with prod := new } }

/-- CALL_DB (R53). -/
def execCallDb (_m : Master) (v : Word) (s : State) : Host.Outcome State Fault Refusal := done (callDbWrite v s)

/-- A ring of `n` bytes from `base` reaches past central memory (R66). -/
def ringPast (base n : Nat) : Bool := decide (0x800000 < base + n)

/-- CALL_CTRL written (R66): EN stays 0 while a ring would reach past byte 0x7F_FFFF. -/
def callEnableWrite (m : Master) (v : Word) (s : State) : State :=
  let bad := bitAt v 0 && (ringPast (fld (reg s Reg.CALL_RING_BASE) 22 5 * 32) (32 * callSize s)
    || ringPast (fld (reg s Reg.RCPT_RING_BASE) 22 4 * 16) (16 * rcptSize s))
  let v := v &&& 7#32
  if bad then progError m Reg.CALL_CTRL (setReg Reg.CALL_CTRL (v &&& 6#32) s) else setReg Reg.CALL_CTRL v s

/-- CALL_ENABLE (R66). -/
def execCallEnable (m : Master) (v : Word) (s : State) : Host.Outcome State Fault Refusal := done (callEnableWrite m v s)

/-- A call record from its eight words (R50). -/
def callOf (ws : List Word) : CallRec :=
  { target := BitVec.ofNat 64 (wfield ws 0 8), opcode := BitVec.ofNat 16 (wfield ws 8 2), flags := BitVec.ofNat 16 (wfield ws 10 2)
    id := wOf (wfield ws 12 4), payload := (List.range 16).map fun i => BitVec.ofNat 8 (wbyte ws (16 + i)) }

/-- POLICY of a call: REJECT (R50). -/
def callRejects (s : State) (c : CallRec) : Bool :=
  let f := c.flags.toNat % 4
  f == 2 || (f == 0 && bitAt (actReg s Reg.CALL_CFG) 8)

/-- CALL_LEAD in force (R56). -/
def callLead (s : State) : Nat := fld (actReg s Reg.CALL_CFG) 6 0

/-- Bulk area that a payload points to (R52): address in central memory and length. -/
def bulkOf (c : CallRec) : Option (Nat × Nat) :=
  let p := c.payload
  if c.opcode = 1#16 ∧ 3 ≤ pbyte p 3 then some (pfield p 8 4, 4 * pbyte p 3)
  else if c.opcode = 2#16 ∧ pfield p 2 2 = 0 then some (pfield p 4 4, 240)
  else if c.opcode = 6#16 then some (pfield p 8 4, 272)
  else none

/-- The payload breaks R51, R150, R157, R182, R205 or R231; `bulk` holds the words of its bulk area. -/
def payloadBad (s : State) (c : CallRec) (bulk : List Word) : Bool :=
  let p := c.payload
  let ptr := match bulkOf c with
    | some b => !ptrOk b.1 b.2
    | none => false
  let strip := pfield p 0 2
  ptr || match c.opcode.toNat with
  | 1 =>
    let n := pbyte p 3
    decide (1920 ≤ strip) || n == 0 || decide (256 < pbyte p 2 + n) || stripKind s strip == 0
      || (if n ≤ 2 then !pzero p (4 + 4 * n) else pfield p 4 4 != 0 || !pzero p 12)
  | 2 =>
    let n := pfield p 2 2
    (if n = 0 then strip != 0 || !pzero p 8 else decide (1920 < strip + n) || !pzero p 4)
  | 3 => routeBad s strip ⟨pfield p 2 2, pbyte p 4, pbyte p 5⟩ || !pzero p 6
  | 4 => decide (xpCount ≤ pfield p 0 4) || !sliceOn s (xpSlice (pfield p 0 4)) || !pzero p 8
  | 5 => maskDisabled s (BitVec.ofNat 16 strip) || !pzero p 2
  | 6 => pbyte p 7 != 0 || !pzero p 12 || decide (0x800000 < pfield p 8 4 + 272 + 8 * wfield bulk 8 2)
      || sceneBad s (pfield p 0 4) (pfield p 4 2) (pbyte p 6) bulk
  | 7 => !pzero p 4
  | 8 => decide (1920 ≤ strip) || stripKind s strip == 0 || decide (1 < pbyte p 2) || !pzero p 3
  | 9 => decide (48 ≤ pbyte p 0) || pfield p 1 3 != 0 || !pzero p 8
  | 10 => decide (48 ≤ pbyte p 0) || decide (1 < pbyte p 1) || pbyte p 2 == 0 || decide (64 < pbyte p 2) || !pzero p 3
  | 12 => decide (1 < pbyte p 0) || !pzero p 1
  | _ => false

/-- Reason of a rejection at acceptance (R50, R51, R57), 0 for none. Where several hold, the first of BAD_FLAGS, BAD_OPCODE,
BAD_PAYLOAD, BAD_TARGET and LATE is given (DESIGN CHOICE, log entry 110). -/
def rejectReason (s : State) (c : CallRec) (bulk : List Word) : Nat :=
  if 8 ≤ c.flags.toNat ∨ c.flags.toNat % 4 = 3 then 3
  else if c.opcode.toNat = 0 ∨ 12 < c.opcode.toNat then 2
  else if payloadBad s c bulk then 4
  else if s.eng.stroke.toNat + 2147483648 < c.target.toNat then 5
  else 0

/-- Strips that a SWAP_BANK names (R51, R151). -/
def swapStrips (c : CallRec) (bulk : List Word) : List Nat :=
  let n := pfield c.payload 2 2
  if n = 0 then (List.range 1920).filter fun i => wbit bulk 0 i else (List.range n).map fun i => pfield c.payload 0 2 + i

/-- What an acceptance arms (R31, R52, R192, R231). -/
def armsOf (s : State) (c : CallRec) (bulk : List Word) : List Area :=
  let b := match bulkOf c with
    | some b => [Area.mk (centralAddr b.1) (if c.opcode = 6#16 then 272 + 8 * wfield bulk 8 2 else b.2)]
    | none => []
  let slices (m : BitVec 16) : List Area := ((List.range 16).filter fun sl => (sliceMask m).getLsbD sl).map (shadowArr s)
  b ++ match c.opcode.toNat with
  | 2 => (usedOf s (swapStrips c bulk)).map (shadowBank s)
  | 5 => slices (BitVec.ofNat 16 (pfield c.payload 0 2))
  | 6 =>
    let d := sceneOf bulk
    (usedOf s d.strips).map (shadowBank s) ++ if d.xp then slices d.xpMask else []
  | _ => []

/-- Words of a call's bulk area as the call unit reads them, the whole of a scene descriptor with its routes. -/
def readBulk (c : CallRec) (s : State) : State × List Word :=
  match bulkOf c with
  | none => (s, [])
  | some b =>
    if !ptrOk b.1 b.2 then (s, []) else
    let r := readSeq (centralAddr b.1) (b.2 / 4) s
    if c.opcode = 6#16 then
      let n := Nat.min 256 (wfield r.2 8 2)
      if b.1 + 272 + 8 * n ≤ 0x800000 then
        let q := readSeq (centralAddr (b.1 + 272)) (2 * n) r.1
        (q.1, r.2 ++ q.2)
      else r
    else r

/-- The stroke at which an accepted call is first applied, and whether it is late (R56, R57, R234). -/
def dueOf (s : State) (c : CallRec) : Nat × Bool :=
  let floor := s.eng.stroke.toNat + callLead s
  let first := c.target.toNat - (if c.opcode = 6#16 then pfield c.payload 4 2 else 0)
  if floor ≤ first then (first, false) else (floor, true)

/-- The call unit takes the call at CALL_RD (R53): it is rejected with a receipt, or armed and placed in the pending table. -/
def acceptCall (c : CallRec) (s : State) : State :=
  let b := readBulk c s
  let s := b.1
  let a := s.eng.stroke
  let why := rejectReason s c b.2
  if why ≠ 0 then receiptEnd c stRejected why a s
  else
    let d := dueOf s c
    if d.2 && callRejects s c then receiptEnd c stRejected 1 a s
    else
      let p : Pend := { call := c, acc := a, due := BitVec.ofNat 64 d.1, late := d.2, rej := callRejects s c, arms := armsOf s c b.2 }
      { s with call := { s.call with pend := s.call.pend ++ [p] } }

/-- CALL_ACCEPT (R53–R55): while enabled, out of SHADOW, at most 2,048 calls a stroke, paused by a full pending table. Between the
release and the first CATCH a call is accepted in stroke k0 (DESIGN CHOICE, log entry 110). -/
def callAccept (s : State) : State :=
  if !bitAt (reg s Reg.CALL_CTRL) 0 || s.sys.mode == .shadow || engHeld s || decide (callHeld s ≤ 0) || decide (2048 ≤ s.call.accepted)
  then s
  else
    let f := detect true callSrc 0x312#12 .note 0#32 (decide (16384 ≤ s.call.pend.length)) s
    if f.2 then callStat 0 f.1
    else
      let s := f.1
      let slot := s.call.rd.toNat % callSize s
      let r := readSeq (centralAddr (fld (reg s Reg.CALL_RING_BASE) 22 5 * 32 + slot * 32)) 8 s
      let s := r.1
      acceptCall (callOf r.2) { s with call := { s.call with rd := s.call.rd + 1, accepted := s.call.accepted + 1 } }

/-- CALL_ACCEPT (R53). -/
def execCallAccept (s : State) : Host.Outcome State Fault Refusal := done (callAccept s)

/-! ### Application (R58, R59) -/

/-- Write units of a call (R51). -/
def callCost (c : CallRec) : Nat := if c.opcode = 1#16 then pbyte c.payload 3 else if callQuiet c then 0 else 1

/-- The call that is next to be applied for the coming stroke (R58). -/
def nextDue (s : State) : Option Pend :=
  if callsOpen s then s.call.pend.find? fun p => decide (p.due.toNat ≤ (strokeDue s).toNat) else none

/-- Removes the first entry equal to `p`. -/
def dropPend (p : Pend) : List Pend → List Pend
  | [] => []
  | q :: qs => if q = p then qs else q :: dropPend p qs

/-- The armed recall belongs to this call. -/
def isArmed (s : State) (p : Pend) : Bool := p.armed && s.scene.arm.isSome

/-- Calls that exceed the write units move to T + 1, ahead of those targeted there; under REJECT they are rejected (R59). The strips that
a moved recall forks run one stroke more of pre-roll, by the fork words of R237. -/
def moveRest (s : State) : State :=
  let u := (strokeDue s).toNat
  let due := s.call.pend.filter fun p => decide (p.due.toNat ≤ u)
  let rest := s.call.pend.filter fun p => decide (u < p.due.toNat)
  let keep := (due.filter fun p => !p.rej).map fun p => { p with due := BitVec.ofNat 64 (u + 1), late := true }
  let out := due.filter fun p => p.rej
  let s := { s with call := { s.call with pend := keep ++ rest } }
  let s := out.foldl (fun s p => receiptEnd p.call stRejected 1 (BitVec.ofNat 64 u) (if p.armed then recallDrop s else s)) s
  match s.scene.arm with
  | some r =>
    if keep.any (·.armed) then
      let r := { r with t := u + 1, hand := u + r.xf }
      r.forked.foldl (fun s n => putFork n (forkWord r u) s) { s with scene := { s.scene with arm := some r } }
    else s
  | none => s

/-- How an application ended: applied with its receipt, rejected with a reason, or kept in the table for its second
application (R232). -/
inductive Applied where
  | done
  | reject (reason : Nat)
  | keep (p : Pend)
  deriving DecidableEq, Repr

/-- The next due call, if its opcode is `op` (and for a SCENE_ARM its application `armed`), is applied by `act` (R58, R59, R63). -/
def applyCall (op : BitVec 16) (armed : Bool) (act : Pend → State → State × Applied) (s : State) : State :=
  match nextDue s with
  | none => s
  | some p =>
    if p.call.opcode ≠ op ∨ p.armed ≠ armed then s
    else
      let s := alignSwap s
      if 4096 < s.call.wu + callCost p.call then moveRest s
      else
        let u := strokeDue s
        let s := { s with call := { s.call with wu := s.call.wu + callCost p.call } }
        let r := act p s
        match r.2 with
        | .done => receiptApplied p u { r.1 with call := { r.1.call with pend := dropPend p r.1.call.pend } }
        | .reject w => receiptEnd p.call stRejected w u { r.1 with call := { r.1.call with pend := dropPend p r.1.call.pend } }
        | .keep q => { r.1 with call := { r.1.call with pend := r.1.call.pend.map fun x => if x = p then q else x } }

/-- Writes `ws` into the live bank of a strip from word `w` (R150). -/
def paramWrite (n w : Nat) (ws : List Word) (s : State) : State :=
  writeWords (centralAddr (n * 0x800 + (if stripLive s n then 0x400 else 0) + 4 * w)) ws s

/-- SET_PARAM at its application (R150). -/
def setParam (p : Pend) (s : State) : State × Applied :=
  let q := p.call.payload
  let n := pbyte q 3
  let r := if n ≤ 2 then (s, (List.range n).map fun i => wOf (pfield q (4 + 4 * i) 4)) else readBulk p.call s
  (paramWrite (pfield q 0 2) (pbyte q 2) r.2 r.1, .done)

/-- SET_PARAM (R150). -/
def execSetParam (s : State) : Host.Outcome State Fault Refusal := done (applyCall 1#16 false setParam s)

/-- SWAP_BANK at its application (R151). -/
def swapBank (p : Pend) (s : State) : State × Applied :=
  let r := readBulk p.call s
  ((swapStrips p.call r.2).foldl (fun s n => swapStrip n s) r.1, .done)

/-- SWAP_BANK (R151). -/
def execSwapBank (s : State) : Host.Outcome State Fault Refusal := done (applyCall 2#16 false swapBank s)

/-- ROUTE at its application (R205, R207). -/
def routeCall (p : Pend) (s : State) : State × Applied :=
  let q := p.call.payload
  let r := routeApply (pfield q 0 2) ⟨pfield q 2 2, pbyte q 4, pbyte q 5⟩ s
  (r.1, if r.2 then .done else .reject 4)

/-- ROUTE (R207). -/
def execRoute (s : State) : Host.Outcome State Fault Refusal := done (applyCall 3#16 false routeCall s)

/-- XP_GAIN (R189). -/
def execXpGain (s : State) : Host.Outcome State Fault Refusal :=
  done (applyCall 4#16 false (fun p s => (xpGain (pfield p.call.payload 0 4) (wOf (pfield p.call.payload 4 4)) s, .done)) s)

/-- XP_SWAP (R190). -/
def execXpSwap (s : State) : Host.Outcome State Fault Refusal :=
  done (applyCall 5#16 false (fun p s => (xpSwap (BitVec.ofNat 16 (pfield p.call.payload 0 2)) s, .done)) s)

/-- MUTE at its application (R157). -/
def muteCall (p : Pend) (s : State) : State × Applied :=
  (setDescBit (pfield p.call.payload 0 2) 25 (pbyte p.call.payload 2 == 1) s, .done)

/-- MUTE (R157). -/
def execMute (s : State) : Host.Outcome State Fault Refusal := done (applyCall 8#16 false muteCall s)

/-- PORT_MASK (R271). -/
def execPortMask (s : State) : Host.Outcome State Fault Refusal :=
  done (applyCall 9#16 false (fun p s => (portMask (pbyte p.call.payload 0) (wOf (pfield p.call.payload 4 4)) s, .done)) s)

/-- PORT_RAMP (R270). -/
def execPortRamp (s : State) : Host.Outcome State Fault Refusal :=
  done (applyCall 10#16 false (fun p s =>
    (portRamp (pbyte p.call.payload 0) (pbyte p.call.payload 1 == 1) (pbyte p.call.payload 2) s, .done)) s)

/-- MARK (R62). -/
def execMark (s : State) : Host.Outcome State Fault Refusal := done (applyCall 11#16 false (fun _ s => (s, .done)) s)

/-! ### Scene calls (R232–R246) -/

/-- Cancels the armed recall and its SCENE_ARM (R245, R246). -/
def cancelPend (reason : Nat) (u : BitVec 64) (p : Pend) (s : State) : State :=
  let s := if p.armed then recallDrop s else s
  receiptEnd p.call stCancelled reason u { s with call := { s.call with pend := dropPend p s.call.pend } }

/-- SCENE_ARM at its application at F (R235, R240, R246): an armed recall is superseded, the forks are chosen and their words
written. -/
def sceneArm (p : Pend) (s : State) : State × Applied :=
  let u := strokeDue s
  let f := u.toNat
  let s := match s.call.pend.find? fun q => isArmed s q with
    | some q =>
      let s := sceneEvt 2 (detect false callSrc 0x351#12 .note 0#32 true s).1
      cancelPend 0x10 u q s
    | none => s
  let q := p.call.payload
  let b := readBulk p.call s
  let s := b.1
  let d := sceneOf b.2
  let t := Nat.max p.call.target.toNat f
  let x := pbyte q 6
  let fk := forkChoice s d
  let r : Recall := {
    id := p.call.id, scene := wOf (pfield q 0 4), t := t, f := f, hand := t + x - 1, xf := x, peff := t - f
    short := decide (t - f < pfield q 4 2), desc := { d with strips := usedOf s d.strips }, forked := if t = f ∧ x = 0 then [] else fk }
  let s := r.forked.foldl (fun s n => putFork n (forkWord r f) (setDescBit n 24 true s)) s
  let s := { s with scene := { s.scene with
    arm := some r, view := some r, nFork := r.forked.length, nDirect := r.desc.strips.length - r.forked.length } }
  (s, .keep { p with armed := true, due := BitVec.ofNat 64 t, late := p.late || decide (p.due.toNat < f) })

/-- SCENE_ARM (R240). -/
def execSceneArm (s : State) : Host.Outcome State Fault Refusal := done (applyCall 6#16 false sceneArm s)

/-- One strip at the recall stroke (R240, R244): LIVE toggles; a crossfade of an earlier recall ends by CUT. -/
def recallStrip (n : Nat) (s : State) : State :=
  if s.scene.fades.any fun q => q.forked.contains n then toggleLive n (fadeCut n s) else toggleLive n s

/-- One route of a recall (R242): a lack of bridge channels fails that route alone. -/
def recallRoute (e : Nat × RouteReq) (s : State) : State :=
  let bad := routeBad s e.1 e.2
  let r := routeApply e.1 e.2 s
  if !r.2 && !bad then sceneEvt 3 r.1 else r.1

/-- The armed recall at its application at T (R240, R242). -/
def sceneRecall (_p : Pend) (s : State) : State × Applied :=
  match s.scene.arm with
  | none => (s, .done)
  | some r =>
    let u := (strokeDue s).toNat
    let r := { r with t := u, hand := u + r.xf - 1, peff := u - r.f }
    let s := r.desc.strips.foldl (fun s n => recallStrip n s) s
    let s := r.forked.foldl (fun s n => putFork n (forkWord r u) s) s
    let s := { s with scene := { s.scene with
      arm := none, fades := s.scene.fades ++ [r], view := some r
      nFork := r.forked.length, nDirect := r.desc.strips.length - r.forked.length } }
    let s := r.desc.routes.foldl (fun s e => recallRoute e s) s
    let s := if r.desc.xp then
        (if r.desc.xpAlign then { s with scene := { s.scene with align := s.scene.align ++ [(r.desc.xpMask, u + 1)] } } else xpSwap r.desc.xpMask s)
      else s
    (s, .done)

/-- SCENE_RECALL (R242). -/
def execSceneRecall (s : State) : Host.Outcome State Fault Refusal := done (applyCall 6#16 true sceneRecall s)

/-- SCENE_CANCEL at its application (R245). -/
def sceneCancel (p : Pend) (s : State) : State × Applied :=
  let u := strokeDue s
  let scene := pfield p.call.payload 0 4
  let hit := s.call.pend.filter fun q =>
    q.call.opcode == 6#16 && (scene == 0xFFFFFFFF || pfield q.call.payload 0 4 == scene)
  if hit.isEmpty then (s, .reject 4)
  else (sceneEvt 1 (hit.foldl (fun s q => cancelPend 0x11 u q s) s), .done)

/-- SCENE_CANCEL (R245). -/
def execSceneCancel (s : State) : Host.Outcome State Fault Refusal := done (applyCall 7#16 false sceneCancel s)

/-! ### Reset and conversion (R61, R64) -/

/-- An engine-reach reset discards the pending calls (R61): their receipts are owed, with the last stroke before it. -/
def callsDiscard (s : State) : State :=
  { s with call := { s.call with
    pend := [], wu := 0, accepted := 0
    owed := s.call.owed ++ s.call.pend.map fun p => ⟨p.call.id, stRejected, 6, s.eng.stroke, callIrq p.call⟩ } }

/-- Time to stroke (R64). -/
def cvtStroke (rate : Nat) (ceil : Bool) (sec ns frac : Nat) : Nat :=
  let q := (ns * 65536 + frac) * rate
  sec * rate + q / Time.second + if ceil ∧ q % Time.second ≠ 0 then 1 else 0

/-- CVT_CTRL written (R64, R66): the conversion it starts on the master's own copies. -/
def cvtConvert (m : Master) (v : Word) (s : State) : State :=
  let v := v &&& 0x3FFFF#32
  let b := bank s m
  let rate := sps s
  if !bitAt v 17 then
    let k := BitVec.ofNat 64 (cvtStroke rate (bitAt v 16) (cat64 b.cvtSecHi b.cvtSecLo).toNat b.cvtNs.toNat (fld v 15 0))
    setBank m (fun b => { b with cvtCtrl := v, cvtStrLo := lo64 k, cvtStrHi := hi64 k }) s
  else if rate = 0 then
    let c := s.freeCtr
    let f (i : Nat) : Word := Config.cvtNoFamily (c + i)
    setBank m (fun b => { b with
      cvtCtrl := (v &&& 0x30000#32) ||| wOf (fld (f 3) 15 0), cvtSecLo := f 0, cvtSecHi := f 1, cvtNs := f 2 }) { s with freeCtr := c + 4 }
  else
    let k := (cat64 b.cvtStrHi b.cvtStrLo).toNat
    let sec := BitVec.ofNat 64 (k / rate)
    let u := k % rate * Time.second / rate
    setBank m (fun b => { b with
      cvtCtrl := (v &&& 0x30000#32) ||| wOf (u % 65536), cvtSecLo := lo64 sec, cvtSecHi := hi64 sec, cvtNs := wOf (u / 65536) }) s

/-- CVT_CONVERT (R64). -/
def execCvtConvert (m : Master) (v : Word) (s : State) : Host.Outcome State Fault Refusal := done (cvtConvert m v s)

end Sys2Proof.Machine
end

