-- ==== Sys2Proof/Machine/Dma.lean ====
section
/-! DEFINITION. Masters that are reset in mid-burst (R412, R413) and the DMA engine (R414–R422). -/

namespace Sys2Proof.Machine

/-! ### A master's reset (R412, R413) -/

/-- Master of a command that waits at a locked port (R410). -/
def waitMaster : Instr → Master
  | .fabricBurst b => b.master
  | .registerWrite m _ _ => m
  | .resultSnapshotRead m _ => m
  | _ => .host

/-- The completer ends the burst in progress: the beats not yet given are off, so `prog` is what the target sees. -/
def burstComplete (m : Master) (perform : Burst → State → State) (prog : Option Burst) (s : State) : State :=
  let run := prog.isSome
  let d := detect false (fabSrc m) 0x103#12 .note 0#32 run s
  let s := if d.2 then orReg Reg.FAB_STAT 8#32 d.1 else d.1
  match prog with
  | some b => perform { b with master := m, lock := false } s
  | none => s

/-- Reset of a master while the fabric runs (R412, R413, R482): its burst is completed, its lock freed, its requests that wait
are gone, its banked registers and snapshots return to reset. -/
def masterReset (m : Master) (perform : Burst → State → State) (prog : Option Burst) (s : State) : State :=
  let s := burstComplete m perform prog s
  let mine (x : Option Nat) := if x = some (mNum m) then none else x
  { s with
    fab := { s.fab with
      lock := vmap (fun _ x => mine x) s.fab.lock
      broken := vmap (fun _ x => mine x) s.fab.broken
      wait := s.fab.wait.filter fun i => waitMaster i != m }
    banks := vput s.banks (mNum m) {} }

/-- A completed burst of a master without a path to the register bridge. -/
def memPerform (b : Burst) (s : State) : State := (memBurst b s).1.s

/-! ### Descriptors (R414–R416) -/

def dmaSrc (c : Nat) : BitVec 16 := sysSrc 5 c
def dmaAt (s : State) (c : Nat) : DmaCh := vget {} s.dma.ch c
def putDma (c : Nat) (x : DmaCh) (s : State) : State := { s with dma := { s.dma with ch := vput s.dma.ch c x } }
def dmaIrq (c : Nat) (s : State) : State := orReg Reg.DMA_IRQ (flag true c) s

/-- A descriptor from its eight words (R414); `bad` marks a reserved bit or MODE 3. -/
def descOf (ws : List Word) : Desc :=
  let w (i : Nat) : Nat := (ws[i]?.getD 0#32).toNat
  let ctrl := ws[5]?.getD 0#32
  { src := w 0 + w 1 % 16 * 4294967296, dst := w 2 + w 3 % 16 * 4294967296, len := w 4 % 268435456
    circ := bitAt ctrl 31, irq := bitAt ctrl 30, mode := fld ctrl 29 28, sx := bitAt ctrl 27
    next := w 6 / 32 * 32 + w 7 % 16 * 4294967296
    bad := decide (16 ≤ w 1) || decide (16 ≤ w 3) || decide (268435456 ≤ w 4) || fld ctrl 26 0 != 0 || fld ctrl 29 28 == 3
      || w 6 % 32 != 0 || decide (16 ≤ w 7) }

/-- A descriptor that starts (R416). -/
def descAligned (cur : Nat) (d : Desc) : Bool :=
  cur % 32 == 0 && d.len != 0 &&
    (if d.mode = 0 then d.src % 16 == 0 && d.dst % 16 == 0 && d.len % 16 == 0
     else if d.mode = 1 then d.src % 48 == 0 && d.dst % 16 == 0 && d.len % 48 == 0
     else d.src % 16 == 0 && d.dst % 48 == 0 && d.len % 64 == 0)

/-- A channel stops with a code and a residue; its interrupt is raised where the rule says so. -/
def dmaStop (c code resid : Nat) (irq : Bool) (s : State) : State :=
  let s := putDma c { dmaAt s c with busy := false, aborting := false, code, resid } s
  if irq then dmaIrq c s else s

/-! ### Bursts and data (R415, R417) -/

/-- A run of bytes. -/
structure Piece where
  a : Nat
  n : Nat

/-- The bursts of a run (R417, R477): cut at every 256-byte boundary, and so at every 4 KB one. -/
def pieces : Nat → Nat → Nat → List Piece
  | 0, _, _ => []
  | f + 1, a, n =>
    if n = 0 then []
    else
      let k := Nat.min n (256 - a % 256)
      ⟨a, k⟩ :: pieces f (a + k) (n - k)
def cut (a n : Nat) : List Piece := pieces (n / 256 + 2) a n

/-- Reads a run as a master: the bytes, and whether every burst passed. -/
def readRun (m : Master) : List Piece → State → State × List Byte × Bool
  | [], s => (s, [], true)
  | p :: ps, s =>
    let b := readBurst m p.a p.n
    let r := (memBurst b s).1
    let q := readRun m ps r.s
    (q.1, ((answerBytes b r).drop (p.a % 16)).take p.n ++ q.2.1, r.resp == rPass && q.2.2)

/-- Writes a run as a master, each burst where `go` lets it. -/
def writeRun (m : Master) (go : Nat → Bool) : List Piece → List Byte → State → State × Bool
  | [], _, s => (s, true)
  | p :: ps, bs, s =>
    let r := if go ps.length then (memBurst (writeBurst m p.a ((bs.take p.n).map some)) s).1 else ⟨s, rPass, []⟩
    let q := writeRun m go ps (bs.drop p.n) r.s
    (q.1, r.resp == rPass && q.2)

/-- Destination bytes of source bytes (R415). -/
def dmaData (d : Desc) (bs : List Byte) : List Byte :=
  if d.mode = 0 then bs
  else if d.mode = 1 then
    (chunks 3 bs).flatMap fun c =>
      if d.sx then c ++ (if (c.getD 2 0#8).msb then [255#8] else [0#8]) else 0#8 :: c
  else (chunks 4 bs).flatMap fun c => if d.sx then c.take 3 else c.drop 1

/-- Source and destination bytes of `n` LEN bytes. -/
def dmaDstLen (d : Desc) (n : Nat) : Nat := if d.mode = 0 then n else if d.mode = 1 then n / 48 * 64 else n / 64 * 48

/-- LEN bytes move in whole groups (R418). -/
def dmaGroup (d : Desc) (n : Nat) : Nat :=
  let n := Nat.min n d.len
  if d.mode = 0 then n / 16 * 16 else if d.mode = 1 then n / 48 * 48 else n / 64 * 64

/-- The first `n` LEN bytes of a descriptor are moved (R417): false where a burst does not pass. -/
def dmaMove (d : Desc) (n : Nat) (go : Nat → Bool) (s : State) : State × Bool :=
  let r := readRun .dma (cut d.src n) s
  if r.2.2 then writeRun .dma go (cut d.dst (dmaDstLen d n)) (dmaData d r.2.1) r.1 else (r.1, false)

/-! ### The commands -/

/-- START (R417). -/
def dmaStart (m : Master) (s : State) : State :=
  let c := (bank s m).dma
  let x := dmaAt s c
  if x.busy then s
  else if bitAt (reg s Reg.DMA_GSTAT) 16 then progError m Reg.DMA_CTRL s
  else
    let head := (regAt s Reg.DMA_HEAD_LO c).toNat / 32 * 32 + fld (regAt s Reg.DMA_HEAD_HI c) 3 0 * 4294967296
    putDma c { busy := true, code := 0, resid := 0, cur := head, desc := none, circ := false, fetched := 0, done := 0 } s

/-- ABORT (R419). -/
def dmaAbort (m : Master) (s : State) : State :=
  let c := (bank s m).dma
  let x := dmaAt s c
  if x.busy then putDma c { x with aborting := true } s else s

/-- A write to DMA_CTRL (R419): ABORT acts where both are written. -/
def dmaCtrlWrite (m : Master) (v : Word) (s : State) : State :=
  if bitAt v 1 then dmaAbort m s else if bitAt v 0 then dmaStart m s else s

def execDmaStart (m : Master) (s : State) : Host.Outcome State Fault Refusal := done (dmaStart m s)
def execDmaAbort (m : Master) (s : State) : Host.Outcome State Fault Refusal := done (dmaAbort m s)

/-- DMA_ABORTED (R419): the bytes issued are written, the rest is the residue. -/
def dmaAborted (c issued : Nat) (s : State) : State :=
  let x := dmaAt s c
  match x.desc with
  | some d =>
    if x.busy && x.aborting then
      let n := dmaGroup d issued
      let r := dmaMove d n (fun _ => true) s
      if r.2 then dmaStop c 2 (d.len - n) true r.1 else s
    else s
  | none => s
def execDmaAborted (ch : Fin 16) (issued : Nat) (s : State) : Host.Outcome State Fault Refusal := done (dmaAborted ch.val issued s)

/-- Whether burst `k` from the end of a channel's issued bursts is written (R418, R421): the last two of a halted channel are
undetermined, and the last alone of the channel whose last write failed, unless its target refused it by its own rules. -/
def haltGo (last : Bool) (resp ctr k : Nat) : Bool :=
  if last then decide (1 ≤ k) || resp == 1 || Config.dmaLanded ctr
  else decide (2 ≤ k) || Config.dmaLanded (ctr + k)

/-- A running channel stops on an error (R420, R421): `one` is the channel that ends with LAST_BEAT_ERR, `issued` the LEN bytes of
each whose write bursts had been issued. -/
def dmaHaltCh (one : Option Nat) (resp : Nat) (issued : Nat → Nat) (c : Nat) (s : State) : State :=
  let x := dmaAt s c
  if !x.busy then s
  else
    match x.desc with
    | none => dmaStop c 5 0 true s
    | some d =>
      let last := one == some c
      let n := if last then d.len else dmaGroup d (issued c)
      let r := (dmaMove d n (haltGo last resp s.freeCtr) s).1
      let s := { r with freeCtr := s.freeCtr + 2 }
      if last then dmaStop c 6 0 true s else dmaStop c 5 (d.len - n) true s

/-- What the failing burst itself does at its target (R406): an access without a target, or one that its target refuses; a last
write is `dmaHaltCh`'s own. -/
def dmaFailed (a resp : Nat) (last : Bool) (s : State) : State :=
  if resp = 2 then (decodeBurst { readBurst .dma a 16 with write := last } s).1
  else if resp = 1 && !last then (memBurst (readBurst .dma a 16) s).1.s
  else s

/-- DMA_HALT (R420, R421): address and response, HALT, the records and the interrupts. -/
def dmaHaltEvent (c a resp : Nat) (lastWrite : Bool) (issued : Nat → Nat) (s : State) : State :=
  if resp = 0 || !((List.range 16).any fun i => (dmaAt s i).busy) then s
  else
    let last := lastWrite && (dmaAt s c).busy && (dmaAt s c).desc.isSome
    let s := dmaFailed a resp last s
    let s := if last then (detect false (dmaSrc c) 0xB03#12 .degrade 0#32 true s).1 else s
    let s := (detect false (dmaSrc 0) 0xB00#12 .degrade 0#32 true s).1
    let s := (List.range 16).foldl (fun s i => dmaHaltCh (if last then some c else none) resp issued i s) s
    orReg Reg.DMA_GSTAT 0x10000#32 { s with dma := { s.dma with errAddr := a, errResp := resp } }
def execDmaHalt (ch : Fin 16) (addr : BitVec 36) (resp : BitVec 2) (lastWrite : Bool) (issued : Vector Nat 16) (s : State) :
    Host.Outcome State Fault Refusal :=
  done (dmaHaltEvent ch.val addr.toNat resp.toNat lastWrite (fun c => vget 0 issued c) s)

/-- DMA_DESC_FETCHED (R416, R419): the descriptor is read and checked; a fetch that fails is DMA_HALT's (R420). -/
def dmaDescFetched (c : Nat) (s : State) : State :=
  let x := dmaAt s c
  if !x.busy || x.desc.isSome then s
  else
    let b := readBurst .dma x.cur 32
    let r := (memBurst b s).1
    if r.resp != rPass then s
    else
      let d := descOf ((List.range 8).map fun i => ((r.data.find? fun e => e.1 == x.cur + 4 * i).map (·.2)).getD 0#32)
      let head := x.fetched == 0
      let s := putDma c { x with desc := some d, fetched := x.fetched + 1, circ := if head then d.circ else x.circ } r.s
      if x.aborting then s
      else if d.bad then dmaStop c 4 d.len false s
      else
        let q := detect false (dmaSrc c) 0xB01#12 .note 0#32 (!descAligned x.cur d) s
        if q.2 then dmaStop c 3 d.len true q.1 else q.1
def execDmaDescFetched (ch : Fin 16) (s : State) : Host.Outcome State Fault Refusal := done (dmaDescFetched ch.val s)

/-- The chain goes on to NEXT (R417, R422). -/
def dmaNext (c : Nat) (d : Desc) (s : State) : State :=
  let x := dmaAt s c
  if d.next = 0 then dmaStop c 1 0 false s
  else
    let loop := !x.circ && (d.next == x.cur || decide ((reg s Reg.DMA_CHAIN_MAX).toNat ≤ x.fetched))
    let q := detect false (dmaSrc c) 0xB02#12 .note 0#32 loop s
    if q.2 then dmaStop c 7 0 true q.1 else putDma c { x with cur := d.next, desc := none } q.1

/-- DMA_DESC_DONE (R417): the descriptor's data is moved; an error on the way is DMA_HALT's. -/
def dmaDescDone (c : Nat) (s : State) : State :=
  let x := dmaAt s c
  match x.desc with
  | none => s
  | some d =>
    if !x.busy || x.aborting then s
    else
      let r := dmaMove d d.len (fun _ => true) s
      if !r.2 then s
      else
        let s := putDma c { x with done := (x.done + 1) % 4294967296 } r.1
        dmaNext c d (if d.irq then dmaIrq c s else s)
def execDmaDescDone (ch : Fin 16) (s : State) : Host.Outcome State Fault Refusal := done (dmaDescDone ch.val s)

/-- DMA_GSTAT and DMA_STAT (R424). -/
def dmaGstat (s : State) : Word :=
  (reg s Reg.DMA_GSTAT &&& 0x10000#32) ||| (List.range 16).foldl (fun w c => w ||| flag (dmaAt s c).busy c) 0#32
def dmaStat (x : DmaCh) : Word := flag x.busy 31 ||| wOf x.code

end Sys2Proof.Machine
end

