-- ==== Sys2Proof/Machine/Refs.lean ====
section
/-! DEFINITION. References, the DPLL and the clock outputs (11): quality levels, qualification, selection, hitless switching,
holdover and the edges of the clock outputs. -/

namespace Sys2Proof.Machine

/-- Reference `r` (R315). -/
def refAt (s : State) (r : Nat) : RefSt := vget {} s.ref.refs r
def putRef (r : Nat) (x : RefSt) (s : State) : State := { s with ref := { s.ref with refs := vput s.ref.refs r x } }

/-- PTP instance `i` (R291). -/
def ptpAt (s : State) (i : Nat) : Ptp := vget {} s.net.ptp i
def putPtp (i : Nat) (x : Ptp) (s : State) : State := { s with net := { s.net with ptp := vput s.net.ptp i x } }

/-- REF_CFG of a reference and its fields (R335). -/
def refCfgOf (s : State) (r : Nat) : Word := regAt s Reg.REF_CFG r
def refType (c : Word) : Nat := fld c 26 25
def refWdom (c : Word) : Nat := fld c 24 23
def refPrio (s : State) (r : Nat) : Nat := fld (refCfgOf s r) 30 28

/-- A configuration enables its reference: TYPE 3 and WDOM 3 act as EN = 0 on a wired one. -/
def refOn (r : Nat) (c : Word) : Bool := bitAt c 31 && (decide (r < 2) || (refType c != 3 && refWdom c != 3))

/-- Source IDs of the references, and of the selector, DPLL and oscillator (R336). -/
def refSrc (r : Nat) : BitVec 16 := srcId 1 5 4 r
def selSrc : BitVec 16 := srcId 1 5 4 15

/-- History bits (R328). -/
def refHist (b : Nat) (s : State) : State := orReg Reg.REF_HIST (flag true b) s

/-- QL of a clockClass through REF_CCMAP (R318). -/
def ccQl (s : State) (cls : Nat) : Nat :=
  match ((List.range 16).map fun i => reg s (Reg.REF_CCMAP + 4 * i)).find? fun e => bitAt e 31 && fld e 15 8 == cls with
  | some e => fld e 3 0
  | none => 3

/-- The QL of a reference (R318, R319). -/
def qlNow (s : State) (r : Nat) : Nat :=
  if r < 2 then (if (ptpAt s r).st = 3 then ccQl s (fld (ptpAt s r).gm 31 24) else 0)
  else if bitAt (refCfgOf s r) 27 then (refAt s r).wql else fld (refCfgOf s r) 3 0

/-- FOFS as an integer, Q24.8 ppb. -/
def fofsOf (s : State) (r : Nat) : Int := (refAt s r).fofs.toInt

/-- Limits of REF_LIMIT in Q24.8 ppb: units of 0.01 ppm are 10 ppb (R335). -/
def acceptLim (s : State) : Int := fld (reg s Reg.REF_LIMIT) 15 0 * 2560
def agreeLim (s : State) : Int := fld (reg s Reg.REF_LIMIT) 31 16 * 2560

/-- REF_CTRL.MODE and FREF. -/
def refMode (s : State) : Nat := fld (reg s Reg.REF_CTRL) 31 30
def refForced (s : State) : Nat := fld (reg s Reg.REF_CTRL) 29 28

/-! ### Selection (R322–R324) -/

/-- `a` outranks `b` (R317). -/
def outranks (s : State) (a b : Nat) : Bool :=
  decide ((refAt s b).ql < (refAt s a).ql)
    || ((refAt s a).ql == (refAt s b).ql && decide (refPrio s a < refPrio s b))

/-- The candidates (R322, R323). -/
def refCands (s : State) : List Nat :=
  (List.range 4).filter fun r => (refAt s r).st == 3 && decide (0 < (refAt s r).ql) && !(s.net.isSplit && decide (r < 2))

/-- Two references agree in frequency. -/
def agrees (s : State) (a b : Nat) : Bool := decide ((fofsOf s a - fofsOf s b).natAbs ≤ (agreeLim s).natAbs)

/-- Support of `r` among the candidates. -/
def refSupport (s : State) (cands : List Nat) (r : Nat) : Nat :=
  (cands.filter fun v => v != r && agrees s v r).length

/-- Distance of a reference from the holdover estimate (0 where it is not valid). -/
def hofsDist (s : State) (r : Nat) : Nat := (fofsOf s r - (if s.ref.hov then s.ref.hofs else 0)).natAbs

/-- First member that no other beats by `lt`, in list order. -/
def bestBy (lt : Nat → Nat → Bool) : List Nat → Option Nat
  | [] => none
  | r :: rs =>
    match bestBy lt rs with
    | none => some r
    | some b => if lt b r then some b else some r

/-- The choice of R322 from the candidates. -/
def refChoice (s : State) (cands : List Nat) : Option Nat :=
  let top := cands.filter fun r => !(cands.any fun v => outranks s v r)
  let most := (top.map (refSupport s cands)).foldl Nat.max 0
  let best := top.filter fun r => refSupport s cands r == most
  match s.ref.sel with
  | some c => if best.contains c then some c else bestBy (fun a b => decide (hofsDist s a < hofsDist s b)) best
  | none => bestBy (fun a b => decide (hofsDist s a < hofsDist s b)) best

/-- Equal-rank candidates at the top disagree (R322). -/
def refDisagree (s : State) (cands : List Nat) : Bool :=
  let top := cands.filter fun r => !(cands.any fun v => outranks s v r)
  top.any fun a => top.any fun b => !agrees s a b

/-- Edges a second of a reference whose edges mean a time (R316). -/
def refPeriod (s : State) (c : Word) : Option Nat :=
  match refType c with
  | 0 => if sps s = 0 then none else some (sps s * domN (refWdom c))
  | 2 => some 1
  | _ => none

/-- An offset taken modulo a period into (−½, +½] (R325). -/
def wrapHalf (x : Int) (p : Nat) : Int :=
  let r := x.emod p
  if 2 * r > p then r - p else r

/-- An offset in ns modulo the period of `rate` edges a second (R325). The period need not be a whole number of ns; the result, which
REF_BO shows in whole ns, is rounded down (DESIGN CHOICE, log entry 119). -/
def wrapRate (x : Int) (rate : Nat) : Int := wrapHalf (x * rate) 1000000000 / (rate : Int)

/-- The build-out is slewed out: a PTP instance's always, a wired one's under PHASE (R325). -/
def slewsOut (s : State) (r : Nat) : Bool :=
  if r < 2 then s.net.held != 0
  else bitAt (refCfgOf s r) 22 && (refPeriod s (refCfgOf s r)).isSome && s.ref.bo != 0

/-- TIME_STAT.SLEWING shows a held offset (R294); set at a switch, cleared where it reaches 0. -/
def setHeld (h : Int) (s : State) : State := { s with net := { s.net with held := h } }

/-- System time steps by `d` (2⁻¹⁶ ns); it does not pass below its zero. The offsets of both instances move with it, and the edges of
the clock outputs stay where they are (R333). -/
def stepTime (d : Int) (s : State) : State :=
  let ptp := vmap (fun _ (x : Ptp) => { x with ofs := x.ofs - d, base := x.base - d }) s.net.ptp
  let ck := vmap (fun _ (x : Ckout) => { x with pos := x.pos + d }) s.ref.ck
  orReg Reg.TIME_STAT 1#32 { s with net := { s.net with now := ((s.net.now : Int) + d).toNat, ptp := ptp }, ref := { s.ref with ck := ck } }

/-- The offset of system time from reference `r`, 2⁻¹⁶ ns: OFS of an instance, the edge offset of a wired reference. -/
def refOfs (s : State) (r : Nat) : Int := if r < 2 then (ptpAt s r).ofs else (refAt s r).phs.toInt * 65536

/-- System time has been set to reference `r`: its offset is taken up. -/
def clearOfs (r : Nat) (s : State) : State :=
  if r < 2 then s else putRef r { refAt s r with phs := 0#32 } s

/-- The first entry to ACQUIRING after a release sets system time to the reference in one step (R451). -/
def firstStep (r : Nat) (s : State) : State :=
  if s.ref.firstDone then s
  else
    let s := stepTime (refOfs s r) s
    clearOfs r (setHeld 0 { s with ref := { s.ref with firstDone := true, bo := 0 } })

/-- Step 2 of R325: the built-out offset of the new reference. -/
def buildOut (r : Nat) (s : State) : State :=
  if r < 2 then setHeld (ptpAt s r).ofs { s with ref := { s.ref with bo := 0 } }
  else
    let x := (refAt s r).phs.toInt
    let bo := match refPeriod s (refCfgOf s r) with
      | some r => wrapRate x r
      | none => x
    setHeld 0 { s with ref := { s.ref with bo := bo } }

/-- A hitless switch to reference `r` (R325, R327). -/
def refSwitch (r : Nat) (s : State) : State :=
  let rec0 := detect false selSrc 0x611#12 .note 0#32 true s
  let s := refHist 3 rec0.1
  let was := s.ref.dpll
  let s := buildOut r { s with ref := { s.ref with sel := some r, slew := 1 } }
  if was = 0 ∨ was = 3 then firstStep r { s with ref := { s.ref with dpll := 1, locks := 0 } } else s

/-- The mean of windows, floor (R326). -/
def meanOf (l : List Int) : Int := if l.isEmpty then 0 else l.foldl (· + ·) 0 / l.length

/-- The DPLL leaves LOCKED: the last two windows drop out of the estimate (R326). -/
def dropWindows (s : State) : State :=
  let w := s.ref.windows.drop 2
  { s with ref := { s.ref with windows := w, hofs := if w.isEmpty then s.ref.hofs else meanOf (w.take 60),
                               hwin := (w.take 60).length } }

/-- Frequency of free run: TRIM of the LO_CFG in force, signed ppb (R327). -/
def trimFreq (s : State) : Int := (s.ref.loCfg.truncate 16 : BitVec 16).toInt * 256

/-- The frequency that system time runs at or moves to (R325, R327): that of the reference followed, the holdover estimate, or TRIM. -/
def freqGoal (s : State) : Int := match s.ref.sel with
  | some r => fofsOf s r
  | none => if s.ref.dpll = 3 then s.ref.hofs else trimFreq s

/-- The frequency of system time changes, unless the internal oscillator runs it (R330). -/
def setFreq (f : Int) (s : State) : State := if s.ref.intOsc then s else { s with ref := { s.ref with freq := f } }

/-- The DPLL holds state `st`, 0 or 3, with no reference; the frequency slews there (R324, R325). -/
def runAlone (st : Nat) (s : State) : State :=
  let s := { s with ref := { s.ref with dpll := st } }
  { s with ref := { s.ref with slew := if s.ref.intOsc || s.ref.freq == freqGoal s then 0 else 1 } }

/-- No selection is possible (R327), or the mode commands holdover or free run (R324, `force`): FREERUN is left for HOLDOVER
only by command. -/
def refNone (useEst force : Bool) (s : State) : State :=
  let was := s.ref.dpll
  let s := if was = 2 then refHist 1 (dropWindows s) else s
  let s := setHeld 0 { s with ref := { s.ref with sel := none, bo := 0, locks := 0 } }
  if useEst && s.ref.hov && (force || was != 0) then
    if was = 3 then s
    else refHist 2 (runAlone 3 (detect false selSrc 0x612#12 .degrade 0#32 true s).1)
  else runAlone 0 s

/-- Follows `r`: a switch where it is not followed already. -/
def refFollow (r : Nat) (s : State) : State := if s.ref.sel = some r then s else refSwitch r s

/-- The DISAGREE detector of a selection, once per window (R322). -/
def disagreeCheck (cands : List Nat) (s : State) : State :=
  let d := refDisagree s cands
  let s := if d then refHist 5 s else s
  if s.ref.disag then s
  else
    let r := detect false selSrc 0x614#12 .note 0#32 d s
    { r.1 with ref := { r.1.ref with disag := d } }

/-- A selection in AUTO (R322, R323): while the selector waits for the host it follows nothing (log entry 118). -/
def selectAuto (s : State) : State :=
  let kept := match s.ref.sel with
    | some r => s.net.isSplit && decide (r < 2)
    | none => false
  if s.net.waitHost then refNone true false s
  else if kept then
    (if (refAt s (s.ref.sel.getD 0)).st = 3 then s
     else refNone true false { s with net := { s.net with waitHost := true } })
  else
    let c := refCands s
    match refChoice s c with
    | none => refNone true false s
    | some r => refFollow r (disagreeCheck c s)

/-- A selection (R322, R324). -/
def refSelect (s : State) : State :=
  match refMode s with
  | 0 => selectAuto s
  | 1 => if (refAt s (refForced s)).st = 3 then refFollow (refForced s) s else refNone true true s
  | 2 => refNone true true s
  | _ => refNone false true s

/-- The QL of reference `r` is taken anew; a fall of the selected one's is QL_DROP (R328). A change runs a selection. -/
def qlRefresh (r : Nat) (s : State) : State :=
  let q := qlNow s r
  let old := (refAt s r).ql
  if q = old then s
  else
    let s := putRef r { refAt s r with ql := q } s
    let fell := decide (q < old) && s.ref.sel == some r
    let s := if fell then refHist 6 (detect false (refSrc r) 0x615#12 .note 0#32 true s).1 else s
    refSelect s

/-! ### Qualification (R320, R321) -/

/-- A sticky bit of REF_RSTAT. -/
def rstat (r b : Nat) (s : State) : State := orRegAt Reg.REF_RSTAT r (flag true b) s

/-- A reference loses its signal, or its instance leaves SLAVE (R320). -/
def refLose (r : Nat) (s : State) : State :=
  let x := refAt s r
  let s := putRef r { x with sig := false } s
  match x.st with
  | 2 => putRef r { refAt s r with st := 1, run := 0 } s
  | 3 =>
    let s := rstat r 0 (detect false (refSrc r) 0x616#12 .degrade 0#32 true s).1
    putRef r { refAt s r with st := 1, run := 0 } s
  | _ => s

/-- Signal is there: the first edge, or entry to SLAVE (R320). -/
def refGain (r : Nat) (s : State) : State :=
  let x := { refAt s r with sig := true }
  putRef r (if x.st = 1 then { x with st := 2, run := 0 } else x) s

/-- One reference at a window end (R320, R321): publication, qualification and the drift warning. -/
def refWindow (r : Nat) (m : RefMeas) (s : State) : State :=
  let x := refAt s r
  if x.st = 0 then s
  else
    let x := { x with valid := true, gen := genNext x.gen,
                      fofs := if m.present then m.fofs else x.fofs,
                      phs := if r < 2 then 0#32 else if m.present then m.phs else x.phs }
    let s := putRef r x s
    if !m.present then s
    else
      let f := m.fofs.toInt.natAbs
      let good := decide ((f : Int) ≤ acceptLim s)
      if x.st = 2 then
        (if good then putRef r (if x.run + 1 = 4 then { x with st := 3, run := 0 } else { x with run := x.run + 1 }) s
         else putRef r { x with run := 0 } s)
      else if x.st = 3 then
        let s := if (2 * f : Int) > acceptLim s then
            let s := if bitAt (regAt s Reg.REF_RSTAT r) 1 then s else (detect false (refSrc r) 0x613#12 .note 0#32 true s).1
            refHist 4 (rstat r 1 s)
          else s
        let bad4 := !good && decide (x.run + 1 = 4)
        let d := detect false (refSrc r) 0x610#12 .degrade 0#32 bad4 s
        if d.2 then rstat r 2 (putRef r { x with st := 2, run := 0 } d.1)
        else putRef r { x with run := if good then 0 else x.run + 1 } d.1
      else s

/-- Lock limits of R327: 100 ns and 0.01 ppm (2,560 in Q24.8 ppb). -/
def lockGood (phaseErr freqErr : Int) : Bool := decide (phaseErr.natAbs ≤ 100) && decide (freqErr.natAbs ≤ 2560)

/-- LOCKED is lost on a phase error above 1 µs (R327). -/
def lostLock (phaseErr : Int) (s : State) : State :=
  if s.ref.dpll = 2 ∧ phaseErr.natAbs > 1000 then
    let s := dropWindows s
    refHist 1 { s with ref := { s.ref with dpll := 1, locks := 0 } }
  else s

/-- A window spent in LOCKED counts into the estimate with the frequency of system time (R326). -/
def lockedWindow (freqErr : Int) (s : State) : State :=
  let s := if s.ref.slew = 1 then s else setFreq (freqGoal s + freqErr) s
  let w := (s.ref.freq :: s.ref.windows).take 62
  { s with ref := { s.ref with windows := w, hofs := meanOf (w.take 60), hwin := (w.take 60).length,
                               hov := s.ref.hov || decide (8 ≤ w.length) } }

/-- The DPLL at a window end (R326, R327): lock, its loss, and the window's frequency into the estimate. -/
def dpllWindow (phaseErr freqErr : Int) (s : State) : State :=
  let n := if lockGood phaseErr freqErr then s.ref.locks + 1 else 0
  let s := { s with ref := { s.ref with locks := Nat.min n 4 } }
  match s.ref.dpll with
  | 1 => if 4 ≤ n then refHist 0 { s with ref := { s.ref with dpll := 2 } } else s
  | 2 => if 1000 < phaseErr.natAbs then lostLock phaseErr s else lockedWindow freqErr s
  | _ => s

/-- A value moves toward `goal` by at most `d`. -/
def toward (goal : Int) (d : Nat) (x : Int) : Int := x + Max.max (-(d : Int)) (Min.min d (goal - x))

/-- Step 1 of R325 ends: the frequency has reached its goal. -/
def freqDone (s : State) : State :=
  if s.ref.slew = 1 then
    setFreq (freqGoal s) { s with ref := { s.ref with slew := match s.ref.sel with
      | some r => if slewsOut s r then 2 else 0
      | none => 0 } }
  else s

/-- Step 2 of a switch ends: the built-out offset has reached 0 (R325). -/
def buildoutEnd (s : State) : State :=
  if s.ref.slew = 2 then setHeld 0 { s with ref := { s.ref with slew := 0, bo := 0 } } else s

/-- One second of a switch (R294, R325): the frequency moves by at most FSLEW, then the built-out offset by PSLEW. -/
def slewSecond (s : State) : State :=
  let c := reg s Reg.REF_SLEW
  if s.ref.slew = 1 then
    let s := setFreq (toward (freqGoal s) (256 * fld c 31 16) s.ref.freq) s
    if s.ref.freq = freqGoal s then freqDone s else s
  else if s.ref.slew = 2 then
    let p := fld c 15 0
    let s := setHeld (toward 0 (65536 * p) s.net.held) { s with ref := { s.ref with bo := toward 0 p s.ref.bo } }
    if s.net.held = 0 ∧ s.ref.bo = 0 then buildoutEnd s else s
  else s

/-- The wired references' bank is below its threshold: its inputs read 0 (R492, R493). -/
def refBankLow (s : State) (r : Nat) : Bool := decide (2 ≤ r) && s.sys.vio.getLsbD 5

/-- The end of a 1 s window (R320, R322, R326, R327). -/
def windowEnd (meas : Vector RefMeas 4) (phaseErr freqErr : Int) (s : State) : State :=
  let s := { s with ref := { s.ref with disag := false } }
  let s := (List.range 4).foldl (fun s r =>
    let m := vget { present := false, fofs := 0#32, phs := 0#32 } meas r
    refWindow r { m with present := m.present && !refBankLow s r } s) s
  refSelect (slewSecond (dpllWindow phaseErr freqErr s))

/-- REF_WINDOW_END (R320). `phaseErr` in ns and `freqErr` in Q24.8 ppb are the DPLL's errors without built-out offsets. -/
def execRefWindowEnd (meas : Vector RefMeas 4) (phaseErr : Int) (freqErr : Int) (s : State) :
    Host.Outcome State Fault Refusal :=
  done (windowEnd meas phaseErr freqErr s)

/-- DPLL_LOST_LOCK (R327). -/
def execDpllLostLock (phaseErr : Int) (s : State) : Host.Outcome State Fault Refusal := done (lostLock phaseErr s)

/-! ### Clock outputs (R331–R334) -/

def ckAt (s : State) (i : Nat) : Ckout := vget {} s.ref.ck i
def putCk (i : Nat) (x : Ckout) (s : State) : State := { s with ref := { s.ref with ck := vput s.ref.ck i x } }

/-- Source ID of a clock output (R336). -/
def ckSrc (i : Nat) : BitVec 16 := srcId 1 5 5 i

/-- An output toggles: enabled, in LIVE, or in SHADOW with SHD (R334). -/
def ckRun (s : State) (i : Nat) : Bool :=
  let c := actAt s Reg.CKOUT_CFG i
  bitAt c 31 && (s.sys.mode == .live || (s.sys.mode == .shadow && bitAt c 30))

/-- Offset field of CKOUT_CFG, signed 17 bits. -/
def ckOfs (c : Word) : Int := (c.extractLsb' 0 17).toInt

/-- Largest magnitude of OFS: half a stroke in ns (R333). -/
def ckMax (s : State) : Int := if s.eng.fam = some true then 45351 else 41666

/-- Edge rate of an output in Hz (R331). -/
def ckRate (s : State) (i : Nat) (c : Word) : Nat :=
  let r := fld c 27 26
  if i < 4 then sps s * domN r
  else if i < 6 then sps s * domN (r / 2) * (if r % 2 = 0 then 256 else 512)
  else 1

/-- Edge rate of a wired reference (R316). -/
def refRate (s : State) (r : Nat) : Nat :=
  match refType (refCfgOf s r) with
  | 0 => sps s * domN (refWdom (refCfgOf s r))
  | 1 => 10000000
  | 2 => 1
  | _ => 0

/-- ALIGN can be held: the output's rate is a whole multiple of the input's (R332). -/
def ckFits (s : State) (i : Nat) (c : Word) : Bool :=
  let a := fld c 29 28
  let q := refRate s (a + 1)
  a == 0 || a == 3 || (q != 0 && ckRate s i c % q == 0)

/-- Where the edges of an output belong, from the grid of system time, in 2⁻¹⁶ ns (R332): OFS, past the input's edges under ALIGN. Once the
input is lost the last phase is kept. -/
def ckGoal (s : State) (x : Ckout) : Int :=
  if x.lost then x.goal
  else (x.ofs + if x.align = 0 then 0 else (refAt s (x.align + 1)).phs.toInt) * 65536

/-- The edges of one stroke take up what is left of a difference Δ, modulo the period: each shifts by at most 10 % of the period (R333). The
edge of PPS_OUT falls in the stroke that starts a whole second. -/
def ckShift (rate sps k : Nat) (goal pos : Int) : Int :=
  if rate = 0 ∨ (rate = 1 ∧ k % sps ≠ 0) then pos
  else pos + toward (wrapHalf (goal - pos) (Time.second / rate)) (Nat.max 1 (rate / sps) * (Time.second / (10 * rate))) 0

/-- High time of an output in 2⁻¹⁶ ns (R331, R335): PW ms of PPS_OUT, 0 meaning 100 and more than 500 acting as 500; half the period of the others. -/
def ckHigh (i rate : Nat) (c : Word) : Nat :=
  let w := fld c 25 17
  if i < 6 then (if rate = 0 then 0 else Time.second / (2 * rate))
  else (if w = 0 then 100 else Nat.min w 500) * (Time.second / 1000)

/-- CKOUT_CFG of output `i` takes effect at a CATCH (R332, R333). An alignment the rates do not allow is logged once for the
configuration (DEDUCED, log entry 119). -/
def ckApply (i : Nat) (s : State) : State :=
  let c := actAt s Reg.CKOUT_CFG i
  let a := fld c 29 28
  let x := ckAt s i
  let fits := ckFits s i c
  let on := bitAt c 31
  let al := if a = 3 ∨ !fits then 0 else a
  let s := if fits || !on || x.bad == some c then s else progError .sc Reg.CKOUT_CFG s
  let o := Max.max (-(ckMax s)) (Min.min (ckMax s) (ckOfs c))
  putCk i { x with align := al, ofs := o, lost := x.lost && al == x.align && on, on, low := !on && (x.low || x.on)
                   bad := if fits || !on then none else some c } s

/-- The ball of a clock output (R334): the balls of bank 5 are off below its threshold (R492); an output that has been disabled is driven low (R333), and one never
enabled keeps its pull-up (R443). -/
def ckPad (s : State) (i : Nat) : Pad :=
  let x := ckAt s i
  if s.sys.vio.getLsbD 5 then .hiZ
  else if running s && !x.on && !x.low then .pullUp
  else clockPad s (bitAt (actAt s Reg.CKOUT_CFG i) 30)

/-- Clock output `i` over stroke `t` (R333, R334): a running one takes up its difference edge by edge; one that is not driven starts, when it is,
on its grid. -/
def ckDrive (t i : Nat) (s : State) : State :=
  let x := ckAt s i
  let c := actAt s Reg.CKOUT_CFG i
  let rate := ckRate s i c
  let goal := ckGoal s x
  if x.on && ckPad s i == .driven then
    let pos := if x.run then ckShift rate (sps s) t goal x.pos else goal
    emit (.ckout i rate (ckHigh i rate c) pos) (putCk i { x with run := true, pos, goal } s)
  else putCk i { x with run := false, pos := goal, goal } s

/-- The clock outputs aligned to wired reference `r` lose it (R332). -/
def alignLose (r : Nat) (s : State) : State :=
  (List.range 7).foldl (fun s i =>
    if ckRun s i && (ckAt s i).align == r - 1 then
      orReg Reg.CKOUT_STAT (flag true i) (putCk i { ckAt s i with lost := true } s)
    else s) s

/-- They rejoin at the next input edge (R332). -/
def alignJoin (r : Nat) (s : State) : State :=
  (List.range 7).foldl (fun s i => if (ckAt s i).align == r - 1 then putCk i { ckAt s i with lost := false } s else s) s

/-! ### Events of the references -/

/-- REF_LOS (R320): a PTP instance in SLAVE has not lost its signal. -/
def losEvent (r : Nat) (s : State) : State :=
  if r < 2 ∧ (ptpAt s r).st = 3 then s
  else refSelect ((if r < 2 then id else alignLose r) (refLose r s))

/-- REF_LOS (R320). -/
def execRefLos (r : Fin 4) (s : State) : Host.Outcome State Fault Refusal := done (losEvent r.val s)

/-- REF_FIRST_EDGE (R320): the first edge of REF_A or REF_B. -/
def execRefFirstEdge (r : Fin 2) (s : State) : Host.Outcome State Fault Refusal :=
  done (if refBankLow s (r.val + 2) then s else refSelect (alignJoin (r.val + 2) (refGain (r.val + 2) s)))

/-- A quality word is valid (R319): stop bit, sync nibble and CHK. -/
def qlGood (w : BitVec 16) (stopOk : Bool) : Bool :=
  stopOk && w.extractLsb' 12 4 == 0xA#4
    && w.extractLsb' 0 4 == (w.extractLsb' 12 4 ^^^ w.extractLsb' 8 4 ^^^ w.extractLsb' 4 4)

/-- A quality word arrives (R319): a new QL acts when two consecutive valid words carry it. -/
def qlWord (r : Nat) (w : BitVec 16) (stopOk : Bool) (s : State) : State :=
  if !qlGood w stopOk then rstat r 4 s
  else
    let q := (w.extractLsb' 8 4).toNat
    let x := refAt s r
    qlRefresh r (putRef r { x with lastQl := some q, wql := if x.lastQl = some q then q else x.wql } s)

/-- REFQL_WORD (R319). -/
def execRefqlWord (r : Fin 2) (word : BitVec 16) (stopOk : Bool) (s : State) : Host.Outcome State Fault Refusal :=
  done (if refBankLow s (r.val + 2) then s else qlWord (r.val + 2) word stopOk s)

/-- No valid word for 3 s (R319): only a reference graded by the quality word has one to lose. -/
def qlLose (r : Nat) (s : State) : State :=
  if !bitAt (refCfgOf s r) 27 then s
  else qlRefresh r (putRef r { refAt s r with wql := 0, lastQl := none } (rstat r 3 s))

/-- QL_LOST (R319). -/
def execQlLost (r : Fin 2) (s : State) : Host.Outcome State Fault Refusal := done (qlLose (r.val + 2) s)

/-- The reference starts again in LOS or PENDING with its counts cleared (R320). -/
def refRestart (r : Nat) (s : State) : State :=
  let x := refAt s r
  let on := refOn r (refCfgOf s r)
  let here := if r < 2 then decide ((ptpAt s r).st = 3) else x.sig
  putRef r { x with st := if !on then 0 else if here then 2 else 1, run := 0, valid := x.valid && on && x.st != 0,
                    lastQl := none, wql := 0 } s

/-- The parts of REF_CFG whose change restarts a reference (R320): for a PTP instance only EN acts. -/
def cfgKey (r : Nat) (c : Word) : Word := if r < 2 then c &&& 0x80000000#32 else c &&& 0x8F800000#32

/-- A write to REF_CFG of reference `r` (R320). -/
def refCfgWrite (m : Master) (r : Nat) (v : Word) (s : State) : State :=
  let old := refCfgOf s r
  let v := v &&& 0xFFC0000F#32
  let s := setRegAt Reg.REF_CFG r v s
  let s := if decide (2 ≤ r) && (refType v == 3 || refWdom v == 3) then progError m Reg.REF_CFG s else s
  let s := if cfgKey r v = cfgKey r old then s else refRestart r s
  refSelect (qlRefresh r s)

/-- REF_CFG (R320): the reference is the one the master's REF_SEL names. -/
def execRefCfg (m : Master) (v : Word) (s : State) : Host.Outcome State Fault Refusal :=
  done (refCfgWrite m (bank s m).ref v s)

/-- The host has acted: the selector waits no longer (R295). -/
def endWait (s : State) : State := { s with net := { s.net with waitHost := false } }

/-- A write to REF_CTRL (R324): a change of MODE acts at once. -/
def refCtrlWrite (v : Word) (s : State) : State :=
  let old := reg s Reg.REF_CTRL
  let s := setReg Reg.REF_CTRL (v &&& 0xFC000000#32) s
  if fld old 31 28 = fld v 31 28 then s else refSelect (endWait s)

/-- A write to REF_CCMAP changes the QL of both instances at once (R318, R335). -/
def ccmapWrite (off : Nat) (v : Word) (s : State) : State := qlRefresh 1 (qlRefresh 0 (setReg off (v &&& 0x8000FF0F#32) s))

/-- REF_CTRL (R324). -/
def execRefCtrl (_m : Master) (v : Word) (s : State) : Host.Outcome State Fault Refusal := done (refCtrlWrite v s)

/-- FREQ_SLEW_DONE (R325). -/
def execFreqSlewDone (s : State) : Host.Outcome State Fault Refusal := done (freqDone s)

/-- BUILDOUT_DONE (R325). -/
def execBuildoutDone (s : State) : Host.Outcome State Fault Refusal := done (buildoutEnd s)

/-- XIN is at fault (R330): the record, LO_STAT.FAULT, and system time runs from the internal oscillator, whose frequency is
free (log entry 3). -/
def loFaultEvent (s : State) : State :=
  let r := detect true selSrc 0x617#12 .fatal 0#32 (!injArmed s selSrc 0x617#12) s
  if !r.2 then r.1
  else
    let s := orReg Reg.LO_STAT 1#32 r.1
    { s with ref := { s.ref with intOsc := true, xinBack := false, freq := Config.internalDrift s.freeCtr }
             freeCtr := s.freeCtr + 1 }

/-- LO_FAULT (R330). -/
def execLoFault (s : State) : Host.Outcome State Fault Refusal := done (loFaultEvent s)

/-- The internal oscillator runs until XIN has returned and FAULT is cleared (R330); system time then runs at the frequency its state
gives it. -/
def loCheck (s : State) : State :=
  if s.ref.intOsc && s.ref.xinBack && reg s Reg.LO_STAT &&& 1#32 == 0#32 then
    setFreq (freqGoal s) { s with ref := { s.ref with intOsc := false } }
  else s

/-- XIN_RETURN (R330). -/
def execXinReturn (s : State) : Host.Outcome State Fault Refusal :=
  done (loCheck { s with ref := { s.ref with xinBack := true } })

end Sys2Proof.Machine
end

