-- ==== Sys2Proof/Machine/Net.lean ====
section
/-! DEFINITION. The network ports (10): frames, the host queue (R286), receive (R302–R305, R308, R309, R311), stream validation
(R299), transmit (R306, R310), and the links. -/

namespace Sys2Proof.Machine

/-! ### Ports and frames -/

/-- Register of port `p`: its copy lies 0x40 × p further (R313). -/
def netReg (s : State) (off p : Nat) : Word := reg s (off + 0x40 * p)
def netSrc (p : Nat) : BitVec 16 := srcId 1 5 p 0
def netStat (p b : Nat) (s : State) : State := orReg (Reg.NET_STAT0 + 0x40 * p) (flag true b) s
def linkUp (s : State) (p : Nat) : Bool := vget false s.net.up p

/-- What the access layer drops (R284, R285): a bad FCS, then a frame over 1,522 bytes. True where the frame is good. -/
def frameCheck (h : RxHdr) (s : State) : State × Bool :=
  if !linkUp s h.port.val then (s, false)
  else if !h.fcsOk then (netStat h.port.val 2 s, false)
  else if 1522 < h.len then (netStat h.port.val 3 s, false)
  else (s, true)

/-- A frame sent on a port whose link is up. -/
def sendFrame (p kind : Nat) (fields : List Nat) (payload : List Byte) (s : State) : State :=
  if linkUp s p then emit (.frame p kind fields payload) s else s

/-- Frame kinds of `Out.frame`. -/
abbrev frArp : Nat := 1
abbrev frIgmp : Nat := 2
abbrev frIcmp : Nat := 3
abbrev frHost : Nat := 4
abbrev frRtp : Nat := 5
abbrev frLeave : Nat := 6
abbrev frBeacon : Nat := 7

/-- A signed register in picoseconds as 2⁻¹⁶ ns. -/
def psTime (w : Word) : Int := w.toInt * 65536 / 1000

/-- An ingress stamp at the connector (R289, R290): less 44.8 ns and NET_ASYM_RX. -/
def ingress (s : State) (h : RxHdr) : Time := ((h.sfd : Int) - 2936013 - psTime (netReg s Reg.NET_ASYM_RX0 h.port.val)).toNat

/-- The stroke that contains an instant (R40). -/
def strokeAt (s : State) (t : Time) : Nat := t * sps s / Time.second

/-- A big-endian field of `n` bytes of a frame. -/
def beField (bs : List Byte) (i n : Nat) : Nat := leNat ((bs.drop i).take n).reverse

/-- Where the payload of a frame starts, after an 802.1Q tag if there is one, and its EtherType. -/
def etherPay (bs : List Byte) : Nat := if beField bs 12 2 = 0x8100 then 18 else 14
def etherType (bs : List Byte) : Nat := beField bs (etherPay bs - 2) 2

/-- Frames that a port drops unseen (R284): PAUSE, IPv6, and fragments of IPv4. -/
def unsupported (bs : List Byte) : Bool :=
  etherType bs == 0x8808 || etherType bs == 0x86DD || (etherType bs == 0x0800 && beField bs (etherPay bs + 6) 2 % 16384 != 0)

/-! ### Stream entries (R297–R301, R313) -/

def strWord (s : State) (off k : Nat) : Word := actAt s off k
def strCfg (s : State) (k : Nat) : Word := strWord s Reg.STR_CFG k
def strTx (k : Nat) : Bool := decide (512 ≤ k)
def strPort (k : Nat) : Nat := k / 256 % 2
def strDom (s : State) (k : Nat) : Nat := fld (strCfg s k) 30 29
def strBytes (s : State) (k : Nat) : Nat := if bitAt (strCfg s k) 28 then 4 else 3
def strPair (s : State) (k : Nat) : Bool := bitAt (strCfg s k) 25
def strRxofs (s : State) (k : Nat) : Nat := fld (strWord s Reg.STR_OFS k) 9 0
def strAt (s : State) (k : Nat) : Stream := tget {} s.net.streams k
def putStr (k : Nat) (x : Stream) (s : State) : State := { s with net := { s.net with streams := tset {} s.net.streams k x } }
def strStat (k b : Nat) (s : State) : State := orRegAt Reg.STR_STAT k (flag true b) s

/-- Samples per packet (R298). -/
def ptBase (pt : Nat) : Nat := if pt = 0 then 6 else if pt = 1 then 12 else if pt = 2 then 16 else 48
def strP (s : State) (k : Nat) : Nat := ptBase (fld (strCfg s k) 27 26) * 2 ^ strDom s k

/-- Network channel of channel `i` of an entry: port × 1,024 + channel (R301). -/
def strChan (s : State) (k i : Nat) : Nat := 1024 * strPort k + strCh0 s k + i

/-- A group is multicast. -/
def isGroup (a : Word) : Bool := fld a 31 28 == 14

/-- The receive entries' groups on a port: port-1 partners of pairs included (R285, R308). -/
def groupsOn (s : State) (p : Nat) : List Word :=
  ((s.net.streams.filter fun e => e.2.en && e.2.on && !strTx e.1).flatMap fun e =>
    (if strPort e.1 = p then [strWord s Reg.STR_ADDR e.1] else [])
      ++ (if p = 1 ∧ strPort e.1 = 0 ∧ strPair s e.1 then [strWord s Reg.STR_ADDR (e.1 + 256)] else [])).filter isGroup

/-- IGMP version of a port as a field of the frame. -/
def igmpv (s : State) (p : Nat) : Nat := if bitAt (netReg s Reg.NET_CFG0 p) 28 then 2 else 3

/-- IGMP_QUERY (R285): membership reports for every enabled receive group of the port. -/
def igmpQuery (fr : RxFrame) (s : State) : State :=
  let p := fr.hdr.port.val
  let c := frameCheck fr.hdr s
  if c.2 then
    sendFrame p frIgmp (igmpv c.1 p :: (groupsOn c.1 p).map (·.toNat)) (Config.replyFrame frIgmp fr.bytes) c.1
  else c.1
def execIgmpQuery (fr : RxFrame) (s : State) : Host.Outcome State Fault Refusal := done (igmpQuery fr s)

/-- Reports and leaves the device sends unasked (R285). -/
def groupFrame (kind k : Nat) (s : State) : State :=
  let f (p key : Nat) (s : State) : State :=
    let g := strWord s Reg.STR_ADDR key
    if isGroup g then sendFrame p kind [igmpv s p, g.toNat] [] s else s
  let s := f (strPort k) k s
  if strPort k = 0 ∧ strPair s k then f 1 (k + 256) s else s

/-! ### The host queue (R286) -/

def hqSize (s : State) (off : Nat) : Nat := 2 ^ Nat.min 10 (Nat.max 4 (fld (reg s off) 4 0))

/-- A good frame that the port does not claim goes to the receive ring (R285, R286). -/
def hostQueue (h : RxHdr) (bytes : List Byte) (s : State) : State :=
  let p := h.port.val
  if unsupported bytes then s
  else
    let n := hqSize s Reg.NET_HQ_RXSIZE
    let rd := (reg s Reg.NET_HQ_RXRD).truncate 11
    if n ≤ (s.net.rxWr - rd).toNat then netStat p 4 s
    else
      let a := centralAddr ((reg s Reg.NET_HQ_RXBASE).toNat + s.net.rxWr.toNat % n * 2048)
      let ts := stampWords (ingress s h)
      let head := (place p 15 ||| wOf (bytes.length % 2048)) :: [ts.getD 0 0#32, ts.getD 1 0#32, ts.getD 3 0#32]
      let bs := (head.flatMap leBytes ++ bytes).take 2048
      let r := writeRun .net (fun _ => true) (cut a bs.length) bs s
      irqLatch 4 { r.1 with net := { r.1.net with rxWr := r.1.net.rxWr + 1 } }

/-- HOST_QUEUE_RX (R286). -/
def hostQueueRx (fr : RxFrame) (s : State) : State :=
  let c := frameCheck fr.hdr s
  if c.2 then hostQueue fr.hdr fr.bytes c.1 else c.1
def execHostQueueRx (fr : RxFrame) (s : State) : Host.Outcome State Fault Refusal := done (hostQueueRx fr s)

/-- Replies of the device (R285) to a request that names NET_IP, at byte `at_` of the frame's payload: the kind and what the protocol puts
into them (log entry 5). A request for another address is the host's. -/
def reply (kind at_ : Nat) (fr : RxFrame) (s : State) : State :=
  let c := frameCheck fr.hdr s
  let p := fr.hdr.port.val
  if !c.2 then c.1
  else if beField fr.bytes (etherPay fr.bytes + at_) 4 = (netReg s Reg.NET_IP0 p).toNat then
    sendFrame p kind [] (Config.replyFrame kind fr.bytes) c.1
  else hostQueue fr.hdr fr.bytes c.1

/-- ARP_REQUEST (R285): the target protocol address. -/
def execArpRequest (fr : RxFrame) (s : State) : Host.Outcome State Fault Refusal := done (reply frArp 24 fr s)
/-- ICMP_ECHO (R285): the destination address. -/
def execIcmpEcho (fr : RxFrame) (s : State) : Host.Outcome State Fault Refusal := done (reply frIcmp 16 fr s)

/-- NET_HQ_TXDB (R286): a value that moves back or overfills the ring is ignored (R53). -/
def hqTxdb (v : Word) (s : State) : State :=
  let p : BitVec 11 := v.truncate 11
  let n := hqSize s Reg.NET_HQ_TXSIZE
  let d := (p - s.net.txRd).toNat
  if d ≤ n ∧ (s.net.txProd - s.net.txRd).toNat ≤ d then { s with net := { s.net with txProd := p } } else s
def execNetHqTxdb (_m : Master) (v : Word) (s : State) : Host.Outcome State Fault Refusal := done (hqTxdb v s)

/-- HQ_TX_SEND (R286): the oldest entry of the transmit ring leaves, with the FCS that the device computes. -/
def hqTxSend (s : State) : State :=
  if s.net.txRd = s.net.txProd then s
  else
    let a := centralAddr ((reg s Reg.NET_HQ_TXBASE).toNat + s.net.txRd.toNat % hqSize s Reg.NET_HQ_TXSIZE * 2048)
    let h := readRun .net (cut a 4) s
    let w := leNat h.2.1
    let r := readRun .net (cut (a + 16) (Nat.min 2032 (w % 2048))) h.1
    let s := { r.1 with net := { r.1.net with txRd := r.1.net.txRd + 1 } }
    sendFrame (bitsOf w 15 15) frHost [] (r.2.1 ++ leBytes (crc32 r.2.1)) s
def execHqTxSend (s : State) : Host.Outcome State Fault Refusal := done (hqTxSend s)

/-! ### The jitter store (R302) -/

def jitterBase (s : State) : Nat := (reg s Reg.NET_JBASE).toNat * 0x800000

/-- The store of R302 is available (R299 reason 7). -/
def jitterOk (s : State) : Bool := dramReady s && decide (jitterBase s + 0x800000 ≤ dramBytes s)

def jitterAddr (s : State) (ch m : Nat) : Nat := dramBase + jitterBase s + ch * 4096 + 4 * (m % 1024)
def markKey (ch m : Nat) : Nat := ch * 1024 + m % 1024
def markAt (s : State) (ch m : Nat) : Option Stored := tget none s.net.marks (markKey ch m)

/-- Sample `m` of a channel is stored. -/
def isStored (s : State) (ch m : Nat) : Bool := match markAt s ch m with
  | some x => x.m == m
  | none => false

/-- Media index of sample `i` of a packet (R302), from stroke `c` of its ingress stamp. -/
def mediaIndex (s : State) (k : Nat) (ts : Word) (c i : Nat) : Int :=
  let n := domN (strDom s k)
  let c0 := n * c
  (c0 : Int) + (ts - strWord s Reg.STR_TSOFS k + wOf i - wOf c0).toInt

/-- A sample of a channel is placed: the first copy stays, except that a newer epoch replaces an older one's (R302, R308, R311). -/
def placeSample (ch m : Nat) (epoch : Option Word) (v : Word) (s : State) : State :=
  let keep := match markAt s ch m with
    | some x => x.m == m && (match epoch with
      | some e => decide ((e - x.epoch).toInt ≤ 0)
      | none => true)
    | none => false
  if keep then s
  else
    let r := (memBurst (writeBurst .net (jitterAddr s ch m) ((leBytes v).map some)) s).1
    if r.resp = rPass then
      { r.s with net := { r.s.net with marks := tset none r.s.net.marks (markKey ch m) (some ⟨m, epoch.getD 0#32⟩) } }
    else r.s

/-- Sample of a payload in network byte order, as a word (R297). -/
def payloadWord (b : Nat) (bs : List Byte) (at_ : Nat) : Word :=
  wOf (leNat ((List.replicate (4 - b) 0#8) ++ ((bs.drop at_).take b).reverse))

/-- Sample `i` of a packet, of all its channels (R302): late and early samples are dropped. -/
def placeIndex (k : Nat) (pk : MediaPacket) (t : Time) (c i : Nat) (s : State) : State :=
  let n := domN (strDom s k)
  let m := mediaIndex s k pk.ts c i
  let u := (m + strRxofs s k) / n
  let due : Int := (strokeStart (sps s) (u + 1).toNat : Int) - 2000 * Time.ns
  if m < 0 then s
  else if due < t then
    let x := strAt s k
    let late := if (s.eng.stroke.toNat : Int) ≤ u && !x.late.contains u.toNat then x.late ++ [u.toNat] else x.late
    strStat k 2 (putStr k { x with lateN := satInc max32 x.lateN, late } s)
  else if (c : Int) + 1024 / n - 2 < u then strStat k 4 s
  else
    let b := strBytes s k
    (List.range (strNch s k)).foldl (fun s ch =>
      placeSample (strChan s k ch) m.toNat (if bitAt (strCfg s k) 23 then pk.epoch else none)
        (payloadWord b pk.payload (b * (i * strNch s k + ch))) s) s

/-- The key whose filters an entry applies on a port (R305, R308). -/
def filterKey (s : State) (k p : Nat) : Option Nat :=
  if strPort k = p then some k else if strPort k = 0 && p == 1 && strPair s k then some (k + 256) else none

/-- A receive entry takes a packet (R305). -/
def takes (s : State) (k : Nat) (pk : MediaPacket) : Bool :=
  match filterKey s k pk.hdr.port.val with
  | none => false
  | some f =>
    let any0 (w v : Word) := w == 0#32 || w == v
    let pt := fld (strWord s Reg.STR_UDP f) 6 0
    let unit := strNch s k * strBytes s k
    strWord s Reg.STR_ADDR f == pk.dstIp && fld (strWord s Reg.STR_UDP f) 31 16 == pk.dstPort.toNat
      && any0 (strWord s Reg.STR_SRCIP f) pk.srcIp && any0 (strWord s Reg.STR_SSRC f) pk.ssrc
      && (pt == 0 || pt == pk.pt.toNat)
      && (!bitAt (strCfg s k) 22 || pk.vlan == some (BitVec.ofNat 12 (fld (strCfg s k) 11 0)))
      && pk.payload.length != 0 && unit != 0 && pk.payload.length % unit == 0

/-- A receive entry names a packet's group, port and source (R285): the device claims it. -/
def names (s : State) (k : Nat) (pk : MediaPacket) : Bool :=
  match filterKey s k pk.hdr.port.val with
  | none => false
  | some f =>
    let src := strWord s Reg.STR_SRCIP f
    strWord s Reg.STR_ADDR f == pk.dstIp && fld (strWord s Reg.STR_UDP f) 31 16 == pk.dstPort.toNat && (src == 0#32 || src == pk.srcIp)

/-- Sequence gaps of a path (R302): the packets missed and the number expected next. -/
def seqGap (want : Option (BitVec 16)) (seq : BitVec 16) : Nat × Option (BitVec 16) :=
  match want with
  | none => (0, some (seq + 1))
  | some w => if (seq - w).toNat < 32768 then ((seq - w).toNat, some (seq + 1)) else (0, some w)

def noteSeq (k p : Nat) (seq : BitVec 16) (s : State) : State :=
  let x := strAt s k
  let g := seqGap (if p = 0 then x.seq0 else x.seq1) seq
  let x := { x with lost := Nat.min max32 (x.lost + g.1) }
  let s := putStr k (if p = 0 then { x with seq0 := g.2 } else { x with seq1 := g.2 }) s
  if g.1 = 0 then s else strStat k 3 s

/-- Saturates a time difference to signed ns. -/
def nsWord (x : Int) : Word := (sat32 (x / 65536)).1

/-- The path differential of a pair (R309): the two copies of a packet carry one sequence number and timestamp. -/
def notePair (k p : Nat) (seq : BitVec 16) (ts : Word) (t : Time) (s : State) : State :=
  let x := strAt s k
  if !strPair s k then s
  else match x.pairs.find? fun e => e.1 == seq.toNat && e.2.port != p && e.2.ts == ts with
  | none => putStr k { x with pairs := (x.pairs.filter fun e => e.1 != seq.toNat) ++ [(seq.toNat, ⟨p, ts, t⟩)] } s
  | some e =>
    let d : Int := if p = 1 then (t : Int) - e.2.at_ else (e.2.at_ : Int) - t
    let s := putStr k { x with pairs := x.pairs.filter fun e => e.1 != seq.toNat, pdiff := nsWord d } s
    let r := detect false (netSrc (strPort k)) 0x503#12 .note 0#32 (decide (1000000 * 65536 < d.natAbs)) s
    if r.2 then strStat k 1 r.1 else r.1

/-- The epoch filter (R311): whether the packet goes on. -/
def epochFilter (k : Nat) (pk : MediaPacket) (s : State) : State × Bool :=
  if !bitAt (strCfg s k) 23 then (s, true)
  else
    let x := strAt s k
    let stale := (strStat k 5 (putStr k { x with stale := satInc max32 x.stale } s), false)
    match pk.epoch with
    | none => stale
    | some e =>
      let d := (e - x.emax).toInt
      if 0 < d then (putStr k { x with emax := e } s, true) else if d = 0 then (s, true) else stale

/-- A packet at an entry that takes it. -/
def rxPacket (pk : MediaPacket) (k : Nat) (s : State) : State :=
  let f := epochFilter k pk s
  if !f.2 then f.1
  else
    let p := pk.hdr.port.val
    let t := ingress s pk.hdr
    let c := strokeAt s t
    let s := notePair k p pk.seq pk.ts t (noteSeq k p pk.seq f.1)
    let n := pk.payload.length / (strNch s k * strBytes s k)
    (List.range n).foldl (fun s i => placeIndex k pk t c i s) s

/-- MEDIA_PACKET (R285, R302, R305): a packet that no enabled receive entry names is the host's. -/
def mediaPacket (pk : MediaPacket) (s : State) : State :=
  let c := frameCheck pk.hdr s
  let s := c.1
  if !c.2 then s
  else
    let ks := (s.net.streams.filter fun e => e.2.en && e.2.on && !strTx e.1).map (·.1)
    if !(ks.any fun k => names s k pk) then hostQueue pk.hdr pk.bytes s
    else if sps s = 0 then s
    else (ks.filter fun k => takes s k pk).foldl (fun s k => rxPacket pk k s) s
def execMediaPacket (pk : MediaPacket) (s : State) : Host.Outcome State Fault Refusal := done (mediaPacket pk s)

/-! ### Receive blocks at CATCH (R303) -/

/-- Samples of the block of stroke `u` of a channel as the jitter store holds them: whether all were stored, and the words. -/
def rxWords (k ch u : Nat) (s : State) : State × Bool × List Word :=
  let n := domN (strDom s k)
  (List.range n).foldl (fun (r : State × Bool × List Word) j =>
    let m : Int := (n * u + j : Nat) - (strRxofs r.1 k : Int)
    if m < 0 || !isStored r.1 ch m.toNat then (r.1, false, r.2.2 ++ [0#32])
    else
      let q := readRun .net [⟨jitterAddr r.1 ch m.toNat, 4⟩] r.1
      (q.1, r.2.1 && q.2.2, r.2.2 ++ [wOf (leNat q.2.1)])) (s, true, [])

def rxTreat (s : State) (ch : Nat) : RxTreat := tget {} s.net.rxt ch
def putRxt (ch : Nat) (x : RxTreat) (s : State) : State := { s with net := { s.net with rxt := tset {} s.net.rxt ch x } }

/-- A channel's block is frozen VALID or UNDERRUN under the treatment of R275. -/
def rxChan (slip : Bool) (n ch : Nat) (ok : Bool) (ws : List Word) (s : State) : State :=
  let x := rxTreat s ch
  let bad := slip || !ok
  let r := treatBlock bad n x.treat x.lastw ws
  let s := putRxt ch { treat := r.1, lastw := r.2.getLast?.getD 0#32 } s
  { s with patch := { s.patch with blocks := tset {} s.patch.blocks (0x800 + ch) ⟨if bad then 1 else 0, r.2⟩ } }

/-- Words of a channel read for a freeze. -/
structure RxRead where
  ch : Nat
  ok : Bool
  ws : List Word

/-- NETWORK_BLOCK_FREEZE of one receive entry for stroke `u` (R303). -/
def rxFreeze (u k : Nat) (s : State) : State :=
  let n := domN (strDom s k)
  let r := (List.range (strNch s k)).foldl (fun (r : State × List RxRead) i =>
    let ch := strChan r.1 k i
    let w := rxWords k ch u r.1
    (w.1, r.2 ++ [⟨ch, w.2.1, w.2.2⟩])) (s, [])
  let late := (strAt s k).late.contains u
  let d := detect true (netSrc (strPort k)) 0x501#12 .degrade 0#32 (late || r.2.any fun x => !x.ok) r.1
  let forced := late || (d.2 && !r.2.any fun x => !x.ok)
  let s := r.2.foldl (fun s x => rxChan forced n x.ch x.ok x.ws s) d.1
  putStr k { strAt s k with late := (strAt s k).late.filter fun v => u < v } s

/-! ### Validation (R299) -/

/-- Bytes per packet with its headers (R299 reason 3). -/
def packetBytes (s : State) (k : Nat) : Nat :=
  strNch s k * strP s k * strBytes s k + 78 + (if bitAt (strCfg s k) 22 then 4 else 0) + (if bitAt (strCfg s k) 24 then 12 else 0)

/-- Bits per second of an entry, times 48 (R298: the packet times are whole parts of 48 samples at D0). -/
def strBits (s : State) (k : Nat) : Nat := packetBytes s k * 8 * (sps s * 4) * (48 / ptBase (fld (strCfg s k) 27 26))

def epxId (s : State) (p : Nat) : Nat := let e := fld (netReg s Reg.NET_CFG0 p) 27 24; if e = 15 then 0 else e

/-- The enabled entries of a port and direction, without `k`. -/
def peers (s : State) (k : Nat) : List Nat :=
  ((s.net.streams.filter fun e => e.2.en && e.2.on && e.1 != k && e.1 / 256 == k / 256).map (·.1))

def overlaps (s : State) (k j : Nat) : Bool :=
  decide (strCh0 s k < strCh0 s j + strNch s j) && decide (strCh0 s j < strCh0 s k + strNch s k)

/-- The first refusal cause of an entry (R299), 0 for none. -/
def strReason (s : State) (k : Nat) : Nat :=
  let others := peers s k
  let port := strPort k
  let limit := (if bitAt (netReg s Reg.NET_CFG0 port) 30 then 900000000 else 9000000000) * 48
  let pt := fld (strWord s Reg.STR_UDP k) 6 0
  if strDom s k = 3 then 4
  else if 1440 < strNch s k * strP s k * strBytes s k then 1
  else if 1024 < strCh0 s k + strNch s k || others.any (overlaps s k) then 2
  else if limit < (others.map (strBits s)).sum + strBits s k then 3
  else if strNch s k = 0 || 64 < strNch s k || decide (768 < strRxofs s k) || (strTx k && decide (pt < 96))
      || (bitAt (strCfg s k) 24 && epxId s port == 0) then 4
  else if strPair s k && (port == 1 || bitAt (strCfg s (k + 256)) 31) then 5
  else if !strTx k && others.any (fun j => strWord s Reg.STR_ADDR j == strWord s Reg.STR_ADDR k
      && fld (strWord s Reg.STR_UDP j) 31 16 == fld (strWord s Reg.STR_UDP k) 31 16
      && strWord s Reg.STR_SRCIP j == strWord s Reg.STR_SRCIP k && strWord s Reg.STR_SSRC j == strWord s Reg.STR_SSRC k) then 6
  else if !strTx k && !jitterOk s then 7
  else 0

/-- The receive entries that a CATCH has disabled deliver no block more, and their sources are absent (R303). -/
def streamsLeave (s : State) : State :=
  { s with net := { s.net with streams := s.net.streams.map fun e =>
      (e.1, if e.2.leave then { e.2 with on := false, leave := false } else e.2) } }

/-- A starting receive channel: its block is one of a slip's silence until its first block freezes (R303). -/
def rxStart (n ch : Nat) (s : State) : State :=
  let s := putRxt ch { treat := .silence 0 } s
  { s with patch := { s.patch with blocks := tset {} s.patch.blocks (0x800 + ch) ⟨1, zeros n⟩ } }

/-- An entry starts (R299, R303, R311); one just disabled on the same channels gives way. -/
def strStart (k : Nat) (s : State) : State :=
  let x := strAt s k
  let s := if s.net.streams.any fun e => e.2.leave && e.1 / 256 == k / 256 && overlaps s k e.1 then streamsLeave s else s
  let s := putStr k { on := true, en := true, pub := { x.pub with valid := false } } s
  if strTx k then
    (List.range (strNch s k)).foldl (fun s i =>
      { s with net := { s.net with txbuf := tset [] s.net.txbuf (strChan s k i) [] } }) s
  else
    let s := (List.range (strNch s k)).foldl (fun s i => rxStart (domN (strDom s k)) (strChan s k i) s) s
    groupFrame frIgmp k s

/-- STREAM_BAD (R299). -/
def strRefuse (k reason : Nat) (s : State) : State :=
  let s := putStr k { strAt s k with en := true, on := false } s
  let w := regAt s Reg.STR_STAT k
  strStat k 0 (setRegAt Reg.STR_STAT k ((w &&& 0xFFFF0FFF#32) ||| place reason 12) s)

/-- An entry whose EN first reads 1 at a CATCH (R299). -/
def strEnable (k : Nat) (s : State) : State :=
  let reason := strReason s k
  let d := detect false (netSrc (strPort k)) 0x502#12 .note 0#32 (reason != 0) s
  if d.2 then strRefuse k reason d.1 else strStart k d.1

/-- An entry whose EN reads 0 (R303, R285): its sinks are absent from here on, and its sources once the block of the stroke before has been
delivered. -/
def strDisable (k : Nat) (s : State) : State :=
  let x := strAt s k
  let s := if x.on && !strTx k then groupFrame frLeave k s else s
  putStr k { strAt s k with on := x.on && !strTx k, en := false, leave := x.on && !strTx k } s

/-- The entries that a register write has touched. -/
def strKeys (s : State) : List Nat :=
  ((s.act.filter fun e => e.1 % 16777216 == Reg.STR_CFG).map fun e => e.1 / 16777216)
    ++ ((s.net.streams.filter fun e => e.2.en && !bitAt (strCfg s e.1) 31).map (·.1))

/-- STREAM_ENABLE and STREAM_DISABLE of a CATCH, in ascending entry order; disables first. -/
def streamsLatch (s : State) : State :=
  let ks := strKeys s
  let s := (ks.filter fun k => !bitAt (strCfg s k) 31 && (strAt s k).en).foldl (fun s k => strDisable k s) s
  (ks.filter fun k => bitAt (strCfg s k) 31 && !(strAt s k).en).foldl (fun s k => strEnable k s) s

/-! ### Transmit (R306, R310) -/

/-- A sample in network byte order. -/
def wireBytes (b : Nat) (w : Word) : List Byte := (leBytes w).reverse.take b

/-- What a port puts around an RTP packet of entry `k` by entry `f`: destination, UDP port, DSCP, and the 802.1Q tag (R308). -/
def rtpFields (s : State) (k f : Nat) : List Nat :=
  let u := strWord s Reg.STR_UDP f
  let c := strCfg s k
  [(strWord s Reg.STR_ADDR f).toNat, fld u 31 16, fld u 13 8, if bitAt c 22 then 1 + fld c 21 19 * 4096 * 2 + fld c 11 0 * 2 else 0]

/-- Bytes of a number, most significant first. -/
def beBytes (n x : Nat) : List Byte := (natBytes n x).reverse

/-- The RTP header of the packet whose first sample has media index `m` (R300, R306): version 2, marker 0, no CSRC; with EPX the header
extension of R310: profile 0xBEDE, 2 words, the element with L = 3, the cox epoch (0 standalone), and 3 bytes of padding. -/
def rtpHeader (s : State) (k m : Nat) : List Byte :=
  let epx := bitAt (strCfg s k) 24
  beBytes 1 (if epx then 0x90 else 0x80) ++ beBytes 1 (fld (strWord s Reg.STR_UDP k) 6 0) ++ beBytes 2 (m / strP s k % 65536)
    ++ beBytes 4 (wOf m + strWord s Reg.STR_TSOFS k).toNat ++ beBytes 4 (strWord s Reg.STR_SSRC k).toNat
    ++ if epx then
        beBytes 2 0xBEDE ++ beBytes 2 2 ++ beBytes 1 (16 * epxId s (strPort k) + 3)
          ++ beBytes 4 (if isTwin s then s.twin.epoch.toNat else 0) ++ beBytes 3 0
      else []

/-- The samples of a transmit channel not yet sent, newest first, with those of the block now frozen. -/
def txPush (s : State) (fade : Bool) (k n i : Nat) : List Word :=
  let ch := strChan s k i
  let b := tget {} s.patch.emitBlk (0x800 + ch)
  let ws := if b.words.length = n then b.words else zeros n
  ((if fade then fadeWords ws else ws).reverse ++ tget [] s.net.txbuf ch).take (strP s k + n)

/-- One transmit entry at the CATCH of stroke `t`: the packet whose last sample the block of `t` holds leaves (R306). -/
def txEntry (t : Nat) (fade : Bool) (k : Nat) (s : State) : State :=
  let n := domN (strDom s k)
  let p := strP s k
  let chans := List.range (strNch s k)
  let bufs := chans.map fun i => txPush s fade k n i
  let s := (chans.zip bufs).foldl (fun s e =>
    { s with net := { s.net with txbuf := tset [] s.net.txbuf (strChan s k e.1) e.2 } }) s
  let last := n * t + n - 1
  let m := (last + 1) / p * p - p
  let skip := (last + 1) % p
  let full := decide (p ≤ last + 1) && decide (skip < n) && bufs.all fun b => decide (skip + p ≤ b.length)
  if !full || s.sys.mode != .live then s
  else
    let b := strBytes s k
    let payload := (List.range p).flatMap fun j => bufs.flatMap fun w => wireBytes b (w.getD (skip + p - 1 - j) 0#32)
    let packet := rtpHeader s k m ++ payload
    let s := sendFrame (strPort k) frRtp (rtpFields s k k) packet s
    if strPort k = 0 ∧ strPair s k then sendFrame 1 frRtp (rtpFields s k (k + 256)) packet s else s

/-- MEDIA_TRANSMIT: the packets due at a CATCH, in ascending stream index. -/
def mediaTransmit (t : Nat) (fade : Bool) (s : State) : State :=
  ((s.net.streams.filter fun e => e.2.on && strTx e.1).map (·.1)).foldl (fun s k => txEntry t fade k s) s

/-- The receive entries at a CATCH: the blocks of stroke `u`. -/
def netFreeze (u : Nat) (s : State) : State :=
  let s := streamsLeave s
  ((s.net.streams.filter fun e => e.2.on && !strTx e.1).map (·.1)).foldl (fun s k => rxFreeze u k s) s

/-- STR_CNT_PUBLISH (R313). -/
def strPublish (s : State) : State :=
  { s with net := { s.net with streams := s.net.streams.map fun e =>
      let x := e.2
      (e.1, if x.on then { x with pub := publish [wOf x.lateN, wOf x.lost, wOf x.stale, x.pdiff, x.emax] x.pub } else x) } }
def execStrCntPublish (s : State) : Host.Outcome State Fault Refusal := done (strPublish s)

/-! ### Links (R313) -/

/-- A link that was up goes down (R313, R314). -/
def linkDown (p : Nat) (s : State) : State :=
  if !linkUp s p then s
  else
    let d := (detect false (netSrc p) 0x500#12 .degrade 0#32 true s).1
    netStat p 1 { d with net := { d.net with up := vput d.net.up p false } }
def execNetLinkDown (p : Fin 2) (s : State) : Host.Outcome State Fault Refusal := done (linkDown p.val s)

/-- A SERDES_LOOP test holds this link down (R470): 0 and 1 the network ports, 2 the Twin Link, 3 PCI Express. -/
def loopHolds (s : State) (l : Nat) : Bool := s.err.testBusy && s.err.testKind == 0x14 && fld s.err.testArg 1 0 == l

/-- NET_LINK_UP (R313). -/
def linkRaise (p : Nat) (s : State) : State :=
  if bitAt (netReg s Reg.NET_CFG0 p) 31 && !loopHolds s p then { s with net := { s.net with up := vput s.net.up p true } } else s
def execNetLinkUp (p : Fin 2) (s : State) : Host.Outcome State Fault Refusal := done (linkRaise p.val s)

/-- A write to NET_CFG restarts the link, and the NET master with it (R313, R412). -/
def netCfgWrite (p : Nat) (v : Word) (prog : Option Burst) (s : State) : State :=
  let s := setReg (Reg.NET_CFG0 + 0x40 * p) (v &&& 0xFF000000#32) s
  masterReset .net memPerform prog (linkDown p s)
def execNetCfg (_m : Master) (p : Fin 2) (v : Word) (prog : Option Burst) (s : State) : Host.Outcome State Fault Refusal :=
  done (netCfgWrite p.val v prog s)

/-- NET_STAT as read (R313). -/
def netStatWord (s : State) (p : Nat) : Word := (netReg s Reg.NET_STAT0 p &&& 0x1E#32) ||| flag (linkUp s p) 0

end Sys2Proof.Machine
end

