-- ==== Sys2Proof/Machine/Twin.lean ====
section
/-! DEFINITION. Twin operation (12): heartbeats and the lease (R341–R347), self-diagnosis and hand-over (R348–R351), acquiring cox
(R352–R354), the shadow's side of a shipment (R358–R363) and the Twin Link (R366–R369). -/

namespace Sys2Proof.Machine

def twinSrc : BitVec 16 := sysSrc 12 0
def twinStat (b : Nat) (s : State) : State := orReg Reg.TWIN_STAT (flag true b) s
/-- A member that sends heartbeats and takes cox (R338, R341). -/
def member (s : State) : Bool := isTwin s && running s

/-- IN_SYNC falls to 0 (R363). -/
def syncLost (s : State) : State :=
  if s.twin.inSync then twinStat 3 { s with twin := { s.twin with inSync := false } } else s

/-! ### Modes and drive (R278, R307, R353) -/

/-- The member drives its outputs, or stops, from the CATCH at which cox changes hands: once that CATCH has passed, the ports' pending
emission follows it. -/
def setDrive (live : Bool) (s : State) : State :=
  let t := { s with sys := { s.sys with mode := if live then .live else .shadow } }
  if s.eng.phase != .drive then t
  else { t with port := { s.port with ports := vmap (fun p (x : Port) =>
    { x with emit := x.emit.map fun e => { e with drive := live && !portVioLow s p } }) s.port.ports } }

/-- The stroke of the CATCH at which cox changes hands: the coming one once FINISH has passed. -/
def coxStroke (s : State) : BitVec 64 := strokeDue s

/-- The member stops holding cox and enters SHADOW (R346, R349, R343): its own strokes before H count as committed (log entry 34). -/
def coxDrop (s : State) : State :=
  let h := coxStroke s
  let s := syncLost (setDrive false s)
  { s with twin := { s.twin with
    hold := false, last := h, commit := h - 1, release := none, yield := none, take := none, expired := false
    resync := false, rsCut := none } }

/-- Newer epoch (R344). -/
def newer (a b : Word) : Bool := decide (0 < (a - b).toInt)

/-- The epoch an acquisition takes (R344): the newer of the two plus 1, skipping 0. -/
def nextEpoch (s : State) : Word :=
  let e := (if newer s.twin.peerEpoch s.twin.epoch then s.twin.peerEpoch else s.twin.epoch) + 1
  if e = 0#32 then 1#32 else e

/-- The state section received so far is dropped (R360). -/
def sectionDrop (s : State) : State :=
  { s with twin := { s.twin with callsIn := [], rdIn := none, carryBad := none, secOf := none, secBad := false } }

/-- Acquisition (R353, R354): a shipment whose closing frame has not come is discarded whole. -/
def acquire (s : State) : State :=
  let h := (coxStroke s).toNat
  let n := h - 1 - s.twin.commit.toNat
  let s := sectionDrop (setDrive true s)
  let s := { s with twin := { s.twin with
    epoch := nextEpoch s, hold := true, take := none, expired := false, resync := false, rsReset := false, rsCut := none } }
  let s := twinStat 0 (detect false twinSrc 0x700#12 .note 0#32 true s).1
  let u := detect false twinSrc 0x70B#12 .note 0#32 (n != 0) s
  if n = 0 then u.1
  else { u.1 with twin := { u.1.twin with unverAt := u.1.twin.commit + 1, unverN := Nat.min 65535 n } }

/-- R352: nothing forbids taking cox at expiry. -/
def mayTake (s : State) : Bool :=
  !s.twin.diag && !bitAt (reg s Reg.TWIN_STAT) 11 && (s.twin.inSync || !s.twin.peerSeen || twinPol s 3)

/-- ACQUIRE_COX (R350, R353): an offer taken for this CATCH, or an expiry at the FINISH before it. -/
def acquireCox (s : State) : State :=
  if !member s || s.twin.hold then s
  else if s.twin.take == some (coxStroke s) then acquire s
  else if s.twin.expired && mayTake s then acquire s
  else s
def execAcquireCox (s : State) : Host.Outcome State Fault Refusal := done (acquireCox s)

/-! ### Heartbeats as received (R342–R345, R350, R356) -/

def pathBit : TwinPath → Nat
  | .link => 0 | .pins => 1 | .beacon => 2
def pathAt (s : State) (p : TwinPath) : PathSt := vget {} s.twin.paths (pathBit p)
def putPath (p : TwinPath) (x : PathSt) (s : State) : State :=
  { s with twin := { s.twin with paths := vput s.twin.paths (pathBit p) x } }

/-- A heartbeat arrived on the path in the last 4 strokes (R369 PATHS). -/
def pathLive (s : State) (x : PathSt) : Bool := x.seen && decide (s.eng.stroke.toNat < x.stroke.toNat + 4)

/-- The peer's latest heartbeat (R349, R351): the arrival with the largest stroke. -/
def peerLatest (s : State) : Option PathSt :=
  s.twin.paths.toList.foldl (fun b x =>
    if !x.seen then b else match b with
      | some y => if y.stroke.toNat < x.stroke.toNat then some x else b
      | none => some x) none

/-- A holder yields (R346): its ramp runs over the stroke after the next CATCH. -/
def coxYield (s : State) : State :=
  if s.twin.yield.isSome then s else { s with twin := { s.twin with yield := some (coxStroke s + (if s.eng.phase = .finished then 0#64 else 1#64)) } }

/-- What a holder does on a valid renewal of its peer (R345), by the difference of the epochs. -/
def holderHears (d : Int) (s : State) : State :=
  if 0 < d ∨ (d = 0 ∧ seatB s) then coxYield s else s

/-- A resync is requested when R364 holds; `force` is TWIN_CTRL.RESYNC. -/
def resyncAsk (force : Bool) (s : State) : State :=
  if member s && !s.twin.hold && !s.twin.inSync && s.twin.up && s.twin.peerSeen && !s.twin.imageDiff && (force || twinPol s 4)
      && (force || !s.twin.resync) then
    linkSend 9 s.eng.stroke (Config.linkPayload 9 [0]) { s with twin := { s.twin with resync := true, rsCut := none, rsSent := 0 } }
  else s

/-- A renewal for stroke `r` with epoch difference `d` (R343, R345, R363). -/
def renewal (r : BitVec 64) (d : Int) (s : State) : State :=
  let last := if s.twin.last.toNat < r.toNat then r else s.twin.last
  let s := { s with twin := { s.twin with peerSeen := true, last } }
  if s.twin.hold then holderHears d s
  else
    let s := if s.twin.commit.toNat + 3 ≤ r.toNat then syncLost s else s
    resyncAsk false s

/-- A renewal of stroke `r` is stale: it arrives in a stroke later than r + 1 (R343). -/
def stale (f : TwinFlags) (r : BitVec 64) (s : State) : Bool := f.hold && decide (r.toNat + 1 < s.eng.stroke.toNat)

/-- A peer's heartbeat on a path (R341, R350): `r` is its stroke, `d` its epoch against this unit's, `e` the peer's epoch. An offer acts only
while the CATCH of its stroke is ahead.
DEDUCED: a holder's resync is over when its shadow reports IN_SYNC (R364, log entry 35). -/
def heartbeat (p : TwinPath) (f : TwinFlags) (e : Word) (r : BitVec 64) (d : Int) (s : State) : State :=
  if !member s || !twinPol s (pathBit p) || stale f r s then s
  else
    let s := putPath p { seen := true, stroke := s.eng.stroke, flags := f, lost := false } s
    let s := if newer e s.twin.peerEpoch then { s with twin := { s.twin with peerEpoch := e } } else s
    let s := if f.handover && ready s && decide (s.eng.stroke.toNat ≤ r.toNat) then { s with twin := { s.twin with take := some (r + 1) } } else s
    let s := if s.twin.hold && f.inSync then { s with twin := { s.twin with resync := false } } else s
    if f.hold then renewal r d s else s

/-! ### Link frames (R367) -/

/-- A frame discarded for its CRC or tag. -/
def linkBad (s : State) : State :=
  let s := { s with twin := { s.twin with tagErr := satInc max32 s.twin.tagErr } }
  twinStat 9 (detect false twinSrc 0x709#12 .note 0#32 true s).1

/-- A frame's CRC and tag are good; without encryption a frame has no tag. -/
def frameGood (s : State) (h : TwinHdr) : Bool := h.crcOk && (h.tagOk || !s.twin.crypt)

/-- A frame's CRC, tag and TYPE: false where it is discarded and counted. -/
def linkFrame (h : TwinHdr) (s : State) : State × Bool :=
  if !isTwin s || !s.twin.up then (s, false)
  else if !frameGood s h then (linkBad s, false)
  else if h.typeOk then (s, true)
  else ({ s with twin := { s.twin with tagErr := satInc max32 s.twin.tagErr } }, false)

/-- The peer's seat and image (R367): logged when they come to differ, and again once the host has cleared the bit. -/
def peerCheck (seat : Bool) (image : BitVec 64) (s : State) : State :=
  let was (b : Bool) (n : Nat) : Bool := b && bitAt (reg s Reg.TWIN_STAT) n
  let c := detect false twinSrc 0x707#12 .fault 0#32 (seat == seatB s && !was s.twin.seatClash 11) s
  let s := if c.2 then twinStat 11 c.1 else c.1
  let diff := image != imageId s
  let c := detect false twinSrc 0x708#12 .fault 0#32 (diff && !was s.twin.imageDiff 10) s
  let s := if c.2 then syncLost (twinStat 10 c.1) else c.1
  { s with twin := { s.twin with seatClash := seat == seatB s, imageDiff := diff } }

/-- MARKER (R341). -/
def marker (h : TwinHdr) (image : BitVec 64) (s : State) : State :=
  let c := linkFrame h s
  if !c.2 then c.1 else heartbeat .link h.flags h.epoch h.stroke (h.epoch - s.twin.epoch).toInt (peerCheck h.flags.seat image c.1)
def execMarker (h : TwinHdr) (imageId : BitVec 64) (s : State) : Host.Outcome State Fault Refusal := done (marker h imageId s)

/-- LEASE_PIN_WORD (R342): its epoch is the peer epoch whose low 4 bits it carries; the stroke is that of arrival. -/
def leasePin (w : BitVec 8) (stopOk : Bool) (s : State) : State :=
  if !stopOk || s.sys.vio.getLsbD 5 then s
  else
    let e4 : BitVec 4 := w.extractLsb' 4 4
    let near (x : Word) : Int := (e4 - x.extractLsb' 0 4).toInt
    let f : TwinFlags := { hold := w.getLsbD 0, ready := w.getLsbD 1, inSync := w.getLsbD 2, handover := w.getLsbD 3, seat := !seatB s }
    heartbeat .pins f (s.twin.peerEpoch + wInt (near s.twin.peerEpoch)) s.eng.stroke (near s.twin.epoch) s
def execLeasePinWord (bits : BitVec 8) (stopOk : Bool) (s : State) : Host.Outcome State Fault Refusal := done (leasePin bits stopOk s)

/-- BEACON (R342). -/
def beacon (b : Beacon) (s : State) : State :=
  let c := frameCheck b.hdr s
  let s := c.1
  if !c.2 || !isTwin s || !bitAt (reg s Reg.TWIN_BCN_CFG) b.hdr.port.val || fld (reg s Reg.TWIN_BCN_CFG) 31 16 == 0
      || b.magic != 0x5457424E#32 || b.version != 1#8 || b.flags.seat == seatB s || b.image != lo64 (imageId s) then s
  else
    let bad := bitAt (reg s Reg.TWIN_CFG) 30 && b.tag != beaconTag s b.flags.seat b.stroke (beaconBytes b.flags b.epoch b.stroke b.image)
    let d := detect false twinSrc 0x709#12 .note 0#32 bad s
    if d.2 then twinStat 9 d.1
    else heartbeat .beacon b.flags b.epoch b.stroke (b.epoch - s.twin.epoch).toInt d.1
def execBeacon (b : Beacon) (s : State) : Host.Outcome State Fault Refusal := done (beacon b s)

/-- The data bits of a pin word (R342). -/
def pinBits (f : TwinFlags) (e : Word) : BitVec 8 := BitVec.ofNat 8 (flagByte { f with seat := false } + 16 * fld e 3 0)

/-- HEARTBEAT_SEND at FINISH (R341, R342): on each enabled path. -/
def heartbeatSend (s : State) : State :=
  if !member s then s
  else
    let f := ownFlags s
    let e := s.twin.epoch
    let k := s.eng.stroke
    let cfg := reg s Reg.TWIN_BCN_CFG
    let s := if twinPol s 0 then linkSend 1 k (natBytes 8 (imageId s).toNat) s else s
    let s := if twinPol s 1 && !s.sys.vio.getLsbD 5 then emit (.pinWord (pinBits f e)) s else s
    if twinPol s 2 && fld cfg 31 16 != 0 then
      let bs := beaconBytes f e k (lo64 (imageId s))
      let tag := if bitAt (reg s Reg.TWIN_CFG) 30 then beaconTag s f.seat k bs else List.replicate 16 0#8
      [0, 1].foldl (fun s p =>
        if bitAt cfg p then sendFrame p frBeacon [(reg s Reg.TWIN_BCN_IP).toNat, fld cfg 31 16, fld cfg 13 8] (bs ++ tag) s else s) s
    else s

/-- LEASE_EXPIRED (R343): at a FINISH in stroke s, s − L has reached W. -/
def leaseExpired (s : State) : State :=
  let w := if seatB s && !s.twin.peerSeen then 12 else 4
  if member s && !s.twin.hold && s.eng.phase == .finished && decide (s.twin.last.toNat + w ≤ s.eng.stroke.toNat) then
    { s with twin := { s.twin with expired := true } }
  else s
def execLeaseExpired (s : State) : Host.Outcome State Fault Refusal := done (leaseExpired s)

/-- YIELD_COMPLETE (R346): at the CATCH after the ramp. -/
def yieldComplete (s : State) : State :=
  match s.twin.yield with
  | none => s
  | some y =>
    if y.toNat < (coxStroke s).toNat && s.twin.hold then
      coxDrop (twinStat 2 (detect false twinSrc 0x702#12 .degrade 0#32 true s).1)
    else s
def execYieldComplete (s : State) : Host.Outcome State Fault Refusal := done (yieldComplete s)

/-- OFFER (R350): a ready shadow takes cox at the CATCH of H. -/
def offerFrame (h : TwinHdr) (target : BitVec 64) (s : State) : State :=
  let c := linkFrame h s
  let s := c.1
  if c.2 && member s && ready s && decide (s.eng.stroke.toNat < target.toNat) then
    { s with twin := { s.twin with take := some target } }
  else s
def execOffer (h : TwinHdr) (target : BitVec 64) (s : State) : Host.Outcome State Fault Refusal := done (offerFrame h target s)

/-- The peer showed READY within the last 2 strokes (R349). -/
def peerReady (s : State) : Bool := match peerLatest s with
  | some x => x.flags.ready && decide ((coxStroke s).toNat ≤ x.stroke.toNat + 2)
  | none => false

/-- HANDOVER_RELEASE (R349): at the first CATCH after self-diagnosis the holder stops if its peer is ready; else it renews its
offer for the following stroke. -/
def handoverRelease (s : State) : State :=
  match s.twin.release with
  | none => s
  | some r =>
    if !s.twin.hold || (coxStroke s).toNat < r.toNat then s
    else if peerReady s then
      coxDrop (twinStat 1 (detect false twinSrc 0x701#12 .note 0#32 true s).1)
    else
      let n := coxStroke s + 1
      let s := twinStat 6 (detect false twinSrc 0x706#12 .fault 0#32 true s).1
      offerSend n { s with twin := { s.twin with offer := some n, release := some n } }
def execHandoverRelease (s : State) : Host.Outcome State Fault Refusal := done (handoverRelease s)

/-- TWIN_HANDOVER at its application (R351): cox passes at the CATCH of T. -/
def handoverCall (p : Pend) (s : State) : State × Applied :=
  if !member s then (s, .done)
  else
    let release := pbyte p.call.payload 0 = 0
    if s.twin.hold then
      let go := match peerLatest s with
        | some x => x.flags.ready && (!release || x.flags.inSync)
        | none => false
      (if go then coxDrop (twinStat 1 (detect false twinSrc 0x701#12 .note 0#32 true s).1) else twinStat 5 s, .done)
    else if !s.twin.diag && (!release || s.twin.inSync) then (acquire s, .done)
    else (s, .done)

/-- TWIN_HANDOVER (R351). -/
def execTwinHandover (s : State) : Host.Outcome State Fault Refusal := done (applyCall 12#16 false handoverCall s)

/-- TWIN_PATH_LOST (R356): silent for 4 strokes while another path renews; once per path. -/
def pathLost (p : TwinPath) (s : State) : State :=
  let x := pathAt s p
  let others := [TwinPath.link, .pins, .beacon].any fun q => q != p && pathLive s (pathAt s q) && (pathAt s q).flags.hold
  if member s && twinPol s (pathBit p) && x.seen && !x.lost && !pathLive s x && others then
    twinStat 8 (putPath p { x with lost := true } (detect false twinSrc 0x70A#12 .note 0#32 true s).1)
  else s
def execTwinPathLost (p : TwinPath) (s : State) : Host.Outcome State Fault Refusal := done (pathLost p s)

/-- A cause of R348 that still stands: its sticky bit is set, or ENG_TSKEW is still past 1 stroke (R43). -/
def diagRemains (s : State) : Bool :=
  bitAt (reg s Reg.DET_STAT) 2 || bitAt (reg s Reg.ERR_STAT) 3 || bitAt (reg s Reg.LO_STAT) 0
    || reg s Reg.PWR_STAT &&& 0x47#32 != 0#32 || reg s Reg.PIN_STAT &&& 0x3F#32 != 0#32
    || (sps s != 0 && decide (strokeLen (sps s) < 65536 * s.eng.tskew.natAbs))

/-- DIAG_CLR (R348). -/
def diagClr (s : State) : State :=
  if diagRemains s then s else { s with twin := { s.twin with diag := false, offer := none, release := none } }
def execDiagClr (_m : Master) (s : State) : Host.Outcome State Fault Refusal := done (diagClr s)

/-! ### The shipment as the shadow takes it (R358–R360) -/

/-- A frame for a shadow. -/
def shadowFrame (h : TwinHdr) (s : State) : State × Bool :=
  let c := linkFrame h s
  (c.1, c.2 && s.sys.mode == .shadow)

/-- INPUT (R358). -/
def inputFrame (h : TwinHdr) (b : InputBlock) (s : State) : State :=
  let c := shadowFrame h s
  if c.2 then { c.1 with twin := { c.1.twin with inRx := c.1.twin.inRx ++ [b] } } else c.1
def execInput (h : TwinHdr) (blk : InputBlock) (s : State) : Host.Outcome State Fault Refusal := done (inputFrame h blk s)

/-- FREEZE (R358, R359): the section stands only if its CRC is right. -/
def freezeFrame (h : TwinHdr) (blocks : List (Nat × BitVec 2 × BitVec 8)) (ratios : List (Nat × Word)) (treats : List SrcTreat)
    (ok : Bool) (s : State) : State :=
  let c := shadowFrame h s
  let s := c.1
  if !c.2 then s
  else if !ok then { linkBad s with twin := { (linkBad s).twin with inRx := [], frzRx := none } }
  else { s with twin := { s.twin with frzRx := some ⟨h.stroke, blocks, ratios, treats⟩ } }
def execFreeze (h : TwinHdr) (blocks : List (Nat × BitVec 2 × BitVec 8)) (ratios : List (Nat × Word)) (treats : List SrcTreat)
    (sectionOk : Bool) (s : State) : Host.Outcome State Fault Refusal :=
  done (freezeFrame h blocks ratios treats sectionOk s)

/-- A shipped call as the pending table will hold it (R55): accepted in stroke `acc`. -/
def shippedCall (acc : BitVec 64) (c : CallRec) (s : State) : State × Pend :=
  let b := readBulk c s
  let d := dueOf { b.1 with eng := { b.1.eng with stroke := acc } } c
  (b.1, { call := c, acc, due := BitVec.ofNat 64 d.1, late := d.2, rej := callRejects b.1 c, arms := armsOf b.1 c b.2 })

/-- A frame of the state section of stroke `k` (R360): it starts that section, and one of another stroke is dropped. -/
def sectionFor (k : BitVec 64) (s : State) : State :=
  let s := match s.twin.secOf with
    | some j => if j = k then s else sectionDrop s
    | none => s
  { s with twin := { s.twin with secOf := some k } }

/-- A frame of the state section was lost: the section will not commit (R360). -/
def sectionLost (s : State) : State :=
  if s.sys.mode == .shadow && s.twin.up then { s with twin := { s.twin with secBad := true } } else s

/-- CALLS (R358). -/
def callsFrame (h : TwinHdr) (cs : List (CallRec × BitVec 64)) (rd : BitVec 17) (s : State) : State :=
  let c := shadowFrame h s
  if !c.2 then sectionLost c.1
  else
    let s := sectionFor h.stroke c.1
    let r := cs.foldl (fun (r : State × List Pend) e =>
      let p := shippedCall e.2 e.1 r.1
      (p.1, r.2 ++ [p.2])) (s, [])
    { r.1 with twin := { r.1.twin with callsIn := r.1.twin.callsIn ++ r.2, rdIn := some rd } }
def execCalls (h : TwinHdr) (cs : List (CallRec × BitVec 64)) (rd : BitVec 17) (s : State) : Host.Outcome State Fault Refusal :=
  done (callsFrame h cs rd s)

/-- CARRY (R358, R360): compared with this unit's own carry of the stroke as the hold words keep it (R361). -/
def carryFrame (h : TwinHdr) (n ofs : Nat) (ws : List Word) (s : State) : State :=
  let c := shadowFrame h s
  if !c.2 then sectionLost c.1
  else
    let s := sectionFor h.stroke c.1
    let bad := (ws.zipIdx).any fun e => carryRead s (stripCrew s n) (carryBase s n + ofs + e.2) != e.1
    let low := match s.twin.carryBad with
      | some m => Nat.min m n
      | none => n
    if bad then { s with twin := { s.twin with carryBad := some low } } else s
def execCarry (h : TwinHdr) (strip offset : Nat) (words : List Word) (s : State) : Host.Outcome State Fault Refusal :=
  done (carryFrame h strip offset words s)

/-- CLOSE (R360): the state section of stroke k commits before this unit's FINISH of k + 1. A stroke that is committed already, such as
the one before a cutover (R364), is not compared again (log entry 33). -/
def closeFrame (h : TwinHdr) (digest : BitVec 64) (ok : Bool) (s : State) : State :=
  let c := shadowFrame h s
  let s := c.1
  if !c.2 then s
  else if !ok || s.eng.phase != .drive || s.eng.stroke != h.stroke + 1 || decide (h.stroke.toNat ≤ s.twin.commit.toNat)
      || s.twin.secBad || (s.twin.secOf != none && s.twin.secOf != some h.stroke) then
    sectionDrop (if ok then s else linkBad s)
  else
    let bad := digest != s.eng.digest || s.eng.digestOf != h.stroke || s.twin.carryBad.isSome
    let d := detect false twinSrc 0x703#12 .degrade 0#32 bad s
    let s := d.1
    let s := if d.2 then syncLost { s with twin := { s.twin with diff := if s.twin.carryBad.isSome then s.twin.carryBad else s.twin.diff } }
      else s
    sectionDrop { s with
      call := { s.call with pend := s.call.pend ++ s.twin.callsIn, rd := s.twin.rdIn.getD s.call.rd }
      twin := { s.twin with commit := h.stroke, unver := false } }
def execClose (h : TwinHdr) (digest : BitVec 64) (sectionOk : Bool) (s : State) : Host.Outcome State Fault Refusal :=
  done (closeFrame h digest sectionOk s)

/-! ### Resync data (R364) -/

/-- RESYNC: an item of the resync set reaches the shadow that is held in the resync's reset. -/
def resyncFrame (h : TwinHdr) (i : RsItem) (s : State) : State :=
  let c := shadowFrame h s
  let s := c.1
  if !c.2 || !s.twin.rsReset then s
  else match i with
    | .bytes a bs =>
      let s := writeBytes a bs s
      { s with twin := { s.twin with rsSent := s.twin.rsSent + bs.length } }
    | .stage a bs =>
      { s with stage := memPutBytes s.stage a bs, twin := { s.twin with rsSent := s.twin.rsSent + bs.length } }
    | .call c acc due late armed =>
      let p := shippedCall acc c s
      { p.1 with call := { p.1.call with pend := p.1.call.pend ++ [{ p.2 with due, late, armed }] } }
    | .callRd rd => { s with call := { s.call with rd } }
    | .sink i x => putSink i x s
    | .bridge ch b => { s with patch := { s.patch with bridges := tset none s.patch.bridges ch b } }
    | .asrc a x => putAsrc a x s
    | .tsel v => { s with mix := { s.mix with tsel := v, tselWas := v } }
    | .scene x => { s with scene := x }
    | .sceneEvt v => setReg Reg.SCENE_EVT v s
def execResync (h : TwinHdr) (item : RsItem) (s : State) : Host.Outcome State Fault Refusal := done (resyncFrame h item s)

/-- RESYNC_REQUEST (R364, R365, R369): ignored by a holder; a further request abandons a resync in progress. -/
def execResyncRequest (_m : Master) (s : State) : Host.Outcome State Fault Refusal := done (resyncAsk true s)

/-- The memory of the resync set (R364): base and length of each part. -/
def resyncAreas (s : State) : List (Nat × Nat) :=
  [(crewBase, 0x2000000), (matrixBase, 0xA00000), (descAddr 0, 0x1E000), (planeAddr s 0, 0x18000), (centralAddr 0x3E0000, 0xF000), (forkAddr 0, 0x1E00)]
    ++ (stripsAll.map fun n => (bankAddr n (stripLive s n) 0, 0x400))
    ++ (stripsUsed s).map fun n => (dramBase + 4096 * (descWord s n 4).toNat, 4096 * (descWord s n 5).toNat)

/-- Bytes of the resync set: its memory, the patch state, for which R434 gives 64 KB, and the 16,384 calls of the pending table (R54) at 32 bytes
(DESIGN CHOICE, log entry 121). -/
def resyncBytes (s : State) : Nat := (resyncAreas s).foldl (fun t a => t + a.2) (0x10000 + 16384 * 32)

/-- Size of the resync set in MB, rounded up (R364, R369). -/
def resyncSize (s : State) : Nat := if s.eng.img.isNone then 0 else (resyncBytes s + 1048575) / 1048576

/-- The resync set as the holder sends it (R364). -/
def resyncItems (s : State) : List RsItem :=
  ((resyncAreas s).flatMap fun a => (List.range ((a.2 + 2047) / 2048)).map fun i =>
      .bytes (a.1 + 2048 * i) ((memWords s.mem (a.1 + 2048 * i) (Nat.min 2048 (a.2 - 2048 * i) / 4)).flatMap leBytes))
    ++ [.stage (centralAddr 0x3E0000) ((memWords s.stage (centralAddr 0x3E0000) 0x3C00).flatMap leBytes)]
    ++ (s.call.pend.map fun p => .call p.call p.acc p.due p.late p.armed)
    ++ [.callRd s.call.rd]
    ++ ((List.range 0x1880).map fun i => .sink i (sinkAt s i))
    ++ ((List.range 256).map fun ch => .bridge ch (tget none s.patch.bridges ch))
    ++ ((List.range 128).map fun a => .asrc a (asrcAt s a))
    ++ [.tsel s.mix.tsel, .scene s.scene, .sceneEvt (reg s Reg.SCENE_EVT)]

/-- The holder at the FINISH of a stroke of a resync (R364, R365, R369): the copy goes on at no less than the rate the link leaves, and with
the set as it stands at the FINISH of C − 1 the holder names C, the next stroke (log entry 121). -/
def resyncStep (s : State) : State :=
  if !s.twin.hold || !s.twin.resync || !s.twin.up || s.twin.rsCut.isSome || sps s == 0 then s
  else
    let n := (if s.twin.rate then 850000000 else 6000000000) / sps s + Config.resyncExtra s.freeCtr
    let total := resyncBytes s
    let sent := Nat.min total (s.twin.rsSent + n)
    let s := { s with freeCtr := s.freeCtr + 1, twin := { s.twin with rsSent := sent } }
    if sent < total then s
    else
      let c := s.eng.stroke + 1
      let s := (resyncItems s).foldl (fun s i => linkSend 8 s.eng.stroke (Config.resyncPayload i) s) s
      linkSend 9 s.eng.stroke (Config.linkPayload 9 [2, c.toNat]) { s with twin := { s.twin with rsCut := some c } }

/-! ### The link (R366–R369) -/

/-- The link goes down and retrains (R366, R412): the TWIN master is reset, a resync is abandoned with its reset and cutover (R365), the
shadow is out of sync (R356). `lock` are the lanes that still hold block lock. -/
def twinDown (lock : BitVec 4) (prog : Option Burst) (s : State) : State :=
  if !s.twin.up then s
  else
    let s := twinStat 7 (detect false twinSrc 0x705#12 .degrade 0#32 true s).1
    let s := { s with twin := { s.twin with
      up := false, lanes := lock, downs := satInc 65535 s.twin.downs, resync := false, rsReset := false, rsCut := none
      peerNonce := [], skey := [] } }
    let s := masterReset .twin memPerform prog s
    if s.twin.hold then s else syncLost s
def execTwinLinkDown (l : LinkLoss) (s : State) : Host.Outcome State Fault Refusal := done (twinDown l.lock l.prog s)

/-- LINK_RESTART (R369). -/
def execLinkRestart (_m : Master) (s : State) : Host.Outcome State Fault Refusal := done (twinDown 0#4 none s)

/-- A fresh nonce of 16 bytes (R368). -/
def drawNonce (s : State) : List Byte := (List.range 4).flatMap fun i => leBytes (Config.entropy (s.freeCtr + i))

/-- TWIN_LINK_UP (R366, R368, R369): TWIN_CFG is read at the link start, and HELLO is sent. -/
def twinUp (s : State) : State :=
  if !isTwin s || s.twin.up || loopHolds s 2 then s
  else
    let n := drawNonce s
    let cfg := reg s Reg.TWIN_CFG
    let s := { s with
      freeCtr := s.freeCtr + 4
      twin := { s.twin with up := true, lanes := 15#4, crypt := bitAt cfg 31, rate := bitAt cfg 29, nonce := n, seq := 0#64 } }
    linkSend 0 s.eng.stroke (natBytes 1 (seatNum (seatB s)) ++ natBytes 8 (imageId s).toNat ++ n) s
def execTwinLinkUp (s : State) : Host.Outcome State Fault Refusal := done (twinUp s)

/-- HELLO (R367, R368). -/
def hello (h : TwinHdr) (image : BitVec 64) (nonce : List Byte) (s : State) : State :=
  let c := linkFrame { h with tagOk := true } s
  if !c.2 then c.1
  else
    let s := peerCheck h.flags.seat image c.1
    let s := { s with twin := { s.twin with peerNonce := nonce } }
    { s with twin := { s.twin with skey := sessionKey s } }
def execHello (h : TwinHdr) (imageId : BitVec 64) (nonce : List Byte) (s : State) : Host.Outcome State Fault Refusal :=
  done (hello h imageId nonce s)

/-- A write to TWIN_CTRL (R369). -/
def twinCtrlWrite (v : Word) (s : State) : State :=
  let s := if bitAt v 2 then diagClr s else s
  let s := if bitAt v 1 then twinDown 0#4 none s else s
  if bitAt v 0 then resyncAsk true s else s

/-! ### Registers (R369) -/

def twinState (s : State) : Word :=
  flag s.twin.hold 31 ||| flag s.twin.inSync 30 ||| flag s.twin.resync 29 ||| flag s.twin.diag 28 ||| flag (ready s) 27
    ||| flag (seatB s) 26 ||| flag (isTwin s) 25 ||| flag s.twin.peerSeen 24 ||| flag s.twin.unver 23 ||| flag (offering s) 22
    ||| (List.range 3).foldl (fun w i => w ||| flag (pathLive s (vget {} s.twin.paths i)) (16 + i)) 0#32
    ||| wOf (Nat.min 255 s.twin.age)

def twinLink (s : State) : Word :=
  flag s.twin.up 31 ||| flag s.twin.crypt 30 ||| flag s.twin.rate 29 ||| place s.twin.lanes.toNat 16 ||| wOf s.twin.downs

def twinDiff (s : State) : Word := match s.twin.diff with
  | some n => flag true 31 ||| wOf n
  | none => 0#32

def twinResync (s : State) : Word := place (resyncSize s % 65536) 16 ||| wOf (s.twin.rsSent / 1048576 % 65536)

end Sys2Proof.Machine
end

