-- ==== Sys2Proof/Machine/Reset.lean ====
section
/-! DEFINITION. Resets and baselines: the ENGINE reach (R436, R441, R61, R347), the SYSTEM and DEEP reaches with what they keep
(R436, R440), the baselines (R29, R30, R38) and the operating points (R431). -/

namespace Sys2Proof.Machine

/-! ### ENGINE reach (R436) -/

/-- The next output blocks after an engine reset: R48's fade from the last sample each sink published (R441). -/
def fadeSinks (s : State) : Tab Blk := s.patch.outBlk.map fun e =>
  (e.1, { e.2 with words := fadeOut e.2.words.length (e.2.words.getLast?.getD 0#32) })

/-- A member that loses its engine holds cox no longer, with no offer (R347), and drives nothing as LIVE (R22). -/
def coxEnd (s : State) : State :=
  let s := { s with twin := { s.twin with hold := false, offer := none, release := none, yield := none, take := none, expired := false } }
  if isTwin s && s.sys.mode == .live then setDrive false s else s

/-- An engine-reach reset is asserted (R436): pending calls are discarded, cores, crews, slices and the patch's processing are
reset, every memory keeps its content; the release step falls back to the engine's where it had not passed the ports (R438).
`prog` is the burst of the ENG master that it ends (R412). -/
def engReset (prog : Option Burst) (s : State) : State :=
  if engHeld s then s else
  let s := callsDiscard s
  let s := { s with
    eng := { s.eng with phase := .held }
    cores := Vector.replicate 128 {}
    crews := Vector.replicate 16 {}
    mix := { s.mix with out := [], done := 0#16 }
    patch := { s.patch with bridges := [], same := [], outBlk := fadeSinks s }
    scene := { s.scene with arm := none, fades := [], cuts := [], align := [] }
    msvc := { s.msvc with hold := [] }
    sys := { s.sys with rel := if s.sys.rel = 7 then 6 else s.sys.rel } }
  masterReset .eng memPerform prog (coxEnd s)

/-- An engine-reach source covers the engine (R436): RST_ENG.HOLD, the boot and mode holds, the twin's reset. -/
def engCovered (s : State) : Bool :=
  bitAt (reg s Reg.RST_ENG) 0 || s.sys.bootHold || s.sys.modeHold || s.twin.rsReset

/-! ### Operating points (R430, R431) -/

/-- Core cycles before FINISH at a point (R430). -/
def pointCycles (p : Nat) : Nat := if p = 3 then 80000 else if p = 2 then 64000 else if p = 1 then 48000 else 32000

/-- The point of division `d` for an image under a PWR_OPCFG. -/
def opPoint (im : Image) (cfg : Word) (d : Nat) : Nat :=
  if bitAt cfg 31 then 3
  else (([0, 1, 2, 3].find? fun p =>
    decide (fld cfg (2 * d + 1) (2 * d) ≤ p) && decide (im.cycles[4 * d + p]?.getD 0 ≤ pointCycles p)).getD 3)

/-- Every division takes its point (R431). -/
def opSet (s : State) : State :=
  match s.eng.img with
  | none => s
  | some im =>
    let cfg := actReg s Reg.PWR_OPCFG
    { s with sys := { s.sys with opcfg := cfg, op := vmap (fun d _ => opPoint im cfg d) s.sys.op } }

/-! ### Baselines (R29, R30) -/

/-- CORE_STAT of a core at a FINISH (R488). -/
def coreStat (s : State) (n : Nat) : Word :=
  let k := coreAt s n
  let st := match coreDoes k with
    | .reset => 0
    | .asleep => 2
    | .stopped => 3
    | _ => 1
  place st 30 ||| place (vget 0 s.sys.op (n / 32)) 28 ||| place k.faultPc 12 ||| wOf k.faultCode.toNat

/-- What the snapshots of R197, R227, R228 and R488 show from now on. -/
def finView (s : State) : FinView :=
  { mat := matCells s.mem
    tsel := s.mix.tsel
    sinks := s.patch.sinks
    core := (List.range 128).map fun n =>
      let k := coreAt s n
      (n, (coreStat s n, if coreDoes k = .asleep then k.cyc else 0, k.cycMax))
    ratio := (s.patch.asrc.filter fun e => e.2.run && e.2.ratio != 0#32).map fun e => (e.1, e.2.ratio)
    ports := s.port.ports
    asrc := s.patch.asrc
    streams := s.net.streams
    act := s.act }

/-- A sink at a cold or warm baseline (R30): SETTLED, a change completed, its bridge channels allocated (R211, R514), its delay at
once with ALIGN_MISS where it is clamped (R220), its delay line empty. A sink that had lost its source, or whose route breaks a
domain rule, delivers MASKED (R210, R514). -/
def sinkSettle (i : Nat) (s : State) : State :=
  let x := sinkAt s i
  let src := match x.chg with
    | some r => r.src
    | none => x.src
  let lost := (x.lost && x.chg.isNone) || !routeDomOk s src i
  let here := src == silence || (srcDom s src).isSome
  let miss := if lost then [] else brMissing s src i
  let fits := decide (miss.length ≤ brFree s)
  let d := alignDly s src i
  let s := if x.chg.isSome || src != silence then alignCheck src i s else s
  let s := if lost && !x.lost then patchStat 0 s else s
  let s := if fits then brAlloc miss s else noBridge s
  putSink i {
    src := src, dly := d, dlyOld := d, dlyTgt := d, lost := lost, pres := here && fits, dom := srcDom s src, noBr := !fits } s

/-- An asynchronous channel takes its configuration (R227); a reserved domain acts as EN = 0. The IDs of a disabled channel keep its
settings (R201). -/
def asrcLatch (a : Nat) (s : State) : State :=
  let c := regAt s Reg.ASRC_CFG a
  let run := bitAt c 31 && fld c 29 28 != 3
  let x : Asrc := { cfg := c, run := run, ratio := if run then (asrcAt s a).ratio else 0#32 }
  putAsrc a (if run then { x with arrived := 32 + asrcFill x, pos := 251658240 } else x) s

/-- Words that a baseline clears (R30): both halves of the send plane (R178), the fork table (R246), both meter copies (R167) and
the patch areas, from which every strip source then delivers 0 VALID (R515). -/
def baseClear (s : State) : State :=
  let s := clearMem (planeAddr s 0) 0x18000 s
  let s := clearMem (forkAddr 0) 0x1E00 s
  let s := { clearMem (centralAddr 0x3E0000) 0xF000 s with stage := [] }
  let s := (stripsUsed s).foldl (fun s n => if stripForked s n then setDescBit n 24 false s else s) s
  let s := (List.range 16).foldl (fun s c => clearMem (crewAddr c (areaBase s c)) (8 * (areaIn s c + areaOut s c)) s) s
  (stripSrcs s).foldl (fun s i => publishSrc 0 i s) { s with patch := { s.patch with now := [] } }

/-- A slice at a cold baseline (R186): CUR equal to the target in force, step words and sign store clear. -/
def sliceCold (sl : Nat) (s : State) : State :=
  let s := writeWords (curAddr sl 0) (memWords s.mem (tgtAddr sl (tselOf s sl) 0) sliceXp) s
  clearMem (signAddr sl 0) 192 (clearMem (stepAddr sl 0) (2 * sliceXp) s)

/-- The sign store and the gain state of every slice at a cold baseline (R186); a warm one keeps them. -/
def matrixCold (s : State) : State := (List.range 16).foldl (fun s sl => sliceCold sl s) s

/-- The patch at a cold or warm baseline: asynchronous channels, then the sinks of the table in ascending order, then the other input
strip sinks, which take SILENCE at their group's delay (R220). -/
def patchBase (s : State) : State :=
  let s := { s with patch := { s.patch with bridges := [], same := [] } }
  let s := (List.range 128).foldl (fun s a => asrcLatch a s) s
  let rest := (stripSinks s).filter fun i => hasLine s i && tget {} s.patch.sinks i == {}
  ((s.patch.sinks.map (·.1)) ++ rest).foldl (fun s i => sinkSettle i s) s

/-- The lapse record at a baseline whose first stroke is `k` (R38). -/
def detBaseline (k : BitVec 64) (s : State) : State :=
  let s := setReg Reg.DET_STAT 0#32 s
  { s with eng := { s.eng with detFirst := 0#64, detBase := k } }

/-- The engine's units at a cold or warm baseline whose first stroke is `k`. -/
def unitsBase (k : BitVec 64) (s : State) : State :=
  { s with
    eng := { s.eng with stroke := k, phase := .waiting, latched := [], ovrCount := 0, ovr := [], ovrAt := [], coreOvr := [], digest := 0#64, digestOf := 0#64 }
    cores := Vector.replicate 128 { run := .asleep }
    crews := Vector.replicate 16 {}
    mix := { s.mix with tselWas := s.mix.tsel, out := [], done := 0#16, doneMax := 0 }
    scene := { s.scene with arm := none, fades := [], cuts := [], align := [] }
    call := { s.call with wu := 0, accepted := 0 }
    twin := { s.twin with last := k, peerSeen := false, unver := false, commit := k - 1#64, expired := false } }

/-- A cold or warm baseline (R30) whose first stroke is `k`. -/
def baseline (warm : Bool) (k : BitVec 64) (s : State) : State :=
  let s := baseClear s
  let s := if warm then s else matrixCold s
  let s := opSet (detBaseline k (unitsBase k (patchBase s)))
  receiptsOwed (syncLost { s with fin := finView s })

/-! ### SYSTEM and DEEP reach (R436, R440) -/

/-- Registers after a reset of SYSTEM or DEEP reach: those of the keel keep their values, but on DEEP (R440, R455); the wipe
causes stay with Geode (R390). -/
def keelRegs (deep : Bool) (bits : Word) (s : State) : Tab Word :=
  let cause := (if deep then reg s Reg.RST_CAUSE &&& 3#32 else reg s Reg.RST_CAUSE) ||| bits
  let t := tset 0#32 (tset 0#32 State.resetRegs Reg.RST_CAUSE cause) Reg.GEODE_STAT (reg s Reg.GEODE_STAT &&& 0xF#32)
  if deep then t
  else tset 0#32 (tset 0#32 t Reg.RST_FSTART (reg s Reg.RST_FSTART)) Reg.PWR_AUX (reg s Reg.PWR_AUX)

/-- A source of SYSTEM or DEEP reach is asserted (R436, R438): everything but the keel is reset, the memories keep their contents
until the memories step clears them, and the domains are released anew. `bits` are its RST_CAUSE bits. -/
def sysAssert (deep : Bool) (bits : Word) (s : State) : State :=
  let s := storeAbort (if engHeld s then s else callsDiscard s)
  let r := State.reset
  { r with
    pending := s.pending
    freeCtr := s.freeCtr
    mem := s.mem
    out := s.out
    regs := keelRegs deep bits s
    call := { r.call with owed := s.call.owed }
    ref := { r.ref with xinBack := s.ref.xinBack, intOsc := !s.ref.xinBack }
    twin := { r.twin with epoch := if deep then 0#32 else s.twin.epoch }
    slate := { r.slate with status := s.slate.status, item := s.slate.item, logHead := s.slate.logHead, repairSeq := s.slate.repairSeq }
    geode := s.geode
    msvc := { r.msvc with ecc := s.msvc.ecc }
    sys := { r.sys with
      rel := if deep || s.sys.rel = 0 then 0 else 1
      deep := deep || s.sys.deep, resetN := s.sys.resetN, tamper := s.sys.tamper, therm := s.sys.therm, thermLog := s.sys.thermLog, thermInj := s.sys.thermInj
      newCause := s.sys.newCause ||| bits, straps := s.sys.straps, vio := s.sys.vio, vioCls := s.sys.vioCls } }

/-! ### Leaving a mode (R433) -/

/-- DORMANT powers the keel alone (R435): everything else is as after a reset. -/
def dormant (s : State) : State :=
  let t := sysAssert false 0#32 s
  { t with sys := { t.sys with mode := .dormant, rel := 1, rstout := false, deep := false, newCause := s.sys.newCause } }

/-- The mode `m` is entered (R432, R433): the engine goes under the mode hold; RETAIN waits for its copy (R434). -/
def modeEnter (m : Mode) (s : State) : State :=
  match m with
  | .dormant => dormant s
  | .retain => { engReset none s with sys := { (engReset none s).sys with modeHold := true, busy := some .retain, ramped := true } }
  | _ =>
    let s := engReset none s
    { s with sys := { s.sys with mode := m, modeHold := true, busy := none, ramped := false, modeRes := 1 } }

end Sys2Proof.Machine
end

