-- ==== Sys2Proof/Machine/TimePtp.lean ====
section
/-! DEFINITION. PTP and system time (10): the two instances (R291–R293), the split of R295 and its resolutions (R296), the held
offset (R294) and the latched time (R288). -/

namespace Sys2Proof.Machine

/-- Source ID of a PTP instance (R314). -/
def ptpSrc (i : Nat) : BitVec 16 := srcId 1 5 (2 + i) 0

def ptpCfg (s : State) (i : Nat) : Word := regAt s Reg.PTP_CFG i

/-- Strokes per second that D is measured in; the 96 kHz family's before an image is loaded. -/
def splitRate (s : State) : Nat := if sps s = 0 then 12000 else sps s

/-- OFS of an instance (R293): without the held offset of the instance followed (log entry 117). -/
def ptpOfs (s : State) (i : Nat) : Int := (ptpAt s i).ofs - if s.ref.sel = some i then s.net.held else 0

/-- The split of the domains (R295). A selector that waits for the host starts again once both instances agree (log entry 118). -/
def splitCheck (s : State) : State :=
  let both := (ptpAt s 0).st == 3 && (ptpAt s 1).st == 3
  let d := if both then ptpOfs s 0 - ptpOfs s 1 else 0
  let near := decide (2 * d.natAbs * splitRate s ≤ Time.second)
  let s := { s with net := { s.net with split := d, splitOk := both } }
  let s := if both && near && s.net.waitHost then refSelect (endWait s) else s
  if s.net.isSplit then
    if both && !near then s
    else refSelect { s with net := { s.net with isSplit := false } }
  else
    let r := detect false (ptpSrc 0) 0x601#12 .degrade 0#32 (decide (Time.second < d.natAbs * splitRate s)) s
    if r.2 then orReg Reg.TIME_STAT 2#32 { r.1 with net := { r.1.net with isSplit := true } } else r.1

/-- An instance leaves SLAVE, or is restarted in state `st`: its reference is unusable (R292) and of QL 0 (R318). -/
def ptpLeave (i st : Nat) (s : State) : State :=
  let x := ptpAt s i
  let s := putPtp i { x with st := st, good := 0, known := false, master := none, wait := none, sec := 0#48 } s
  splitCheck (refSelect (qlRefresh i (refLose i s)))

/-- The words of a publication (R312). -/
def ptpWords (ofs : Int) (x : Ptp) : List Word :=
  [(sat32 (ofs / 65536)).1, wOf (ofs % 65536).toNat, x.delay, x.gm, lo64 x.gmid, hi64 x.gmid]

/-- Publishes at most once per stroke (R293). Before an image has given the rate there are no strokes. -/
def ptpPublish (i : Nat) (s : State) : State :=
  let x := ptpAt s i
  let k := ioStroke s
  if sps s ≠ 0 ∧ x.pubAt = some k then s
  else putPtp i { x with pub := publish (ptpWords (ptpOfs s i) x) x.pub, pubAt := some k } s

/-! ### The best master clock algorithm and the estimate (R287, R290, R291): the formulas are those of IEEE 1588 (PRESUMED, log entry 117) -/

/-- A list of numbers precedes another. -/
def lexLess : List Nat → List Nat → Bool
  | a :: as, b :: bs => decide (a < b) || (a == b && lexLess as bs)
  | _, _ => false

/-- A data set in the order its members are compared. -/
def dataRank (d : PtpData) : List Nat :=
  [d.prio1.toNat, d.cls.toNat, d.acc.toNat, d.variance.toNat, d.prio2.toNat, d.gmid.toNat]

/-- Master `a` is better than `b`: by its grandmaster, and for one grandmaster by the way to it. -/
def ptpBetter (a b : PtpMaster) : Bool :=
  if a.data.gmid = b.data.gmid then lexLess [a.data.steps.toNat, a.sender.toNat] [b.data.steps.toNat, b.sender.toNat]
  else lexLess (dataRank a.data) (dataRank b.data)

/-- The instance's master is the port `sender`. -/
def isMaster (x : Ptp) (sender : BitVec 80) : Bool := match x.master with
  | some m => m.sender == sender
  | none => false

/-- PTP_GM of a data set (R312). -/
def gmWord (d : PtpData) : Word := place d.cls.toNat 24 ||| place d.acc.toNat 16 ||| wOf d.utc.toNat

/-- An Announce (R291, R292): the best master is kept, and a new one makes the instance UNCALIBRATED (log entry 67). -/
def ptpAnnounce (i : Nat) (sender : BitVec 80) (d : PtpData) (s : State) : State :=
  let x := ptpAt s i
  let new : PtpMaster := ⟨sender, d⟩
  let same := isMaster x sender
  let takes := same || match x.master with
    | some m => ptpBetter new m
    | none => true
  if !takes then s
  else
    let s := if !same && x.st == 3 then ptpLeave i 2 s else s
    let x := ptpAt s i
    let x := if same then x else { x with st := 2, good := 0, wait := none, sec := 0#48 }
    let s := putPtp i { x with master := some new, gm := gmWord d, gmid := d.gmid, known := true } s
    qlRefresh i (ptpPublish i s)

/-- PTP time in system time: its 48-bit seconds extended by TIME_EPOCH (R287). -/
def ptpTime (s : State) (t : PtpTime) : Int :=
  ((fld (reg s Reg.TIME_EPOCH) 15 0 * 2 ^ 48 + t.sec.toNat) * Time.second + t.ns.toNat * 65536 : Nat)

/-- The seconds of an instance's master; where the followed domain carries past 2⁴⁸, TIME_EPOCH moves on (R287). -/
def ptpSeconds (i : Nat) (sec : BitVec 48) (s : State) : State :=
  let x := ptpAt s i
  let s := if s.ref.sel = some i ∧ 2 ^ 47 ≤ x.sec.toNat ∧ sec.toNat < 2 ^ 47
    then setReg Reg.TIME_EPOCH ((reg s Reg.TIME_EPOCH + 1#32) &&& 0xFFFF#32) s else s
  putPtp i { x with sec } s

/-- An egress stamp at the connector (R289, R290): 32.0 ns and NET_ASYM_TX later. -/
def egress (s : State) (port : Fin 2) (t : Time) : Int := (t : Int) + 2097152 + psTime (netReg s Reg.NET_ASYM_TX0 port.val)

/-- A new estimate (R292): 16 consecutive ones that stay within 1 µs of the first make a SLAVE. -/
def ptpEstimate (i : Nat) (ofs : Int) (s : State) : State :=
  let x := ptpAt s i
  let run := 0 < x.good ∧ (ofs - x.base).natAbs ≤ 1000 * 65536
  let good := if run then Nat.min 16 (x.good + 1) else 1
  let enter := x.st == 2 && good == 16
  let s := putPtp i { x with ofs, base := if run then x.base else ofs, good, st := if enter then 3 else x.st } s
  let s := if enter then refSelect (qlRefresh i (refGain i s)) else s
  splitCheck (ptpPublish i s)

/-- A Sync that left the master at `t1` and arrived at `t2` (R291, R293). -/
def ptpSync (i : Nat) (t1 : PtpTime) (corr : Int) (t2 : Time) (s : State) : State :=
  let s := ptpSeconds i t1.sec s
  let t21 := (t2 : Int) - (ptpTime s t1 + corr)
  let x := ptpAt s i
  ptpEstimate i (x.mpd - t21) (putPtp i { x with t21, wait := none } s)

/-- A new mean path delay. -/
def ptpDelay (i : Nat) (d : Int) (s : State) : State :=
  let x := ptpAt s i
  ptpPublish i (putPtp i { x with mpd := d, delay := (sat32 (d / 65536)).1 } s)

/-- The message of its master, or of its peer, that an instance takes (R291). -/
def ptpBody (i : Nat) (msg : PtpMessage) (s : State) : State :=
  let x := ptpAt s i
  let p2p := fld (ptpCfg s i) 30 29 == 2
  let t := ingress s msg.hdr
  match msg.body with
  | .announce d => ptpAnnounce i msg.sender d s
  | .sync twoStep ts =>
    if !isMaster x msg.sender then s
    else if twoStep then putPtp i { x with wait := some ⟨msg.seq, t, msg.correction⟩ } s
    else ptpSync i ts msg.correction t s
  | .followUp ts =>
    match x.wait with
    | some w => if isMaster x msg.sender && w.seq == msg.seq then ptpSync i ts (w.corr + msg.correction) w.at_ s else s
    | none => s
  | .delayResp ts sent =>
    if p2p || !isMaster x msg.sender then s
    else ptpDelay i ((x.t21 + (ptpTime s ts - msg.correction - egress s msg.hdr.port sent)) / 2) s
  | .pdelayResp recv resp sent =>
    if !p2p then s
    else ptpDelay i ((((t : Int) - egress s msg.hdr.port sent) - (ptpTime s resp - ptpTime s recv) - msg.correction) / 2) s

/-- PTP_MESSAGE (R291): for the instance's port and domain, while it is enabled. -/
def ptpMessage (i : Nat) (msg : PtpMessage) (s : State) : State :=
  let c := frameCheck msg.hdr s
  let s := c.1
  let cfg := ptpCfg s i
  let port := if bitAt cfg 28 then 1 else 0
  if !c.2 || (ptpAt s i).st == 0 || msg.hdr.port.val != port || msg.domain.toNat != fld cfg 23 16 then s else ptpBody i msg s
def execPtpMessage (i : Fin 2) (msg : PtpMessage) (s : State) : Host.Outcome State Fault Refusal := done (ptpMessage i.val msg s)

/-- PTP_LOST (R292). -/
def ptpLost (i : Nat) (s : State) : State :=
  if (ptpAt s i).st < 2 then s else ptpLeave i 1 (detect false (ptpSrc i) 0x600#12 .degrade 0#32 true s).1
def execPtpLost (i : Fin 2) (s : State) : Host.Outcome State Fault Refusal := done (ptpLost i.val s)

/-- PTP_CFG (R292): a write with EN = 1 restarts the instance; a DOMAIN of 128 or more is ignored. The instance leaves SLAVE, so a split clears
and the selector acts on what remains (R295, R296). -/
def ptpCfgWrite (m : Master) (v : Word) (s : State) : State :=
  if 128 ≤ fld v 23 16 then progError m Reg.PTP_CFG s
  else
    let i := (bank s m).ptp
    let s := setRegAt Reg.PTP_CFG i (v &&& 0xF0FF000F#32) s
    let x := ptpAt s i
    let s := putPtp i { x with pub := { x.pub with valid := false }, pubAt := none } s
    ptpLeave i (if bitAt v 31 then 1 else 0) (endWait { s with net := { s.net with isSplit := false } })
def execPtpCfg (m : Master) (v : Word) (s : State) : Host.Outcome State Fault Refusal := done (ptpCfgWrite m v s)

/-- PTP_STATE (R312). -/
def ptpStateWord (s : State) (i : Nat) : Word := let x := ptpAt s i; resWord x.pub (place x.st 28)

/-! ### The split's resolutions (R296) -/

/-- The PTP instance the selector ranks first among those that qualify. -/
def ptpFirst (s : State) : Option Nat :=
  let q := [0, 1].filter fun r => (refAt s r).st == 3
  q.find? fun r => q.all fun v => v == r || !outranks s v r

/-- TIME_CTRL.FORCE: a switch with held offset, while the domains are split. -/
def timeForce (s : State) : State :=
  if !s.net.isSplit then s
  else match ptpFirst s with
    | some r => if s.ref.sel = some r then s else refSwitch r (endWait s)
    | none => s

/-- System time steps by an offset on the host's command: STEPPED and TIME_STEP. -/
def hostStep (d : Int) (s : State) : State :=
  stepTime d (detect false (ptpSrc (s.ref.sel.getD 0)) 0x602#12 .fault 0#32 true s).1

/-- The held offset has gone: its slew ends, and TIME_STAT.SLEWING with it (R294). -/
def holdEnd (s : State) : State :=
  if s.net.held = 0 then s else setHeld 0 { s with ref := { s.ref with slew := if s.ref.slew = 2 then 0 else s.ref.slew } }

/-- TIME_CTRL.STEP: a switch by a step, which is not hitless (R325), or the rest of a FORCE slew at once. -/
def timeStep (s : State) : State :=
  if !s.net.isSplit then s
  else match ptpFirst s with
    | none => s
    | some r =>
      if s.ref.sel = some r then
        (if s.net.held = 0 then s else hostStep s.net.held (holdEnd s))
      else
        let s := refSwitch r (endWait s)
        let s := setFreq (freqGoal s) (setHeld 0 { s with ref := { s.ref with slew := 0 } })
        hostStep (ptpAt s r).ofs s

def execTimeForce (_m : Master) (s : State) : Host.Outcome State Fault Refusal := done (timeForce s)
def execTimeStep (_m : Master) (s : State) : Host.Outcome State Fault Refusal := done (timeStep s)

/-- A write to TIME_CTRL. -/
def timeCtrlWrite (v : Word) (s : State) : State :=
  let s := if bitAt v 0 then timeForce s else s
  if bitAt v 1 then timeStep s else s

/-- HOLD_SLEW_DONE (R294): the held offset has reached 0. -/
def execHoldSlewDone (s : State) : Host.Outcome State Fault Refusal := done (holdEnd s)

/-- TIME_STAT, TIME_HOLD_NS and TIME_SPLIT_NS as read (R312). -/
def timeStat (s : State) : Word := (reg s Reg.TIME_STAT &&& 3#32) ||| flag s.net.isSplit 2 ||| flag (s.net.held != 0) 3
def holdNs (s : State) : Word := nsWord s.net.held
def splitNs (s : State) : Word := if s.net.splitOk then nsWord s.net.split else 0#32

/-- System time as the four registers of R288. -/
def timeWords (t : Time) : List Word :=
  let sec := t / Time.second
  [wOf sec, wOf (sec / 4294967296), wOf (t % Time.second / 65536), wOf (t % 65536)]

/-- TIME_LATCH (R288): a master reads TIME_SEC_LO at time `t`. -/
def timeLatch (m : Master) (t : Time) (s : State) : State :=
  snapTake m Reg.TIME_SEC_LO (timeWords t) { s with net := { s.net with now := t } }
def execTimeLatch (m : Master) (t : Time) (s : State) : Host.Outcome State Fault Refusal := done (timeLatch m t s)

end Sys2Proof.Machine
end

