-- ==== Sys2Proof/Machine/Stroke.lean ====
section
/-! DEFINITION. The stroke (01, 02): what CATCH and FINISH do in the order of R44, with the overrun treatment (R47–R49), the meters
(R167), the digest (R362) and the twin's shipments (R358, R359). -/

namespace Sys2Proof.Machine

/-! ### FINISH (R44, R47) -/

/-- Cores that are not asleep, and slices that are not done (R47, R104). -/
def lateCores (s : State) : List Nat := (List.range 128).filter fun n => coreDoes (coreAt s n) != .asleep
def lateSlices (s : State) : List Nat := (List.range 16).filter fun sl => !s.mix.done.getLsbD sl

/-- What the FINISH test finds: the state with its records, and the units that overran by number (cores 0–127, slices from 128). -/
structure OverrunRes where
  s : State
  late : List Nat

/-- ENGINE_OVERRUN of one unit (R47). -/
def overrunUnit (r : OverrunRes) (u : Nat) (src : BitVec 16) (late : Bool) : OverrunRes :=
  let d := detect true src 0x300#12 .fault 0#32 late r.s
  if d.2 then ⟨lapse detOverrun d.1, r.late ++ [u]⟩ else ⟨d.1, r.late⟩

/-- The FINISH test of every core and slice (R47). -/
def overrunTest (s : State) : OverrunRes :=
  let cores := lateCores s
  let slices := lateSlices s
  let r := (List.range 128).foldl (fun r n => overrunUnit r n (coreSrc n) (cores.contains n)) ⟨s, []⟩
  (List.range 16).foldl (fun r sl => overrunUnit r (128 + sl) (sliceSrc sl) (slices.contains sl)) r

/-- A core that overran stops; the stores it committed reach memory (R47). -/
def coreStop (n : Nat) (s : State) : State :=
  let s := drainAll n s
  let k := coreAt s n
  putCore n (if k.run = .halted then { k with paused := .stopped, crewQ := [], winQ := [], held := none }
    else { k with run := .stopped, crewQ := [], winQ := [], held := none }) s

/-- ENGINE_OVERRUN_REPEAT (R49): a second overrun stroke within any 8 consecutive ones. -/
def overrunRepeat (s : State) : State :=
  let k := s.eng.stroke
  let again := s.eng.ovrAt.any fun j => decide (k.toNat < j.toNat + 8)
  let s := (detect false callSrc 0x301#12 .fatal 0#32 again s).1
  { s with eng := { s.eng with
    ovrCount := satInc max32 s.eng.ovrCount
    ovrAt := (s.eng.ovrAt.filter fun j => decide (k.toNat < j.toNat + 7)) ++ [k] } }

/-- The overrun stroke of each core that overran, kept for the meters of 255 strokes (R166). -/
def overrunNote (late : List Nat) (s : State) : State :=
  let k := s.eng.stroke
  { s with eng := { s.eng with coreOvr := late.foldl (fun t n =>
    if n < 128 then tset [] t n (((tget [] t n).filter fun j => decide (k.toNat < j.toNat + 255)) ++ [k]) else t) s.eng.coreOvr } }

/-- Units that overran are stopped, counted and noted (R47, R49). -/
def overrunAct (late : List Nat) (s : State) : State :=
  if late.isEmpty then s
  else
    let s := late.foldl (fun s n => if n < 128 then coreStop n s else sliceStop (n - 128) s) s
    overrunNote late (overrunRepeat s)

/-- An entry needs the treatment of R48: its owner overran, or an earlier overrun is not yet over. -/
def treated (s : State) (late : List Nat) (e : Nat) : Bool :=
  match ownerOf s e with
  | some n => late.contains n || treatOf s e != .none
  | none => false

/-- The owner of entry `e` overran in this stroke. -/
def entryLate (s : State) (late : List Nat) (e : Nat) : Bool :=
  match ownerOf s e with
  | some n => late.contains n
  | none => false

/-- The treatment of an output sink: `was` holds the output blocks of the stroke before (R48). -/
def treatSink (late : List Nat) (was : Tab Blk) (i : Nat) (s : State) : State :=
  if !treated s late i then s
  else
    let b := outBlkIn s s.patch.outBlk i
    let n := domN (sinkDom s i)
    let r := treatBlock (entryLate s late i) n (treatOf s i) ((outBlkIn s was i).words.getLast?.getD 0#32) b.words
    putTreat i r.1 { s with patch := { s.patch with outBlk := tset {} s.patch.outBlk i { b with words := r.2 } } }

/-- The treatment of send-plane entry `e` (R48, R177): the half written in this stroke, after the sample published before. -/
def treatPlane (late : List Nat) (e : Nat) (s : State) : State :=
  if !treated s late (8192 + e) then s
  else
    let h := s.eng.stroke.toNat % 2
    let a := planeAddr s h + 32 * e
    let x := peek s (planeAddr s (1 - h) + 32 * e + 28)
    let r := treatBlock (entryLate s late (8192 + e)) 8 (treatOf s (8192 + e)) x (memWords s.mem a 8)
    putTreat (8192 + e) r.1 (writeWords a r.2 s)

/-- A strip input whose owner overran (R47): its block of the stroke becomes the fade from the last sample of the block before; in the
strokes that follow, delivery applies the rest of R48 (log entry 48). -/
def treatInput (late : List Nat) (i : Nat) (s : State) : State :=
  if !entryLate s late i then s
  else
    let h := s.eng.stroke.toNat % 2
    let n := domN (sinkDom s i)
    putTreat i (.silence 0) (writeWords (inAddr s h i + 4) (fadeOut n (peek s (inAddr s (1 - h) i + 4 * n))) s)

/-- The input of an asynchronous channel of DIR = 0 whose owner overran (R47): the samples that came at the last CATCH become the fade
from the one before them. -/
def treatAsync (late : List Nat) (a : Nat) (s : State) : State :=
  if !entryLate s late (0x1800 + a) then s
  else
    let x := asrcAt s a
    let fade := fadeOut x.inN (x.fifo[x.inN]?.getD 0#32)
    putTreat (0x1800 + a) (.silence 0) (putAsrc a { x with fifo := fade.reverse ++ x.fifo.drop x.inN } s)

/-- One entry of the OWN section (R47, R48, R516). -/
def treatEntry (late : List Nat) (was : Tab Blk) (e : Nat) (s : State) : State :=
  if 8192 ≤ e then treatPlane late (e - 8192) s
  else if isOut s e then treatSink late was e s
  else if 0x1000 ≤ e ∧ e < 0x1800 then treatInput late e s
  else if isForeignIn s e then treatAsync late (e - 0x1800) s
  else s

/-- The entries that a core owns and that overran with it, or are still under treatment. -/
def treatedEntries (s : State) (late : List Nat) : List Nat := match s.eng.img with
  | some im => (im.own.zipIdx.filter fun e => e.1 < 128 && (late.contains e.1 || treatOf s e.2 != .none)).map (·.2)
  | none => []

/-- Every owned sink and send-plane entry (R47, R48). -/
def overrunTreat (late : List Nat) (was : Tab Blk) (s : State) : State :=
  if late.isEmpty && s.eng.ovr.isEmpty then s
  else (treatedEntries s late).foldl (fun s e => treatEntry late was e s) s

/-- OVERRUN_SINK_RECOVER (R48): after 8 clean strokes the entry ramps back. Entry 9,728 + n stands for the bus outputs of slice n. -/
def sinkRecover (e : Nat) (s : State) : State := if treatOf s e = .silence 8 then putTreat e (.ramp 0) s else s
def execOverrunSinkRecover (entry : Nat) (s : State) : Host.Outcome State Fault Refusal := done (sinkRecover entry s)

/-- The strips whose meter window ends at this stroke (R167). -/
def meterStrips (s : State) : List Nat :=
  (stripsUsed s).filter fun n => (s.eng.stroke.toNat + 1) % stripWin s n == 0

/-- METER_PUBLISH of a strip (R166, R167). -/
def meterPublish (n : Nat) (s : State) : State :=
  let a := centralAddr (0x3E0000 + 32 * n)
  let k := s.eng.stroke
  let ovr := (tget [] s.eng.coreOvr (stripCore s n)).any fun j => decide (k.toNat < j.toNat + stripWin s n)
  let gen := genNext (fld (peek s a) 15 0)
  writeWords a ((flag true 31 ||| flag ovr 30 ||| wOf gen) :: memWords s.stage (a + 4) 6 ++ [lo64 k]) s

def metersPublish (s : State) : State := (meterStrips s).foldl (fun s n => meterPublish n s) s

/-- One byte of CRC-64 ECMA-182 (R362), most significant bit first. -/
def crc64Bit (c : Nat) : Nat :=
  if 9223372036854775808 ≤ c then ((c * 2) ^^^ 0x42F0E1EBA9EA3693) % 18446744073709551616 else c * 2
def crc64Byte (c : Nat) (b : Byte) : Nat :=
  let x := c ^^^ (b.toNat * 72057594037927936)
  crc64Bit (crc64Bit (crc64Bit (crc64Bit (crc64Bit (crc64Bit (crc64Bit (crc64Bit x)))))))
def crc64 (bs : List Byte) : BitVec 64 := BitVec.ofNat 64 (bs.foldl crc64Byte 0)

/-- The sinks whose published samples the digest covers (R362): every output slot, transmit channel and input of an asynchronous channel
of DIR = 1, whether or not the table names it; a slot of a FOREIGN port takes no samples of the engine (log entry 113). -/
def digestSinks (s : State) : List Nat := (List.range 0x1880).filter fun i => isOut s i && sinkDom s i != 3

/-- The words that the digest of the stroke covers (R362), in order; `meters` are the strips published. -/
def digestWords (meters : List Nat) (s : State) : List Word :=
  ((digestSinks s).flatMap fun i => (outBlkIn s s.patch.outBlk i).words)
    ++ memWords s.mem (planeAddr s (s.eng.stroke.toNat % 2)) 12288
    ++ (stripsAll.flatMap fun n => memWords s.mem (crewAddr (stripCrew s n) (carryBase s n)) (carryLen s n))
    ++ meters.flatMap fun n => memWords s.mem (centralAddr (0x3E0000 + 32 * n)) 8

/-- The digest of the stroke at FINISH (R362). -/
def digestTake (meters : List Nat) (s : State) : State :=
  if isTwin s then
    { s with eng := { s.eng with digest := crc64 ((digestWords meters s).flatMap leBytes), digestOf := s.eng.stroke } }
  else s

/-- FINISH (R44, R47, R167, R202, R237, R341, R362). -/
def finishStroke (s : State) : State :=
  if s.eng.phase != .drive then s
  else
    let o := overrunTest s
    let core := (finView o.s).core
    let was := o.s.patch.outBlk
    let s := overrunTreat o.late was (patchPublish (overrunAct o.late o.s))
    let m := meterStrips s
    let s := digestTake m (metersPublish s)
    let s := forkWrite s.eng.stroke.toNat s
    let s := { s with
      fin := { finView s with core }
      call := { s.call with wu := 0 }
      twin := { s.twin with age := s.eng.stroke.toNat - s.twin.last.toNat } }
    let s := resyncStep (heartbeatSend s)
    { s with eng := { s.eng with phase := .finished } }
def execFinish (s : State) : Host.Outcome State Fault Refusal := done (finishStroke s)

/-! ### CATCH: registers and ports -/

/-- The STROKE registers take their active copies (R6). -/
def actCopy (s : State) : State :=
  let rows := Reg.rows.filter fun r => r.eff == .stroke
  { s with act := s.regs.filter fun e => rows.any fun r => r.off ≤ e.1 % 16777216 && decide (e.1 % 16777216 < r.off + 4 * r.cnt) }

/-- The CATCH ramps the emission of stroke `t` down (R346, R433). -/
def fading (t : BitVec 64) (s : State) : Bool := s.twin.yield == some t || (running s && s.sys.busy.isSome)

/-- The output blocks of the stroke before are frozen for emission (R44). -/
def emitFreeze (s : State) : State := { s with patch := { s.patch with emitBlk := s.patch.outBlk } }

/-- What ports, streams and clock outputs do at every CATCH, whether or not the engine runs (R441): blocks of stroke `t` − 1 are
frozen, STROKE registers act, and `mid` runs between the freeze and the emission of `t`. -/
def ioCatch (t : BitVec 64) (pdm : List (Nat × PdmIn)) (mid : State → State) (s : State) : State :=
  let c := s.eng.gridAt
  let k := t - 1#64
  let fade := fading t s
  let s := streamsLatch (actCopy (netFreeze k.toNat s))
  let s := mid (emitFreeze (portsCatch k t c fade pdm s))
  let s := (List.range 48).foldl (fun s p => portEmitBlock t p s) s
  let s := mediaTransmit t.toNat fade s
  (List.range 7).foldl (fun s i => ckDrive t.toNat i (ckApply i s)) s

/-! ### CATCH: asynchronous bridges (R217–R219) -/

/-- The input words of a channel in the stroke: of DIR = 0 those of the foreign block its sink names, of DIR = 1 its output
block; and whether frames were lost (R257). -/
def asrcIn (s : State) (a : Nat) : Blk :=
  let x := asrcAt s a
  if asrcOut x then outBlkIn s s.patch.emitBlk (0x1800 + a)
  else
    let src := (sinkAt s (0x1800 + a)).src
    if srcDom s src = some 3 then tget {} s.patch.blocks src else {}

/-- Channel `a` in a running stroke; its RATIO is the estimate frozen at the CATCH, held while its port is stopped. -/
def asrcStroke (ratios : List (Nat × Word)) (a : Nat) (s : State) : State :=
  let x := asrcAt s a
  if !x.run then s
  else
    let ratio := if x.unlock then x.ratio else ((ratios.find? fun e => e.1 == a).map (·.2)).getD x.ratio
    let s := putAsrc a { x with ratio } s
    let b := asrcIn s a
    let n := if asrcOut x then (portAt s (asrcPort x)).inF else domN (asrcDom x)
    let q := if asrcOut x then (s, b.words) else treatWords (0x1800 + a) b.words s
    let s := asrcRun a n q.2 (!asrcOut x && b.status == 2) q.1
    if asrcOut x then s
    else
      let y := asrcAt s a
      { s with patch := { s.patch with blocks := tset {} s.patch.blocks (0x1800 + a) ⟨y.status, y.outw⟩ } }

def asrcCatch (ratios : List (Nat × Word)) (s : State) : State :=
  (s.patch.asrc.map (·.1)).foldl (fun s a => asrcStroke ratios a s) s

/-! ### CATCH: the twin's input section (R358, R359) -/

/-- Treatment as a FREEZE frame carries it. -/
def treatRx (x : SrcTreat) : Treat := if x.stage = 1#2 then .silence x.count else if x.stage = 2#2 then .ramp x.count else .none

/-- The holder's treatment of a source is taken over (R358): the port's stage and gates, or the channel's. -/
def treatTake (x : SrcTreat) (s : State) : State :=
  if x.src < 0x600 then
    let p := portAt s (x.src / 32)
    putPort (x.src / 32) { p with
      treat := treatRx x, lastw := (p.lastw ++ zeros (32 - p.lastw.length)).set (x.src % 32) x.last
      run := { p.run with p := x.runP }, mute := { p.mute with p := x.muteP } } s
  else if x.src < 0x620 then putPdm (x.src - 0x600) { pdmAt s (x.src - 0x600) with gate := { (pdmAt s (x.src - 0x600)).gate with p := x.runP } } s
  else if 0x800 ≤ x.src ∧ x.src < 0x1000 then putRxt (x.src - 0x800) { treat := treatRx x, lastw := x.last } s
  else s

/-- FRAMES of a port's block of stroke `k` as the holder froze it; the rest of the header is this unit's own (log entry 120). -/
def framesTake (k : BitVec 64) (src : Nat) (frames : BitVec 8) (s : State) : State :=
  if src < 0x600 then
    let a := headerAddr false (src / 32) k
    writeWord a ((peek s a &&& 0xFFFFFF00#32) ||| wOf frames.toNat) s
  else s

/-- One block as the holder froze it. -/
def blockTake (inp : List InputBlock) (k : BitVec 64) (e : Nat × BitVec 2 × BitVec 8) (s : State) : State :=
  let ws := ((inp.reverse.find? fun b => b.src == e.1).map (·.words)).getD []
  let s := framesTake k e.1 e.2.2 s
  { s with patch := { s.patch with blocks := tset {} s.patch.blocks e.1 ⟨e.2.1.toNat, ws⟩ } }

/-- The shadow's input of stroke `k` (R358, R359): the holder's frozen blocks, or its own captures, unverified from there on. -/
def shipTake (k : BitVec 64) (s : State) : State :=
  if s.sys.mode != .shadow then s
  else
    let clear (s : State) : State := { s with twin := { s.twin with inRx := [], frzRx := none } }
    match s.twin.frzRx with
    | some f =>
      if f.stroke = k then
        clear (f.treats.foldl (fun s x => treatTake x s) (f.blocks.foldl (fun s e => blockTake s.twin.inRx k e s) s))
      else clear { s with twin := { s.twin with unver := true } }
    | none => clear { s with twin := { s.twin with unver := true } }

/-- The ratio estimates of the CATCH (R218): a shadow computes with the shipped ones. -/
def ratiosIn (own : List (Nat × Word)) (k : BitVec 64) (s : State) : List (Nat × Word) :=
  if s.sys.mode == .shadow then
    (match s.twin.frzRx with
    | some f => if f.stroke = k then f.ratios else []
    | none => [])
  else own

/-- A call as CALLS carries it. -/
def callNats (p : Pend) : List Nat :=
  [p.call.target.toNat, p.call.opcode.toNat, p.call.flags.toNat, p.call.id.toNat] ++ p.call.payload.map (·.toNat) ++ [p.acc.toNat]

/-- FRAMES of a source's block of stroke `k` (R262, R358): the count of its port's header. -/
def shipFrames (k : BitVec 64) (s : State) (i : Nat) : Nat :=
  if i < 0x600 then fld (peek s (headerAddr false (i / 32) k)) 7 0 else 0

/-- Treatment as a FREEZE frame carries it: stage, count and last sample. -/
def treatNats (t : Treat) (last : Word) : List Nat :=
  (match t with
    | .none => [0, 0]
    | .silence n => [1, n]
    | .ramp n => [2, n]) ++ [last.toNat]

/-- Treatment states and gate positions of the sources that the freeze changes (R269, R275, R303, R358). -/
def shipTreats (s : State) : List (List Nat) :=
  ((List.range 48).flatMap fun p =>
    let x := portAt s p
    if x.st = .off then [] else (List.range (portSlots x.cfg)).map fun i =>
      (32 * p + i) :: treatNats x.treat (x.lastw[i]?.getD 0#32) ++ [x.run.p, x.mute.p])
    ++ ((List.range 32).map fun i => (0x600 + i) :: [0, 0, 0, (pdmAt s i).gate.p, 0])
    ++ s.net.rxt.map fun e => (0x800 + e.1) :: treatNats e.2.treat e.2.lastw ++ [0, 0]

/-- A section of the shipment of stroke `k`: its frames by type and payload, the last with a CRC-32 over them all (R358, R367). -/
def sectionSend (k : BitVec 64) (frames : List (Nat × List Nat)) (close : Nat) (last : List Nat) (s : State) : State :=
  let ps := frames.map fun f => (f.1, Config.linkPayload f.1 f.2)
  let crc := crc32 (ps.flatMap (·.2) ++ Config.linkPayload close last)
  let s := ps.foldl (fun s p => linkSend p.1 k p.2 s) s
  linkSend close k (Config.linkPayload close (last ++ [crc.toNat])) s

/-- SHIPMENT_SEND by the holder at the CATCH after stroke `k` (R358, R361): the input section, then the state section. FREEZE holds a count
and the source, status and FRAMES of each block, a count and the channel and ratio of each estimate, and the treatments. -/
def shipSend (k : BitVec 64) (s : State) : State :=
  if !isTwin s || !s.twin.hold || !s.twin.up then s
  else
    let blks := s.patch.blocks.filter fun e => e.1 < 0x1000
    let inputs := blks.map fun e => (2, e.1 :: e.2.status :: e.2.words.map (·.toNat))
    let ratios := s.patch.asrc.filter fun e => e.2.run
    let frz := blks.length :: (blks.flatMap fun e => [e.1, e.2.status, shipFrames k s e.1])
      ++ ratios.length :: (ratios.flatMap fun e => [e.1, e.2.ratio.toNat]) ++ (shipTreats s).flatten
    let calls := (4, s.call.rd.toNat :: (s.call.pend.filter fun p => p.acc == k).flatMap callNats)
    let carry := (stripsAll.filter fun n => carryLen s n != 0).map fun n =>
      (5, n :: (List.range (carryLen s n)).map fun i => (carryRead s (stripCrew s n) (carryBase s n + i)).toNat)
    let digest := s.eng.digest.toNat
    sectionSend k (calls :: carry) 6 [digest] (sectionSend k inputs 3 frz s)

/-! ### CATCH: the engine -/

/-- Every core that sleeps or was stopped starts at its stroke entry point with its registers at reset and its mailbox empty (R103, R106,
R47). A core that debug halted stays halted there, and runs from the entry point once it is resumed (log entry 49). -/
def coreStart (s : State) (n : Nat) (k : Core) : Core :=
  { pc := (match s.eng.img with
      | some im => im.entry[n]?.getD 0
      | none => 0)
    run := if k.run = .halted then .halted else .running, paused := if k.run = .halted then .running else .reset
    stroke := lo64 s.eng.stroke, cyc := 0, cycMax := k.cycMax, faultPc := k.faultPc, faultCode := k.faultCode }

/-- The bank selection of every strip in use, as latched (R44, R148). -/
def latchLive (s : State) : Tab Bool := ((stripsUsed s).filter (stripLive s)).map fun n => (n, true)

/-- STROKE_SKEW and ENG_TSKEW (R43, R357): the distance of the CATCH at `at_` from the instant of R40, rounded down to whole ns
(DESIGN CHOICE, log entry 110). -/
def skewCheck (at_ : Time) (s : State) : State :=
  let due : Int := strokeStart (sps s) s.eng.stroke.toNat + (if s.sys.mode == .shadow then 2000 * Time.ns else 0)
  let d := detect false callSrc 0x302#12 .fault 0#32 (decide (strokeLen (sps s) < ((at_ : Int) - due).natAbs)) s
  { d.1 with eng := { d.1.eng with tskew := ((at_ : Int) - due) / 65536 } }

/-- TICK (R483). -/
def tickCheck (s : State) : State :=
  let n := fld (actReg s Reg.SYS_TICK) 15 0
  if n != 0 && (s.eng.stroke.toNat + 1) % n == 0 then irqLatch 1 s else s

/-- The engine's part of a CATCH (R44, R103, R377, R431): cores, slices and patch delivery of the stroke. -/
def engineCatch (at_ : Time) (s : State) : State :=
  let s := { s with eng := { s.eng with latched := latchLive s } }
  let s := skewCheck at_ s
  let s := if actReg s Reg.PWR_OPCFG = s.sys.opcfg then s else opSet s
  let s := { s with
    crews := Vector.replicate 16 {}
    cores := vmap (fun n k => coreStart s n k) s.cores
    patch := { s.patch with same := [], now := [], due := [] } }
  tickCheck (slicesRun (patchDeliver s))

/-- A CATCH at `at_` on the grid of R40 and R254, which ports, clocks and time-stamps keep in SHADOW (R357). -/
def gridOf (at_ : Time) (s : State) : Time := if s.sys.mode == .shadow then at_ - 2000 * Time.ns else at_

/-- A CATCH of the running engine for stroke `t` at system time `at_`. -/
def runCatch (t : BitVec 64) (at_ : Time) (ratios : List (Nat × Word)) (pdm : List (Nat × PdmIn)) (s : State) : State :=
  let k := t - 1#64
  let s := { s with
    eng := { s.eng with stroke := t, phase := .drive }
    call := { s.call with accepted := 0 }
    geode := { s.geode with beaconKeys := s.geode.keys }
    msvc := { s.msvc with hold := [] }
    twin := { s.twin with expired := false } }
  let rs := ratiosIn ratios k s
  let mid (s : State) : State := shipSend k (asrcCatch rs (shipTake k s))
  let s := ioCatch t pdm mid s
  let s := engineCatch at_ s
  { s with eng := { s.eng with catchAt := at_, gridAt := gridOf at_ s } }

/-- A CATCH while the engine is held, or before its first stroke (R441): ports and streams run on with the stroke number of system
time, and the output blocks that remain are emitted. -/
def idleCatch (at_ : Time) (pdm : List (Nat × PdmIn)) (s : State) : State :=
  let t := BitVec.ofNat 64 (strokeAt s (at_ + strokeLen (sps s) / 2))
  let drop (s : State) : State := { s with patch := { s.patch with outBlk := [] } }
  let s := ioCatch t pdm drop s
  { s with eng := { s.eng with catchAt := at_, gridAt := at_ } }

/-- A mode that is being left (R433): the first CATCH ramps, the next one enters the mode. -/
def leaveMode (s : State) : State :=
  match s.sys.busy with
  | some m =>
    if !running s then s
    else if s.sys.ramped then modeEnter m s
    else { s with sys := { s.sys with ramped := true } }
  | none => s

/-- The stroke of the next running CATCH: the first one runs the stroke that the release loaded (R42). -/
def nextStroke (s : State) : BitVec 64 := if s.eng.phase = .waiting then s.eng.stroke else s.eng.stroke + 1#64

/-- The first stroke of a released engine has not come (R42). -/
def tooEarly (at_ : Time) (s : State) : Bool :=
  s.eng.phase == .waiting && decide (at_ + strokeLen (sps s) / 2 < strokeStart (sps s) s.eng.stroke.toNat)

/-- CATCH (R44). A FINISH that has not been commanded comes first; without a rate family there is no stroke (R40). -/
def catchUp (at_ : Time) (ratios : List (Nat × Word)) (pdm : List (Nat × PdmIn)) (s : State) : State :=
  if sps s = 0 then s
  else
    let f := finishStroke s
    let s := { f with net := { f.net with now := at_ } }
    let was := s.sys.ramped
    let s := if was then leaveMode s else s
    if sps s = 0 then s
    else
      let s := if engHeld s || tooEarly at_ s then idleCatch at_ pdm s else runCatch (nextStroke s) at_ ratios pdm s
      if was then s else leaveMode s
def execCatchStroke (t : Time) (ratios : List (Nat × Word)) (pdm : List (Nat × PdmIn)) (s : State) :
    Host.Outcome State Fault Refusal :=
  done (catchUp t ratios pdm s)

/-! ### The chain barrier (R105, R203) -/

/-- The loads of a crew that an input block held go on (R515). -/
def loadsRetry (crew : Nat) (s : State) : State :=
  (List.range 8).foldl (fun s i => retryHeld (8 * crew + i) .loadHeld s) s

/-- BARRIER_RELEASE (R105): the members run on, and a chain barrier lets the patch deliver the crew's chained sinks (R203). -/
def barrierRelease (crew k : Nat) (s : State) : State :=
  if barrierReady s crew k then
    let s := if chainBar s crew = some k then loadsRetry crew (deliverChained crew s) else s
    barrierGo crew k s
  else s
def execBarrierRelease (crew : CrewId) (k : Fin 8) (s : State) : Host.Outcome State Fault Refusal :=
  done (barrierRelease crew.val k.val s)

end Sys2Proof.Machine
end

