-- ==== Sys2Proof/Machine/Power.lean ====
section
/-! DEFINITION. Supply and thermal monitors (R426–R429), I/O banks (R493), reset sources (R436–R442), the mode requests (R432–R435),
debug access (R34) and the resync's reset and cutover (R364). -/

namespace Sys2Proof.Machine

/-! ### Supply and temperature (R428, R456) -/

/-- Source IDs of the power die and keel, and of the boot logic (R456). -/
def powSrc : BitVec 16 := sysSrc 6 0
def bootSrc : BitVec 16 := sysSrc 7 0

/-- A condition of R428 that has stood for its detection time: its record, and its PWR_STAT bit. -/
def supplyEvent (code : BitVec 12) (sev : Sev) (bit : Nat) (s : State) : State :=
  let d := detectTimed false powSrc code sev 0#32 s
  if d.2 then orReg Reg.PWR_STAT (flag true bit) d.1 else d.1

/-- VSYS_LOW (R428). -/
def execVsysLow (s : State) : Host.Outcome State Fault Refusal := done (supplyEvent 0x800#12 .fault 0 s)
/-- VSYS_HIGH (R428). -/
def execVsysHigh (s : State) : Host.Outcome State Fault Refusal := done (supplyEvent 0x801#12 .fault 1 s)
/-- RAIL_FAULT (R428). -/
def execRailFault (s : State) : Host.Outcome State Fault Refusal := done (supplyEvent 0x802#12 .fatal 2 s)
/-- THERM_WARN (R428). -/
def execThermWarn (s : State) : Host.Outcome State Fault Refusal := done (supplyEvent 0x804#12 .note 5 s)
/-- THERM_FAULT (R428). -/
def execThermFault (s : State) : Host.Outcome State Fault Refusal := done (supplyEvent 0x805#12 .fault 6 s)

/-- THERM_TRIP (R428): a SYSTEM reset that holds until the die has cooled; its record waits for the next release. An armed slot with
ACT = 0 makes the record alone (R466). -/
def thermTrip (s : State) : State :=
  let inj := injArmed s powSrc 0x806#12
  if inj && !injActs s powSrc 0x806#12 then (detectTimed false powSrc 0x806#12 .fatal 0#32 s).1
  else
    let t := sysAssert false 0x80#32 s
    { t with sys := { t.sys with therm := true, thermLog := true, thermInj := inj } }
def execThermTrip (s : State) : Host.Outcome State Fault Refusal := done (thermTrip s)

/-- VOUT18 or VOUT33 is on (R429): both are off in DORMANT and RETAIN. -/
def auxOn (is18 : Bool) (s : State) : Bool :=
  bitAt (reg s Reg.PWR_AUX) (if is18 then 1 else 0) && s.sys.mode != .dormant && s.sys.mode != .retain

/-- AUX_OVERLOAD (R429): an output that is on is switched off. -/
def auxOverload (is18 : Bool) (s : State) : State :=
  let b := if is18 then 1 else 0
  if !auxOn is18 s then s
  else
    let d := detectTimed false powSrc 0x803#12 .degrade 0#32 s
    if d.2 then orReg Reg.PWR_STAT (flag true (3 + b)) (setReg Reg.PWR_AUX (reg d.1 Reg.PWR_AUX &&& ~~~flag true b) d.1) else d.1
def execAuxOverload (is18 : Bool) (s : State) : Host.Outcome State Fault Refusal := done (auxOverload is18 s)

/-- PWR_AUX (R429, R454). -/
def pwrAuxWrite (v : Word) (s : State) : State := setReg Reg.PWR_AUX (v &&& 3#32) s
def execPwrAux (_m : Master) (v : Word) (s : State) : Host.Outcome State Fault Refusal := done (pwrAuxWrite v s)

/-- PWR_MON_PUBLISH (R454). -/
def execPwrMonPublish (mv tj mw : Word) (s : State) : Host.Outcome State Fault Refusal :=
  done { s with sys := { s.sys with mon := publish [mv, tj, mw] s.sys.mon } }

/-! ### I/O banks (R492, R493) -/

/-- A bank below its threshold: its outputs are Hi-Z and its inputs read 0; RESET_N is one of the inputs of VIO5. -/
def vioLow (b : Nat) (s : State) : State :=
  let d := detectTimed true (sysSrc 6 (b + 1)) 0x807#12 .fault 0#32 s
  if !d.2 then d.1
  else
    let s := orReg Reg.PIN_STAT (flag true b) d.1
    let s := { s with
      freeCtr := s.freeCtr + 1
      sys := { s.sys with vio := s.sys.vio ||| BitVec.ofNat 6 (2 ^ b), vioCls := vput s.sys.vioCls b (Config.vioLowClass s.freeCtr % 4) }
      port := { s.port with ports := vmap (fun p x =>
        if p / 16 = b then { x with emit := x.emit.map fun e => { e with drive := false } } else x) s.port.ports } }
    if b = 4 && s.sys.mode != .dormant then
      let t := sysAssert false 4#32 s
      { t with sys := { t.sys with resetN := true } }
    else s
def execVioLow (bank : Fin 6) (s : State) : Host.Outcome State Fault Refusal := done (vioLow bank.val s)

/-- VIO_RESTORE (R493): the bank resumes at the class it senses. -/
def vioRestore (b : Nat) (cls : BitVec 2) (s : State) : State :=
  let low := s.sys.vio.getLsbD b
  { s with sys := { s.sys with
      vio := s.sys.vio &&& ~~~BitVec.ofNat 6 (2 ^ b), vioCls := vput s.sys.vioCls b cls.toNat
      resetN := s.sys.resetN && !(b == 4 && low) } }
def execVioRestore (bank : Fin 6) (cls : BitVec 2) (s : State) : Host.Outcome State Fault Refusal :=
  done (vioRestore bank.val cls s)

/-! ### Reset sources (R427, R436, R439, R442) -/

/-- VSYS_POWER_ON (R427). -/
def execVsysPowerOn (s : State) : Host.Outcome State Fault Refusal := done (sysAssert true 1#32 s)
/-- BROWNOUT (R427). -/
def execBrownout (s : State) : Host.Outcome State Fault Refusal := done (sysAssert true 2#32 s)
/-- DEBUG_RESET (R436). -/
def execDebugReset (s : State) : Host.Outcome State Fault Refusal :=
  done (if s.sys.mode == .dormant then s else sysAssert false 0x40#32 s)

/-- Whether a low pulse passes the filter of R439; between 100 ns and 1 µs that is open. -/
def pulsePasses (ns : Nat) (s : State) : Bool :=
  decide (1000 ≤ ns) || (decide (100 ≤ ns) && Config.pulseAccepted s.freeCtr)

/-- RESET_N (R439): `ns` is how long the ball has been low and `low` that it still is; ignored in DORMANT (R435). -/
def resetPulse (ns : Nat) (low : Bool) (s : State) : State :=
  if s.sys.mode == .dormant then s
  else
    let hit := pulsePasses ns s
    let s := { s with freeCtr := s.freeCtr + 1 }
    if s.sys.resetN then { s with sys := { s.sys with resetN := low } }
    else if hit then
      let t := sysAssert false 4#32 s
      { t with sys := { t.sys with resetN := low } }
    else s
def execResetN (ns : Nat) (low : Bool) (s : State) : Host.Outcome State Fault Refusal := done (resetPulse ns low s)

/-- TAMPER_N (R439, R390): it is sensed in DORMANT too, where it wipes Geode and the device stays in DORMANT (R435). -/
def tamperPulse (ns : Nat) (low : Bool) (s : State) : State :=
  let hit := pulsePasses ns s
  let s := { s with freeCtr := s.freeCtr + 1 }
  if s.sys.tamper then { s with sys := { s.sys with tamper := low } }
  else if !hit then s
  else
    let s := geodeWipe 0 s
    let t := if s.sys.mode == .dormant then orReg Reg.RST_CAUSE 16#32 s else sysAssert false 16#32 s
    { t with sys := { t.sys with tamper := low } }
def execTamperN (ns : Nat) (low : Bool) (s : State) : Host.Outcome State Fault Refusal := done (tamperPulse ns low s)

/-- Watchdog expiry (R442). -/
def wdtFire (s : State) : State := sysAssert false 8#32 s
def execWdtExpiry (s : State) : Host.Outcome State Fault Refusal :=
  done (if bitAt (reg s Reg.RST_WDT_CFG) 31 then wdtFire s else s)

/-- RST_WDT_CFG (R442): EN, once set, holds until a SYSTEM reset. -/
def wdtCfgWrite (v : Word) (s : State) : State :=
  setReg Reg.RST_WDT_CFG ((v &&& 0x8000FFFF#32) ||| (reg s Reg.RST_WDT_CFG &&& 0x80000000#32)) s
def execRstWdtCfg (_m : Master) (v : Word) (s : State) : Host.Outcome State Fault Refusal := done (wdtCfgWrite v s)

/-- RST_WDT_KICK (R442): any other value counts as an expiry. -/
def wdtKick (v : Word) (s : State) : State := if v = 0x4B43#32 then s else wdtFire s
def execRstWdtKick (_m : Master) (v : Word) (s : State) : Host.Outcome State Fault Refusal := done (wdtKick v s)

/-- RST_CTRL (R436, R455). -/
def rstCtrlWrite (m : Master) (v : Word) (s : State) : State :=
  if fld v 31 16 = 0x5253 ∧ bitAt v 0 = true then sysAssert false 0x20#32 s else progError m Reg.RST_CTRL s
def execRstCtrl (m : Master) (v : Word) (s : State) : Host.Outcome State Fault Refusal := done (rstCtrlWrite m v s)

/-- An ENGINE-reach source sets its cause bit (R436). -/
def causeSet (bits : Word) (s : State) : State :=
  orReg Reg.RST_CAUSE bits { s with sys := { s.sys with newCause := s.sys.newCause ||| bits } }

/-- RESET_CAUSE at a release (R456): the causes not yet logged. -/
def causeLog (s : State) : State :=
  if s.sys.newCause = 0#32 then s
  else report bootSrc 0x905#12 .note s.sys.newCause { s with sys := { s.sys with newCause := 0#32 } }

/-- RST_ENG (R436): HOLD asserts an ENGINE-reach reset; `prog` is the burst of the engine that it ends. -/
def rstEngWrite (v : Word) (prog : Option Burst) (s : State) : State :=
  let was := bitAt (reg s Reg.RST_ENG) 0
  let s := setReg Reg.RST_ENG (v &&& 1#32) s
  if bitAt v 0 && !was then engReset prog (causeSet 0x200#32 s) else s
def execRstEng (_m : Master) (v : Word) (prog : Option Burst) (s : State) : Host.Outcome State Fault Refusal :=
  done (rstEngWrite v prog s)

/-- SYS_BOOT_OK (R452, R485): the confirming write within 10 s of the release, or at any time in RECOVERY mode. -/
def bootOk (m : Master) (v : Word) (ms : Nat) (s : State) : State :=
  if v ≠ 0x4F4B#32 then progError m Reg.SYS_BOOT_OK s
  else if ms ≤ 10000 ∨ s.sys.mode = .recovery then setReg Reg.RST_FSTART (reg s Reg.RST_FSTART &&& ~~~7#32) s
  else s
def execSysBootOk (m : Master) (v : Word) (msSinceRelease : Nat) (s : State) : Host.Outcome State Fault Refusal :=
  done (bootOk m v msSinceRelease s)

/-- GEODE_LCREQ (R392): the life cycle moves one step on. -/
def lcReqWrite (m : Master) (v : Word) (s : State) : State :=
  if fld v 31 16 = 0x4C43 ∧ fld v 1 0 = lcNow s + 1 ∧ (s.sys.mode = .recovery ∨ s.sys.mode = .service) then
    let n := lcNow s + 1
    let s := lcWrite n (geodeWipe 3 s)
    sysAssert false 0x20#32 (if n = 3 then slateErase s else s)
  else progError m Reg.GEODE_LCREQ s
def execGeodeLcreq (m : Master) (v : Word) (s : State) : Host.Outcome State Fault Refusal := done (lcReqWrite m v s)

/-! ### Debug access (R34, R37) -/

/-- A debug access writes a register of a core (R34). STAT, SCALE and CWB keep their reserved bits 0. -/
def coreRegWrite (r : CoreReg) (k : Core) : Core := match r with
  | .d i v => { k with d := vput k.d i.toNat v }
  | .acc i v => { k with acc := vput k.acc i.toNat v }
  | .a i v => { k with a := vput k.a i.toNat v }
  | .m i v => { k with m := vput k.m i.toNat v }
  | .b i v => { k with b := vput k.b i.toNat v }
  | .l i v => { k with l := vput k.l i.toNat v }
  | .p v => { k with p := v ||| 1#8 }
  | .stat v => { k with stat := v &&& 0x1F00FF#32 }
  | .scale v => { k with scale := v &&& 0x1F1F1F1F#32 }
  | .bxd v => { k with bxd := v }
  | .cwb v => { k with cwb := v.zeroExtend 32 }
  | .lc inner v =>
    let i := if inner then 1 else 0
    { k with loops := match k.loops[i]? with
        | some l => k.loops.set i { l with cnt := v.toNat }
        | none => k.loops }
  | .pc v => { k with pc := v.toNat }

/-- The bundle at a core's bundle address in program memory (R84, R110). -/
def bundleAt (s : State) (n : Nat) : Bundle :=
  let a := progAddr n (coreAt s n).pc
  let w := peek s (a + 4)
  let x := peek s a
  ⟨w.extractLsb' 26 6, csylOf w, x.extractLsb' 27 5, tsylOf x, x⟩

/-- A debug access halts a core. -/
def coreHalt (n : Nat) (s : State) : State :=
  let k := coreAt s n
  if k.run = .reset ∨ k.run = .halted then s else putCore n { k with run := .halted, paused := k.run } s

/-- A debug step: the core, halted, issues the bundle at its bundle address and is halted after it; one that waits or sleeps issues none
(log entry 49). -/
def coreStep (n : Nat) (s : State) : State :=
  let s := coreHalt n s
  let k := coreAt s n
  if k.run = .halted ∧ k.paused = .running then
    coreHalt n (runBundle n (bundleAt s n) (putCore n { k with run := .running, paused := .reset } s))
  else s

/-- DEBUG_INTRUSION (R34): a core is halted, runs on, is stepped, or has a register written. -/
def debugAct (act : DebugAct) (s : State) : State :=
  match act with
  | .halt c =>
    coreHalt c.val (detLapse detDebug s)
  | .resume c =>
    let k := coreAt s c.val
    if k.run = .halted then retryHeld c.val .loadHeld (putCore c.val { k with run := k.paused, paused := .reset } s) else s
  | .step c => coreStep c.val (detLapse detDebug s)
  | .write c r => putCore c.val (coreRegWrite r (coreAt s c.val)) (detLapse detDebug s)
def execDebugIntrusion (act : DebugAct) (s : State) : Host.Outcome State Fault Refusal := done (debugAct act s)

/-! ### The end of a test (R468–R472) -/

/-- TEST_RES0–3 take a result (R468, R471): a refusal or an end. -/
def testPublish (status kind : Nat) (ws : List Word) (s : State) : State :=
  irqLatch 14 { s with err := { s.err with res := publish ws s.err.res, resStatus := status, resKind := kind } }

/-- The port or link that a test held is let go (R470): a port leaves as from a port reset, its held PORT_CFG latched (DESIGN CHOICE,
log entry 95). -/
def testLetGo (kind : Nat) (arg : Word) (s : State) : State :=
  if kind = 0x13 && s.sys.rel = 8 && decide (fld arg 5 0 < 48) then portRelease (fld arg 5 0) s else s

/-- A mode request that is taken ends the running test (R469). -/
def testAbort (s : State) : State :=
  if !s.err.testBusy then s
  else testPublish 5 s.err.testKind [0#32, 0#32, 0#32] (testLetGo s.err.testKind s.err.testArg { s with err := { s.err with testBusy := false } })

/-! ### Mode requests (R432, R433, R454) -/

def modeResult (n : Nat) (s : State) : State := { s with sys := { s.sys with modeRes := n } }

/-- A request for mode `m`: BUSY, refused, or taken. A mode that runs the engine is left at the CATCHes that follow (R433). -/
def modeRequest (m : Mode) (ok : Bool) (s : State) : State :=
  if s.sys.busy.isSome then modeResult 3 s
  else if !ok then modeResult 2 s
  else
  let s := testAbort s
  if running s && sps s != 0 then { s with sys := { s.sys with busy := some m, ramped := false, modeRes := 0 } }
  else modeEnter m s

/-- REQ_RETAIN (R432). -/
def reqRetain (s : State) : State := modeRequest .retain (running s) s
def execReqRetain (_m : Master) (s : State) : Host.Outcome State Fault Refusal := done (reqRetain s)

/-- REQ_DORMANT (R432). -/
def reqDormant (s : State) : State :=
  modeRequest .dormant (running s || s.sys.mode == .recovery || s.sys.mode == .service) s
def execReqDormant (_m : Master) (s : State) : Host.Outcome State Fault Refusal := done (reqDormant s)

/-- REQ_RECOVERY (R432). -/
def reqRecovery (s : State) : State := modeRequest .recovery (running s || s.sys.mode == .service) s
def execReqRecovery (_m : Master) (s : State) : Host.Outcome State Fault Refusal := done (reqRecovery s)

/-- REQ_SERVICE (R23, R24, R432). -/
def reqService (s : State) : State :=
  modeRequest .service ((running s || s.sys.mode == .recovery) && lcNow s != 3 && !(isTwin s && s.twin.hold)) s
def execReqService (_m : Master) (s : State) : Host.Outcome State Fault Refusal := done (reqService s)

/-- The mode that a boot ends in (R24, R432). -/
def runMode (s : State) : Mode := if isTwin s then .shadow else .live

/-- REQ_RUN (R432, R449): boot steps 3 and 4 must pass; a step that has not is run again from the boot source. -/
def reqRun (s : State) : State :=
  if s.sys.busy.isSome then modeResult 3 s
  else if s.sys.mode != .recovery || decide (1 < lcNow s) then modeResult 2 s
  else
    let t := testAbort s
    let go (w : BootWait) (step : Nat) (hold : Bool) : State :=
      { t with sys := { t.sys with busy := some (runMode s), modeRes := 0, wait := w, step := step, modeHold := false, bootHold := hold } }
    if s.sys.fw && s.eng.img.isSome && !s.eng.imgBad then go .none 4 false
    else if s.sys.straps.bootSrc = 3#2 then modeResult 2 s
    else if s.sys.fw then go .engine 4 true
    else go .firmware 3 true
def execReqRun (_m : Master) (s : State) : Host.Outcome State Fault Refusal := done (reqRun s)

/-- A write to PWR_MODE (R432, R454). -/
def pwrModeWrite (v : Word) (s : State) : State :=
  match fld v 2 0 with
  | 1 => reqRun s
  | 2 => reqRetain s
  | 3 => reqDormant s
  | 4 => reqRecovery s
  | 5 => reqService s
  | _ => s

/-- PWR_MODE (R454). -/
def pwrMode (s : State) : Word :=
  place (modeCode s.sys.mode) 29 ||| flag s.sys.busy.isSome 28 ||| place s.sys.modeRes 24

/-- PWR_OP (R454). -/
def pwrOp (s : State) : Word := (List.range 4).foldl (fun w d => w ||| place (vget 0 s.sys.op d) (2 * d)) 0#32

/-- RST_STAT (R455). -/
def rstStat (s : State) : Word := flag s.sys.bootHold 2 ||| flag s.twin.rsReset 1 ||| flag (engHeld s) 0

/-- RST_BOOT (R455). -/
def rstBoot (s : State) : Word :=
  place s.sys.step 28 ||| place s.sys.straps.bootSrc.toNat 26 ||| flag s.sys.straps.hostif 25 ||| place s.sys.result 16

/-- PIN_VIO (R512). -/
def pinVio (s : State) : Word := (List.range 6).foldl (fun w n => w ||| place (vget 0 s.sys.vioCls n) (2 * n)) 0#32

/-! ### Resync: the reset command and the cutover (R364, R365) -/

/-- RSCTL (R364, R367): a request makes the holder command the reset and name no cutover yet; the shadow takes the reset command and
the cutover stroke. -/
def resyncControl (c : RsCtl) (s : State) : State :=
  match c with
  | .request =>
    if member s && s.twin.hold then
      linkSend 9 s.eng.stroke (Config.linkPayload 9 [1]) { s with twin := { s.twin with resync := true, rsSent := 0, rsCut := none } }
    else s
  | .resetCmd =>
    if member s && !s.twin.hold && s.twin.resync then
      let s := engReset none (causeSet 0x400#32 s)
      { s with twin := { s.twin with rsReset := true, rsCut := none } }
    else s
  | .cutover k => if s.twin.rsReset then { s with twin := { s.twin with rsCut := some k } } else s
def resyncCtl (h : TwinHdr) (c : RsCtl) (s : State) : State :=
  let d := linkFrame h s
  if d.2 then resyncControl c d.1 else d.1
def execRsctl (h : TwinHdr) (ctl : RsCtl) (s : State) : Host.Outcome State Fault Refusal := done (resyncCtl h ctl s)

/-- The patch at a cutover to stroke `k` (R6, R30, R515): an asynchronous channel whose written configuration is not the one in force
takes it at this release, and the strip sources read as the copied half of stroke k − 1 holds them. -/
def patchCutover (k : BitVec 64) (s : State) : State :=
  let late := (List.range 128).filter fun a => regAt s Reg.ASRC_CFG a != (asrcAt s a).cfg
  let s := late.foldl (fun s a => asrcLatch a s) s
  (stripSrcs s).foldl (fun s i => publishSrc ((k.toNat + 1) % 2) i s) s

/-- RESYNC_CUTOVER (R364): the shadow's engine leaves reset at its CATCH of C with the holder's state, initialising nothing (R30); C is
a baseline of the lease (R343), and the receipts that the reset owes are written (R61). -/
def resyncCutover (s : State) : State :=
  match s.twin.rsCut with
  | none => s
  | some k =>
    if !s.twin.rsReset || bitAt (reg s Reg.RST_ENG) 0 || s.sys.bootHold || s.sys.modeHold then s
    else
      let s := patchCutover k (detBaseline k (causeLog s))
      let s := { s with
        eng := { s.eng with stroke := k, phase := .waiting, ovrCount := 0 }
        cores := Vector.replicate 128 { run := .asleep }
        mix := { s.mix with tselWas := s.mix.tsel, doneMax := 0 }
        sys := { s.sys with rel := if s.sys.rel = 6 then 7 else s.sys.rel }
        twin := { s.twin with
          last := k, peerSeen := false, expired := false
          rsReset := false, resync := false, rsCut := none, inSync := true, unver := false, commit := k - 1#64, diff := none } }
      let s := twinStat 4 (detect false twinSrc 0x704#12 .note 0#32 true s).1
      receiptsOwed (opSet { s with fin := finView s })
def execResyncCutover (s : State) : Host.Outcome State Fault Refusal := done (resyncCutover s)

end Sys2Proof.Machine
end

