-- ==== Sys2Proof/Machine/SelfTest.lean ====
section
/-! DEFINITION. Tests and calibrations (R468–R470, R472), and the endpoint resets of the PCI Express port (R475), which a loopback test of
that link shares. -/

namespace Sys2Proof.Machine

/-! ### Endpoint resets (R475, R482) -/

/-- MSI-X table after an endpoint reset: every vector masked (log entry 9). -/
def msixReset (s : State) : State :=
  (List.range 256).foldl (fun s i => setReg (Reg.MSIX_TBL + 4 * i) (if i % 4 = 3 then 1#32 else 0#32) s) s

/-- The HOST master is reset (R412) with the endpoint's registers (R475); `bits` are HOST_STAT's. -/
def endpointReset (bits : Word) (perform : Burst → State → State) (prog : Option Burst) (s : State) : State :=
  let s := masterReset .host perform prog s
  let s := setReg Reg.HOST_LOCK 0#32 (setReg Reg.HOST_DWIN 0#32 (msixReset s))
  orReg Reg.HOST_STAT bits { s with host := { s.host with d3 := false, vecs := 0#64, pba := 0#64 } }

/-- The link of the endpoint goes down. -/
def pcieDown (perform : Burst → State → State) (prog : Option Burst) (s : State) : State :=
  if s.sys.straps.hostif then s
  else
    let s := endpointReset 4#32 perform prog s
    { s with host := { s.host with up := false, speed := 0, width := 0 } }

/-! ### Start of a test (R468, R469) -/

/-- Kinds of R468. -/
def testBackground (k : Nat) : Bool := k == 1 || k == 2 || k == 3
def testIntrusive (k : Nat) : Bool := decide (0x10 ≤ k) && decide (k ≤ 0x16)

/-- Memory and instance of a MEM_BIST. -/
def bistKind (arg : Word) : Option MemKind := kindOf (fld arg 3 0)
def bistInst (arg : Word) : Nat := fld arg 10 4

/-- A MEM_BIST takes its memory's contents; one of core or crew memory unloads the image (R470). -/
def bistClear (arg : Word) (s : State) : State :=
  match bistKind arg with
  | none => s
  | some k =>
    if kindInst k ≤ bistInst arg then s else
    let s := zeroWhere (inInst k (bistInst arg)) s
    if k == .coreProg || k == .coreData || k == .crew then { s with eng := { s.eng with img := none } } else s

/-- What a test does to the device as it starts (R468, R470). -/
def testEnter (k : Nat) (arg : Word) (s : State) : State :=
  if k = 1 then assayStart (fld arg 2 0) s
  else if k = 0x10 then bistClear arg s
  else if k = 0x13 then (if fld arg 5 0 < 48 then portReset (fld arg 5 0) s else s)
  else if k = 0x14 then
    (match fld arg 1 0 with
    | 0 => linkDown 0 s
    | 1 => linkDown 1 s
    | 2 => twinDown 0#4 none s
    | _ => pcieDown memPerform none s)
  else s

/-- A request (R469). -/
def testRequest (k : Nat) (s : State) : State :=
  let no (status : Nat) : State := testPublish status k [0#32, 0#32, 0#32] s
  if s.err.testBusy then no 4
  else if !testBackground k && !testIntrusive k then no 6
  else if testIntrusive k && s.sys.mode != .service then no 3
  else if !assayMode s then no 3
  else
    let arg := reg s Reg.TEST_ARG
    let s := testEnter k arg s
    { s with err := { s.err with testBusy := true, testKind := k, testArg := arg } }

def execAssayNow (_m : Master) (s : State) : Host.Outcome State Fault Refusal := done (testRequest 1 s)
def execSerdesAdapt (_m : Master) (s : State) : Host.Outcome State Fault Refusal := done (testRequest 2 s)
def execDramTrack (_m : Master) (s : State) : Host.Outcome State Fault Refusal := done (testRequest 3 s)
def execMemBist (_m : Master) (s : State) : Host.Outcome State Fault Refusal := done (testRequest 0x10 s)
def execCoreBist (_m : Master) (s : State) : Host.Outcome State Fault Refusal := done (testRequest 0x11 s)
def execSliceTest (_m : Master) (s : State) : Host.Outcome State Fault Refusal := done (testRequest 0x12 s)
def execSapLoop (_m : Master) (s : State) : Host.Outcome State Fault Refusal := done (testRequest 0x13 s)
def execDramTrain (_m : Master) (s : State) : Host.Outcome State Fault Refusal := done (testRequest 0x15 s)
def execTsenseCal (_m : Master) (s : State) : Host.Outcome State Fault Refusal := done (testRequest 0x16 s)

/-! ### End of a test (R468, R470) -/

/-- Failing rows of a MEM_BIST, by bank and row, are remapped (R380). -/
def bistRepair (k : MemKind) (i : Nat) (rows : List (Nat × Nat)) (s : State) : State :=
  rows.foldl (fun s r =>
    if r.1 < kindBanks k ∧ r.2 < kindRows k + 4 then restoreRow ⟨k, i, r.1, r.2⟩ true s else s) s

/-- What a test leaves (R468, R470); a calibration that did not converge leaves the previous one in force. -/
def testLeave (k : Nat) (arg : Word) (pass calFail : Bool) (step : Nat) (rows : List (Nat × Nat)) (s : State) : State :=
  if k = 0x10 then
    (match bistKind arg with
    | some m => if bistInst arg < kindInst m then bistRepair m (bistInst arg) rows (bistClear arg s) else s
    | none => s)
  else if k = 0x15 ∧ calFail = false then (if dramOn s then dramTrained step s else s)
  else if k = 3 ∧ calFail = false ∧ pass = false then dramDriftTrack step s
  else testLetGo k arg s

/-- TEST_COMPLETE (R468): the result is published, with its record where the test failed. -/
def testComplete (pass calFail : Bool) (failures first us : Word) (rows : List (Nat × Nat)) (s : State) : State :=
  if !s.err.testBusy then s
  else
    let k := s.err.testKind
    let arg := s.err.testArg
    let good := pass && !calFail
    let s := { s with err := { s.err with testBusy := false } }
    let s := testLeave k arg pass calFail (if pass then 0 else Nat.max 1 (fld first 3 0)) rows s
    let s := (detect false 0#16 0xC11#12 .degrade (wOf k) calFail s).1
    let s := (detect false 0#16 0xC10#12 .fault (wOf k) (!good && !calFail) s).1
    testPublish (if good then 1 else 2) k [failures, first, us] s
def execTestComplete (pass calFail : Bool) (failures first us : Word) (rows : List (Nat × Nat)) (s : State) :
    Host.Outcome State Fault Refusal := done (testComplete pass calFail failures first us rows s)

/-- TEST_RES0 (R472). -/
def testRes0 (s : State) : Word := resWord s.err.res (flag s.err.testBusy 30 ||| place s.err.resStatus 24 ||| place s.err.resKind 16)

end Sys2Proof.Machine
end

