-- ==== Sys2Proof/Machine/RegBus.lean ====
section
/-! DEFINITION. The register space as a master reads and writes it (R4–R9, R481, R482): banked select registers, snapshots and latched
groups (R471), and what a write of each register does. The QSPI and MSI-X registers (R479, R484, R486) are here too. -/

namespace Sys2Proof.Machine

/-! ### Select registers (R482) -/

/-- The instance that a master's select register names. -/
def instOf (s : State) (m : Master) (sel : Sel) : Nat :=
  let b := bank s m
  match sel with
  | .none => 0 | .port => b.port | .ptp => b.ptp | .stream => b.stream | .ref => b.ref | .ckout => b.ckout | .dma => b.dma
  | .asrc => b.asrc | .inj => b.inj

/-- A select write: a value that is not `ok` is ignored and logged; `extra` logs bits that the register ignores. -/
def selPut (m : Master) (off : Nat) (ok extra : Bool) (f : Bank → Bank) (s : State) : State :=
  let s := if !ok || extra then progError m off s else s
  if ok then setBank m f s else s

/-- XP_SEL (R197). -/
def xpSelWrite (m : Master) (v : Word) (s : State) : State :=
  let x := fld v 19 0
  if x < xpCount then snapTake m Reg.XP_SEL (xpSnap s x) (setBank m (fun b => { b with xp := x }) s) else progError m Reg.XP_SEL s
def execXpSel (m : Master) (v : Word) (s : State) : Host.Outcome State Fault Refusal := done (xpSelWrite m v s)

/-- The state as far as routes, domains and latencies are concerned, as at the last FINISH (R227, R228). -/
def finState (s : State) : State :=
  { s with
    act := s.fin.act
    port := { s.port with ports := s.fin.ports }
    net := { s.net with streams := s.fin.streams }
    patch := { s.patch with sinks := s.fin.sinks, asrc := s.fin.asrc } }

/-- SINK_SRC, SINK_NEXT and SINK_DLY of a sink (R227). -/
def sinkShow (s : State) (i : Nat) : List Word :=
  let x := sinkAt s i
  let r : Option RouteReq := match x.chg with
    | some r => some r
    | none => x.held
  let next := match r with
    | some r => place r.mode 29 ||| place r.src 16
    | none => 0#32
  let st : Nat × Nat := match x.st with
    | .settled => (0, 0)
    | .fill k => (1, k)
    | .fade k => (2, k)
    | .tap k => (3, k)
  let tgt := match r with
    | some r => alignDly s r.src i
    | none => x.dlyTgt
  [place x.src 16 ||| wOf (sinkDom s i), flag x.held.isSome 31 ||| next ||| place st.1 14 ||| wOf st.2, place tgt 16 ||| wOf x.dly]

/-- The snapshot that SINK_SEL takes (R227). -/
def sinkSnap (s : State) (i : Nat) : List Word := sinkShow (finState s) i

/-- SINK_SEL (R227). -/
def sinkSelWrite (m : Master) (v : Word) (s : State) : State :=
  let i := fld v 12 0
  if sinkBad i then progError m Reg.SINK_SEL s else snapTake m Reg.SINK_SEL (sinkSnap s i) (setBank m (fun b => { b with sink := i }) s)
def execSinkSel (m : Master) (v : Word) (s : State) : Host.Outcome State Fault Refusal := done (sinkSelWrite m v s)

/-- LAT_UP, LAT_ALN, LAT_ARR, LAT_TGT and LAT_STRIP of a sink (R228). -/
def latShow (s : State) (i : Nat) : List Word :=
  let up := upOf s (sinkAt s i).src i
  let dly := (sinkAt s i).dly
  let tgt := if hasLine s i then grpTgt s i * 256 * domN (sinkDom s i) / 16 else 0
  let strip := match stripOfSink s i with
    | some n => place (fld (latWord s n) 31 28) 16 ||| wOf (fld (latWord s n) 15 0)
    | none => 0#32
  [wOf up, wOf dly, wOf (up + 256 * dly), wOf tgt, strip]

/-- The snapshot that LAT_SEL takes (R228). -/
def latSnap (s : State) (i : Nat) : List Word := latShow (finState s) i

/-- LAT_SEL (R228). -/
def latSelWrite (m : Master) (v : Word) (s : State) : State :=
  let i := fld v 12 0
  if sinkBad i then progError m Reg.LAT_SEL s else snapTake m Reg.LAT_SEL (latSnap s i) (setBank m (fun b => { b with lat := i }) s)
def execLatSel (m : Master) (v : Word) (s : State) : Host.Outcome State Fault Refusal := done (latSelWrite m v s)

/-- CORE_STAT, CORE_CYC and CORE_CYC_MAX of a core as at the last FINISH (R488). -/
def coreSnap (s : State) (n : Nat) : List Word :=
  let c := tget (0#32, 0, 0) s.fin.core n
  [c.1, wOf c.2.1, wOf c.2.2]

/-- CORE_SEL (R488). -/
def coreSelWrite (m : Master) (v : Word) (s : State) : State :=
  let n := fld v 6 0
  snapTake m Reg.CORE_SEL (coreSnap s n) (setBank m (fun b => { b with core := n }) s)
def execCoreSel (m : Master) (v : Word) (s : State) : Host.Outcome State Fault Refusal := done (coreSelWrite m v s)

/-! ### MSI-X and the QSPI master (R479, R484, R486) -/

/-- A vector is pending now. -/
def vecNow (s : State) (v : Nat) : Bool := (vecsPending s).getLsbD v

/-- SYS_IRQ_ACK (R484): a vector still pending is sent again, or marked while masked. -/
def irqAck (v : Nat) (s : State) : State :=
  if !vecNow s v then s
  else if vecMasked s v then { s with host := { s.host with pba := s.host.pba ||| BitVec.ofNat 64 (2 ^ v) } }
  else emit (vecMsg s v) s
def execSysIrqAck (_m : Master) (v : Word) (s : State) : Host.Outcome State Fault Refusal := done (irqAck (fld v 5 0) s)

/-- A vector is unmasked (R484): the message its PBA bit kept is sent if it is still pending. -/
def msixUnmask (v : Nat) (s : State) : State :=
  let a := Reg.MSIX_TBL + 16 * v + 12
  let s := setReg a (reg s a &&& ~~~1#32) s
  let kept := s.host.pba.getLsbD v
  let s := { s with host := { s.host with pba := s.host.pba &&& ~~~BitVec.ofNat 64 (2 ^ v) } }
  if kept && vecNow s v then emit (vecMsg s v) s else s
def execMsixUnmask (vec : Fin 64) (s : State) : Host.Outcome State Fault Refusal := done (msixUnmask vec.val s)

/-- A write into the MSI-X table. -/
def msixWrite (off : Nat) (v : Word) (s : State) : State :=
  let i := off - Reg.MSIX_TBL
  let was := bitAt (reg s off) 0
  let s := setReg off v s
  if i % 16 = 12 && was && !bitAt v 0 then msixUnmask (i / 16) s else s

/-- Bytes of the QSPI buffer. -/
def qspiBuf (s : State) : List Byte := (List.range 64).flatMap fun i => leBytes (reg s (Reg.QSPI_BUF + 4 * i))

/-- Length of a QSPI operation. -/
def qspiLen (v : Word) : Nat := Nat.min 256 (fld v 23 15)

/-- The boot steps are fetching from the flash (R479). -/
def bootFetching (s : State) : Bool := s.sys.wait != .none && s.sys.straps.bootSrc == 1#2

/-- QSPI_CMD (R479, R486): ignored and logged while an operation runs or the boot fetches. -/
def qspiCmdWrite (m : Master) (v : Word) (s : State) : State :=
  if s.host.qbusy.isSome || bootFetching s then progError m Reg.QSPI_CMD s
  else
    let data := if bitAt v 31 then (qspiBuf s).take (qspiLen v) else []
    emit (.qspi v (reg s Reg.QSPI_ADDR) data) { s with host := { s.host with qbusy := some v, qdone := false } }
def execQspiCmd (m : Master) (v : Word) (s : State) : Host.Outcome State Fault Refusal := done (qspiCmdWrite m v s)

/-- QSPI_DONE (R483, R486): the data of a read comes into the buffer, and HOSTQ is latched. -/
def qspiDone (data : List Byte) (s : State) : State :=
  match s.host.qbusy with
  | none => s
  | some v =>
    let n := qspiLen v
    let old := qspiBuf s
    let new := if bitAt v 31 then old else data.take n ++ old.drop (data.take n).length
    let s := (List.range 64).foldl (fun s i => setReg (Reg.QSPI_BUF + 4 * i) (bytesWord new i) s) s
    irqLatch 15 { s with host := { s.host with qbusy := none, qdone := true } }
def execQspiDone (data : List Byte) (s : State) : Host.Outcome State Fault Refusal := done (qspiDone data s)

/-! ### The crosspoint's shadow target (R192, R197) -/

/-- Address of the shadow target that a master's XP_SEL names. -/
def xpShdAddr (s : State) (m : Master) : Nat :=
  let x := (bank s m).xp
  tgtAddr (xpSlice x) (shadowY s (xpSlice x)) (xpLocal x)

/-- XP_SHD (R192): a write to the shadow array in matrix memory; false where it is refused. -/
def xpShdWrite (m : Master) (v : Word) (s : State) : State × Bool :=
  let w : BusWord := { a := xpShdAddr s m, d := v, en := 15#4 }
  let j := judgeWrite m [w] s
  if j.2 then (writeWord w.a v j.1, true) else (j.1, false)
def execXpShd (m : Master) (v : Word) (s : State) : Host.Outcome State Fault Refusal := done (xpShdWrite m v s).1

/-! ### Reads (R5, R7, R471) -/

/-- A register whose value is computed when it is read. -/
structure View where
  off : Nat
  val : Master → State → Word

/-- Registers of banked operands and selects. -/
def bankViews : List View := [
  ⟨Reg.PORT_SEL, fun m s => wOf (bank s m).port⟩, ⟨Reg.STREAM_SEL, fun m s => wOf (bank s m).stream⟩,
  ⟨Reg.REF_SEL, fun m s => wOf (bank s m).ref⟩, ⟨Reg.CKOUT_SEL, fun m s => wOf (bank s m).ckout⟩,
  ⟨Reg.PTP_SEL, fun m s => wOf (bank s m).ptp⟩, ⟨Reg.DMA_SEL, fun m s => wOf (bank s m).dma⟩,
  ⟨Reg.XP_SEL, fun m s => wOf (bank s m).xp⟩, ⟨Reg.STRIP_SEL, fun m s => wOf (bank s m).strip⟩,
  ⟨Reg.SINK_SEL, fun m s => wOf (bank s m).sink⟩, ⟨Reg.ASRC_SEL, fun m s => wOf (bank s m).asrc⟩,
  ⟨Reg.LAT_SEL, fun m s => wOf (bank s m).lat⟩, ⟨Reg.CORE_SEL, fun m s => wOf (bank s m).core⟩,
  ⟨Reg.ERR_LOG_SEL, fun m s => wOf (bank s m).log⟩, ⟨Reg.ERR_INJ_SLOT, fun m s => wOf (bank s m).inj⟩,
  ⟨Reg.CVT_SEC_LO, fun m s => (bank s m).cvtSecLo⟩, ⟨Reg.CVT_SEC_HI, fun m s => (bank s m).cvtSecHi⟩,
  ⟨Reg.CVT_NS, fun m s => (bank s m).cvtNs⟩, ⟨Reg.CVT_CTRL, fun m s => (bank s m).cvtCtrl⟩,
  ⟨Reg.CVT_STROKE_LO, fun m s => (bank s m).cvtStrLo⟩, ⟨Reg.CVT_STROKE_HI, fun m s => (bank s m).cvtStrHi⟩]

/-- Word `i` of the snapshot that a select write took, 0 with none. -/
def snapWord (off i : Nat) (m : Master) (s : State) : Word := (snapOf s m off)[i]?.getD 0#32

/-- System registers. -/
def sysViews : List View := [
  ⟨Reg.SYS_STRAPS, fun _ s =>
    let x := s.sys.straps
    flag x.hostif 4 ||| place x.bootSrc.toNat 2 ||| flag x.twinEn 1 ||| flag x.seat 0⟩,
  ⟨Reg.SYS_IRQ_CAUSE, fun _ s => irqCauses s⟩, ⟨Reg.RST_STAT, fun _ s => rstStat s⟩, ⟨Reg.RST_BOOT, fun _ s => rstBoot s⟩,
  ⟨Reg.RST_BOOT_GO, fun _ s => flag s.sys.go 0⟩, ⟨Reg.PWR_MODE, fun _ s => pwrMode s⟩, ⟨Reg.PWR_OP, fun _ s => pwrOp s⟩,
  ⟨Reg.PIN_VIO, fun _ s => pinVio s⟩,
  ⟨Reg.HOST_LINK, fun _ s => flag s.host.up 31 ||| place s.host.speed 16 ||| place s.host.width 8 ||| (if s.host.d3 then 3#32 else 0#32)⟩,
  ⟨Reg.QSPI_STAT, fun _ s => flag s.host.qbusy.isSome 31 ||| flag s.host.qdone 30⟩,
  ⟨Reg.MSIX_PBA, fun _ s => lo64 s.host.pba⟩, ⟨Reg.MSIX_PBA + 4, fun _ s => hi64 s.host.pba⟩,
  ⟨Reg.ERR_LOG_CNT, fun m s => logCount s (bank s m).log⟩, ⟨Reg.ERR_INJ_TGT, fun m s => (injSlot s m).tgt⟩,
  ⟨Reg.ERR_INJ_CTRL, fun m s => injCtrl (injSlot s m)⟩, ⟨Reg.ERR_INJ_CNT, fun m s => wOf (injSlot s m).cnt⟩]

/-- Time, references, ports and network. -/
def ioViews : List View := [
  ⟨Reg.TIME_STAT, fun _ s => timeStat s⟩, ⟨Reg.TIME_HOLD_NS, fun _ s => holdNs s⟩, ⟨Reg.TIME_SPLIT_NS, fun _ s => splitNs s⟩,
  ⟨Reg.REF_STAT, fun _ s => place s.ref.dpll 30 ||| flag s.ref.sel.isSome 29 ||| place (s.ref.sel.getD 0) 27
    ||| flag (s.ref.slew != 0) 26 ||| flag s.ref.hov 25 ||| wOf s.ref.hwin⟩,
  ⟨Reg.REF_HOFS, fun _ s => wInt s.ref.hofs⟩, ⟨Reg.REF_BO, fun _ s => wInt s.ref.bo⟩,
  ⟨Reg.CKOUT_STAT, fun _ s => (reg s Reg.CKOUT_STAT &&& 0x7F#32)
    ||| (List.range 7).foldl (fun w i => w ||| flag (ckRun s i) (16 + i)) 0#32⟩,
  ⟨Reg.PORT_STATE, fun m s => (portAt s (bank s m).port).seen⟩, ⟨Reg.PORT_SLOTS, fun m s => (portAt s (bank s m).port).slots⟩,
  ⟨Reg.PORT_PHASE, fun m s => wInt ((portAt s (bank s m).port).phi / 65536)⟩,
  ⟨Reg.PORT_IRQ0, fun _ s => portIrqs s 0 32⟩, ⟨Reg.PORT_IRQ1, fun _ s => portIrqs s 32 16⟩, ⟨Reg.PDM_LIVE, fun _ s => pdmLive s⟩,
  ⟨Reg.NET_STAT0, fun _ s => netStatWord s 0⟩, ⟨Reg.NET_STAT1, fun _ s => netStatWord s 1⟩,
  ⟨Reg.NET_HQ_RXWR, fun _ s => wOf s.net.rxWr.toNat⟩, ⟨Reg.NET_HQ_TXRD, fun _ s => wOf s.net.txRd.toNat⟩]

/-- Patch, matrix, engine and calls. -/
def engViews : List View := [
  ⟨Reg.SINK_SRC, snapWord Reg.SINK_SEL 0⟩, ⟨Reg.SINK_NEXT, snapWord Reg.SINK_SEL 1⟩, ⟨Reg.SINK_DLY, snapWord Reg.SINK_SEL 2⟩,
  ⟨Reg.BR_USE, fun _ s => place (s.patch.asrc.filter fun e => e.2.run).length 16 ||| wOf s.patch.bridges.length⟩,
  ⟨Reg.ASRC_RATIO, fun m s => tget 0#32 s.fin.ratio (bank s m).asrc⟩, ⟨Reg.ASRC_FILL, fun m s => wOf (asrcAt s (bank s m).asrc).fill⟩,
  ⟨Reg.MIX_CFG, fun _ s => (List.range 16).foldl (fun w sl => w ||| flag (sliceOn s sl) (16 + sl)) (wOf (planeOf s / 65536 % 128))⟩,
  ⟨Reg.MIX_TSEL, fun _ s => wOf s.mix.tsel.toNat⟩, ⟨Reg.MIX_DONE_MAX, fun _ s => wOf (Nat.min 65535 s.mix.doneMax)⟩,
  ⟨Reg.XP_TGT, snapWord Reg.XP_SEL 0⟩, ⟨Reg.XP_EFF, snapWord Reg.XP_SEL 1⟩, ⟨Reg.XP_STEP, snapWord Reg.XP_SEL 2⟩,
  ⟨Reg.XP_SRC, snapWord Reg.XP_SEL 3⟩, ⟨Reg.XP_SHD, fun m s => peek s (xpShdAddr s m)⟩,
  ⟨Reg.ENG_TSKEW, fun _ s => (sat32 s.eng.tskew).1⟩, ⟨Reg.OVR_COUNT, fun _ s => wOf s.eng.ovrCount⟩,
  ⟨Reg.ENG_RATE, fun _ s => flag (s.eng.fam == some true) 16 ||| wOf (sps s)⟩,
  ⟨Reg.STRIP_INFO, fun m s => stripInfo s (bank s m).strip⟩, ⟨Reg.CARRY_BYTES, fun _ s => carryBytes s⟩, ⟨Reg.IMG_STAT, fun _ s => imgStat s⟩,
  ⟨Reg.LAT_UP, snapWord Reg.LAT_SEL 0⟩, ⟨Reg.LAT_ALN, snapWord Reg.LAT_SEL 1⟩, ⟨Reg.LAT_ARR, snapWord Reg.LAT_SEL 2⟩,
  ⟨Reg.LAT_TGT, snapWord Reg.LAT_SEL 3⟩, ⟨Reg.LAT_STRIP, snapWord Reg.LAT_SEL 4⟩,
  ⟨Reg.SCENE_STATE, fun _ s => sceneStateWord s⟩,
  ⟨Reg.SCENE_ID, fun _ s => match s.scene.view with
    | some r => r.scene
    | none => 0#32⟩,
  ⟨Reg.SCENE_CNT, fun _ s => place s.scene.nFork 16 ||| wOf s.scene.nDirect⟩,
  ⟨Reg.FORKCAP0, fun _ s => forkcap s 0⟩, ⟨Reg.FORKCAP1, fun _ s => forkcap s 1⟩,
  ⟨Reg.CORE_STAT, snapWord Reg.CORE_SEL 0⟩, ⟨Reg.CORE_CYC, snapWord Reg.CORE_SEL 1⟩, ⟨Reg.CORE_CYC_MAX, snapWord Reg.CORE_SEL 2⟩,
  ⟨Reg.CALL_RD, fun _ s => wOf s.call.rd.toNat⟩, ⟨Reg.RCPT_WR, fun _ s => wOf s.call.rcptWr.toNat⟩,
  ⟨Reg.RCPT_LOST, fun _ s => wOf s.call.rcptLost⟩, ⟨Reg.PEND_COUNT, fun _ s => wOf s.call.pend.length⟩]

/-- Twin, memories, fabric and DMA. -/
def memViews : List View := [
  ⟨Reg.TWIN_STATE, fun _ s => twinState s⟩, ⟨Reg.TWIN_EPOCH, fun _ s => s.twin.epoch⟩, ⟨Reg.TWIN_PEER_EPOCH, fun _ s => s.twin.peerEpoch⟩,
  ⟨Reg.TWIN_UNVER_N, fun _ s => wOf s.twin.unverN⟩, ⟨Reg.TWIN_DIFF, fun _ s => twinDiff s⟩, ⟨Reg.TWIN_RESYNC, fun _ s => twinResync s⟩,
  ⟨Reg.TWIN_LINK, fun _ s => twinLink s⟩, ⟨Reg.TWIN_TAGERR, fun _ s => wOf s.twin.tagErr⟩,
  ⟨Reg.MEM_STAT, fun _ s => memStat s⟩, ⟨Reg.MEM_CE_CNT, fun _ s => wOf s.msvc.ce⟩, ⟨Reg.MEM_UE_CNT, fun _ s => wOf s.msvc.ue⟩,
  ⟨Reg.MEM_UE_ADDR, fun _ s => s.msvc.ueAddr⟩, ⟨Reg.MEM_REPAIRS, fun _ s => place s.msvc.repaired 16 ||| wOf (s.msvc.repairs.length % 65536)⟩,
  ⟨Reg.MEM_SPARE_MIN, fun _ s => wOf (spareMin s)⟩,
  ⟨Reg.FAB_ERR_INFO, fun _ s => s.fab.info⟩,
  ⟨Reg.FAB_LOCK, fun _ s =>
    let at_ (t : Nat) : Option Nat := vget none s.fab.lock t
    place ((at_ 2).getD 0) 8 ||| flag (at_ 2).isSome 2 ||| flag (at_ 1).isSome 1 ||| flag (at_ 0).isSome 0⟩,
  ⟨Reg.FAB_UNMAP_CNT, fun _ s => wOf s.fab.unmap⟩, ⟨Reg.FAB_TMO_CNT, fun _ s => wOf s.fab.tmo⟩,
  ⟨Reg.DMA_STAT, fun m s => dmaStat (dmaAt s (bank s m).dma)⟩, ⟨Reg.DMA_RESID, fun m s => wOf (dmaAt s (bank s m).dma).resid⟩,
  ⟨Reg.DMA_DONE_CNT, fun m s => wOf (dmaAt s (bank s m).dma).done⟩, ⟨Reg.DMA_GSTAT, fun _ s => dmaGstat s⟩,
  ⟨Reg.SLATE_STAT, fun _ s => slateStat s⟩, ⟨Reg.SLATE_SEQ0, fun _ s => slateSeq s 0⟩, ⟨Reg.SLATE_SEQ1, fun _ s => slateSeq s 1⟩,
  ⟨Reg.SLATE_LOGHEAD, fun _ s => wOf (64 * s.slate.logHead)⟩, ⟨Reg.GEODE_STAT, fun _ s => geodeStat s⟩,
  ⟨Reg.DRAM_STAT, fun _ s => dramStat s⟩, ⟨Reg.DRAM_SIZE, fun _ s => wOf (dramBytes s / 1048576)⟩,
  ⟨Reg.DRAM_CE_CNT, fun _ s => wOf s.dram.ce⟩, ⟨Reg.DRAM_UE_CNT, fun _ s => wOf s.dram.ue⟩]

def views : List View := bankViews ++ sysViews ++ ioViews ++ engViews ++ memViews

/-- A group of registers that a read of its first one latches (R471): its later registers and its words. -/
structure Group where
  off : Nat
  later : List Nat
  words : Master → State → List Word

/-- A _LO register with its _HI partner. -/
def pairGroup (off : Nat) (f : Master → State → BitVec 64) : Group := ⟨off, [off + 4], fun m s => [lo64 (f m s), hi64 (f m s)]⟩

/-- Result blocks of one word 0 and its data words. -/
def resGroup (off : Nat) (later : List Nat) (r : Master → State → Result) (bits : Master → State → Word) : Group :=
  ⟨off, later, fun m s => resWord (r m s) (bits m s) :: (r m s).words⟩

/-- The stroke at which the armed or last recall is due, and its fork start (R249). -/
def sceneT (s : State) (fork : Bool) : BitVec 64 := match s.scene.view with
  | some r => BitVec.ofNat 64 (if fork then r.f else r.t)
  | none => 0#64

/-- The result blocks and latched groups. -/
def groups : List Group := [
  ⟨Reg.TIME_SEC_LO, [Reg.TIME_SEC_HI, Reg.TIME_NS, Reg.TIME_FRAC], fun _ s => timeWords s.net.now⟩,
  ⟨Reg.PTP_STATE, [Reg.PTP_OFS_NS, Reg.PTP_OFS_FRAC, Reg.PTP_DELAY, Reg.PTP_GM, Reg.PTP_GMID_LO, Reg.PTP_GMID_HI],
    fun m s => ptpStateWord s (bank s m).ptp :: (ptpAt s (bank s m).ptp).pub.words⟩,
  ⟨Reg.REF_MEAS, [Reg.REF_FOFS, Reg.REF_PHS], fun m s =>
    let x := refAt s (bank s m).ref
    [flag x.valid 31 ||| place x.st 29 ||| place x.ql 24 ||| place x.run 16 ||| wOf x.gen, x.fofs, x.phs]⟩,
  resGroup Reg.PORT_RATE [Reg.PORT_RATE_VAL] (fun m s => (portAt s (bank s m).port).rate)
    (fun m s => place (portAt s (bank s m).port).cls 28),
  pairGroup Reg.GRP_G_LO (fun _ s => s.port.grpG),
  resGroup Reg.STR_CNT [Reg.STR_LATE, Reg.STR_LOST, Reg.STR_STALE, Reg.STR_PDIFF, Reg.STR_EPOCH] (fun m s => (strAt s (bank s m).stream).pub)
    (fun _ _ => 0#32),
  pairGroup Reg.DET_FIRST_LO (fun _ s => s.eng.detFirst), pairGroup Reg.DET_BASE_LO (fun _ s => s.eng.detBase),
  pairGroup Reg.STROKE_LO (fun _ s => s.eng.stroke), pairGroup Reg.IMG_ID_LO (fun _ s => imageId s),
  pairGroup Reg.SCENE_T_LO (fun _ s => sceneT s false), pairGroup Reg.SCENE_F_LO (fun _ s => sceneT s true),
  pairGroup Reg.TWIN_LAST_LO (fun _ s => s.twin.last), pairGroup Reg.TWIN_COMMIT_LO (fun _ s => s.twin.commit),
  pairGroup Reg.TWIN_UNVER_LO (fun _ s => s.twin.unverAt),
  resGroup Reg.MEM_ASSAY_RES [Reg.MEM_ASSAY_MS] (fun _ s => s.msvc.assayRes) (fun _ _ => 0#32),
  pairGroup Reg.FAB_ERR_ADDR_LO (fun _ s => BitVec.ofNat 64 s.fab.addr),
  pairGroup Reg.DMA_CUR_LO (fun m s => BitVec.ofNat 64 (dmaAt s (bank s m).dma).cur),
  ⟨Reg.DMA_ERR_ADDR_LO, [Reg.DMA_ERR_ADDR_HI], fun _ s =>
    [wOf s.dma.errAddr, place s.dma.errResp 8 ||| wOf (s.dma.errAddr / 4294967296)]⟩,
  ⟨Reg.ERR_HEAD, [Reg.ERR_HEAD + 4, Reg.ERR_HEAD + 8, Reg.ERR_HEAD + 12], fun m s => headWords s (bank s m).log⟩,
  ⟨Reg.TEST_RES0, [Reg.TEST_RES1, Reg.TEST_RES2, Reg.TEST_RES3], fun _ s => testRes0 s :: s.err.res.words⟩,
  resGroup Reg.PWR_MON [Reg.PWR_VSYS_MV, Reg.PWR_TJ, Reg.PWR_IN_MW] (fun _ s => s.sys.mon) (fun _ _ => 0#32)]

/-- Key of a group's snapshot: a block of a selected instance has a snapshot of its own. -/
def groupKey (s : State) (m : Master) (g : Group) : Nat := match Reg.rowAt g.off with
  | some r => regKey g.off (instOf s m r.sel)
  | none => g.off

/-- The first word of a group is read: the snapshot is taken for the master (R471). -/
def groupTake (m : Master) (g : Group) (s : State) : State × Word :=
  let ws := g.words m s
  (snapTake m (groupKey s m g) ws s, ws.head?.getD 0#32)

/-- A later word of a group. -/
def groupLater (m : Master) (g : Group) (off : Nat) (s : State) : Word :=
  match g.later.findIdx? (· == off) with
  | some i => (snapOf s m (groupKey s m g))[i + 1]?.getD 0#32
  | none => 0#32

/-- The value of a register row as a master reads it. -/
def rowRead (m : Master) (r : RegRow) (off : Nat) (s : State) : State × Word :=
  if r.acc == .wo then (s, 0#32)
  else
    match groups.find? (fun g => g.off == off) with
    | some g => groupTake m g s
    | none =>
      match groups.find? (fun g => g.later.contains off) with
      | some g => (s, groupLater m g off s)
      | none =>
        match views.find? (fun v => v.off == off) with
        | some v => (s, v.val m s)
        | none =>
          if Reg.GEODE_PUB ≤ off ∧ off < Reg.GEODE_PUB + 96 then (s, bytesWord s.geode.idPub ((off - Reg.GEODE_PUB) / 4))
          else if Reg.GEODE_ROOT ≤ off ∧ off < Reg.GEODE_ROOT + 48 then (s, bytesWord s.geode.root ((off - Reg.GEODE_ROOT) / 4))
          else (s, reg s (regKey off (instOf s m r.sel)))

/-- A read of the register at an offset of the register space (R5, R481): an offset that names no register reads 0. -/
def regRead (m : Master) (off : Nat) (s : State) : State × Word :=
  match Reg.rowAt off with
  | some r => rowRead m r off s
  | none => (s, 0#32)

/-! ### Writes (R5, R6, R9) -/

/-- A register whose write does something of its own; the instance is the one that the master's select names. -/
structure Action where
  off : Nat
  run : Master → Nat → Word → State → State

/-- Writes of the select and operand registers (R482). -/
def bankActions : List Action := [
  ⟨Reg.PORT_SEL, fun m _ v => selPut m Reg.PORT_SEL (decide (fld v 5 0 < 48)) false fun b => { b with port := fld v 5 0 }⟩,
  ⟨Reg.STREAM_SEL, fun m _ v => setBank m fun b => { b with stream := fld v 9 0 }⟩,
  ⟨Reg.REF_SEL, fun m _ v => setBank m fun b => { b with ref := fld v 1 0 }⟩,
  ⟨Reg.CKOUT_SEL, fun m _ v => selPut m Reg.CKOUT_SEL (decide (fld v 2 0 < 7)) false fun b => { b with ckout := fld v 2 0 }⟩,
  ⟨Reg.PTP_SEL, fun m _ v => selPut m Reg.PTP_SEL true (fld v 31 1 != 0) fun b => { b with ptp := fld v 0 0 }⟩,
  ⟨Reg.DMA_SEL, fun m _ v => selPut m Reg.DMA_SEL true (fld v 31 4 != 0) fun b => { b with dma := fld v 3 0 }⟩,
  ⟨Reg.STRIP_SEL, fun m _ v => selPut m Reg.STRIP_SEL (decide (fld v 10 0 < 1920)) false fun b => { b with strip := fld v 10 0 }⟩,
  ⟨Reg.ASRC_SEL, fun m _ v => setBank m fun b => { b with asrc := fld v 6 0 }⟩,
  ⟨Reg.ERR_LOG_SEL, fun m _ v => setBank m fun b => { b with log := fld v 2 0 }⟩,
  ⟨Reg.ERR_INJ_SLOT, fun m _ v => setBank m fun b => { b with inj := fld v 2 0 }⟩,
  ⟨Reg.XP_SEL, fun m _ v => xpSelWrite m v⟩, ⟨Reg.SINK_SEL, fun m _ v => sinkSelWrite m v⟩,
  ⟨Reg.LAT_SEL, fun m _ v => latSelWrite m v⟩, ⟨Reg.CORE_SEL, fun m _ v => coreSelWrite m v⟩,
  ⟨Reg.CVT_SEC_LO, fun m _ v => setBank m fun b => { b with cvtSecLo := v }⟩,
  ⟨Reg.CVT_SEC_HI, fun m _ v => setBank m fun b => { b with cvtSecHi := v }⟩,
  ⟨Reg.CVT_NS, fun m _ v => selPut m Reg.CVT_NS (decide (v.toNat < 1000000000)) false fun b => { b with cvtNs := v }⟩,
  ⟨Reg.CVT_STROKE_LO, fun m _ v => setBank m fun b => { b with cvtStrLo := v }⟩,
  ⟨Reg.CVT_STROKE_HI, fun m _ v => setBank m fun b => { b with cvtStrHi := v }⟩,
  ⟨Reg.CVT_CTRL, fun m _ v => cvtConvert m v⟩]

/-- Registers of the CALL block: the rings are fixed while EN = 1, CALL_LEAD keeps its range (R66). A ring size outside 4–16 is stored,
and the ring then has 2^size entries (DESIGN CHOICE, log entry 111). -/
def ringWrite (off : Nat) (mask v : Word) (s : State) : State := if bitAt (reg s Reg.CALL_CTRL) 0 then s else setReg off (v &&& mask) s
def callCfgWrite (m : Master) (v : Word) (s : State) : State :=
  let lead := fld v 6 0
  let old := reg s Reg.CALL_CFG
  if 2 ≤ lead ∧ lead ≤ 64 then setReg Reg.CALL_CFG (v &&& 0x17F#32) s
  else progError m Reg.CALL_CFG (setReg Reg.CALL_CFG ((v &&& 0x100#32) ||| (old &&& 0x7F#32)) s)

/-- REF_LIMIT and REF_SLEW: a field out of range makes the write be ignored as a whole (R335). -/
def rangedWrite (m : Master) (off : Nat) (lo1 hi1 lo0 hi0 : Nat) (v : Word) (s : State) : State :=
  let a := fld v 31 16
  let b := fld v 15 0
  if lo1 ≤ a ∧ a ≤ hi1 ∧ lo0 ≤ b ∧ b ≤ hi0 then setReg off v s else progError m off s

/-- RST_FSTART (R455): FSTART_MAX alone is written, and not with 0. -/
def fstartWrite (m : Master) (v : Word) (s : State) : State :=
  if fld v 10 8 = 0 then progError m Reg.RST_FSTART s
  else setReg Reg.RST_FSTART ((v &&& 0x700#32) ||| (reg s Reg.RST_FSTART &&& 7#32)) s

/-- RST_BOOT_GO (R449). -/
def bootGoWrite (v : Word) (s : State) : State := if bitAt v 0 then { s with sys := { s.sys with go := true } } else s
def execRstBootGo (_m : Master) (v : Word) (s : State) : Host.Outcome State Fault Refusal := done (bootGoWrite v s)

/-- A write to ASRC_CFG (R227): EDOM = 3 is logged. -/
def asrcCfgWrite (m : Master) (a : Nat) (v : Word) (s : State) : State :=
  let s := setRegAt Reg.ASRC_CFG a (v &&& 0xF03F00FF#32) s
  if fld v 29 28 = 3 then progError m Reg.ASRC_CFG s else s

/-- A receive stream is enabled (R313). -/
def rxEnabled (s : State) : Bool := s.net.streams.any fun e => decide (e.1 < 512) && e.2.on

/-- A write to CKOUT_CFG (R333, R335): ALIGN = 3 and an OFS past its limit are logged. -/
def ckCfgWrite (m : Master) (i : Nat) (v : Word) (s : State) : State :=
  let s := setRegAt Reg.CKOUT_CFG i v s
  if fld v 29 28 = 3 ∨ ckMax s < (ckOfs v).natAbs then progError m Reg.CKOUT_CFG s else s

/-- A write to a configuration register of a stream entry (R313): while EN reads 1 at the CATCH, only EN changes. -/
def strWrite (m : Master) (r : RegRow) (k : Nat) (v : Word) (s : State) : State :=
  let old := regAt s r.off k
  if !(strAt s k).en then setRegAt r.off k (v &&& r.rw) s
  else
    let keep := if r.off = Reg.STR_CFG then (v &&& 0x80000000#32) ||| (old &&& 0x7FFFFFFF#32) else old
    let s := setRegAt r.off k keep s
    if r.off = Reg.STR_CFG ∧ v &&& r.rw = keep then s else progError m r.off s

/-- FAB_STAT (R423): once bits [2:0] are all clear, the error registers capture again. -/
def fabStatWrite (v : Word) (s : State) : State :=
  let s := setReg Reg.FAB_STAT (reg s Reg.FAB_STAT &&& ~~~(v &&& 15#32)) s
  if reg s Reg.FAB_STAT &&& 7#32 = 0#32 then { s with fab := { s.fab with info := s.fab.info &&& 0x7FFFFFFF#32 } } else s

/-- SYS_BOOT_OK over the fabric: whether the write is in time is open (log entry 3). -/
def bootOkBus (m : Master) (v : Word) (s : State) : State :=
  bootOk m v (if Config.bootOkInTime s.freeCtr then 0 else 10001) { s with freeCtr := s.freeCtr + 1 }

/-- System, power, time, reference and port registers. -/
def sysActions : List Action := [
  ⟨Reg.SYS_BOOT_OK, fun m _ v => bootOkBus m v⟩, ⟨Reg.SYS_IRQ_ACK, fun _ _ v => irqAck (fld v 5 0)⟩,
  ⟨Reg.RST_CTRL, fun m _ v => rstCtrlWrite m v⟩, ⟨Reg.RST_ENG, fun _ _ v => rstEngWrite v none⟩,
  ⟨Reg.RST_WDT_CFG, fun _ _ v => wdtCfgWrite v⟩, ⟨Reg.RST_WDT_KICK, fun _ _ v => wdtKick v⟩,
  ⟨Reg.RST_FSTART, fun m _ v => fstartWrite m v⟩, ⟨Reg.RST_BOOT_GO, fun _ _ v => bootGoWrite v⟩,
  ⟨Reg.PWR_MODE, fun _ _ v => pwrModeWrite v⟩,
  ⟨Reg.TIME_CTRL, fun _ _ v => timeCtrlWrite v⟩, ⟨Reg.PTP_CFG, fun m _ v => ptpCfgWrite m v⟩,
  ⟨Reg.REF_CTRL, fun _ _ v => refCtrlWrite v⟩, ⟨Reg.REF_CFG, fun m i v => refCfgWrite m i v⟩,
  ⟨Reg.REF_LIMIT, fun m _ v => rangedWrite m Reg.REF_LIMIT 1 1000 100 10000 v⟩,
  ⟨Reg.REF_SLEW, fun m _ v => rangedWrite m Reg.REF_SLEW 1 50 1 1000 v⟩,
  ⟨Reg.LO_STAT, fun _ _ v s => loCheck (setReg Reg.LO_STAT (reg s Reg.LO_STAT &&& ~~~(v &&& 1#32)) s)⟩,
  ⟨Reg.CKOUT_CFG, fun m i v => ckCfgWrite m i v⟩, ⟨Reg.ASRC_CFG, fun m a v => asrcCfgWrite m a v⟩,
  ⟨Reg.GRP_GO, fun _ _ v => grpWrite true v⟩, ⟨Reg.GRP_STOP, fun _ _ v => grpWrite false v⟩,
  ⟨Reg.PORT_RST0, fun _ _ v => portRstWrite false v⟩, ⟨Reg.PORT_RST1, fun _ _ v => portRstWrite true v⟩, ⟨Reg.PDM_EN, fun _ _ v => pdmEnWrite v⟩,
  ⟨Reg.NET_CFG0, fun _ _ v => netCfgWrite 0 v none⟩, ⟨Reg.NET_CFG1, fun _ _ v => netCfgWrite 1 v none⟩,
  ⟨Reg.NET_JBASE, fun _ _ v s => if rxEnabled s then s else setReg Reg.NET_JBASE v s⟩, ⟨Reg.NET_HQ_TXDB, fun _ _ v => hqTxdb v⟩]

/-- Call, twin, memory, fabric, DMA, error and host registers. -/
def unitActions : List Action := [
  ⟨Reg.CALL_CTRL, fun m _ v => callEnableWrite m v⟩, ⟨Reg.CALL_CFG, fun m _ v => callCfgWrite m v⟩, ⟨Reg.CALL_DB, fun _ _ v => callDbWrite v⟩,
  ⟨Reg.CALL_RING_BASE, fun _ _ v => ringWrite Reg.CALL_RING_BASE 0x7FFFE0#32 v⟩, ⟨Reg.CALL_RING_SIZE, fun _ _ v => ringWrite Reg.CALL_RING_SIZE 0x1F#32 v⟩,
  ⟨Reg.RCPT_RING_BASE, fun _ _ v => ringWrite Reg.RCPT_RING_BASE 0x7FFFF0#32 v⟩, ⟨Reg.RCPT_RING_SIZE, fun _ _ v => ringWrite Reg.RCPT_RING_SIZE 0x1F#32 v⟩,
  ⟨Reg.TWIN_CTRL, fun _ _ v => twinCtrlWrite v⟩, ⟨Reg.FAB_STAT, fun _ _ v => fabStatWrite v⟩,
  ⟨Reg.DMA_CTRL, fun m _ v => dmaCtrlWrite m v⟩,
  ⟨Reg.DMA_CHAIN_MAX, fun m _ v s => if fld v 15 0 = 0 then progError m Reg.DMA_CHAIN_MAX s else setReg Reg.DMA_CHAIN_MAX (v &&& 0xFFFF#32) s⟩,
  ⟨Reg.ERR_POP, fun _ _ v => errPopWrite v⟩, ⟨Reg.ERR_INJ_TGT, fun m _ v => injTgtWrite m v⟩, ⟨Reg.ERR_INJ_CTRL, fun m _ v => injCtrlWrite m v⟩,
  ⟨Reg.TEST_CMD, fun _ _ v => testRequest (fld v 7 0)⟩, ⟨Reg.QSPI_CMD, fun m _ v => qspiCmdWrite m v⟩,
  ⟨Reg.SLATE_CMD, fun m _ v => slateCmdWrite m v⟩, ⟨Reg.GEODE_CMD, fun _ _ v => geodeCmdWrite v⟩, ⟨Reg.GEODE_LCREQ, fun m _ v => lcReqWrite m v⟩]

def actions : List Action := bankActions ++ sysActions ++ unitActions

/-- A collision class register (R375): it is written only while the engine is held. -/
def isClassReg (off : Nat) : Bool :=
  (decide (Reg.MEM_CCLS ≤ off) && decide (off < Reg.MEM_CCLS + 16)) || (decide (Reg.MEM_KCLS ≤ off) && decide (off < Reg.MEM_KCLS + 64))

/-- A write of a plain register by its access code (R5). -/
def plainWrite (m : Master) (r : RegRow) (off : Nat) (v : Word) (s : State) : State :=
  let k := regKey off (instOf s m r.sel)
  match r.acc with
  | .rw => setReg k (v &&& r.rw) s
  | .w1c => setReg k (reg s k &&& ~~~(v &&& r.w1c)) s
  | _ => s

/-- A register row is written. -/
def rowWrite (m : Master) (r : RegRow) (off : Nat) (v : Word) (s : State) : State :=
  match actions.find? (fun a => a.off == off) with
  | some a => a.run m (instOf s m r.sel) v s
  | none =>
    if r.sel = .stream ∧ r.acc = .rw then strWrite m r (bank s m).stream v s
    else if isClassReg off && !engHeld s then progError m off s
    else if Reg.REF_CCMAP ≤ off ∧ off < Reg.REF_CCMAP + 64 then ccmapWrite off v s
    else if Reg.MSIX_TBL ≤ off ∧ off < Reg.MSIX_TBL + 1024 then msixWrite off v s
    else plainWrite m r off v s

/-- A write of the register at an offset (R5, R481): false where the fabric answers it REFUSED. -/
def regWrite (m : Master) (off : Nat) (v : Word) (s : State) : State × Bool :=
  if off = Reg.XP_SHD then xpShdWrite m v s
  else
    match Reg.rowAt off with
    | some r => (rowWrite m r off v s, true)
    | none => (progError m off s, true)

end Sys2Proof.Machine
end

