-- ==== Sys2Proof/Machine/Boot.lean ====
section
/-! DEFINITION. Release of the domains (R437, R440), the boot steps (R445–R452), the engine's release (R42), and RETAIN and the
wake (R434, R435). -/

namespace Sys2Proof.Machine

/-! ### Outcomes of the boot (R445, R455) -/

/-- The boot ends in RECOVERY mode with a RST_BOOT.RESULT: the boot and mode holds stay. -/
def bootFail (code : Nat) (s : State) : State :=
  { s with sys := { s.sys with
      step := 15, result := code, mode := .recovery, wait := .none, go := false, bootHold := true, modeHold := true
      modeRes := if s.sys.busy.isSome then 2 else s.sys.modeRes, busy := none, retained := false } }

/-- A boot error with its record. -/
def bootError (rec : BitVec 12) (code : Nat) (s : State) : State := bootFail code (report bootSrc rec .fault 0#32 s)

/-! ### Keel and system controller (R440, R444–R446, R452) -/

/-- The option-and-trim row. -/
def trimRow (s : State) : List Byte := memGetBytes s.mem slateBase 4096

/-- Its CRC is good (R446). -/
def trimGood (s : State) : Bool := crc32 ((trimRow s).take 4092) == peek s (slateBase + 4092)

/-- A field marked T takes its value: from the row with a good CRC, else 0. -/
def trimPut (good : Bool) (off : Nat) (mask : Word) (s : State) : State :=
  setReg off (if good then Config.trimField (trimRow s) off &&& mask else 0#32) s

/-- The fields marked T (R446). -/
def trimLoad (s : State) : State :=
  let g := trimGood s
  let s := trimPut g Reg.LO_CFG 0x8000FFFF#32 s
  let s := trimPut g Reg.DRAM_CFG 0xEF0F0101#32 s
  let s := trimPut g Reg.PWR_AUX 3#32 s
  let s := trimPut g Reg.SYS_GRADE 1#32 s
  let s := trimPut g Reg.QSPI_CFG 0x80000F0F#32 s
  if g then s else report bootSrc 0x900#12 .fault 0#32 s

/-- Keel step (R429, R440): the auxiliary outputs take their enables from the trim row. -/
def keelStep (s : State) : State :=
  let s := trimPut (trimGood s) Reg.PWR_AUX 3#32 s
  { s with sys := { s.sys with rel := 1, deep := false } }

/-- The false-start count of the release (R452). -/
def falseCount (s : State) : Nat := fld (reg s Reg.RST_FSTART) 2 0

/-- COUNT has reached FSTART_MAX (R452). -/
def falseStart (s : State) : Bool := decide (fld (reg s Reg.RST_FSTART) 10 8 ≤ falseCount s)

/-- RST_BOOT.RESULT of a boot that stops in the system controller step, 0 where it goes on (R445, R452). -/
def romResult (s : State) : Nat :=
  if falseStart s then 2
  else if 1 < lcNow s then 6
  else if s.sys.straps.bootSrc = 3#2 then 7
  else if s.geode.root.isEmpty then 5
  else if !trimGood s then 1
  else 0

/-- The records that wait for a reset release: a thermal trip, a Geode wipe, the causes (R390, R428, R456). -/
def releaseLogs (s : State) : State :=
  let s := if s.sys.thermLog then reportI s.sys.thermInj powSrc 0x806#12 .fatal 0#32 s else s
  let s := if s.geode.wipeLog = 0#32 then s else report (sysSrc 2 0) 0xA00#12 .fault s.geode.wipeLog s
  causeLog { s with sys := { s.sys with thermLog := false, thermInj := false }, geode := { s.geode with wipeLog := 0#32 } }

/-- The identity key is drawn where there is none (R389). -/
def identity (s : State) : State :=
  if !s.geode.idKey.isEmpty then s
  else
    let k := (List.range 12).flatMap fun i => leBytes (Config.entropy (s.freeCtr + i))
    { s with freeCtr := s.freeCtr + 12, geode := { s.geode with idKey := k, idPub := Config.p384Public k } }

/-- System controller step (R440, R444, R445): straps, records, trim, ROM checks, the false-start count. -/
def scStep (x : Straps) (s : State) : State :=
  let s := releaseLogs { s with sys := { s.sys with straps := x, therm := false } }
  let s := identity (setReg Reg.RST_BOOT_CFG (flag x.twinEn 31) s)
  let r := romResult s
  let s := if falseStart s then report bootSrc 0x901#12 .degrade 0#32 s else s
  let n := Nat.min 7 (falseCount s + 1)
  let s := setReg Reg.RST_FSTART ((reg s Reg.RST_FSTART &&& 0x700#32) ||| wOf n) (trimLoad s)
  let s := { s with sys := { s.sys with rel := 2, step := 2, result := 0, mode := .recovery, bootHold := true, wait := .firmware } }
  if r = 0 then s else bootFail r s

/-! ### Memories and settings (R381, R382, R394, R450) -/

/-- DRAM_CFG acts and the interface is trained (R394), `fail` the failing step. -/
def dramStep (fail : Nat) (s : State) : State :=
  let t := { s with dram := { s.dram with cfg := reg s Reg.DRAM_CFG } }
  if s.dram.ready then t else if dramOn t then dramTrained fail t else t

/-- Memories step (R381, R382): what a release of SYSTEM reach clears, and what a wake clears (R434). -/
def memStep (fail : Nat) (s : State) : State :=
  let s := if s.sys.retained then s else loadRepairs s
  let kinds := if s.sys.retained then [MemKind.central, .matrix, .portBuf]
    else [MemKind.coreProg, .coreData, .crew, .central, .matrix, .portBuf, .geode]
  let s := dramStep fail { s with msvc := { s.msvc with clearing := kinds } }
  { s with sys := { s.sys with rel := 4 } }

/-- SETTINGS_BAD (R450). -/
def settingsBad (s : State) : State := (detect false bootSrc 0x904#12 .degrade 0#32 true s).1

/-- The settings entries in list order (R450): register writes act, central-memory words are kept for step 4; the list ends at its end
entry, at a failing entry, or where an entry has reset the device. -/
def settingsRun : List Word → State → State
  | d :: v :: ws, s =>
    let off := fld d 23 0
    match fld d 31 30 with
    | 0 =>
      if off % 4 ≠ 0 ∨ 0x150000 ≤ off then settingsBad s
      else
        let r := regWrite .sc off v s
        if !r.2 then settingsBad r.1
        else if r.1.sys.rel ≠ 4 then r.1
        else settingsRun ws r.1
    | 1 =>
      if off % 4 ≠ 0 then settingsBad s
      else settingsRun ws { s with sys := { s.sys with late := s.sys.late ++ [⟨off % 0x800000, v⟩] } }
    | 2 => s
    | _ => settingsBad s
  | _, s => settingsBad s

/-- A slot whose MAGIC stands and whose CRC fails is logged as it is read (R386). -/
def slotLog (i : Nat) (s : State) : State :=
  if peek s (slotAddr i) == 0x53544C53#32 && !slotValid s i then report (sysSrc 1 0) 0x940#12 .degrade 0#32 s else s

/-- The newest valid settings slot is applied (R450). -/
def settingsApply (s : State) : State :=
  let s := slotLog 1 (slotLog 0 s)
  match slotNewest s with
  | none => s
  | some i => settingsRun (memWords s.mem (slotAddr i + 64) (slotLen s i / 8 * 2)) s

/-! ### The retain copy (R434) -/

/-- Start of the retain copy in DRAM. -/
def retBase (s : State) : Nat := dramBase + fld (reg s Reg.PWR_RET_BASE) 7 0 * 0x2000000

/-- The copy can be made: SRET and READY, and it fits. -/
def retFits (s : State) : Bool := bitAt s.dram.cfg 29 && dramReady s && decide (retBase s - dramBase + 0x1300000 ≤ dramBytes s)

/-- The cells of a range, moved to another base. -/
def cellsMoved (m : List Host.Cell) (lo n to_ : Nat) : List Host.Cell :=
  (m.filter fun e => decide (lo ≤ e.1) && decide (e.1 < lo + n)).map fun e => (e.1 - lo + to_, e.2)

/-- A range of memory takes other cells. -/
def cellsPut (m : List Host.Cell) (lo n : Nat) (new : List Host.Cell) : List Host.Cell :=
  (m.filter fun e => decide (e.1 < lo)) ++ new ++ (m.filter fun e => decide (lo + n ≤ e.1))

/-- Central and matrix memory are copied to DRAM, and the sink table with its route states is kept; the bytes that it takes there are
free. -/
def retCopyOut (s : State) : State :=
  let r := retBase s
  let m := cellsPut s.mem r 0x800000 (cellsMoved s.mem centralBase 0x800000 r)
  let m := cellsPut m (r + 0x800000) 0xA00000 (cellsMoved s.mem matrixBase 0xA00000 (r + 0x800000))
  let e := tclear s.msvc.ecc r 0x1300000
  let s := { s with mem := m, msvc := { s.msvc with ecc := e } }
  writeBytes (r + 0x1200000) ((Config.retainTable s.freeCtr).take 65536)
    { s with freeCtr := s.freeCtr + 1, sys := { s.sys with retCopy := some s.patch.sinks } }

/-- The copy is restored on wake. -/
def retRestore (s : State) : State :=
  match s.sys.retCopy with
  | none => s
  | some t =>
    let r := retBase s
    let m := cellsPut s.mem centralBase 0x800000 (cellsMoved s.mem r 0x800000 centralBase)
    let m := cellsPut m matrixBase 0xA00000 (cellsMoved s.mem (r + 0x800000) 0xA00000 matrixBase)
    { s with mem := m, patch := { s.patch with sinks := t } }

/-! ### The release order (R437, R440) -/

/-- A source holds the domains after the keel (R437, R439), or the mode powers them off (R434, R435). -/
def releaseHeld (s : State) : Bool :=
  s.sys.resetN || s.sys.tamper || s.sys.mode == .dormant || s.sys.mode == .retain

/-- Time and references (R327, R451): system time starts at 0, the DPLL in FREERUN. On a wake the units start from their kept
registers (R434). -/
def timeStart (s : State) : State :=
  let s := { s with net := { s.net with now := 0 }, ref := { s.ref with loCfg := reg s Reg.LO_CFG, dpll := 0, firstDone := false } }
  let s := setFreq (trimFreq s) s
  if s.sys.retained then
    let s := (List.range 2).foldl (fun s i => ptpLeave i (if bitAt (ptpCfg s i) 31 then 1 else 0) s) s
    (List.range 4).foldl (fun s r => refRestart r s) s
  else s

/-- The memories step is over (R434, R450) and time and references are released, unless a settings entry has reset the device; the boot
goes on to its firmware step (R445, R455). -/
def timeStep5 (s : State) : State :=
  let s := if s.sys.retained then retRestore s else if s.sys.step = 15 then s else settingsApply s
  if s.sys.rel ≠ 4 then s
  else
    let s := timeStart s
    { s with sys := { s.sys with rel := 5, step := if s.sys.step = 2 then 3 else s.sys.step } }

/-- Ports step (R267, R440): each port and PDM group is released; on a wake PDM_EN acts anew. -/
def portStep (s : State) : State :=
  let s := (List.range 48).foldl (fun s p => portRelease p s) s
  let s := (List.range 4).foldl (fun s g => pdmRelease g s) s
  let en := reg s Reg.PDM_EN
  let s := if s.port.pdmAct.isEmpty && en != 0#32 then { s with port := { s.port with pdmAct := [⟨s.eng.stroke, en⟩] } } else s
  { s with sys := { s.sys with rel := 8, rstout := false } }

/-- RESET_RELEASE (R437): the next domain of the order is released. The engine's own step is `engineRelease`. -/
def resetRelease (x : ReleaseIn) (s : State) : State :=
  match s.sys.rel with
  | 0 => keelStep s
  | 1 => if releaseHeld s then s else scStep x.straps s
  | 2 => if releaseHeld s then s else { s with fab := {}, dma := {}, sys := { s.sys with rel := 3 } }
  | 3 => if releaseHeld s then s else memStep x.dramFail.toNat s
  | 4 => if releaseHeld s || !s.msvc.clearing.isEmpty then s else timeStep5 s
  | 5 => if releaseHeld s then s else { s with sys := { s.sys with rel := 6 } }
  | 7 => if releaseHeld s then s else portStep s
  | _ => s
def execResetRelease (inp : ReleaseIn) (s : State) : Host.Outcome State Fault Refusal := done (resetRelease inp s)

/-! ### Boot steps 3 and 4 (R445, R447–R449) -/

/-- An envelope in a memory: as long as its header says, at most `most` bytes. -/
def envAt (s : State) (a most : Nat) : List Byte :=
  memGetBytes s.mem a (Nat.min most (envLen (memGetBytes s.mem a (Nat.min most 128))))

/-- Offset of the engine envelope in the boot image (R447). -/
def engineOfs (s : State) : Nat := (envLen (memGetBytes s.mem (slateBase + 0x10000) 128) + 63) / 64 * 64

/-- The envelope at RST_BOOT_ADDR (R449). -/
def hostEnv (s : State) : List Byte :=
  let o := (reg s Reg.RST_BOOT_ADDR).toNat % 0x800000
  envAt s (centralAddr o) (0x800000 - o)

/-- The envelope that a boot step fetches from Slate, QSPI flash (`src`) or the host; none where the fetch fails. -/
def bootEnv (engine : Bool) (src : Fetch) (s : State) : Option (List Byte) :=
  match s.sys.straps.bootSrc.toNat with
  | 0 =>
    let o := if engine then engineOfs s else 0
    some (envAt s (slateBase + 0x10000 + o) (0x400000 - o))
  | 1 => match src with
    | .bytes b => some b
    | .failed => none
  | _ => some (hostEnv s)

/-- A boot step may fetch: the memories step is over, and a host source has handed its buffer over (R449). -/
def bootReady (w : BootWait) (s : State) : Bool :=
  s.sys.wait == w && decide (5 ≤ s.sys.rel) && (s.sys.straps.bootSrc != 2#2 || s.sys.go)

/-- The ROM's reads of an envelope of `n` bytes at an offset of the boot flash (R479): its first 128 bytes with opcode 0x13 at 25 MHz, the
rest in the form of QSPI_CFG. -/
def bootReads (ofs n : Nat) (s : State) : State :=
  let c := reg s Reg.QSPI_CFG
  if s.sys.straps.bootSrc != 1#2 then s
  else
    emit (.flash (if bitAt c 31 then 0xEC#8 else 0x13#8) (bitAt c 31) (fld c 11 8) (104000000 / (fld c 3 0 + 1)) (ofs + 128) (n - 128))
      (emit (.flash 0x13#8 false 0 25000000 ofs 128) s)

/-- FIRMWARE_LOAD (R445, R448). -/
def firmwareLoad (src : Fetch) (s : State) : State :=
  if !bootReady .firmware s then s
  else
    match bootEnv false src s with
    | none => bootError 0x903#12 4 s
    | some bs =>
      let s := bootReads 0 bs.length s
      match envOpen s.geode.root 1 524288 bs with
      | none => bootError 0x902#12 3 s
      | some p =>
        let s := writeBytes (centralAddr 0x780000) p s
        { s with sys := { s.sys with fw := true, fwLen := (bs.length + 63) / 64 * 64, step := 4, wait := .engine, go := false } }
def execFirmwareLoad (src : Fetch) (s : State) : Host.Outcome State Fault Refusal := done (firmwareLoad src s)

/-- The settings' central-memory words are written (R450). -/
def lateWrites (s : State) : State :=
  let s := s.sys.late.foldl (fun s e => writeWord (centralAddr e.off) e.val s) s
  { s with sys := { s.sys with late := [] } }

/-- An engine envelope of boot step 4 (R445). -/
def engineTake (bs : List Byte) (s : State) : State :=
  let r := imageLoad bs s
  if !r.2 then bootFail 9 r.1
  else
    let s := lateWrites r.1
    { s with sys := { s.sys with wait := .none, bootHold := false, step := 5, result := 0, go := false } }

/-- The host may load an engine envelope now (R449). -/
def hostLoads (s : State) : Bool :=
  engHeld s && s.sys.go && s.sys.wait == .none && (s.sys.mode == .recovery || bitAt (reg s Reg.RST_ENG) 0)

/-- ENGINE_IMAGE_LOAD (R171, R445, R449). -/
def engineImageLoad (src : Fetch) (s : State) : State :=
  if bootReady .engine s then
    match bootEnv true src s with
    | none => bootError 0x903#12 4 s
    | some bs => engineTake bs (bootReads s.sys.fwLen bs.length s)
  else if hostLoads s then
    let r := imageLoad (hostEnv s) s
    { r.1 with sys := { r.1.sys with go := false } }
  else s
def execEngineImageLoad (src : Fetch) (s : State) : Host.Outcome State Fault Refusal := done (engineImageLoad src s)

/-- BOOT_HOST_TIMEOUT (R449). -/
def hostTimeout (s : State) : State :=
  if s.sys.wait != .none && s.sys.straps.bootSrc == 2#2 && !s.sys.go && decide (5 ≤ s.sys.rel) then bootError 0x903#12 8 s else s
def execBootHostTimeout (s : State) : Host.Outcome State Fault Refusal := done (hostTimeout s)

/-! ### The engine's release (R42, R434, R440) -/

/-- The first stroke that starts at least 2 strokes after `t` (R42). -/
def firstStroke (rate t : Nat) : Nat := (t * rate + Time.second - 1) / Time.second + 2

/-- The engine may leave reset: it is held, uncovered, its domain's turn has come, and a good image is loaded. -/
def engineFree (s : State) : Bool :=
  engHeld s && s.eng.img.isSome && !s.eng.imgBad && !engCovered s && decide (6 ≤ s.sys.rel) && s.sys.wait == .none && !releaseHeld s

/-- ENGINE_RELEASE (R42): the stroke counter takes k0, the baseline is warm after a RETAIN with a copy (R434), and a boot ends in SHADOW or
LIVE. -/
def engineRelease (t : Time) (s : State) : State :=
  if !engineFree s then s
  else
    let warm := s.sys.retained && s.sys.retCopy.isSome
    let s := causeLog { s with net := { s.net with now := t } }
    let s := baseline warm (BitVec.ofNat 64 (firstStroke (sps s) t)) s
    { s with sys := { s.sys with
        mode := if s.sys.mode = .recovery then runMode s else s.sys.mode
        modeRes := if s.sys.busy.isSome then 1 else s.sys.modeRes, busy := none
        step := 5, result := 0, retained := false, retCopy := none, ramped := false
        rel := if s.sys.rel = 6 then 7 else s.sys.rel } }
def execEngineRelease (t : Time) (s : State) : Host.Outcome State Fault Refusal := done (engineRelease t s)

/-! ### RETAIN (R434) -/

/-- What the system controller keeps in RETAIN: RW registers of every block, and its own blocks whole. -/
def retKept (key : Nat) : Bool :=
  let off := key % 16777216
  [0, 1, 2, 15, 17, 18].contains (off / 65536) || match Reg.rowAt off with
    | some r => r.acc == .rw
    | none => false

/-- Stored registers in RETAIN. -/
def retRegs (s : State) : Tab Word :=
  (State.resetRegs.filter fun e => !retKept e.1).foldl (fun t e => tset 0#32 t e.1 e.2) (s.regs.filter fun e => retKept e.1)

/-- The units that RETAIN powers off, as after a reset (R434). -/
def retOff (s : State) : State :=
  let r := State.reset
  let s := zeroWhere (fun a => inKind .central a || inKind .matrix a || inKind .portBuf a) s
  { s with
    stage := [], regs := retRegs s
    patch := r.patch, scene := r.scene, fin := r.fin, port := r.port, net := r.net
    ref := { r.ref with xinBack := s.ref.xinBack, intOsc := s.ref.intOsc, hov := s.ref.hov, hofs := s.ref.hofs
                        windows := s.ref.windows, hwin := s.ref.hwin }
    twin := { r.twin with epoch := s.twin.epoch, diag := s.twin.diag }
    msvc := { r.msvc with ecc := s.msvc.ecc, repairs := s.msvc.repairs, bad := s.msvc.bad, repaired := s.msvc.repaired }
    dram := { s.dram with ready := s.dram.ready && s.sys.retCopy.isSome }
    fab := r.fab, dma := r.dma, host := r.host }

/-- RETAIN_ENTER (R379, R434): once no Assay row is borrowed, the copy is made where it can be, and the mode is entered. -/
def retainEnter (s : State) : State :=
  if s.sys.busy != some .retain || !s.sys.modeHold || s.msvc.assay.toList.any fun x => x.borrowed.isSome then s
  else
    let s := { s with sys := { s.sys with retCopy := none } }
    let s := retOff (if retFits s then retCopyOut s else s)
    { s with sys := { s.sys with mode := .retain, busy := none, modeRes := 1, ramped := false, rel := 2 } }
def execRetainEnter (s : State) : Host.Outcome State Fault Refusal := done (retainEnter s)

/-- WAKE out of RETAIN (R434): without a copy the engine image is loaded again. -/
def wakeRetain (s : State) : State :=
  let copy := s.sys.retCopy.isSome
  let s := if copy then s else orReg Reg.PWR_STAT 0x80#32 { s with eng := { s.eng with img := none } }
  { s with sys := { s.sys with
      mode := .recovery, busy := some (runMode s), retained := true, modeHold := false, bootHold := !copy
      wait := if copy then .none else .engine, step := if copy then s.sys.step else 4 } }

/-- WAKE (R434, R435). -/
def wakeUp (s : State) : State :=
  match s.sys.mode with
  | .retain => wakeRetain s
  | .dormant => sysAssert false 0x100#32 s
  | _ => s
def execWake (s : State) : Host.Outcome State Fault Refusal := done (wakeUp s)

end Sys2Proof.Machine
end

