-- ==== Sys2Proof/Machine/Bus.lean ====
section
/-! DEFINITION. The fabric as its masters see it (R402–R413, R481): the register bridge, locks and timeouts, retries of collided writes;
and the host ports: PCI Express and SPI (R473–R478, R487). -/

namespace Sys2Proof.Machine

/-! ### The register bridge (R4, R405) -/

/-- A burst at the register bridge: one beat whose enables select one aligned word; any other is refused (R4). -/
def regBurst (b : Burst) (s : State) : Answer :=
  match burstWords b with
  | [w] =>
    if b.beats.length ≠ 1 ∨ w.en ≠ 15#4 then ⟨s, rRefused, []⟩
    else if b.write then
      let r := regWrite b.master w.a w.d s
      ⟨r.1, if r.2 then rPass else rRefused, []⟩
    else
      let r := regRead b.master w.a s
      ⟨r.1, rPass, [(w.a, r.2)]⟩
  | _ => ⟨s, rRefused, []⟩

/-! ### Locks (R410, R411, R487) -/

/-- The targets that accept locks: central memory, matrix memory, the register bridge. -/
def lockOf (b : Burst) : Option Nat := match targetOf b.addr.toNat with
  | 0 => some 0
  | 3 => some 1
  | 7 => some 2
  | _ => none

/-- The masters that may issue locked sequences (R410). -/
def lockMaster : Master → Bool
  | .sc | .host | .dbg => true
  | _ => false

/-- HOST_LOCK.LEN. -/
def lockLen (s : State) : Nat := fld (reg s Reg.HOST_LOCK) 3 0

/-- A burst to HOST_LOCK itself: no part of a sequence (R487). -/
def toHostLock (b : Burst) : Bool := b.addr.toNat / 16 == Reg.HOST_LOCK / 16 && (burstWords b).any fun w => w.a == Reg.HOST_LOCK

/-- HOST_LOCK gives its attribute to a burst of HOST, and LEN counts down (R487). -/
def hostAttr (b : Burst) (s : State) : State × Bool :=
  if b.master = .host ∧ (lockOf b).isSome ∧ toHostLock b = false ∧ lockLen s ≠ 0 then
    (setReg Reg.HOST_LOCK (wOf (lockLen s - 1)) s, true)
  else (s, b.lock && lockMaster b.master)

def lockAt (s : State) (t : Nat) : Option Nat := vget none s.fab.lock t

/-- The master holds a lock. -/
def holdsLock (s : State) (m : Master) : Bool := s.fab.lock.toList.any fun x => x == some (mNum m)

/-- All locks of a master are freed: it holds at most one. -/
def freeLocks (m : Master) (s : State) : State :=
  { s with fab := { s.fab with lock := vmap (fun _ x => if x = some (mNum m) then none else x) s.fab.lock } }

/-- A burst with the attribute is granted (R410, R411): the port is locked, or the burst is refused. -/
def lockTake (b : Burst) (s : State) : State × Bool :=
  match lockOf b with
  | none => (s, false)
  | some t =>
    if vget none s.fab.broken t = some (mNum b.master) then
      ({ s with fab := { s.fab with broken := vput s.fab.broken t none } }, false)
    else if lockAt s t = some (mNum b.master) then (s, true)
    else if holdsLock s b.master then (s, false)
    else ({ s with fab := { s.fab with lock := vput s.fab.lock t (some (mNum b.master)) } }, true)

/-- The port notes the burst it serves (R423). -/
def noteBurst (b : Burst) (s : State) : State :=
  match lockOf b with
  | none => s
  | some t =>
    { s with fab := { s.fab with lastAddr := vput s.fab.lastAddr t b.addr.toNat, lastWr := vput s.fab.lastWr t b.write } }

/-- A target performs a granted burst: false where it waits for a retry (R374). -/
def targetServe (b : Burst) (s : State) : Answer × Bool :=
  if targetOf b.addr.toNat = 7 then (regBurst b s, true) else memServe b s

/-- A burst without the attribute ends its master's sequence (R410). -/
def endSequence (b : Burst) (lock : Bool) (s : State) : State :=
  if lock || toHostLock b then s else freeLocks b.master s

/-- A burst with its attribute at a granted port (R410). -/
def lockServe (b : Burst) (lock : Bool) (s : State) : Answer × Bool :=
  let k := if lock then lockTake b s else (s, true)
  if !k.2 then (⟨k.1, rRefused, []⟩, true)
  else
    let r := targetServe { b with lock := lock } k.1
    if r.2 then (⟨endSequence b lock r.1.s, r.1.resp, r.1.data⟩, true) else r

/-- A burst of any master (R405–R410), its port being free for it; false where it waits for a retry. -/
def busServe (b : Burst) (s : State) : Answer × Bool :=
  if !burstOk b || burst4k b then (⟨s, rRefused, []⟩, true)
  else
    let d := decodeBurst b s
    if d.2 then (⟨d.1, rUnmapped, []⟩, true)
    else
      let h := hostAttr b (noteBurst b (granted b d.1))
      lockServe b h.2 h.1

/-- The completed burst of a master that is reset (R413). -/
def busPerform (b : Burst) (s : State) : State := (busServe b s).1.s

/-- HOST takes its response (R477, R478). -/
def hostNote (b : Burst) (resp : BitVec 2) (s : State) : State :=
  if b.master ≠ .host ∨ resp = rPass then s
  else if s.sys.straps.hostif then { s with host := { s.host with spiErr := s.host.spiErr || b.write } }
  else orReg Reg.HOST_STAT (if b.write then 1#32 else 2#32) s

/-! ### Waiting (R374, R407, R410) -/

/-- The port of a burst is locked by another master, or retries a collided write. -/
def portBusy (s : State) (b : Burst) : Bool :=
  !gateway b && (
  (match lockOf b with
    | some t => (match lockAt s t with
      | some m => m != mNum b.master
      | none => false)
    | none => false)
  || s.msvc.collided.any fun c => targetOf c.b.addr.toNat == targetOf b.addr.toNat)

/-- Earlier accesses of a master that wait: HOST's requests wait for each other (R477), others where they name the same port. -/
def waitsBefore (s : State) (m : Master) : Bool :=
  (s.fab.wait.any fun i => waitMaster i == m) || (m == .host && s.msvc.collided.any fun c => c.b.master == .host)

/-! ### Host requests as bursts (R476, R477) -/

/-- A piece of a request: its address and bytes, by their enables. -/
structure HostPiece where
  a : Nat
  bs : List (Option Byte)
  deriving DecidableEq, Repr

/-- A run of bytes cut at every multiple of `n`. -/
def cutAt (n o : Nat) (bs : List (Option Byte)) : List HostPiece :=
  let k := n - o % n
  if bs.isEmpty then []
  else ⟨o, bs.take k⟩ :: ((chunks n (bs.drop k)).zipIdx).map fun e => ⟨o + k + n * e.2, e.1⟩

/-- Fabric address of a BAR2 offset (R476). -/
def bar2Addr (s : State) (o : Nat) : Nat :=
  if o < 0xC000000 then o else dramBase + fld (reg s Reg.HOST_DWIN) 6 0 * 0x4000000 + (o - 0xC000000)

/-- The pieces of a PCI Express request: one access per DW of BAR0, 256-byte cuts of BAR2. -/
def pciePieces (s : State) (bar2 : Bool) (off : Nat) (bs : List (Option Byte)) : List HostPiece :=
  if bar2 then (cutAt 256 (off % 0x10000000) bs).map fun p => ⟨bar2Addr s (p.a % 0x10000000), p.bs⟩
  else (cutAt 4 (off % 0x1000000) bs).map fun p => ⟨p.a % 0x1000000, p.bs⟩

/-- The pieces of an SPI frame: single words in register space, else as R477 cuts them. -/
def spiPieces (addr : BitVec 36) (bs : List (Option Byte)) : List HostPiece :=
  let a := addr.toNat / 4 * 4
  cutAt (if a < 0x1000000 then 4 else 256) a bs

def pieceBurst (write : Bool) (p : HostPiece) : Burst := { writeBurst .host p.a p.bs with write := write }

/-- The bytes of a piece from its answer: zero where the response was not PASS (R406). -/
def pieceBytes (p : HostPiece) (r : Answer) : List Byte :=
  if r.resp = rPass then ((answerBytes (pieceBurst false p) r).drop (p.a % 16)).take p.bs.length
  else List.replicate p.bs.length 0#8

/-- Writes of HOST, in order. -/
def hostWrites (ps : List HostPiece) (s : State) : State :=
  ps.foldl (fun s p =>
    let b := pieceBurst true p
    let r := (busServe b s).1
    hostNote b r.resp r.s) s

/-- What a run of reads gave. -/
structure ReadRun where
  s : State
  bytes : List Byte
  bad : Bool

/-- Reads of HOST, in order. -/
def hostReads (ps : List HostPiece) (s : State) : ReadRun :=
  ps.foldl (fun q p =>
    let b := pieceBurst false p
    let r := (busServe b q.s).1
    ⟨hostNote b r.resp r.s, q.bytes ++ pieceBytes p r, q.bad || r.resp != rPass⟩) ⟨s, [], false⟩

/-- Bytes asked for by a read. -/
def wantBytes (n : Nat) : List (Option Byte) := List.replicate n (some 0#8)

/-- An SPI WRITE's bytes: whole words, at most 256 bytes. -/
def spiData (bs : List Byte) : List (Option Byte) := ((bs.take 256).take ((bs.take 256).length / 4 * 4)).map some

/-- The bursts that a command of this file sends. -/
def busBursts (s : State) : Instr → List Burst
  | .fabricBurst b => [b]
  | .registerWrite m off v => [writeBurst m off ((leBytes v).map some)]
  | .resultSnapshotRead m a => [readBurst m a 4]
  | .pcieMemoryWrite bar2 off bs => (pciePieces s bar2 off bs).map (pieceBurst true)
  | .pcieMemoryRead bar2 off n => (pciePieces s bar2 off (wantBytes n)).map (pieceBurst false)
  | .spiWrite a bs => (spiPieces a (spiData bs)).map (pieceBurst true)
  | .spiRead a n => (spiPieces a (wantBytes (Nat.min 256 n))).map (pieceBurst false)
  | _ => []

/-- A command waits (R410): its port is taken, or it stands behind a waiting one. -/
def busBlocked (i : Instr) (s : State) : Bool :=
  waitsBefore s (waitMaster i) || (busBursts s i).any (portBusy s)

/-! ### The bursts themselves -/

/-- FABRIC_BURST (R405): a burst with its answer; one that waits for a retry is answered later. -/
def fabricBurst (b : Burst) (s : State) : State :=
  let r := busServe b s
  if !r.2 then r.1.s
  else emit (.fabric b.master r.1.resp (if b.write then [] else answerBytes b r.1)) (hostNote b r.1.resp r.1.s)

/-- REGISTER_WRITE (R5): a single-word write of a master in the register space. -/
def registerWrite (m : Master) (off : Nat) (v : Word) (s : State) : State :=
  if off < 0x1000000 then fabricBurst (writeBurst m off ((leBytes v).map some)) s else s

/-- RESULT_SNAPSHOT_READ (R471): a read of one word. -/
def snapshotRead (m : Master) (a : Nat) (s : State) : State :=
  let b := readBurst m a 4
  let r := (busServe b s).1
  emit (.fabric m r.resp (if r.resp = rPass then ((answerBytes b r).drop (a % 16)).take 4 else List.replicate 4 0#8)) (hostNote b r.resp r.s)

/-- The endpoint serves memory requests (R473, R476). -/
def pcieServes (s : State) : Bool := !s.sys.straps.hostif && s.host.up && !s.host.d3

/-- PCIE_MEMORY_WRITE (R477). -/
def pcieWrite (bar2 : Bool) (off : Nat) (bs : List (Option Byte)) (s : State) : State :=
  if pcieServes s then hostWrites (pciePieces s bar2 off bs) s else s

/-- PCIE_MEMORY_READ (R477). -/
def pcieRead (bar2 : Bool) (off n : Nat) (s : State) : State :=
  if !pcieServes s then s
  else
    let q := hostReads (pciePieces s bar2 off (wantBytes n)) s
    if q.bad && bitAt (reg q.s Reg.HOST_CFG) 0 then emit (.completion [] true) q.s
    else emit (.completion q.bytes false) q.s

/-- SPI_WRITE (R478): trailing bytes that fill no word are lost and set ERR. -/
def spiWrite (addr : BitVec 36) (bs : List Byte) (s : State) : State :=
  let s := { s with host := { s.host with spiErr := false } }
  let s := hostWrites (spiPieces addr (spiData bs)) s
  { s with host := { s.host with spiErr := s.host.spiErr || (bs.take 256).length % 4 != 0 } }

/-- SPI_READ (R478): the token, then the data. -/
def spiRead (addr : BitVec 36) (n : Nat) (s : State) : State :=
  let err := s.host.spiErr
  let q := hostReads (spiPieces addr (wantBytes (Nat.min 256 n))) s
  let out := if q.bad then 0xE5#8 :: List.replicate n 0#8 else 0xA5#8 :: q.bytes ++ List.replicate (n - 256) 0#8
  emit (.miso out) { q.s with host := { q.s.host with spiErr := err } }

/-- A command of the fabric or of a host port, its ports being free. -/
def busDo (i : Instr) (s : State) : State :=
  match i with
  | .fabricBurst b => fabricBurst b s
  | .registerWrite m off v => registerWrite m off v s
  | .resultSnapshotRead m a => snapshotRead m a s
  | .pcieMemoryWrite bar2 off bs => pcieWrite bar2 off bs s
  | .pcieMemoryRead bar2 off n => pcieRead bar2 off n s
  | .spiWrite a bs => spiWrite a bs s
  | .spiRead a n => spiRead a n s
  | _ => s

/-- A command runs, or waits (R410). -/
def busRun (i : Instr) (s : State) : State :=
  if busBlocked i s then { s with fab := { s.fab with wait := s.fab.wait ++ [i] } } else busDo i s

/-- The waiting commands that a free port could serve now, in order of arrival. -/
def waitReady (s : State) : List Instr :=
  ((s.fab.wait.zipIdx).filter fun e => !busBlocked e.1 { s with fab := { s.fab with wait := s.fab.wait.take e.2 } }).map (·.1)

/-- Rank of a waiting command at the port of its first burst (R408). -/
def waitRank (s : State) (i : Instr) : Nat := match (busBursts s i).head? with
  | some b => fabRank b s
  | none => 0

/-- The waiting command that is granted next (R16, R408). -/
def waitPick (s : State) : Option Instr :=
  (waitReady s).foldl (fun p i => match p with
    | none => some i
    | some j => if waitRank s i < waitRank s j then some i else some j) none

/-- The first entry equal to `i` leaves the list. -/
def dropInstr (i : Instr) : List Instr → List Instr
  | [] => []
  | j :: js => if j = i then js else j :: dropInstr i js

/-- One waiting command runs, if a port is free for one. -/
def waitPass (s : State) : State := match waitPick s with
  | none => s
  | some i => busDo i { s with fab := { s.fab with wait := dropInstr i s.fab.wait } }

/-- Every command that a freed port lets through runs. -/
def runWaiting (s : State) : State := s.fab.wait.foldl (fun s _ => waitPass s) s

/-- End of a command that may free a port. -/
def busDone (s : State) : Host.Outcome State Fault Refusal := done (runWaiting s)

def execFabricBurst (b : Burst) (s : State) : Host.Outcome State Fault Refusal := busDone (busRun (.fabricBurst b) s)
def execRegisterWrite (m : Master) (off : Nat) (v : Word) (s : State) : Host.Outcome State Fault Refusal :=
  busDone (busRun (.registerWrite m off v) s)
def execResultSnapshotRead (m : Master) (addr : Nat) (s : State) : Host.Outcome State Fault Refusal :=
  busDone (busRun (.resultSnapshotRead m addr) s)
def execPcieMemoryWrite (bar2 : Bool) (off : Nat) (bytes : List (Option Byte)) (s : State) : Host.Outcome State Fault Refusal :=
  busDone (busRun (.pcieMemoryWrite bar2 off bytes) s)
def execPcieMemoryRead (bar2 : Bool) (off len : Nat) (s : State) : Host.Outcome State Fault Refusal :=
  busDone (busRun (.pcieMemoryRead bar2 off len) s)

/-! ### Retries and timeouts (R374, R411) -/

/-- A collided write has ended: its master takes the answer. -/
def collidedEnd (b : Burst) (resp : BitVec 2) (s : State) : State :=
  emit (.fabric b.master resp []) (hostNote b resp (endSequence b b.lock s))

/-- COLLIDED_RETRY (R374): the oldest collided write is retried; after 16 retries it is discarded. -/
def collidedRetry (still : Bool) (s : State) : State :=
  match s.msvc.collided with
  | [] => s
  | c :: cs =>
    let s := { s with msvc := { s.msvc with collided := cs } }
    if !still then
      let r := writePerform c.b s
      collidedEnd c.b r.resp r.s
    else if c.tries < 15 then { s with msvc := { s.msvc with collided := ⟨c.b, c.tries + 1⟩ :: cs } }
    else collidedEnd c.b rRefused (collideCheck (((burstWords c.b).head?.map (·.a)).getD c.b.addr.toNat) true s).1
def execCollidedRetry (stillCollides : Bool) (s : State) : Host.Outcome State Fault Refusal := busDone (collidedRetry stillCollides s)

/-- FAB_TIMEOUT (R411): the answer is EXPIRED; whether the failing target had performed a write is open. -/
def fabTimeout (b : Burst) (s : State) : State :=
  if !burstOk b || burst4k b || noTarget s b || portBusy s b then s
  else
    let t := targetOf b.addr.toNat
    let landed := b.write && Config.expiredLanded s.freeCtr
    let s := granted b { s with freeCtr := s.freeCtr + 1 }
    let d := detect false (fabSrc b.master) 0x101#12 .fault 0#32 true s
    let s := fabCapture b.master t rExpired b.write b.addr.toNat d.1
    let s := orReg Reg.FAB_STAT 2#32 { s with fab := { s.fab with tmo := satInc max32 s.fab.tmo } }
    let s := if landed then (targetServe { b with collides := false } s).1.s else s
    let s := endSequence b (b.lock && lockMaster b.master) s
    emit (.fabric b.master rExpired (if b.write then [] else List.replicate (16 * b.beats.length) 0#8)) (hostNote b rExpired s)
def execFabTimeout (b : Burst) (s : State) : Host.Outcome State Fault Refusal := busDone (fabTimeout b s)

/-- Target number of a lock index (R402). -/
def lockTarget (t : Nat) : Nat := if t = 0 then 0 else if t = 1 then 3 else 7

/-- The master of a number (R402). -/
def masterOf (n : Nat) : Master := (([.sc, .host, .dma, .twin, .net, .eng, .dbg] : List Master)[n]?).getD .sc

/-- FAB_LOCK_TMO (R411, R423, R487): the port is forced free, and the owner's sequence is broken. -/
def fabLockTmo (t : Nat) (s : State) : State :=
  match lockAt s t with
  | none => s
  | some n =>
    let m := masterOf n
    let d := detect false (fabSrc m) 0x102#12 .degrade 0#32 true s
    let s := fabCapture m (lockTarget t) rPass (vget false d.1.fab.lastWr t) (vget 0 d.1.fab.lastAddr t) d.1
    let s := orReg Reg.FAB_STAT 4#32 s
    let s := { s with fab := { s.fab with lock := vput s.fab.lock t none, broken := vput s.fab.broken t (some n) } }
    if m = .host then setReg Reg.HOST_LOCK 0#32 s else s
def execFabLockTmo (tgt : Fin 3) (s : State) : Host.Outcome State Fault Refusal := busDone (fabLockTmo tgt.val s)

/-- HOST_LOCK (R487). -/
def hostLockWrite (v : Word) (s : State) : State := setReg Reg.HOST_LOCK (v &&& 15#32) s
def execHostLock (_m : Master) (v : Word) (s : State) : Host.Outcome State Fault Refusal := done (hostLockWrite v s)

/-- TRST_N (R412): the debug master is reset. -/
def execTrstN (prog : Option Burst) (s : State) : Host.Outcome State Fault Refusal := busDone (masterReset .dbg busPerform prog s)

/-- SERDES_LOOP (R468). -/
def execSerdesLoop (_m : Master) (s : State) : Host.Outcome State Fault Refusal := busDone (testRequest 0x14 s)

/-! ### The PCI Express endpoint (R473, R475) -/

/-- A loopback test holds the host link (R470). -/
def pcieHeld (s : State) : Bool := s.err.testBusy && s.err.testKind == 0x14 && decide (fld s.err.testArg 1 0 = 3)

/-- PCIE_LINK_UP (R475): from the release of the fabric on. -/
def pcieUp (speed : BitVec 4) (width : BitVec 3) (s : State) : State :=
  if s.sys.straps.hostif || decide (s.sys.rel < 3) || pcieHeld s then s
  else { s with host := { s.host with up := true, speed := speed.toNat, width := width.toNat } }
def execPcieLinkUp (speed : BitVec 4) (width : BitVec 3) (s : State) : Host.Outcome State Fault Refusal := done (pcieUp speed width s)

/-- PCIE_CONFIG_REQUEST (R475, R476): retry status until the memories step has completed; `power` writes the D-state. -/
def pcieConfig (power : Option (BitVec 2)) (s : State) : State :=
  if s.sys.straps.hostif || !s.host.up then s
  else if s.sys.rel < 5 then emit (.config true) s
  else
    let d3 := match power with
      | some p => p == 3#2
      | none => s.host.d3
    emit (.config false) { s with host := { s.host with d3 := d3 } }
def execPcieConfigRequest (_off : Nat) (power : Option (BitVec 2)) (s : State) : Host.Outcome State Fault Refusal := done (pcieConfig power s)

/-- PCIE_LINK_DOWN (R412, R475). -/
def execPcieLinkDown (prog : Option Burst) (s : State) : Host.Outcome State Fault Refusal := busDone (pcieDown busPerform prog s)

/-- PCIE_HOT_RESET and FUNCTION_LEVEL_RESET (R412, R475). -/
def endpointPulse (bits : Word) (prog : Option Burst) (s : State) : State :=
  if s.sys.straps.hostif then s else endpointReset bits busPerform prog s
def execPcieHotReset (prog : Option Burst) (s : State) : Host.Outcome State Fault Refusal := busDone (endpointPulse 0#32 prog s)
def execFunctionLevelReset (prog : Option Burst) (s : State) : Host.Outcome State Fault Refusal := busDone (endpointPulse 8#32 prog s)

/-! ### The SPI slave (R478) -/

/-- A WRITE is still being performed: it waits for its port. -/
def spiBusy (s : State) : Bool := s.fab.wait.any fun i => match i with
  | .spiWrite _ _ => true
  | _ => false

/-- SPI_WRITE (R478): a WRITE that starts while one is busy is discarded and sets DROP. -/
def spiWriteFrame (addr : BitVec 36) (bytes : List Byte) (s : State) : State :=
  if !s.sys.straps.hostif then s
  else if spiBusy s then { s with host := { s.host with spiDrop := true } }
  else busRun (.spiWrite addr bytes) s
def execSpiWrite (addr : BitVec 36) (bytes : List Byte) (s : State) : Host.Outcome State Fault Refusal := busDone (spiWriteFrame addr bytes s)

/-- SPI_READ (R478). -/
def spiReadFrame (addr : BitVec 36) (len : Nat) (s : State) : State :=
  if s.sys.straps.hostif then busRun (.spiRead addr len) s else s
def execSpiRead (addr : BitVec 36) (len : Nat) (s : State) : Host.Outcome State Fault Refusal := busDone (spiReadFrame addr len s)

/-- The status byte (R478). -/
def spiStatusByte (s : State) : Byte :=
  (flag (irqPin s) 3 ||| flag s.host.spiDrop 2 ||| flag s.host.spiErr 1 ||| flag (spiBusy s) 0).truncate 8

/-- SPI_STATUS (R478): ERR and DROP clear as they are read. -/
def spiStatus (s : State) : State :=
  if s.sys.straps.hostif then emit (.miso [spiStatusByte s]) { s with host := { s.host with spiErr := false, spiDrop := false } } else s
def execSpiStatus (s : State) : Host.Outcome State Fault Refusal := done (spiStatus s)

end Sys2Proof.Machine
end

