-- ==== Sys2Proof/Machine/Dispatch.lean ====
section
/-! DEFINITION. The meaning of each command: one arm per constructor of `Instr`, each one direct call. -/

namespace Sys2Proof.Machine

def exec (i : Instr) (s : State) : Host.Outcome State Fault Refusal :=
  match i with
  | .catchStroke t ratios pdm => Sys2Proof.Machine.execCatchStroke t ratios pdm s
  | .sliceDone sl cycles => Sys2Proof.Machine.execSliceDone sl cycles s
  | .overrunSinkRecover entry => Sys2Proof.Machine.execOverrunSinkRecover entry s
  | .callDb m v => Sys2Proof.Machine.execCallDb m v s
  | .callEnable m v => Sys2Proof.Machine.execCallEnable m v s
  | .cvtConvert m v => Sys2Proof.Machine.execCvtConvert m v s
  | .nop c f x => Sys2Proof.Machine.execNop c f x s
  | .mov c f x => Sys2Proof.Machine.execMov c f x s
  | .add c f x => Sys2Proof.Machine.execAdd c f x s
  | .adds c f x => Sys2Proof.Machine.execAdds c f x s
  | .sub c f x => Sys2Proof.Machine.execSub c f x s
  | .subs c f x => Sys2Proof.Machine.execSubs c f x s
  | .abss c f x => Sys2Proof.Machine.execAbss c f x s
  | .negs c f x => Sys2Proof.Machine.execNegs c f x s
  | .and c f x => Sys2Proof.Machine.execAnd c f x s
  | .or c f x => Sys2Proof.Machine.execOr c f x s
  | .xor c f x => Sys2Proof.Machine.execXor c f x s
  | .andn c f x => Sys2Proof.Machine.execAndn c f x s
  | .shl c f x => Sys2Proof.Machine.execShl c f x s
  | .shr c f x => Sys2Proof.Machine.execShr c f x s
  | .sra c f x => Sys2Proof.Machine.execSra c f x s
  | .shls c f x => Sys2Proof.Machine.execShls c f x s
  | .min c f x => Sys2Proof.Machine.execMin c f x s
  | .max c f x => Sys2Proof.Machine.execMax c f x s
  | .sel c f x => Sys2Proof.Machine.execSel c f x s
  | .cmp c f x => Sys2Proof.Machine.execCmp c f x s
  | .cls c f x => Sys2Proof.Machine.execCls c f x s
  | .plog c f x => Sys2Proof.Machine.execPlog c f x s
  | .mpy c f x => Sys2Proof.Machine.execMpy c f x s
  | .mpyi c f x => Sys2Proof.Machine.execMpyi c f x s
  | .mpa c f x => Sys2Proof.Machine.execMpa c f x s
  | .mac c f x => Sys2Proof.Machine.execMac c f x s
  | .msu c f x => Sys2Proof.Machine.execMsu c f x s
  | .macsu c f x => Sys2Proof.Machine.execMacsu c f x s
  | .mva c f x => Sys2Proof.Machine.execMva c f x s
  | .mva4 c f x => Sys2Proof.Machine.execMva4 c f x s
  | .clra c f x => Sys2Proof.Machine.execClra c f x s
  | .lda c f x => Sys2Proof.Machine.execLda c f x s
  | .acmb c f x => Sys2Proof.Machine.execAcmb c f x s
  | .sha c f x => Sys2Proof.Machine.execSha c f x s
  | .mvar c f x => Sys2Proof.Machine.execMvar c f x s
  | .setar c f x => Sys2Proof.Machine.execSetar c f x s
  | .bexp c f x => Sys2Proof.Machine.execBexp c f x s
  | .zxarm c f x => Sys2Proof.Machine.execZxarm c f x s
  | .zxstep c f x => Sys2Proof.Machine.execZxstep c f x s
  | .csrr c f x => Sys2Proof.Machine.execCsrr c f x s
  | .csrw c f x => Sys2Proof.Machine.execCsrw c f x s
  | .br c f x => Sys2Proof.Machine.execBr c f x s
  | .jmp c f x => Sys2Proof.Machine.execJmp c f x s
  | .call c f x => Sys2Proof.Machine.execCall c f x s
  | .ret c f x => Sys2Proof.Machine.execRet c f x s
  | .loop c f x => Sys2Proof.Machine.execLoop c f x s
  | .barrier c f x => Sys2Proof.Machine.execBarrier c f x s
  | .barrierRelease crew k => Sys2Proof.Machine.execBarrierRelease crew k s
  | .waitstroke c f x => Sys2Proof.Machine.execWaitstroke c f x s
  | .coreSleep c cycles => Sys2Proof.Machine.execCoreSleep c cycles s
  | .tnop c f w => Sys2Proof.Machine.execTnop c f w s
  | .ldP c f w => Sys2Proof.Machine.execLdP c f w s
  | .ldO c f w => Sys2Proof.Machine.execLdO c f w s
  | .ldPo c f w => Sys2Proof.Machine.execLdPo c f w s
  | .ld2P c f w => Sys2Proof.Machine.execLd2P c f w s
  | .ld2O c f w => Sys2Proof.Machine.execLd2O c f w s
  | .ld2Po c f w => Sys2Proof.Machine.execLd2Po c f w s
  | .ld4P c f w => Sys2Proof.Machine.execLd4P c f w s
  | .ld4O c f w => Sys2Proof.Machine.execLd4O c f w s
  | .ld4Po c f w => Sys2Proof.Machine.execLd4Po c f w s
  | .stP c f w => Sys2Proof.Machine.execStP c f w s
  | .stO c f w => Sys2Proof.Machine.execStO c f w s
  | .stPo c f w => Sys2Proof.Machine.execStPo c f w s
  | .st2P c f w => Sys2Proof.Machine.execSt2P c f w s
  | .st2O c f w => Sys2Proof.Machine.execSt2O c f w s
  | .st2Po c f w => Sys2Proof.Machine.execSt2Po c f w s
  | .st4P c f w => Sys2Proof.Machine.execSt4P c f w s
  | .st4O c f w => Sys2Proof.Machine.execSt4O c f w s
  | .st4Po c f w => Sys2Proof.Machine.execSt4Po c f w s
  | .amodm c f w => Sys2Proof.Machine.execAmodm c f w s
  | .amodi c f w => Sys2Proof.Machine.execAmodi c f w s
  | .setr c f w => Sys2Proof.Machine.execSetr c f w s
  | .mvr c f w => Sys2Proof.Machine.execMvr c f w s
  | .mrv c f w => Sys2Proof.Machine.execMrv c f w s
  | .mbput c f w => Sys2Proof.Machine.execMbput c f w s
  | .mbget c f w => Sys2Proof.Machine.execMbget c f w s
  | .mbcnt c f w => Sys2Proof.Machine.execMbcnt c f w s
  | .mailboxPutRelease c => Sys2Proof.Machine.execMailboxPutRelease c s
  | .mailboxGetRelease c => Sys2Proof.Machine.execMailboxGetRelease c s
  | .crewBankGrant crew bank waiting => Sys2Proof.Machine.execCrewBankGrant crew bank waiting s
  | .moverBankTake c bank waited coreWants => Sys2Proof.Machine.execMoverBankTake c bank waited coreWants s
  | .storeQueueDrain c window collides => Sys2Proof.Machine.execStoreQueueDrain c window collides s
  | .routeFillDone sink => Sys2Proof.Machine.execRouteFillDone sink s
  | .routeFadeDone sink => Sys2Proof.Machine.execRouteFadeDone sink s
  | .routeTapmoveDone sink => Sys2Proof.Machine.execRouteTapmoveDone sink s
  | .portRst m hi v => Sys2Proof.Machine.execPortRst m hi v s
  | .portResetRelease u => Sys2Proof.Machine.execPortResetRelease u s
  | .grpGo m v => Sys2Proof.Machine.execGrpGo m v s
  | .grpStop m v => Sys2Proof.Machine.execGrpStop m v s
  | .runRampEnd p => Sys2Proof.Machine.execRunRampEnd p s
  | .slipSilenceEnd p => Sys2Proof.Machine.execSlipSilenceEnd p s
  | .slipRampEnd p => Sys2Proof.Machine.execSlipRampEnd p s
  | .portStopped p => Sys2Proof.Machine.execPortStopped p s
  | .portRatePublish p windowEnd => Sys2Proof.Machine.execPortRatePublish p windowEnd s
  | .pdmEn m v => Sys2Proof.Machine.execPdmEn m v s
  | .pdmSettleEnd k => Sys2Proof.Machine.execPdmSettleEnd k s
  | .mediaPacket pk => Sys2Proof.Machine.execMediaPacket pk s
  | .ptpMessage inst msg => Sys2Proof.Machine.execPtpMessage inst msg s
  | .ptpLost inst => Sys2Proof.Machine.execPtpLost inst s
  | .ptpCfg m v => Sys2Proof.Machine.execPtpCfg m v s
  | .arpRequest fr => Sys2Proof.Machine.execArpRequest fr s
  | .igmpQuery fr => Sys2Proof.Machine.execIgmpQuery fr s
  | .icmpEcho fr => Sys2Proof.Machine.execIcmpEcho fr s
  | .hostQueueRx fr => Sys2Proof.Machine.execHostQueueRx fr s
  | .netHqTxdb m v => Sys2Proof.Machine.execNetHqTxdb m v s
  | .netCfg m p v prog => Sys2Proof.Machine.execNetCfg m p v prog s
  | .netLinkDown p => Sys2Proof.Machine.execNetLinkDown p s
  | .netLinkUp p => Sys2Proof.Machine.execNetLinkUp p s
  | .timeForce m => Sys2Proof.Machine.execTimeForce m s
  | .timeStep m => Sys2Proof.Machine.execTimeStep m s
  | .timeLatch m t => Sys2Proof.Machine.execTimeLatch m t s
  | .refWindowEnd meas phaseErr freqErr => Sys2Proof.Machine.execRefWindowEnd meas phaseErr freqErr s
  | .dpllLostLock phaseErr => Sys2Proof.Machine.execDpllLostLock phaseErr s
  | .refLos r => Sys2Proof.Machine.execRefLos r s
  | .refqlWord r word stopOk => Sys2Proof.Machine.execRefqlWord r word stopOk s
  | .qlLost r => Sys2Proof.Machine.execQlLost r s
  | .refCfg m v => Sys2Proof.Machine.execRefCfg m v s
  | .refCtrl m v => Sys2Proof.Machine.execRefCtrl m v s
  | .marker h imageId => Sys2Proof.Machine.execMarker h imageId s
  | .leasePinWord bits stopOk => Sys2Proof.Machine.execLeasePinWord bits stopOk s
  | .beacon b => Sys2Proof.Machine.execBeacon b s
  | .offer h target => Sys2Proof.Machine.execOffer h target s
  | .hello h imageId nonce => Sys2Proof.Machine.execHello h imageId nonce s
  | .input h blk => Sys2Proof.Machine.execInput h blk s
  | .freeze h blocks ratios treats sectionOk => Sys2Proof.Machine.execFreeze h blocks ratios treats sectionOk s
  | .calls h cs rd => Sys2Proof.Machine.execCalls h cs rd s
  | .carry h strip offset words => Sys2Proof.Machine.execCarry h strip offset words s
  | .close h digest sectionOk => Sys2Proof.Machine.execClose h digest sectionOk s
  | .rsctl h ctl => Sys2Proof.Machine.execRsctl h ctl s
  | .resync h item => Sys2Proof.Machine.execResync h item s
  | .resyncRequest m => Sys2Proof.Machine.execResyncRequest m s
  | .twinLinkDown l => Sys2Proof.Machine.execTwinLinkDown l s
  | .twinPathLost p => Sys2Proof.Machine.execTwinPathLost p s
  | .linkRestart m => Sys2Proof.Machine.execLinkRestart m s
  | .diagClr m => Sys2Proof.Machine.execDiagClr m s
  | .fabricBurst b => Sys2Proof.Machine.execFabricBurst b s
  | .collidedRetry stillCollides => Sys2Proof.Machine.execCollidedRetry stillCollides s
  | .fabTimeout b => Sys2Proof.Machine.execFabTimeout b s
  | .fabLockTmo tgt => Sys2Proof.Machine.execFabLockTmo tgt s
  | .hostLock m v => Sys2Proof.Machine.execHostLock m v s
  | .assayPass e => Sys2Proof.Machine.execAssayPass e s
  | .assayRow e kind inst bank row => Sys2Proof.Machine.execAssayRow e kind inst bank row s
  | .assayRowDone e faulty passEnds ms => Sys2Proof.Machine.execAssayRowDone e faulty passEnds ms s
  | .memClearDone k => Sys2Proof.Machine.execMemClearDone k s
  | .storeSettings m => Sys2Proof.Machine.execStoreSettings m s
  | .storeBoot m => Sys2Proof.Machine.execStoreBoot m s
  | .storeRepair m => Sys2Proof.Machine.execStoreRepair m s
  | .storeLog m => Sys2Proof.Machine.execStoreLog m s
  | .storeTrim m => Sys2Proof.Machine.execStoreTrim m s
  | .install m slot => Sys2Proof.Machine.execInstall m slot s
  | .clear m slot => Sys2Proof.Machine.execClear m slot s
  | .provisionRoot m => Sys2Proof.Machine.execProvisionRoot m s
  | .geodeLcreq m v => Sys2Proof.Machine.execGeodeLcreq m v s
  | .dramDriftTrack failStep => Sys2Proof.Machine.execDramDriftTrack failStep s
  | .dmaStart m => Sys2Proof.Machine.execDmaStart m s
  | .dmaAbort m => Sys2Proof.Machine.execDmaAbort m s
  | .dmaAborted ch issued => Sys2Proof.Machine.execDmaAborted ch issued s
  | .dmaDescFetched ch => Sys2Proof.Machine.execDmaDescFetched ch s
  | .dmaDescDone ch => Sys2Proof.Machine.execDmaDescDone ch s
  | .dmaHalt ch addr resp lastWrite issued => Sys2Proof.Machine.execDmaHalt ch addr resp lastWrite issued s
  | .resetRelease inp => Sys2Proof.Machine.execResetRelease inp s
  | .firmwareLoad src => Sys2Proof.Machine.execFirmwareLoad src s
  | .engineImageLoad src => Sys2Proof.Machine.execEngineImageLoad src s
  | .engineRelease t => Sys2Proof.Machine.execEngineRelease t s
  | .rstBootGo m v => Sys2Proof.Machine.execRstBootGo m v s
  | .resetN ns low => Sys2Proof.Machine.execResetN ns low s
  | .tamperN ns low => Sys2Proof.Machine.execTamperN ns low s
  | .rstCtrl m v => Sys2Proof.Machine.execRstCtrl m v s
  | .rstEng m v prog => Sys2Proof.Machine.execRstEng m v prog s
  | .trstN prog => Sys2Proof.Machine.execTrstN prog s
  | .debugIntrusion act => Sys2Proof.Machine.execDebugIntrusion act s
  | .rstWdtCfg m v => Sys2Proof.Machine.execRstWdtCfg m v s
  | .rstWdtKick m v => Sys2Proof.Machine.execRstWdtKick m v s
  | .sysBootOk m v msSinceRelease => Sys2Proof.Machine.execSysBootOk m v msSinceRelease s
  | .auxOverload is18 => Sys2Proof.Machine.execAuxOverload is18 s
  | .pwrAux m v => Sys2Proof.Machine.execPwrAux m v s
  | .vioLow bank => Sys2Proof.Machine.execVioLow bank s
  | .vioRestore bank cls => Sys2Proof.Machine.execVioRestore bank cls s
  | .reqRun m => Sys2Proof.Machine.execReqRun m s
  | .reqRetain m => Sys2Proof.Machine.execReqRetain m s
  | .reqDormant m => Sys2Proof.Machine.execReqDormant m s
  | .reqRecovery m => Sys2Proof.Machine.execReqRecovery m s
  | .reqService m => Sys2Proof.Machine.execReqService m s
  | .collectReport r => Sys2Proof.Machine.execCollectReport r s
  | .coalesceWindow index => Sys2Proof.Machine.execCoalesceWindow index s
  | .errPop m v => Sys2Proof.Machine.execErrPop m v s
  | .clrLost m v => Sys2Proof.Machine.execClrLost m v s
  | .injArm m v => Sys2Proof.Machine.execInjArm m v s
  | .injDisarm m v => Sys2Proof.Machine.execInjDisarm m v s
  | .assayNow m => Sys2Proof.Machine.execAssayNow m s
  | .serdesAdapt m => Sys2Proof.Machine.execSerdesAdapt m s
  | .dramTrack m => Sys2Proof.Machine.execDramTrack m s
  | .memBist m => Sys2Proof.Machine.execMemBist m s
  | .coreBist m => Sys2Proof.Machine.execCoreBist m s
  | .sliceTest m => Sys2Proof.Machine.execSliceTest m s
  | .sapLoop m => Sys2Proof.Machine.execSapLoop m s
  | .serdesLoop m => Sys2Proof.Machine.execSerdesLoop m s
  | .dramTrain m => Sys2Proof.Machine.execDramTrain m s
  | .tsenseCal m => Sys2Proof.Machine.execTsenseCal m s
  | .testComplete pass calFail failures first us rows => Sys2Proof.Machine.execTestComplete pass calFail failures first us rows s
  | .resultSnapshotRead m addr => Sys2Proof.Machine.execResultSnapshotRead m addr s
  | .xpSel m v => Sys2Proof.Machine.execXpSel m v s
  | .xpShd m v => Sys2Proof.Machine.execXpShd m v s
  | .sinkSel m v => Sys2Proof.Machine.execSinkSel m v s
  | .latSel m v => Sys2Proof.Machine.execLatSel m v s
  | .coreSel m v => Sys2Proof.Machine.execCoreSel m v s
  | .pcieMemoryWrite bar2 off bytes => Sys2Proof.Machine.execPcieMemoryWrite bar2 off bytes s
  | .pcieMemoryRead bar2 off len => Sys2Proof.Machine.execPcieMemoryRead bar2 off len s
  | .pcieConfigRequest off power => Sys2Proof.Machine.execPcieConfigRequest off power s
  | .pcieLinkDown prog => Sys2Proof.Machine.execPcieLinkDown prog s
  | .pcieHotReset prog => Sys2Proof.Machine.execPcieHotReset prog s
  | .functionLevelReset prog => Sys2Proof.Machine.execFunctionLevelReset prog s
  | .spiWrite addr bytes => Sys2Proof.Machine.execSpiWrite addr bytes s
  | .spiRead addr len => Sys2Proof.Machine.execSpiRead addr len s
  | .qspiCmd m v => Sys2Proof.Machine.execQspiCmd m v s
  | .qspiDone data => Sys2Proof.Machine.execQspiDone data s
  | .sysIrqAck m v => Sys2Proof.Machine.execSysIrqAck m v s
  | .msixUnmask vec => Sys2Proof.Machine.execMsixUnmask vec s
  | .registerWrite m off v => Sys2Proof.Machine.execRegisterWrite m off v s
  | .fsEdge p t rising f => Sys2Proof.Machine.execFsEdge p t rising f s
  | .refFirstEdge r => Sys2Proof.Machine.execRefFirstEdge r s
  | .pwrMonPublish mv tj mw => Sys2Proof.Machine.execPwrMonPublish mv tj mw s
  | .pcieLinkUp speed width => Sys2Proof.Machine.execPcieLinkUp speed width s
  | .finish => Sys2Proof.Machine.execFinish s
  | .callAccept => Sys2Proof.Machine.execCallAccept s
  | .setParam => Sys2Proof.Machine.execSetParam s
  | .swapBank => Sys2Proof.Machine.execSwapBank s
  | .route => Sys2Proof.Machine.execRoute s
  | .xpGain => Sys2Proof.Machine.execXpGain s
  | .xpSwap => Sys2Proof.Machine.execXpSwap s
  | .sceneArm => Sys2Proof.Machine.execSceneArm s
  | .sceneRecall => Sys2Proof.Machine.execSceneRecall s
  | .sceneXpAlignSwap => Sys2Proof.Machine.execSceneXpAlignSwap s
  | .sceneDone => Sys2Proof.Machine.execSceneDone s
  | .sceneCancel => Sys2Proof.Machine.execSceneCancel s
  | .mute => Sys2Proof.Machine.execMute s
  | .portMask => Sys2Proof.Machine.execPortMask s
  | .portRamp => Sys2Proof.Machine.execPortRamp s
  | .mark => Sys2Proof.Machine.execMark s
  | .twinHandover => Sys2Proof.Machine.execTwinHandover s
  | .portGroupAction => Sys2Proof.Machine.execPortGroupAction s
  | .hqTxSend => Sys2Proof.Machine.execHqTxSend s
  | .strCntPublish => Sys2Proof.Machine.execStrCntPublish s
  | .holdSlewDone => Sys2Proof.Machine.execHoldSlewDone s
  | .freqSlewDone => Sys2Proof.Machine.execFreqSlewDone s
  | .buildoutDone => Sys2Proof.Machine.execBuildoutDone s
  | .loFault => Sys2Proof.Machine.execLoFault s
  | .yieldComplete => Sys2Proof.Machine.execYieldComplete s
  | .leaseExpired => Sys2Proof.Machine.execLeaseExpired s
  | .acquireCox => Sys2Proof.Machine.execAcquireCox s
  | .handoverRelease => Sys2Proof.Machine.execHandoverRelease s
  | .resyncCutover => Sys2Proof.Machine.execResyncCutover s
  | .twinLinkUp => Sys2Proof.Machine.execTwinLinkUp s
  | .slateStoreDone => Sys2Proof.Machine.execSlateStoreDone s
  | .vglitch => Sys2Proof.Machine.execVglitch s
  | .tglitch => Sys2Proof.Machine.execTglitch s
  | .vsysPowerOn => Sys2Proof.Machine.execVsysPowerOn s
  | .brownout => Sys2Proof.Machine.execBrownout s
  | .bootHostTimeout => Sys2Proof.Machine.execBootHostTimeout s
  | .wake => Sys2Proof.Machine.execWake s
  | .debugReset => Sys2Proof.Machine.execDebugReset s
  | .wdtExpiry => Sys2Proof.Machine.execWdtExpiry s
  | .vsysLow => Sys2Proof.Machine.execVsysLow s
  | .vsysHigh => Sys2Proof.Machine.execVsysHigh s
  | .railFault => Sys2Proof.Machine.execRailFault s
  | .thermWarn => Sys2Proof.Machine.execThermWarn s
  | .thermFault => Sys2Proof.Machine.execThermFault s
  | .thermTrip => Sys2Proof.Machine.execThermTrip s
  | .retainEnter => Sys2Proof.Machine.execRetainEnter s
  | .spiStatus => Sys2Proof.Machine.execSpiStatus s
  | .xinReturn => Sys2Proof.Machine.execXinReturn s

end Sys2Proof.Machine
end

