-- ==== Sys2Proof/Safety.lean ====
section
/-! DEFINITION. What counts as a safe run, in the terms that statements use. -/

namespace Sys2Proof.Machine

/-- An outcome that goes on, in a state with a property. -/
def Goes (o : Host.Outcome State Fault Refusal) (p : State → Prop) : Prop := ∃ t, o = .next t ∧ p t

/-- The commands of a list run one after the other from a state, each to a next state. -/
def Runs : List Instr → State → Prop
  | [], _ => True
  | c :: cs, s => Goes (exec c s) (Runs cs)

/-- The command completes in the state `t`, with the interrupts that `t` raises sent out (R484). -/
def Gives (i : Instr) (s t : State) : Prop := exec i s = .next (settle t)

/-- Queue, memories and stage copy have the canonical form of log entry 1. -/
def MemoryOk (s : State) : Prop := Memory.wf s.mem = true ∧ Memory.wf s.stage = true

/-- Memory reads the same at every address. -/
def SameMemory (s t : State) : Prop := ∀ a, memGet t.mem a = memGet s.mem a

/-- No injection slot is armed (R465). -/
def NoInjection (s : State) : Prop := ∀ src code, injArmed s src code = false

/-- The check bits of the word at `a` are good (R372). -/
def Good (s : State) (a : Nat) : Prop := tget 0 s.msvc.ecc (eccKey a) = 0

/-! ### The Apion core -/

/-- Core `n` issues its next bundle: it runs, its bundle lies in program memory under good check bits, and no injection slot is armed. -/
structure Issues (s : State) (n : Nat) : Prop where
  run : (coreAt s n).run = .running
  pc : (coreAt s n).pc < 4096
  ecc : Good s (progAddr n (coreAt s n).pc)
  inj : NoInjection s

/-- The other half of a compute command's bundle does nothing: it is the immediate (R111), or a TNOP (R114). -/
def XferIdle (f : CSyl) (x : Word) : Prop := f.li = true ∨ (x.extractLsb' 27 5 = 0#5 ∧ xopOk .tnop (tsylOf x) = true)

/-- The other half of a transfer command's bundle is a NOP (R114). -/
def CompIdle (w : Word) : Prop := w.extractLsb' 26 6 = 0#6 ∧ csylOf w = { prd := (csylOf w).prd }

/-- The core after a bundle that only moves on (R89). -/
def Core.onward (k : Core) : Core := { k with loops := (loopStep k.pc k.loops).1, pc := (loopStep k.pc k.loops).2, held := none }

/-- Source operands of a compute syllable: register SA, and the immediate or register SB (R111). -/
def opndA (k : Core) (f : CSyl) : Word := rD k f.sa.toNat
def opndB (k : Core) (f : CSyl) (x : Word) : Word := if f.li then x else rD k f.sb.toNat

/-- A compute command issues with its predicate true, beside an idle transfer (R114). -/
structure Computes (s : State) (c : CoreId) (f : CSyl) (x : Word) : Prop where
  issues : Issues s c.val
  idle : XferIdle f x
  pred : rP (coreAt s c.val) f.prd.toNat = true

/-- A control command issues beside an idle transfer: PRD does not gate it (R114). -/
structure Controls (s : State) (c : CoreId) (f : CSyl) (x : Word) : Prop where
  issues : Issues s c.val
  idle : XferIdle f x

/-- A transfer command issues with its predicate true, beside an idle compute syllable (R114). -/
structure Transfers (s : State) (c : CoreId) (f : TSyl) (w : Word) : Prop where
  issues : Issues s c.val
  idle : CompIdle w
  pred : rP (coreAt s c.val) f.tprd.toNat = true

/-- The command changes core `c` to `k` and nothing else. -/
def Becomes (i : Instr) (s : State) (c : CoreId) (k : Core) : Prop := Gives i s (putCore c.val k s)

/-- Operands of lane `j` of a multiply (R74, R123) and their exact product (R75). -/
def laneA (k : Core) (f : CSyl) (j : Nat) : Word := rD k (f.sa.toNat + (laneOps f.shr.toNat j).1)
def laneB (k : Core) (f : CSyl) (j : Nat) : Word := rD k (f.sb.toNat + (laneOps f.shr.toNat j).2)
def laneProd (k : Core) (f : CSyl) (j : Nat) : Int := (laneA k f j).toInt * (laneB k f j).toInt

/-- The data registers `d`, `d` + 1, … that a lane mask names take the lanes' values; every other data register keeps its own (R70, R123). -/
def LanesTo (k t : Core) (d : Nat) (md : BitVec 4) (v : Nat → Word) : Prop :=
  (∀ j, j < 4 → md.getLsbD j = true → rD t (d + j) = v j) ∧
  ∀ r, r < 32 → (∀ j, j < 4 → md.getLsbD j = true → (d + j) % 32 ≠ r) → rD t r = rD k r

/-- STAT after flags are set (R79): bit `lo` + j is set where lane j sets it, and every other bit stays. -/
def FlagsTo (k t : Core) (lo : Nat) (b : Nat → Bool) : Prop :=
  (∀ j, j < 4 → bitAt t.stat (lo + j) = (bitAt k.stat (lo + j) || b j)) ∧
  ∀ i, i < 32 → (i < lo ∨ lo + 4 ≤ i) → bitAt t.stat i = bitAt k.stat i

/-- Value of the word at a fabric address as a core's load reads it (R99, R101, R167). -/
def loadValue (s : State) (k : Core) (a : Nat) : Word :=
  match queued (k.crewQ ++ k.winQ) a with
  | some w => w
  | none => if isMeter a then memWord s.stage a else memWord s.mem a

/-- Fabric addresses of the words of a load or store (R83, R88, R135). -/
def wordsAt (n : Nat) (k : Core) (x : XOp) (f : TSyl) : List Nat :=
  (accAddrs k x f).map fun w => ((mapWord n k w).getD (.data, 0)).2

/-- Every word of a load or store lies in region `r` (R83). -/
def AllIn (r : Region) (n : Nat) (k : Core) (x : XOp) (f : TSyl) : Prop :=
  ∀ w ∈ accAddrs k x f, ∃ a, mapWord n k w = some (r, a)

/-- What a store stores (R135): fabric address and word, in order. -/
def storeList (n : Nat) (k : Core) (x : XOp) (f : TSyl) : StoreEnt :=
  (wordsAt n k x f).zipIdx.map fun e => (e.1, rD k (f.dr.toNat + e.2))

/-- Beside interrupts sent out, only core `n` differs. -/
def CoreOnly (s t : State) (n : Nat) : Prop :=
  { t with cores := s.cores, host := s.host, out := s.out } = s ∧ ∀ m, m ≠ n → coreAt t m = coreAt s m

/-! ### Calls and the patch -/

/-- Call `p` is the next to be applied, and its write units fit (R58, R59). -/
structure Due (s : State) (p : Pend) (op : BitVec 16) (armed : Bool) : Prop where
  next : nextDue s = some p
  op : p.call.opcode = op
  armed : p.armed = armed
  align : s.scene.align = []
  units : s.call.wu + callCost p.call ≤ 4096

/-- The state with the call's write units counted (R58). -/
def charged (s : State) (p : Pend) : State := { s with call := { s.call with wu := s.call.wu + callCost p.call } }

/-- The command applies call `p`: its own effect leaves `t`, then the call leaves the table with its receipt (R62). -/
def Applies (i : Instr) (s : State) (p : Pend) (t : State) : Prop :=
  Gives i s (receiptApplied p (strokeDue s) { t with call := { t.call with pend := dropPend p t.call.pend } })

/-- Address of the next receipt (R62, R66). -/
def rcptSlot (s : State) : Nat := centralAddr (fld (reg s Reg.RCPT_RING_BASE) 22 4 * 16 + s.call.rcptWr.toNat % rcptSize s * 16)

/-- Words from an address read without an error. -/
def Clean (s : State) (a n : Nat) : Prop := NoInjection s ∧ ∀ i, i < n → Good s (a + 4 * i)

/-! ### The fabric -/

/-- No access waits, no port is locked or retries a write, and no injection slot is armed. -/
structure BusIdle (s : State) : Prop where
  wait : s.fab.wait = []
  collided : s.msvc.collided = []
  lock : ∀ i, lockAt s i = none
  broken : ∀ i, vget none s.fab.broken i = none
  len : lockLen s = 0
  inj : NoInjection s

/-- A burst of the form of R405 to central memory, in order, by a master other than HOST. -/
structure ToCentral (b : Burst) : Prop where
  form : burstOk b = true
  page : burst4k b = false
  lock : b.lock = false
  master : b.master ≠ .host
  target : targetOf b.addr.toNat = 0
  words : ∀ w ∈ burstWords b, targetOf w.a = 0

/-- The outward effects of the step begin with `o`. -/
def Says (s t : State) (o : Out) : Prop := ∃ rest, t.out = s.out ++ o :: rest

/-- Zero data of a burst that was not served (R406). -/
def noData (b : Burst) : List Byte := if b.write then [] else List.replicate (16 * b.beats.length) 0#8

end Sys2Proof.Machine
end

