-- ==== Sys2Proof/Certificates/Slice0/Obligations.lean ====
section
/-! DEFINITION. The statements for the provers. -/

open Sys2Proof Sys2Proof.Machine

/-! ### The Apion core -/

/-- R117, R118, R122: the results of the integer instructions, of the saturating ones with SAT0, and of the shifts, which take the low six
bits of the count; CLS counts redundant sign bits. -/
def Obligations.AluResults : Prop :=
  ∀ (c : CoreId) (f : CSyl) (x : Word) (s : State), Computes s c f x → f.shr = 0#3 → f.md = 0#4 →
    let k := coreAt s c.val
    let a := opndA k f
    let b := opndB k f x
    let n := b.toNat % 64
    let dTo (v : Word) : Core := setD f.dst.toNat v k.onward
    let sat (z : Int) : Core := { setD f.dst.toNat (sat32 z).1 k.onward with stat := k.stat ||| flag (sat32 z).2 0 }
    (f.li = true ∨ f.sb = 0#5 → Becomes (.mov c f x) s c (dTo (if f.li then x else a))) ∧
    Becomes (.add c f x) s c (dTo (a + b)) ∧
    Becomes (.sub c f x) s c (dTo (a - b)) ∧
    Becomes (.and c f x) s c (dTo (a &&& b)) ∧
    Becomes (.or c f x) s c (dTo (a ||| b)) ∧
    Becomes (.xor c f x) s c (dTo (a ^^^ b)) ∧
    Becomes (.andn c f x) s c (dTo (a &&& ~~~b)) ∧
    Becomes (.min c f x) s c (dTo (if a.toInt < b.toInt then a else b)) ∧
    Becomes (.max c f x) s c (dTo (if a.toInt < b.toInt then b else a)) ∧
    Becomes (.adds c f x) s c (sat (a.toInt + b.toInt)) ∧
    Becomes (.subs c f x) s c (sat (a.toInt - b.toInt)) ∧
    (f.li = false → f.sb = 0#5 → Becomes (.abss c f x) s c (sat (if a.toInt < 0 then -a.toInt else a.toInt))) ∧
    (f.li = false → f.sb = 0#5 → Becomes (.negs c f x) s c (sat (-a.toInt))) ∧
    Becomes (.shls c f x) s c (sat (a.toInt * 2 ^ n)) ∧
    Becomes (.shl c f x) s c (dTo (if n < 32 then a <<< n else 0#32)) ∧
    Becomes (.shr c f x) s c (dTo (if n < 32 then a >>> n else 0#32)) ∧
    Becomes (.sra c f x) s c (dTo (BitVec.ofInt 32 (a.toInt / 2 ^ n))) ∧
    (f.li = false → f.sb = 0#5 → Goes (exec (.cls c f x) s) fun t =>
      t.mem = s.mem ∧ ∃ m : Nat, m < 32 ∧ coreAt t c.val = dTo (wOf m) ∧ (∀ i, i < m → bitAt a (30 - i) = bitAt a 31) ∧
        (m < 31 → bitAt a (30 - m) ≠ bitAt a 31))

/-- R71, R119–R121: compares and predicate logic write a predicate, P0 keeps reading 1, and SEL selects by one. -/
def Obligations.PredicateResults : Prop :=
  ∀ (c : CoreId) (f : CSyl) (x : Word) (s : State), Computes s c f x → f.shr = 0#3 → f.md.getLsbD 3 = false →
    let k := coreAt s c.val
    let a := opndA k f
    let b := opndB k f x
    let m := f.md.toNat
    let sets (v : Bool) (t : State) : Prop :=
      (∀ i, i < 8 → rP (coreAt t c.val) i = if i = 0 then true else if i = f.dst.toNat then v else rP k i) ∧
      { coreAt t c.val with p := k.p } = k.onward ∧ (∀ n, n ≠ c.val → coreAt t n = coreAt s n) ∧ t.mem = s.mem ∧ t.regs = s.regs
    (f.dst.toNat < 8 → Goes (exec (.cmp c f x) s) (sets (
      if m = 0 then a = b else if m = 1 then a ≠ b else if m = 2 then a.toInt < b.toInt else if m = 3 then a.toInt ≥ b.toInt
      else if m = 4 then a.toInt ≤ b.toInt else if m = 5 then a.toInt > b.toInt else if m = 6 then a.toNat < b.toNat
      else a.toNat ≥ b.toNat))) ∧
    (f.dst.toNat < 8 → f.sa.toNat < 8 → f.sb.toNat < 8 → f.li = false → m ≠ 7 →
      let p := rP k f.sa.toNat
      let q := rP k f.sb.toNat
      Goes (exec (.plog c f x) s) (sets (
        if m = 0 then p && q else if m = 1 then p || q else if m = 2 then xor p q else if m = 3 then p && !q
        else if m = 4 then !p else if m = 5 then true else false))) ∧
    (f.li = false → Becomes (.sel c f x) s c (setD f.dst.toNat (if rP k m then a else rD k f.sb.toNat) k.onward))

/-- R75, R78, R123: MPY and MPYI write the enabled lanes' products to data registers. -/
def Obligations.MultiplyResults : Prop :=
  ∀ (c : CoreId) (f : CSyl) (x : Word) (s : State), Computes s c f x → f.shr.toNat < 4 → f.li = false →
    let k := coreAt s c.val
    (Goes (exec (.mpy c f x) s) fun t =>
      LanesTo k (coreAt t c.val) f.dst.toNat f.md (fun j => (sat32 (laneProd k f j / 2 ^ 31)).1) ∧
      FlagsTo k (coreAt t c.val) 0 (fun j => f.md.getLsbD j && laneA k f j == 0x80000000#32 && laneB k f j == 0x80000000#32) ∧
      { coreAt t c.val with d := k.d, stat := k.stat } = k.onward ∧ t.mem = s.mem) ∧
    (Goes (exec (.mpyi c f x) s) fun t =>
      LanesTo k (coreAt t c.val) f.dst.toNat f.md (fun j => laneA k f j * laneB k f j) ∧
      { coreAt t c.val with d := k.d } = k.onward ∧ t.mem = s.mem)

/-- R76, R123, R126: MPA, MAC, MSU, MACSU and CLRA on the accumulators of the enabled lanes; the others keep theirs. -/
def Obligations.AccumulateResults : Prop :=
  ∀ (c : CoreId) (f : CSyl) (x : Word) (s : State), Computes s c f x → f.li = false → f.dst = 0#5 →
    let k := coreAt s c.val
    let lanes (t : State) (v : Nat → BitVec 80) (ov : Nat → Bool) : Prop :=
      (∀ j, j < 4 → rAcc (coreAt t c.val) j = if f.md.getLsbD j then v j else rAcc k j) ∧
      FlagsTo k (coreAt t c.val) 4 (fun j => f.md.getLsbD j && ov j) ∧
      { coreAt t c.val with acc := k.acc, stat := k.stat } = k.onward ∧ t.mem = s.mem
    let clip (z : Int) : BitVec 80 := BitVec.ofInt 80 (max (-2 ^ 79) (min (2 ^ 79 - 1) z))
    let ovf (z : Int) : Bool := decide (z < -2 ^ 79) || decide (2 ^ 79 - 1 < z)
    let sum (g : Nat → Int) (j : Nat) : Int := (rAcc k j).toInt + g j
    (f.shr.toNat < 5 → Goes (exec (.mpa c f x) s) fun t => lanes t (fun j => BitVec.ofInt 80 (laneProd k f j)) fun _ => false) ∧
    (f.shr.toNat < 5 → Goes (exec (.mac c f x) s) fun t =>
      lanes t (fun j => clip (sum (laneProd k f) j)) fun j => ovf (sum (laneProd k f) j)) ∧
    (f.shr.toNat < 5 → Goes (exec (.msu c f x) s) fun t =>
      lanes t (fun j => clip (sum (fun j => -laneProd k f j) j)) fun j => ovf (sum (fun j => -laneProd k f j) j)) ∧
    (f.shr.toNat < 4 →
      let g (j : Nat) : Int := (laneA k f j).toInt * ((laneB k f j).toNat : Int) / 2
      Goes (exec (.macsu c f x) s) fun t => lanes t (fun j => clip (sum g j)) fun j => ovf (sum g j)) ∧
    (f.shr = 0#3 → f.sa = 0#5 → f.sb = 0#5 → Goes (exec (.clra c f x) s) fun t => lanes t (fun _ => 0#80) fun _ => false)

/-- R77, R80–R82, R125–R127: accumulator moves with the crew lead's SCALE, their saturation and tracking; BEXP; LDA, ACMB, SHA, MVAR and SETAR. -/
def Obligations.AccumulatorMoves : Prop :=
  (∀ (c : CoreId) (f : CSyl) (x : Word) (s : State), Computes s c f x → f.li = false → f.shr = 0#3 → f.sb = 0#5 →
     let k := coreAt s c.val
     let sh : Int := f.sa.toInt + (if c.val % 8 = 0 then (k.scale.extractLsb' (8 * (f.md.toNat / 4)) 5).toInt else 0)
     let z (j : Nat) : Int := (if 0 ≤ sh then (rAcc k j).toInt * 2 ^ sh.toNat else (rAcc k j).toInt / 2 ^ (-sh).toNat) / 2 ^ 31
     let v (j : Nat) : Word := (sat32 (z j)).1
     let fold (y : Word) : Word := if bitAt k.stat 20 then y ^^^ y.sshiftRight 31 else 0#32
     let n := f.md.toNat % 4
     (Becomes (.mva c f x) s c
       { setD f.dst.toNat (v n) k.onward with stat := k.stat ||| flag (sat32 (z n)).2 n, bxd := k.bxd ||| fold (v n) }) ∧
     (n = 0 → Goes (exec (.mva4 c f x) s) fun t =>
       LanesTo k (coreAt t c.val) f.dst.toNat 15#4 v ∧ FlagsTo k (coreAt t c.val) 0 (fun j => (sat32 (z j)).2) ∧
       (coreAt t c.val).bxd = k.bxd ||| fold (v 0) ||| fold (v 1) ||| fold (v 2) ||| fold (v 3) ∧
       { coreAt t c.val with d := k.d, stat := k.stat, bxd := k.bxd } = k.onward ∧ t.mem = s.mem) ∧
     (f.sa = 0#5 → f.md = 0#4 → Goes (exec (.bexp c f x) s) fun t =>
       t.mem = s.mem ∧ ∃ m : Nat, m ≤ 32 ∧ (∀ i, m ≤ i → bitAt k.bxd i = false) ∧ (0 < m → bitAt k.bxd (m - 1) = true) ∧
         coreAt t c.val = setD f.dst.toNat (wInt (31 - m)) k.onward)) ∧
  (∀ (c : CoreId) (f : CSyl) (x : Word) (s : State), Computes s c f x → f.shr = 0#3 →
     let k := coreAt s c.val
     let clip (z : Int) : BitVec 80 := BitVec.ofInt 80 (max (-2 ^ 79) (min (2 ^ 79 - 1) z))
     let ovf (z : Int) : Bool := decide (z < -2 ^ 79) || decide (2 ^ 79 - 1 < z)
     let n := f.md.toNat % 4
     let part := f.md.toNat / 4
     let acc := rAcc k n
     let d := opndA k f
     (f.dst = 0#5 → f.sa = 0#5 → f.md.toNat < 4 →
       Becomes (.lda c f x) s c (setAcc n (BitVec.ofInt 80 ((opndB k f x).toInt * 2 ^ 31)) k.onward)) ∧
     (f.li = false → f.dst.toNat < 4 → f.sa.toNat < 4 → f.sb.toNat < 4 → f.md.toNat < 2 →
       let a := (rAcc k f.sa.toNat).toInt
       let b := (rAcc k f.sb.toNat).toInt
       let z := if f.md = 1#4 then a - b else a + b
       Becomes (.acmb c f x) s c
         { setAcc f.dst.toNat (clip z) k.onward with stat := k.stat ||| flag (ovf z) (4 + f.dst.toNat) }) ∧
     (f.li = false → f.dst = 0#5 → f.sb = 0#5 → f.md.toNat < 4 →
       let z := if 0 ≤ f.sa.toInt then acc.toInt * 2 ^ f.sa.toInt.toNat else acc.toInt / 2 ^ (-f.sa.toInt).toNat
       Becomes (.sha c f x) s c { setAcc n (clip z) k.onward with stat := k.stat ||| flag (ovf z) (4 + n) }) ∧
     (f.li = false → f.sa = 0#5 → f.sb = 0#5 → f.md.toNat < 12 →
       Becomes (.mvar c f x) s c (setD f.dst.toNat
         (if part = 0 then acc.extractLsb' 0 32 else if part = 1 then acc.extractLsb' 32 32
          else (acc.extractLsb' 64 16).signExtend 32) k.onward)) ∧
     (f.li = false → f.dst = 0#5 → f.sb = 0#5 → f.md.toNat < 12 →
       Goes (exec (.setar c f x) s) fun t =>
         (∀ i, i < 80 → (rAcc (coreAt t c.val) n).getLsbD i =
           if part = 0 ∧ i < 32 then d.getLsbD i else if part = 1 ∧ 32 ≤ i ∧ i < 64 then d.getLsbD (i - 32)
           else if part = 2 ∧ 64 ≤ i then d.getLsbD (i - 64) else acc.getLsbD i) ∧
         (∀ j, j < 4 → j ≠ n → rAcc (coreAt t c.val) j = rAcc k j) ∧ { coreAt t c.val with acc := k.acc } = k.onward ∧ t.mem = s.mem))

/-- R128–R130: ZXARM arms a step of a gain group, and ZXSTEP processes one sample. -/
def Obligations.GainGroup : Prop :=
  ∀ (c : CoreId) (f : CSyl) (x : Word) (s : State), Computes s c f x → f.shr = 0#3 → f.md = 0#4 → f.li = false →
    let k := coreAt s c.val
    let d := f.dst.toNat
    let g := rD k d
    let tg := rD k (d + 1)
    let z := rD k (d + 2)
    let st := rD k (d + 3)
    let wait := bitAt st 31
    let ramp := bitAt st 30
    let word (w r n : Bool) (q : Nat) : Word := flag w 31 ||| flag r 30 ||| flag n 29 ||| wOf q
    let group (t : State) (g tg z st : Word) : Prop :=
      rD (coreAt t c.val) d = g ∧ rD (coreAt t c.val) (d + 1) = tg ∧ rD (coreAt t c.val) (d + 2) = z ∧
      rD (coreAt t c.val) (d + 3) = st ∧
      (∀ r, r < 32 → (∀ j, j < 4 → (d + j) % 32 ≠ r) → rD (coreAt t c.val) r = rD k r) ∧
      { coreAt t c.val with d := k.d } = k.onward ∧ t.mem = s.mem
    let b := rD k f.sb.toNat
    let tmo := (opndA k f).toNat % 256
    (Goes (exec (.zxarm c f x) s) fun t =>
      if b = g then group t g b z (word false false (bitAt st 29) 0)
      else group t g b (k.stroke + wOf (if tmo = 0 then 120 else tmo)) (word true false (bitAt st 29) 0)) ∧
    (f.sb = 0#5 →
      let neg := decide ((opndA k f).toInt < 0)
      let flips := wait && neg != bitAt st 29
      let late := wait && !flips && decide (0 ≤ (k.stroke - z).toInt)
      let g0 := if late then g else z
      let q := (if late then 0 else fld st 5 0) + 1
      Goes (exec (.zxstep c f x) s) fun t =>
        if ramp || late then
          group t (wInt (g0.toInt + (tg.toInt - g0.toInt) * q / 64)) tg g0
            (word (wait && !flips && !late) (q != 64) neg (if q = 64 then 0 else q))
        else group t (if flips then tg else g) tg z (word (wait && !flips) false neg (fld st 5 0)))

/-- R72, R131, R132: CSRR reads a control and status register, CSRW writes one at commit; a write that goes nowhere is logged. -/
def Obligations.CsrAccess : Prop :=
  ∀ (c : CoreId) (f : CSyl) (x : Word) (s : State), Computes s c f x → f.shr = 0#3 → f.md = 0#4 →
    let n := c.val
    let k := coreAt s n
    let r := f.sa.toNat
    let v := opndB k f x
    let lc (j : Nat) : Word := wOf ((k.loops[j]?.map LoopLv.cnt).getD 0)
    (f.li = false → f.sb = 0#5 → Becomes (.csrr c f x) s c (setD f.dst.toNat
      (if r = 0 then k.stat else if r = 1 then (if n % 8 = 0 then k.scale else 0#32) else if r = 2 then k.bxd
       else if r = 3 then wOf ((if n % 8 = 0 then 2 ^ 10 else 0) + n / 32 * 2 ^ 8 + n / 8 * 2 ^ 4 + n % 8)
       else if r = 4 then k.stroke else if r = 5 then k.cwb else if r = 6 then lc 0 else if r = 7 then lc 1 else 0#32)
      k.onward)) ∧
    (f.sa = 0#5 →
      (f.dst = 0#5 → Goes (exec (.csrw c f x) s) fun t => CoreOnly s t n ∧ { coreAt t n with stat := k.stat } = k.onward ∧
        ∀ i, i < 32 → bitAt (coreAt t n).stat i =
          if i < 8 then bitAt k.stat i && !bitAt v i else if 16 ≤ i ∧ i < 21 then bitAt v i else false) ∧
      (f.dst = 1#5 → Becomes (.csrw c f x) s c (if n % 8 = 0 then { k.onward with scale := v &&& 0x1F1F1F1F#32 } else k.onward)) ∧
      (f.dst = 2#5 → Becomes (.csrw c f x) s c { k.onward with bxd := v }) ∧
      (f.dst = 5#5 → Becomes (.csrw c f x) s c { k.onward with cwb := v &&& 7#32 }) ∧
      (f.dst = 3#5 ∨ f.dst = 4#5 ∨ 6 ≤ f.dst.toNat →
        Gives (.csrw c f x) s (report (coreSrc n) 0x203#12 .note 0#32 (putCore n k.onward s))))

/-- R89–R91, R94, R133, R134: NOP, branches, jumps, calls, returns and loops; what the end bundle of a loop body does. -/
def Obligations.ControlFlow : Prop :=
  (∀ (c : CoreId) (f : CSyl) (x : Word) (s : State), Controls s c f x → f.shr = 0#3 →
     let k := coreAt s c.val
     let tgt := f.dst.toNat * 128 + f.sa.toNat * 4 + f.sb.toNat / 8
     let len := f.dst.toNat * 32 + f.sa.toNat
     let inside (t : Nat) (o : LoopLv) : Prop := o.start ≤ t ∧ t ≤ o.stop
     let goesTo (i : Instr) (pc : Nat) (rets : List Nat) : Prop := Goes (exec i s) fun t =>
       CoreOnly s t c.val ∧ { coreAt t c.val with loops := k.loops } = { k with pc := pc, rets := rets, held := none } ∧
       (k.loops.length ≤ 2 → (coreAt t c.val).loops =
         if ∃ o, k.loops.getLast? = some o ∧ inside pc o then k.loops
         else if 1 < k.loops.length ∧ ∃ o, k.loops.head? = some o ∧ inside pc o then k.loops.take 1 else [])
     (f.dst = 0#5 → f.sa = 0#5 → f.sb = 0#5 → f.li = false → f.md = 0#4 → Becomes (.nop c f x) s c k.onward) ∧
     (f.sb.toNat % 8 = 0 → f.li = false →
       (f.md.toNat % 4 = 0 → rP k f.prd.toNat ≠ f.md.getLsbD 2 → goesTo (.br c f x) tgt k.rets) ∧
       (f.md.toNat % 4 = 0 → rP k f.prd.toNat = f.md.getLsbD 2 → Becomes (.br c f x) s c k.onward) ∧
       (f.prd = 0#3 → f.md = 0#4 → goesTo (.jmp c f x) tgt k.rets) ∧
       (f.prd = 0#3 → f.md = 0#4 → k.rets.length < 4 → goesTo (.call c f x) tgt ((k.pc + 1) :: k.rets))) ∧
     (f.dst = 0#5 → f.sa = 0#5 → f.sb = 0#5 → f.prd = 0#3 → f.li = false → f.md = 0#4 → ∀ r rs, k.rets = r :: rs →
       goesTo (.ret c f x) r rs) ∧
     (f.prd = 0#3 → f.md = 0#4 → (f.li = true → f.sb = 0#5 ∧ x.toNat < 65536) → k.loops.length < 2 → k.pc + 1 + len ≤ 4095 →
       (∀ o ∈ k.loops, o.stop ≠ k.pc ∧ k.pc + 1 + len ≤ o.stop) →
       let cnt := (opndB k f x).toNat % 65536
       Becomes (.loop c f x) s c
         (if cnt = 0 then { k with pc := k.pc + 2 + len, held := none }
          else { k with pc := k.pc + 1, loops := k.loops ++ [⟨k.pc + 1, k.pc + 1 + len, cnt, cnt⟩], held := none }))) ∧
  (∀ (k : Core) (o i : LoopLv), 0 < o.cnt → 0 < i.cnt →
     (k.loops = [] → k.onward = { k with pc := k.pc + 1, held := none }) ∧
     (k.loops = [o] → k.onward =
       if o.stop ≠ k.pc then { k with pc := k.pc + 1, held := none }
       else if o.cnt = 1 then { k with pc := k.pc + 1, loops := [], held := none }
       else { k with pc := o.start, loops := [{ o with cnt := o.cnt - 1 }], held := none }) ∧
     (k.loops = [o, i] → k.onward =
       if i.stop ≠ k.pc then { k with pc := k.pc + 1, held := none }
       else if 1 < i.cnt then { k with pc := i.start, loops := [o, { i with cnt := i.cnt - 1 }], held := none }
       else if o.stop ≠ k.pc then { k with pc := k.pc + 1, loops := [o], held := none }
       else if o.cnt = 1 then { k with pc := k.pc + 1, loops := [], held := none }
       else { k with pc := i.start, loops := [{ o with cnt := o.cnt - 1 }, { i with cnt := i.reload }], held := none }))

/-- R104, R105: BARRIER empties the store queues and waits; BARRIER_RELEASE lets the members run on; WAITSTROKE waits for the
queues, and CORE_SLEEP puts the core to sleep with its cycle counts. -/
def Obligations.StrokeWaits : Prop :=
  ∀ (s : State) (c : CoreId) (f : CSyl) (x : Word),
    let n := c.val
    let k := coreAt s n
    let crew := n / 8
    (Controls s c f x → f.dst = 0#5 → f.sa = 0#5 → f.sb = 0#5 → f.shr = 0#3 → f.prd = 0#3 → f.li = false →
      (f.md.toNat < 8 → (barMask s crew f.md.toNat).testBit (n % 8) = true → k.crewQ.length ≤ 4 → k.winQ.length ≤ 2 →
        Goes (exec (.barrier c f x) s) fun t =>
          { coreAt t n with crewTry := k.crewTry, winTry := k.winTry }
            = { k.onward with run := .atBarrier f.md.toNat, crewQ := [], winQ := [] } ∧
          (vget 0#8 (crewAt t crew).arrived f.md.toNat).getLsbD (n % 8) = true ∧ t.mem = (drainAll n s).mem ∧
          (∀ m, m ≠ n → coreAt t m = coreAt s m)) ∧
      (f.md = 0#4 → Becomes (.waitstroke c f x) s c { k.onward with run := .draining })) ∧
    (∀ cycles, k.run = .draining → k.crewQ = [] → k.winQ = [] →
      Becomes (.coreSleep c cycles) s c { k with run := .asleep, cyc := cycles, cycMax := Nat.max k.cycMax cycles }) ∧
    (∀ (cr : CrewId) (j : Fin 8), barMask s cr.val j.val ≠ 0 → chainBar s cr.val ≠ some j.val →
      (∀ i, (barMask s cr.val j.val).testBit i = true → i < 8 ∧ (vget 0#8 (crewAt s cr.val).arrived j.val).getLsbD i = true) →
      (j.val = 7 → ∀ i, i < 4 → s.mix.done.getLsbD (cr.val / 4 * 4 + i) = true) →
      Goes (exec (.barrierRelease cr j) s) fun t =>
        vget 0#8 (crewAt t cr.val).arrived j.val = 0#8 ∧ t.mem = s.mem ∧
        ∀ i, i < 128 → coreAt t i =
          if i / 8 = cr.val ∧ (coreAt s i).run = .atBarrier j.val then { coreAt s i with run := .running }
          else if i / 8 = cr.val ∧ (coreAt s i).run = .halted ∧ (coreAt s i).paused = .atBarrier j.val then
            { coreAt s i with paused := .running }
          else coreAt s i)

/-- R87, R114: under a false predicate a compute syllable changes nothing, and a transfer syllable only its address register. -/
def Obligations.PredicatedOff : Prop :=
  ∀ (s : State) (c : CoreId) (f : CSyl) (g : TSyl) (x : Word),
    let k := coreAt s c.val
    (Issues s c.val → XferIdle f x → rP k f.prd.toNat = false →
      ∀ mk ∈ ([.mov, .add, .adds, .sub, .subs, .abss, .negs, .and, .or, .xor, .andn, .shl, .shr, .sra, .shls, .min, .max, .sel,
        .cmp, .cls, .plog, .mpy, .mpyi, .mpa, .mac, .msu, .macsu, .mva, .mva4, .clra, .lda, .acmb, .sha, .mvar, .setar, .bexp,
        .zxarm, .zxstep, .csrr, .csrw, .nop] : List (CoreId → CSyl → Word → Instr)), Becomes (mk c f x) s c k.onward) ∧
    (Issues s c.val → CompIdle x → rP k g.tprd.toNat = false →
      (∀ mk ∈ ([.tnop, .ldO, .ld2O, .ld4O, .stO, .st2O, .st4O, .mvr, .mrv, .setr, .mbput, .mbget, .mbcnt] :
        List (CoreId → TSyl → Word → Instr)), Becomes (mk c g x) s c k.onward) ∧
      (∀ mk ∈ ([.ldP, .ld2P, .ld4P, .stP, .st2P, .st4P, .amodm] : List (CoreId → TSyl → Word → Instr)),
        Becomes (mk c g x) s c
          (setA g.ar.toNat (nextAddr k g.ar.toNat (rA k g.ar.toNat) (rM k g.mr.toNat).toInt) k.onward)) ∧
      (∀ mk ∈ ([.ldPo, .ld2Po, .ld4Po, .stPo, .st2Po, .st4Po, .amodi] : List (CoreId → TSyl → Word → Instr)),
        Becomes (mk c g x) s c (setA g.ar.toNat (nextAddr k g.ar.toNat (rA k g.ar.toNat) g.ofs.toInt) k.onward)))

/-- R85, R89, R94, R105, R108, R109, R112: what a core stops on. Its bundle does not commit; memory and the other cores keep
their contents. -/
def Obligations.CoreFaults : Prop :=
  ∀ (s : State) (c : CoreId) (f : CSyl) (g : TSyl) (x : Word),
    let k := coreAt s c.val
    let stops (i : Instr) (code : BitVec 12) : Prop := Goes (exec i s) fun t =>
      (coreAt t c.val).run = .stopped ∧ (coreAt t c.val).faultCode = code ∧ (coreAt t c.val).faultPc = k.pc ∧
      t.mem = s.mem ∧ (∀ m, m ≠ c.val → coreAt t m = coreAt s m) ∧
      ∃ u, t = settle (report (coreSrc c.val) code .fault 0#32 u)
    (Computes s c f x → f.shr ≠ 0#3 ∨ f.md ≠ 0#4 →
      ∀ mk ∈ ([.mov, .add, .adds, .sub, .subs, .abss, .negs, .and, .or, .xor, .andn, .shl, .shr, .sra, .shls, .min, .max, .cls,
        .bexp, .zxarm, .zxstep, .csrr, .csrw] : List (CoreId → CSyl → Word → Instr)), stops (mk c f x) 0x200#12) ∧
    (Computes s c f x → 4 ≤ f.shr.toNat → ∀ mk ∈ ([.mpy, .mpyi, .macsu] : List (CoreId → CSyl → Word → Instr)), stops (mk c f x) 0x200#12) ∧
    (Controls s c f x → f.shr = 0#3 → f.prd = 0#3 → f.md.toNat < 8 → f.li = false →
      (f.sb.toNat % 8 = 0 → f.md = 0#4 → 4 ≤ k.rets.length → stops (.call c f x) 0x205#12) ∧
      (f.dst = 0#5 → f.sa = 0#5 → f.sb = 0#5 → f.md = 0#4 → k.rets = [] → stops (.ret c f x) 0x205#12) ∧
      (f.md = 0#4 → 2 ≤ k.loops.length → stops (.loop c f x) 0x202#12) ∧
      (f.dst = 0#5 → f.sa = 0#5 → f.sb = 0#5 → (barMask s (c.val / 8) f.md.toNat).testBit (c.val % 8) = false →
        stops (.barrier c f x) 0x206#12)) ∧
    (Transfers s c g x →
      ∀ e ∈ ([(.ldP, .ld 1 .p), (.ld2P, .ld 2 .p), (.ld4P, .ld 4 .p), (.stP, .st 1 .p), (.st2P, .st 2 .p), (.st4P, .st 4 .p),
        (.ldO, .ld 1 .o), (.ld2O, .ld 2 .o), (.ld4O, .ld 4 .o), (.stO, .st 1 .o), (.st2O, .st 2 .o), (.st4O, .st 4 .o),
        (.ldPo, .ld 1 .po), (.ld2Po, .ld 2 .po), (.ld4Po, .ld 4 .po), (.stPo, .st 1 .po), (.st2Po, .st 2 .po), (.st4Po, .st 4 .po)] :
          List ((CoreId → TSyl → Word → Instr) × XOp)), xopOk e.2 g = true →
        (∃ w ∈ accAddrs k e.2 g, mapWord c.val k w = none) → stops (e.1 c g x) 0x201#12)

/-- R88, R99, R101, R135: loads write data registers with the words at their addresses and step the address register; nothing is said of
a word of the firmware area, whose value is free (R145, log entry 114). -/
def Obligations.Loads : Prop :=
  ∀ (c : CoreId) (f : TSyl) (w : Word) (s : State), Transfers s c f w →
    let k := coreAt s c.val
    let n := f.ar.toNat
    let loads (i : Instr) (j : Nat) (mode : AMode) (a : BitVec 24) : Prop :=
      let at_ := wordsAt c.val k (.ld j mode) f
      (∀ y ∈ accAddrs k (.ld j mode) f, (mapWord c.val k y).isSome = true) →
      (∀ y ∈ at_, inputDue s y = false ∧ Good s y) →
      at_.length = j ∧ Goes (exec i s) fun t =>
        { t with cores := s.cores, host := s.host, out := s.out, freeCtr := s.freeCtr } = s ∧
        ((∀ y ∈ at_, firmwareArea y = false) → t.freeCtr = s.freeCtr) ∧ (∀ m, m ≠ c.val → coreAt t m = coreAt s m) ∧
        (∀ m, m < j → firmwareArea (at_.getD m 0) = false → rD (coreAt t c.val) (f.dr.toNat + m) = loadValue s k (at_.getD m 0)) ∧
        (∀ r, r < 32 → (∀ m, m < j → (f.dr.toNat + m) % 32 ≠ r) → rD (coreAt t c.val) r = rD k r) ∧
        { coreAt t c.val with d := k.d } = setA n a k.onward
    let stepM := nextAddr k n (rA k n) (rM k f.mr.toNat).toInt
    let stepO := nextAddr k n (rA k n) f.ofs.toInt
    (f.ofs = 0#11 → loads (.ldP c f w) 1 .p stepM ∧ loads (.ld2P c f w) 2 .p stepM ∧ loads (.ld4P c f w) 4 .p stepM) ∧
    (f.mr = 0#4 → loads (.ldO c f w) 1 .o (rA k n) ∧ loads (.ld2O c f w) 2 .o (rA k n) ∧ loads (.ld4O c f w) 4 .o (rA k n)) ∧
    (f.mr = 0#4 → loads (.ldPo c f w) 1 .po stepO ∧ loads (.ld2Po c f w) 2 .po stepO ∧ loads (.ld4Po c f w) 4 .po stepO)

/-- R83, R99, R135, R136: stores write local memory at once, and enter crew and window words as one entry of their queue. -/
def Obligations.Stores : Prop :=
  ∀ (c : CoreId) (f : TSyl) (w : Word) (s : State), Transfers s c f w → MemoryOk s →
    let k := coreAt s c.val
    let n := f.ar.toNat
    let stores (i : Instr) (j : Nat) (mode : AMode) (a : BitVec 24) : Prop :=
      let x : XOp := .st j mode
      let at_ := wordsAt c.val k x f
      let ent := storeList c.val k x f
      (AllIn .data c.val k x f → Goes (exec i s) fun t =>
        { t with mem := s.mem, cores := s.cores, host := s.host, out := s.out, msvc := { t.msvc with ecc := s.msvc.ecc } } = s ∧
        (∀ m, m ≠ c.val → coreAt t m = coreAt s m) ∧ coreAt t c.val = setA n a k.onward ∧
        (∀ m, m < j → (∀ m', m < m' → m' < j → at_.getD m' 0 ≠ at_.getD m 0) →
          memWord t.mem (at_.getD m 0) = rD k (f.dr.toNat + m)) ∧
        ∀ y, (∀ b ∈ at_, y < b ∨ b + 4 ≤ y) → memGet t.mem y = memGet s.mem y) ∧
      (AllIn .crew c.val k x f → k.crewQ.length < 4 →
        Becomes i s c { setA n a k.onward with crewQ := k.crewQ ++ [ent] }) ∧
      (AllIn .window c.val k x f → k.winQ.length < 2 →
        Becomes i s c { setA n a k.onward with winQ := k.winQ ++ [ent] }) ∧
      (AllIn .crew c.val k x f → ∀ e q, k.crewQ = e :: q → q.length = 3 → Goes (exec i s) fun t =>
        coreAt t c.val = { setA n a k.onward with crewQ := q ++ [ent], crewTry := 0 } ∧
        t.mem = (drainHead c.val false s).mem ∧ t.stage = s.stage) ∧
      (AllIn .window c.val k x f → ∀ e q, k.winQ = e :: q → q.length = 1 → Goes (exec i s) fun t =>
        coreAt t c.val = { setA n a k.onward with winQ := q ++ [ent], winTry := 0 } ∧
        t.mem = (drainHead c.val true s).mem ∧ t.stage = (drainHead c.val true s).stage)
    let stepM := nextAddr k n (rA k n) (rM k f.mr.toNat).toInt
    let stepO := nextAddr k n (rA k n) f.ofs.toInt
    (f.ofs = 0#11 → stores (.stP c f w) 1 .p stepM ∧ stores (.st2P c f w) 2 .p stepM ∧ stores (.st4P c f w) 4 .p stepM) ∧
    (f.mr = 0#4 → stores (.stO c f w) 1 .o (rA k n) ∧ stores (.st2O c f w) 2 .o (rA k n) ∧ stores (.st4O c f w) 4 .o (rA k n)) ∧
    (f.mr = 0#4 → stores (.stPo c f w) 1 .po stepO ∧ stores (.st2Po c f w) 2 .po stepO ∧ stores (.st4Po c f w) 4 .po stepO)

/-- R138: moves into and out of the address unit. -/
def Obligations.AddressUnit : Prop :=
  ∀ (c : CoreId) (f : TSyl) (w : Word) (s : State), Transfers s c f w →
    let k := coreAt s c.val
    let n := f.ar.toNat
    let cls := f.mr.toNat / 4
    let puts (v : BitVec 24) : Core :=
      if cls = 0 then { k.onward with a := vput k.a n v } else if cls = 1 then { k.onward with m := vput k.m n v }
      else if cls = 2 then { k.onward with b := vput k.b n v } else { k.onward with l := vput k.l n v }
    let gets : Word := if cls = 0 then (vget 0#24 k.a n).zeroExtend 32 else if cls = 1 then (vget 0#24 k.m n).signExtend 32
      else if cls = 2 then (vget 0#24 k.b n).zeroExtend 32 else (vget 0#24 k.l n).zeroExtend 32
    (f.dr = 0#5 → n = 0 → f.mr = 0#4 → f.ofs = 0#11 → Becomes (.tnop c f w) s c k.onward) ∧
    (f.dr = 0#5 → f.ofs = 0#11 → Becomes (.amodm c f w) s c (setA n (nextAddr k n (rA k n) (rM k f.mr.toNat).toInt) k.onward)) ∧
    (f.dr = 0#5 → f.mr = 0#4 → Becomes (.amodi c f w) s c (setA n (nextAddr k n (rA k n) f.ofs.toInt) k.onward)) ∧
    (f.mr.toNat % 4 = 0 → cls < 2 ∨ n < 8 →
      (f.dr = 0#5 → Becomes (.setr c f w) s c (puts (if cls = 1 then f.ofs.signExtend 24 else f.ofs.zeroExtend 24))) ∧
      (f.ofs = 0#11 → Becomes (.mvr c f w) s c (puts ((rD k f.dr.toNat).truncate 24))) ∧
      (f.ofs = 0#11 → Becomes (.mrv c f w) s c (setD f.dr.toNat gets k.onward)))

/-- R86: the address function, in bit-reversed, circular and linear mode. -/
def Obligations.NextAddress : Prop :=
  (∀ k v i, i < k → (revBits k v).testBit i = v.testBit (k - 1 - i)) ∧ (∀ k v, revBits k v < 2 ^ k) ∧
  ∀ (k : Core) (n : Nat) (a : BitVec 24) (m : Int), n < 16 →
    let b := rB k n
    let l := (rL k n).toNat
    let off := nextAddr k n a m - b
    let e := if l < 2 then 0 else Nat.log2 l
    (n < 4 → brv k n = true → off.toNat < 2 ^ e ∧
      revBits e off.toNat = (revBits e ((a - b).toNat % 2 ^ e) + revBits e (m % 2 ^ e).toNat) % 2 ^ e) ∧
    (n < 8 → (n < 4 → brv k n = false) → l ≠ 0 →
      off.toNat < l ∧ ((off.toNat : Int) - ((a.toNat : Int) - (b.toNat : Int) + m)) % l = 0) ∧
    ((n < 4 → brv k n = false) → (n < 8 → l = 0) → nextAddr k n a m = a + BitVec.ofInt 24 m)

/-- R106, R139: mailbox puts, gets and counts, the holds of a full or empty mailbox, and their releases. -/
def Obligations.Mailboxes : Prop :=
  ∀ (c : CoreId) (f : TSyl) (w : Word) (s : State),
    let k := coreAt s c.val
    let dst := c.val / 8 * 8 + f.ar.toNat
    let box (t : State) (n : Nat) : List Word := (coreAt t n).mbox
    let puts (u t : State) : Prop :=
      box t dst = box s dst ++ [rD k f.dr.toNat] ∧ (∀ n, n ≠ dst → box t n = box s n) ∧
      { coreAt t c.val with mbox := k.mbox } = (coreAt u c.val).onward ∧
      { t with cores := s.cores, host := s.host, out := s.out } = s ∧
      ∀ n, n ≠ c.val → { coreAt t n with mbox := box s n } = coreAt s n
    (Transfers s c f w → f.ofs = 0#11 → f.mr = 0#4 →
      f.ar.toNat < 8 → (box s dst).length < 4 → Goes (exec (.mbput c f w) s) (puts s)) ∧
    (Transfers s c f w → f.ofs = 0#11 → f.mr = 0#4 → f.ar.toNat < 8 → 4 ≤ (box s dst).length →
      Becomes (.mbput c f w) s c { k with run := .putHeld, held := some (mkT 0x18#5 f w) }) ∧
    (Transfers s c f w → f.ofs = 0#11 → f.mr = 0#4 → f.ar = 0#4 →
      Becomes (.mbcnt c f w) s c (setD f.dr.toNat (wOf k.mbox.length) k.onward) ∧
      (k.mbox = [] → Becomes (.mbget c f w) s c { k with run := .getHeld, held := some (mkT 0x19#5 f w) }) ∧
      ∀ v vs, k.mbox = v :: vs → Becomes (.mbget c f w) s c (setD f.dr.toNat v { k.onward with mbox := vs })) ∧
    (CompIdle w → rP k f.tprd.toNat = true → f.ofs = 0#11 → f.mr = 0#4 →
      (k.run = .putHeld → k.held = some (mkT 0x18#5 f w) → f.ar.toNat < 8 → (box s dst).length < 4 →
        Goes (exec (.mailboxPutRelease c) s) (puts (putCore c.val { k with run := .running } s))) ∧
      (∀ v vs, k.run = .getHeld → k.held = some (mkT 0x19#5 f w) → k.mbox = v :: vs →
        Becomes (.mailboxGetRelease c) s c (setD f.dr.toNat v { k.onward with mbox := vs, run := .running })))

/-- R14, R99, R100, R519: a bank grants the first waiting requester in the rotation from the priority holder, the mover takes a local
bank after 16 cycles at most, and a queue's head entry goes to memory first; R374: its words that meet a write of a lower port are
discarded or wait; R145, R178: window words of the firmware area and of unowned send-plane entries go nowhere; R377: the first write
of a stroke to a carry word copies the old value to its hold word and sets the hold bit, and what the shipment reads is the value of the stroke's start. -/
def Obligations.BanksAndQueues : Prop :=
  (∀ (s : State) (cr : CrewId) (b : Fin 16) (waiting : BitVec 9),
     let p := vget 0 (crewAt s cr.val).prio b.val
     (waiting = 0#9 → Gives (.crewBankGrant cr b waiting) s s) ∧
     (waiting ≠ 0#9 → ∃ j, j < 9 ∧ waiting.getLsbD ((p + j) % 9) = true ∧ (∀ j', j' < j → waiting.getLsbD ((p + j') % 9) = false) ∧
       Gives (.crewBankGrant cr b waiting) s
         { s with crews := vput s.crews cr.val { crewAt s cr.val with prio := vput (crewAt s cr.val).prio b.val ((p + j + 1) % 9) } })) ∧
  (∀ (s : State) (c : CoreId) (b : Fin 4) (waited : Nat) (wants : Bool),
     Becomes (.moverBankTake c b waited wants) s c
       { coreAt s c.val with mover := vput (coreAt s c.val).mover b.val (if wants = true ∧ waited < 16 then waited else 0) }) ∧
  (∀ (s : State) (c : CoreId) (mask : BitVec 4),
     let k := coreAt s c.val
     let goes (win : Bool) (k' : Core) (p : State → Prop) : Prop := Goes (exec (.storeQueueDrain c win mask) s) fun t =>
       coreAt t c.val = k' ∧ (∀ m, m ≠ c.val → coreAt t m = coreAt s m) ∧ p t
     (k.winQ = [] → Gives (.storeQueueDrain c true mask) s s) ∧ (k.crewQ = [] → Gives (.storeQueueDrain c false mask) s s) ∧
     ∀ (e : StoreEnt) (q : List StoreEnt), NoInjection s → MemoryOk s →
       let free := freeWords mask e
       let hit := hitWords mask e
       let lost (keep : StoreEnt) (t : State) : Prop := keep.length < hit.length → bitAt (reg t Reg.MEM_STAT) 2 = true
       (k.winQ = e :: q → (∀ p ∈ e, firmwareArea p.1 = false ∧ planeUnowned s p.1 = false) →
         let keep := heldWords k.winTry hit s
         let k' := { k with winQ := if keep = [] then q else keep :: q, winTry := if keep = [] then 0 else k.winTry + 1 }
         ((∀ p ∈ e, isMeter p.1 = false) → goes true k' fun t =>
           t.mem = free.foldl (fun m p => memPutWord m p.1 p.2) s.mem ∧ t.stage = s.stage ∧ lost keep t) ∧
         ((∀ p ∈ e, isMeter p.1 = true) → goes true k' fun t =>
           t.stage = (free.filter fun p => p.1 % 32 != 0 && p.1 % 32 != 28).foldl (fun m p => memPutWord m p.1 p.2) s.stage ∧
           t.mem = s.mem ∧ lost keep t)) ∧
       (k.winQ = e :: q → mask = 0#4 → (∀ p ∈ e, firmwareArea p.1 = true ∨ planeUnowned s p.1 = true) →
         goes true { k with winQ := q, winTry := 0 } fun t => t.mem = s.mem ∧ t.stage = s.stage) ∧
       (k.crewQ = e :: q → (∀ p ∈ e, ∃ i, i < 524288 ∧ p.1 = crewAddr (c.val / 8) i) →
         let keep := heldWords k.crewTry hit s
         goes false { k with crewQ := if keep = [] then q else keep :: q, crewTry := if keep = [] then 0 else k.crewTry + 1 } fun t =>
           t.mem = (free.foldl (fun u p => writeCrew (c.val / 8) ((p.1 - crewBase) % 0x200000 / 4) p.2 u) s).mem ∧
           t.stage = s.stage ∧ lost keep t)) ∧
  (∀ (s : State) (c w h : Nat) (v : Word), MemoryOk s → holdWord s c w = some h → h ≠ w → w < 524288 → h < 524288 →
     let a := crewAddr c w
     memWord (writeCrew c w v s).mem a = v ∧
     (tget false s.msvc.hold a = false → memWord (writeCrew c w v s).mem (crewAddr c h) = memWord s.mem a) ∧
     (tget false s.msvc.hold a = true → memWord (writeCrew c w v s).mem (crewAddr c h) = memWord s.mem (crewAddr c h)) ∧
     ∀ b, (b < a ∨ a + 4 ≤ b) → (b < crewAddr c h ∨ crewAddr c h + 4 ≤ b) → memGet (writeCrew c w v s).mem b = memGet s.mem b)


/-! ### Calls and scenes -/

/-- R62, R63: a receipt goes to the ring's next slot and may raise an interrupt; with the ring full it is dropped, counted and logged. -/
def Obligations.Receipts : Prop :=
  ∀ (s : State) (r : Receipt), NoInjection s → r.status = stOnTime →
    let c := reg s Reg.CALL_CTRL
    (rcptFull s = false →
      writeReceipt r s = (if bitAt c 1 = true ∨ r.irq = true then irqLatch 0 else id)
        (writeWords (rcptSlot s) [r.id, wOf (r.status + 65536 * r.reason), lo64 r.stroke, hi64 r.stroke]
          { s with call := { s.call with rcptWr := s.call.rcptWr + 1 } })) ∧
    (rcptFull s = true → let t := writeReceipt r s
      t.mem = s.mem ∧ t.call = { s.call with rcptLost := satInc max32 s.call.rcptLost } ∧
      ∃ u, u = report (sysSrc 0 0) 0x311#12 .note 0#32 s ∧
        t = { u with regs := t.regs, call := t.call } ∧ t.regs = tset 0#32 u.regs Reg.CALL_STAT (reg u Reg.CALL_STAT ||| 2#32))

/-- R53, R54, R64, R66: the doorbell, acceptance, the ring enable and the conversion registers. A producer index that a shipped CALL_RD
has passed counts as behind it (R55, the model's reading: log entry 111). -/
def Obligations.CallUnit : Prop :=
  ∀ (s : State) (m : Master) (v : Word), NoInjection s →
    let new : BitVec 17 := v.truncate 17
    let h := (s.call.prod - s.call.rd).toNat
    let held : Int := if h ≤ callSize s then h else (h : Int) - 2 ^ 17
    let ok := held + (new - s.call.prod).toNat ≤ callSize s
    (new = s.call.prod → Gives (.callDb m v) s s) ∧
    (ok → Gives (.callDb m v) s { s with call := { s.call with prod := new } }) ∧
    (new ≠ s.call.prod → ¬ ok → Gives (.callDb m v) s (orReg Reg.CALL_STAT 4#32 (report (sysSrc 0 0) 0x310#12 .note 0#32 s))) ∧
    (let past := 0x800000 < fld (reg s Reg.CALL_RING_BASE) 22 5 * 32 + 32 * callSize s ∨
        0x800000 < fld (reg s Reg.RCPT_RING_BASE) 22 4 * 16 + 16 * rcptSize s
     (bitAt v 0 = false ∨ ¬ past → Gives (.callEnable m v) s (setReg Reg.CALL_CTRL (v &&& 7#32) s)) ∧
     (bitAt v 0 = true → past →
       Gives (.callEnable m v) s (progError m Reg.CALL_CTRL (setReg Reg.CALL_CTRL (v &&& 6#32) s)))) ∧
    (bitAt (reg s Reg.CALL_CTRL) 0 = false ∨ s.sys.mode = .shadow ∨ s.eng.phase = .held ∨ held ≤ 0 ∨ 2048 ≤ s.call.accepted →
      Gives .callAccept s s) ∧
    (∀ c, bitAt (reg s Reg.CALL_CTRL) 0 = true → s.sys.mode ≠ .shadow → s.eng.phase ≠ .held → 0 < held →
      s.call.accepted < 2048 → s.call.pend.length < 16384 →
      let a := centralAddr (fld (reg s Reg.CALL_RING_BASE) 22 5 * 32 + s.call.rd.toNat % callSize s * 32)
      Clean s a 8 → c = callOf (memWords s.mem a 8) → bulkOf c = none →
      let u := { s with call := { s.call with rd := s.call.rd + 1, accepted := s.call.accepted + 1 } }
      let t := c.target.toNat
      let floor := s.eng.stroke.toNat + callLead s
      (rejectReason u c [] ≠ 0 → Gives .callAccept s (receiptEnd c stRejected (rejectReason u c []) s.eng.stroke u)) ∧
      (rejectReason u c [] = 0 → c.opcode ≠ 6#16 → floor ≤ t → Gives .callAccept s { u with call := { u.call with pend := u.call.pend ++
        [{ call := c, acc := s.eng.stroke, due := c.target, late := false, rej := callRejects u c, arms := armsOf u c [] }] } }) ∧
      (rejectReason u c [] = 0 → c.opcode ≠ 6#16 → t < floor → callRejects u c = true →
        Gives .callAccept s (receiptEnd c stRejected 1 s.eng.stroke u)) ∧
      (rejectReason u c [] = 0 → c.opcode ≠ 6#16 → t < floor → callRejects u c = false →
        Gives .callAccept s { u with call := { u.call with pend := u.call.pend ++
          [⟨c, s.eng.stroke, BitVec.ofNat 64 floor, true, false, armsOf u c [], false⟩] } })) ∧
    (let b := bank s m
     let d : Nat := 65536000000000
     let w := v &&& 0x3FFFF#32
     (bitAt v 17 = false →
       let sec := b.cvtSecLo.toNat + 2 ^ 32 * b.cvtSecHi.toNat
       let q := (b.cvtNs.toNat * 65536 + v.toNat % 65536) * sps s
       let k := BitVec.ofNat 64 (sec * sps s + q / d + if bitAt v 16 = true ∧ q % d ≠ 0 then 1 else 0)
       Gives (.cvtConvert m v) s (setBank m (fun b => { b with
         cvtCtrl := w, cvtStrLo := k.extractLsb' 0 32, cvtStrHi := k.extractLsb' 32 32 }) s)) ∧
     (bitAt v 17 = true → sps s ≠ 0 →
       let k := b.cvtStrLo.toNat + 2 ^ 32 * b.cvtStrHi.toNat
       let u := k % sps s * d / sps s
       let sec := BitVec.ofNat 64 (k / sps s)
       Gives (.cvtConvert m v) s (setBank m (fun b => { b with
         cvtCtrl := (w &&& 0x30000#32) ||| wOf (u % 65536), cvtSecLo := sec.extractLsb' 0 32, cvtSecHi := sec.extractLsb' 32 32,
         cvtNs := wOf (u / 65536) }) s)) ∧
     (bitAt v 17 = true → sps s = 0 → ∃ x y z r : Word,
       Gives (.cvtConvert m v) s (setBank m (fun b => { b with
         cvtCtrl := (w &&& 0x30000#32) ||| wOf (fld r 15 0), cvtSecLo := x, cvtSecHi := y, cvtNs := z })
           { s with freeCtr := s.freeCtr + 4 })))

/-- R150, R151, R157, R189, R190, R270, R271, R59, R62: what each call does at its application; calls over the
4,096 write units of a stroke wait for the next one. -/
def Obligations.CallsApplied : Prop :=
  (∀ (s : State) (p : Pend), NoInjection s →
     let q := p.call.payload
     let u := charged s p
     let strip := pfield q 0 2
     let word0 := descAddr strip
     (Due s p 1#16 false →
       let n := pbyte q 3
       let a := centralAddr (strip * 0x800 + (if stripLive s strip then 0x400 else 0) + 4 * pbyte q 2)
       let b := centralAddr (pfield q 8 4)
       (n ≤ 2 → Applies .setParam s p (writeWords a ((List.range n).map fun i => wOf (pfield q (4 + 4 * i) 4)) u)) ∧
       (2 < n → ptrOk (pfield q 8 4) (4 * n) = true → Clean s b n → Applies .setParam s p (writeWords a (memWords s.mem b n) u))) ∧
     (Due s p 2#16 false → s.scene.arm = none → s.scene.fades = [] →
       let n := pfield q 2 2
       n ≠ 0 → Applies .swapBank s p ((List.range n).foldl (fun t i =>
         if stripKind t (strip + i) = 0 then t else writeWord (descAddr (strip + i)) (descWord t (strip + i) 0 ^^^ 0x4000000#32) t) u)) ∧
     (Due s p 4#16 false →
       let x := pfield q 0 4
       let sl := xpSlice x
       let r := xpLocal x
       let t := writeWord (tgtAddr sl (s.mix.tsel.getLsbD sl) r) (wOf (pfield q 4 4)) u
       Applies .xpGain s p (writeHalf (stepAddr sl r) (half t.mem (stepAddr sl r) ||| 0x2000) t)) ∧
     (Due s p 5#16 false →
       let mask := if strip % 65536 = 0 then 0xFFFF#16 else BitVec.ofNat 16 strip
       Applies .xpSwap s p (orReg Reg.MIX_STAT 1#32 { u with mix := { s.mix with tsel := s.mix.tsel ^^^ mask } })) ∧
     (Due s p 8#16 false → Applies .mute s p (writeWord word0
       (if pbyte q 2 = 1 then descWord s strip 0 ||| 0x2000000#32 else descWord s strip 0 &&& ~~~0x2000000#32) u)) ∧
     (Due s p 9#16 false → Applies .portMask s p (putPort (pbyte q 0) { portAt s (pbyte q 0) with slots := wOf (pfield q 4 4) } u)) ∧
     (Due s p 10#16 false →
       let x := portAt s (pbyte q 0)
       let up := decide (pbyte q 1 = 1)
       let g := x.muteWas.getD x.mute
       (g.up = up → Applies .portRamp s p (putPort (pbyte q 0) { x with muteWas := some g, mute := g } u)) ∧
       (g.up ≠ up → Applies .portRamp s p
         (putPort (pbyte q 0) { x with muteWas := some g, mute := gateAim g up (pbyte q 2 * portN s x) } u))) ∧
     (Due s p 11#16 false → Applies .mark s p u)) ∧
  (∀ (s : State) (p : Pend), nextDue s = some p → s.scene.align = [] → p.armed = false → 4096 < s.call.wu + callCost p.call →
     (∀ x ∈ s.call.pend, x.rej = false) → s.scene.arm = none →
     ∀ e ∈ ([(1#16, .setParam), (2#16, .swapBank), (3#16, .route), (4#16, .xpGain), (5#16, .xpSwap), (8#16, .mute), (9#16, .portMask),
         (10#16, .portRamp)] : List (BitVec 16 × Instr)), p.call.opcode = e.1 →
       let k := (strokeDue s).toNat
       Gives e.2 s { s with call := { s.call with
         pend := ((s.call.pend.filter fun x => decide (x.due.toNat ≤ k)).map fun x =>
             { x with due := BitVec.ofNat 64 (k + 1), late := true }) ++ s.call.pend.filter fun x => decide (k < x.due.toNat) } })

/-- R205, R207–R209: a ROUTE is rejected, fills, fades or cuts; a fill, a fade and a tap move end. -/
def Obligations.Routes : Prop :=
  ∀ (s : State) (p : Pend), NoInjection s →
    let q := p.call.payload
    let i := pfield q 0 2
    let r : RouteReq := ⟨pfield q 2 2, pbyte q 4, pbyte q 5⟩
    let x := sinkAt s i
    let same (t : State) : State := { t with patch := { t.patch with same := tset none t.patch.same i (some ⟨x, s.patch.bridges⟩) } }
    let here (src : Nat) : Bool := src == 0x1FFF || (srcDom s src).isSome
    (Due s p 3#16 false → tget none s.patch.same i = none →
      (routeFieldsOk s i r.src r.mode r.len = false ∨ routeDomOk s r.src i = false →
        Gives .route s (receiptEnd p.call stRejected 4 (strokeDue s)
          { charged s p with call := { (charged s p).call with pend := dropPend p s.call.pend } })) ∧
      (routeFieldsOk s i r.src r.mode r.len = true → routeDomOk s r.src i = true → isForeignIn s i = false → x.st = .settled →
        r.mode ≠ 2 →
        (x.src = r.src → x.lost = false → Applies .route s p (same (charged s p))) ∧
        (x.src ≠ r.src → ¬ (r.mode = 1 ∧ r.len = 0) → brMissing s r.src i = [] →
          Applies .route s p (putSink i { x with
            chg := some r, st := .fade 0, npres := here r.src, ndom := srcDom s r.src, nabs := !here r.src } (same (charged s p))))) ∧
      (routeFieldsOk s i r.src r.mode r.len = true → routeDomOk s r.src i = true → isForeignIn s i = false → r.mode ≠ 2 →
        x.st ≠ .settled → Applies .route s p (patchStat 3 (putSink i { x with held := some r } (same (charged s p)))))) ∧
    (∀ i : Fin 8192, let x := sinkAt s i.val
      (x.st = .fill 0 → Gives (.routeFillDone i) s (putSink i.val { x with st := .fade 0 } s)) ∧
      (x.st ≠ .fill 0 → Gives (.routeFillDone i) s s) ∧
      ((∀ n r, x.st = .fade n → x.chg = some r → n < fadeLen s i.val r) → Gives (.routeFadeDone i) s s) ∧
      ((∀ k, x.st = .tap k → k < 64) → Gives (.routeTapmoveDone i) s s) ∧
      (∀ n (r : RouteReq), x.st = .fade n → x.chg = some r → fadeLen s i.val r ≤ n → hasLine s i.val = false → x.held = none → x.dly = 0 →
        Gives (.routeFadeDone i) s (brGc (putSink i.val { x with
          src := r.src, chg := none, lost := false, pres := x.npres, dom := x.ndom, npres := true, ndom := none, nabs := false
          dlyTgt := 0, st := .settled, dly := 0, dlyOld := 0 } s))) ∧
      (∀ k, x.st = .tap k → 64 ≤ k → x.held = none →
        Gives (.routeTapmoveDone i) s (putSink i.val { x with st := .settled, chg := none, dly := x.dlyTgt, dlyOld := x.dlyTgt } s)))

/-- R232, R235, R240, R242, R245: the two applications of a SCENE_ARM, the cancel, the end of a recall and the aligned swap. -/
def Obligations.Scenes : Prop :=
  ∀ (s : State) (p : Pend), NoInjection s →
    let q := p.call.payload
    let u := strokeDue s
    let F := u.toNat
    (Due s p 6#16 false → s.scene.arm = none → readBulk p.call (charged s p) = (charged s p, memWords s.mem (centralAddr (pfield q 8 4)) 68) →
      let d := sceneOf (memWords s.mem (centralAddr (pfield q 8 4)) 68)
      let T := max p.call.target.toNat F
      let xf := pbyte q 6
      let forks := if T = F ∧ xf = 0 then [] else forkChoice s d
      Goes (exec .sceneArm s) fun t => ∃ r, t.scene.arm = some r ∧ t.scene.view = some r ∧ r.id = p.call.id ∧
        r.scene = wOf (pfield q 0 4) ∧ r.f = F ∧ r.t = T ∧ r.xf = xf ∧ r.hand = T + xf - 1 ∧ r.forked = forks ∧
        r.desc = { d with strips := d.strips.filter fun n => stripKind s n != 0 } ∧
        (let p' := { p with armed := true, due := BitVec.ofNat 64 T, late := p.late || decide (p.due.toNat < F) }
         t.call.pend = s.call.pend.map fun x => if x = p then p' else x) ∧
        t.call.wu = s.call.wu + 1 ∧ t.scene.fades = s.scene.fades) ∧
    (∀ r, Due s p 6#16 true → s.scene.arm = some r → r.forked = [] → r.desc.routes = [] → s.scene.fades = [] →
      (∀ n ∈ r.desc.strips, n < 1920) →
      let t := r.desc.strips.foldl (fun t n => writeWord (descAddr n) (descWord t n 0 ^^^ 0x4000000#32) t) (charged s p)
      let r' := { r with t := F, hand := F + r.xf - 1, peff := F - r.f }
      let t := { t with scene := { t.scene with
        arm := none, fades := [r'], view := some r', nFork := 0, nDirect := r.desc.strips.length } }
      (r.desc.xp = false → Applies .sceneRecall s p t) ∧
      (r.desc.xp = true → r.desc.xpAlign = true →
        Applies .sceneRecall s p { t with scene := { t.scene with align := [(r.desc.xpMask, F + 1)] } }) ∧
      (r.desc.xp = true → r.desc.xpAlign = false → Applies .sceneRecall s p (orReg Reg.MIX_STAT 1#32 { t with mix := { t.mix with
        tsel := t.mix.tsel ^^^ (if r.desc.xpMask = 0#16 then 0xFFFF#16 else r.desc.xpMask) } }))) ∧
    (Due s p 7#16 false →
      let named (x : Pend) : Prop := x.call.opcode = 6#16 ∧ (pfield q 0 4 = 0xFFFFFFFF ∨ pfield x.call.payload 0 4 = pfield q 0 4)
      ((∀ x ∈ s.call.pend, ¬ named x) → Gives .sceneCancel s (receiptEnd p.call stRejected 4 u
        { charged s p with call := { (charged s p).call with pend := dropPend p s.call.pend } })) ∧
      (∀ x, x ∈ s.call.pend → named x → (∀ y ∈ s.call.pend, named y → y = x) → s.call.pend.Nodup → x.armed = false →
        Applies .sceneCancel s p (orReg Reg.SCENE_EVT 2#32 (receiptEnd x.call stCancelled 0x11 u
          { charged s p with call := { (charged s p).call with pend := dropPend x s.call.pend } })))) ∧
    (∀ r, s.eng.phase = .finished → s.scene.fades = [r] → r.hand ≤ s.eng.stroke.toNat →
      let t := r.forked.foldl (fun t n => writeWord (descAddr n) (descWord (writeWord (forkAddr n) 0#32 t) n 0 &&& ~~~0x1000000#32)
        (writeWord (forkAddr n) 0#32 t)) s
      Gives .sceneDone s (orReg Reg.SCENE_EVT 1#32 { t with scene := { t.scene with fades := [] } })) ∧
    (s.eng.phase = .finished → s.eng.stroke.toNat + 1 < 2 ^ 64 →
      ((∀ m ∈ s.scene.align, m.2 ≤ s.eng.stroke.toNat + 1) → Gives .sceneXpAlignSwap s (s.scene.align.foldl (fun t m =>
        orReg Reg.MIX_STAT 1#32 { t with mix := { t.mix with tsel := t.mix.tsel ^^^ (if m.1 = 0#16 then 0xFFFF#16 else m.1) } })
        { s with scene := { s.scene with align := [] } })) ∧
      ((∃ m ∈ s.scene.align, s.eng.stroke.toNat + 1 < m.2) → Gives .sceneXpAlignSwap s s))

/-! ### Strokes -/

/-- R44, R47, R103, R377: CATCH starts the next stroke: every core at its entry point with its registers at reset, the barriers, mailboxes and
hold bits cleared; a core that debug halted stays halted there (log entry 49). R40: without a rate family there is no stroke. -/
def Obligations.CatchStarts : Prop :=
  ∀ (s : State) (at_ : Time) (ratios : List (Nat × Word)) (pdm : List (Nat × PdmIn)),
    (∃ t, exec (.catchStroke at_ ratios pdm) s = .next t) ∧
    (s.eng.fam = none → Gives (.catchStroke at_ ratios pdm) s s) ∧
    (s.eng.fam ≠ none → s.eng.phase = .held → s.sys.ramped = false → Goes (exec (.catchStroke at_ ratios pdm) s) fun t =>
      t.eng.stroke = s.eng.stroke ∧ t.eng.phase = .held ∧ t.eng.catchAt = at_ ∧ t.net.now = at_ ∧ t.cores = s.cores ∧ t.crews = s.crews) ∧
    (∀ im, s.eng.fam = some im.family → s.eng.img = some im → s.eng.phase = .finished → s.sys.busy = none → s.sys.ramped = false →
      NoInjection s →
      let k := s.eng.stroke + 1#64
      Goes (exec (.catchStroke at_ ratios pdm) s) fun t =>
        t.eng.stroke = k ∧ t.eng.phase = .drive ∧ t.eng.catchAt = at_ ∧ t.net.now = at_ ∧ t.call.accepted = 0 ∧
        t.crews = Vector.replicate 16 {} ∧ t.msvc.hold = [] ∧ t.eng.img = s.eng.img ∧ t.eng.ovrCount = s.eng.ovrCount ∧
        ∀ n, n < 128 →
          let h := decide ((coreAt s n).run = .halted)
          coreAt t n = {
            pc := im.entry[n]?.getD 0, run := if h then .halted else .running, paused := if h then .running else .reset
            stroke := k.extractLsb' 0 32, cycMax := (coreAt s n).cycMax, faultPc := (coreAt s n).faultPc
            faultCode := (coreAt s n).faultCode })

/-- R44, R47: FINISH with every core asleep and every slice done closes the stroke; a core that is not asleep is stopped, its committed
stores kept, and the overrun counted. -/
def Obligations.FinishCloses : Prop :=
  ∀ (s : State), s.eng.phase = .drive → NoInjection s → (∀ sl, sl < 16 → s.mix.done.getLsbD sl = true) →
    ((∀ n, n < 128 → (coreAt s n).run = .asleep) → Goes (exec .finish s) fun t =>
      t.eng.phase = .finished ∧ t.eng.stroke = s.eng.stroke ∧ t.eng.ovrCount = s.eng.ovrCount ∧ t.call.wu = 0 ∧ t.cores = s.cores ∧
      t.fin.sinks = t.patch.sinks ∧ t.fin.tsel = t.mix.tsel) ∧
    (∀ n, n < 128 →
      let halted := (coreAt s n).run = .halted
      (if halted then (coreAt s n).paused else (coreAt s n).run) ≠ .asleep → Goes (exec .finish s) fun t =>
        t.eng.phase = .finished ∧ t.eng.stroke = s.eng.stroke ∧ t.eng.ovrCount = satInc max32 s.eng.ovrCount ∧
        (halted → (coreAt t n).run = .halted ∧ (coreAt t n).paused = .stopped) ∧ (¬ halted → (coreAt t n).run = .stopped) ∧
        (coreAt t n).crewQ = [] ∧ (coreAt t n).winQ = [])

/-- R48, R181, R185: a slice that is done writes its output block to its crew, under the treatment of an earlier overrun; a stopped entry
ramps back after 8 clean strokes. -/
def Obligations.SlicesAndRecovery : Prop :=
  ∀ (s : State),
    (∀ (sl : SliceId) (cycles : Nat),
      let ws := tget [] s.mix.out sl.val
      let tr := tget .none s.eng.ovr (9728 + sl.val)
      let at_ := crewAddr (sliceCrew s sl.val) (sliceBase s sl.val)
      let blk := if tr = .none then ws else (chunks 8 ws).flatMap fun b => (treatBlock false 8 tr 0#32 b).2
      let ovr := if tr = .none then s.eng.ovr else tset .none s.eng.ovr (9728 + sl.val) (treatBlock false 8 tr 0#32 (ws.take 8)).1
      (s.eng.phase ≠ .drive ∨ s.mix.done.getLsbD sl.val = true ∨ ws = [] → Gives (.sliceDone sl cycles) s s) ∧
      (s.eng.phase = .drive → s.mix.done.getLsbD sl.val = false → ws ≠ [] →
        Gives (.sliceDone sl cycles) s { writeWords at_ blk { s with eng := { s.eng with ovr } } with mix := { s.mix with
          lastOut := tset [] s.mix.lastOut sl.val ((List.range 32).map fun lb =>
            memWord s.mem (crewAddr (sliceCrew s sl.val) (sliceBase s sl.val + 8 * lb + 7)))
          out := tset [] s.mix.out sl.val [], done := s.mix.done ||| BitVec.ofNat 16 (2 ^ sl.val)
          doneMax := max s.mix.doneMax (min cycles 65535) } })) ∧
    (∀ e, tget .none s.eng.ovr e ≠ .silence 8 → Gives (.overrunSinkRecover e) s s) ∧
    (∀ e, tget .none s.eng.ovr e = .silence 8 →
      Gives (.overrunSinkRecover e) s { s with eng := { s.eng with ovr := tset .none s.eng.ovr e (.ramp 0) } }) ∧
    (∀ (n c : Nat) (x : Word) (ws : List Word) (t : Treat), n = 4 ∨ n = 8 ∨ n = 16 → ws.length = n →
      treatBlock true n t x ws = (.silence 0, (List.range n).map fun j => wInt (x.toInt * ((n : Int) - 1 - j) / n)) ∧
      treatBlock false n .none x ws = (.none, ws) ∧
      (c < 8 → treatBlock false n (.silence c) x ws = (.silence (c + 1), List.replicate n 0#32)) ∧
      (c < 8 * n → (treatBlock false n (.ramp c) x ws).1 = .ramp (c + n) ∧
        ∀ j, j < n → (treatBlock false n (.ramp c) x ws).2.getD j 0#32 = wInt ((ws.getD j 0#32).toInt * (c + j) / (8 * n))))

/-! ### Serial and PDM ports -/

/-- R253, R267, R281, R282: a port-reset pulse takes its ports OFF, and a release takes up PORT_CFG unless R253 refuses it; a PDM_EN write acts two strokes on; a stream that has settled becomes live. -/
def Obligations.PortResets : Prop :=
  (∀ (s : State), NoInjection s → s.err.testBusy = false →
     (∀ (m : Master) (hi : Bool) (v : Word), Goes (exec (.portRst m hi v) s) fun t =>
       let named (u : Nat) : Bool := if hi then 32 ≤ u && bitAt v (u - 32) else u < 32 && bitAt v u
       (∀ p, p < 48 → portAt t p = if named p then { portAt s p with st := .off, held := true, win := [], emit := none } else portAt s p) ∧
       (∀ g, g < 4 → t.port.pdmHeld.getLsbD g = (s.port.pdmHeld.getLsbD g || named (48 + g))) ∧
       { t with port := s.port, host := s.host, out := s.out } = s) ∧
     (∀ (u : Fin 52), u.val < 48 → s.sys.rel = 8 → (portAt s u.val).held = true →
       let p := u.val
       let x := portAt s p
       let c := regAt s Reg.PORT_CFG p
       let off : Port := { held := false, seen := x.seen, rate := { x.rate with valid := false } }
       let n := portN s { off with cfg := c }
       (bitAt c 31 = false → Gives (.portResetRelease u) s (putPort p off s)) ∧
       (bitAt c 31 = true → cfgBad c = true → Gives (.portResetRelease u) s
         (orRegAt Reg.PORT_STAT p 0x80#32 (putPort p off (report (portSrc p) 0x405#12 .note 0#32 s)))) ∧
       (bitAt c 31 = true → cfgBad c = false → Gives (.portResetRelease u) s (putPort p { off with
         cfg := c, st := .idle, run := ⟨0, runLen s p { off with cfg := c }, false⟩, mute := ⟨2 * n, 2 * n, true⟩, fmeas := bitAt c 30 } s))) ∧
     (∀ (u : Fin 52), 48 ≤ u.val → s.sys.rel = 8 → s.port.pdmHeld.getLsbD (u.val - 48) = true →
       let g := u.val - 48
       let m := wOf (0xF0 * 2 ^ (8 * g))
       Gives (.portResetRelease u) s { s with port := { s.port with
         pdmHeld := s.port.pdmHeld &&& ~~~(BitVec.ofNat 4 (2 ^ g)), pdmCfg := (s.port.pdmCfg &&& ~~~m) ||| (reg s Reg.PDM_CFG &&& m) } })) ∧
  (∀ (s : State),
     (∀ (m : Master) (v : Word),
       let a := if s.eng.phase = .drive ∨ s.eng.phase = .finished then s.eng.stroke else s.port.stroke
       Gives (.pdmEn m v) s (setReg Reg.PDM_EN v { s with port := { s.port with pdmAct := s.port.pdmAct ++ [⟨a + 2#64, v⟩] } })) ∧
     (∀ (k : Fin 32), (pdmAt s k.val).on = true → (pdmAt s k.val).settle = 0 →
       Gives (.pdmSettleEnd k) s { s with port := { s.port with pdm := vput s.port.pdm k.val { pdmAt s k.val with live := true } } }) ∧
     (∀ (p n : Nat), p ≤ n → n ≤ 2048 → 0 < n → gateGain 0 n = 0 ∧ gateGain n n = 2 ^ 31 ∧ gateGain p n ≤ 2 ^ 31))

/-- R267–R269, R273: GRP_GO and GRP_STOP schedule an action two strokes on; the action turns the RUN gates of the group's ports. -/
def Obligations.PortGroups : Prop :=
  ∀ (s : State),
    let io := if s.eng.phase = .drive ∨ s.eng.phase = .finished then s.eng.stroke else s.port.stroke
    let now := if s.eng.phase = .finished then s.eng.stroke + 1#64 else if s.eng.phase = .held then s.port.stroke else s.eng.stroke
    (∀ (m : Master) (v : Word), s.port.grp = [] →
      let acts (go : Bool) : List GrpAct := ((List.range 16).filter fun i => bitAt v i).map fun i => ⟨io + 2#64, i, go⟩
      Gives (.grpGo m v) s { s with port := { s.port with grpG := io + 2#64, grp := acts true } } ∧
      Gives (.grpStop m v) s { s with port := { s.port with grpG := io + 2#64, grp := acts false } }) ∧
    (s.port.grp = [] → Gives .portGroupAction s s) ∧
    (∀ (a : GrpAct), s.port.grp = [a] → a.g.toNat ≤ now.toNat → Goes (exec .portGroupAction s) fun t =>
      { t with port := s.port, host := s.host, out := s.out } = s ∧ t.port.grp = [] ∧ ∀ p, p < 48 →
        let x := portAt s p
        let n := runLen s p x
        portAt t p = if cfgGrp x.cfg ≠ a.grp then x
          else if a.go then
            (if x.st = .idle then { x with st := .starting, run := ⟨0, n, true⟩ }
             else if x.st = .stopping then { x with st := .starting, run := ⟨if x.run.n = n then x.run.p else if x.run.n = 0 then 0 else x.run.p * n / x.run.n, n, true⟩ }
             else x)
          else if x.st = .starting ∨ x.st = .running then
            { x with st := .stopping, run := ⟨if x.run.n = n then x.run.p else if x.run.n = 0 then 0 else x.run.p * n / x.run.n, n, false⟩ }
          else x) ∧
    (∀ (p : Fin 48), let x := portAt s p.val
      (x.st = .starting → x.run.p = x.run.n → Gives (.runRampEnd p) s (putPort p.val { x with st := .running } s)) ∧
      (x.st = .stopping → x.run.p = 0 → Gives (.runRampEnd p) s (putPort p.val { x with st := .idle } s)) ∧
      (x.treat = .silence 8 → Gives (.slipSilenceEnd p) s (putPort p.val { x with treat := .ramp 0 } s)) ∧
      (x.treat = .ramp (8 * portN s x) → Gives (.slipRampEnd p) s (putPort p.val { x with treat := .none } s)))

/-- R251, R252, R256, R264–R266: the FS edge that starts slot 0 is counted and its frame, the words its bits spell, waits for its window (of
a master port, at the nearest edge of its grid, R254); 1 ms without an edge stops a slave port; a rate publishes. -/
def Obligations.PortEdges : Prop :=
  ∀ (s : State) (p : Fin 48), NoInjection s →
    let x := portAt s p.val
    let c := x.cfg
    (∀ (at_ : Time) (rising : Bool) (bits : List DiBit) (period : Nat),
      let own := decide (sapPad s p.val = .driven)
      let t := if own then gridEdge (sps s * portN s x) s.eng.gridAt at_ else at_
      let b (i : Nat) : Bool := (bits[i]?.map fun d => if bitAt c 18 then d.atFall else d.atRise).getD false
      let first := if cfgFmt c = 0 ∨ (cfgFmt c = 2 ∧ bitAt c 16 = true) then 1 else 0
      let n := widthOf (cfgWlen c)
      let starts := rising = xor (decide (cfgFmt c ≠ 0)) (bitAt c 19)
      (x.st = .off ∨ ¬ starts → Gives (.fsEdge p at_ rising ⟨bits, period⟩) s s) ∧
      (x.st ≠ .off → starts → portVioLow s p.val = false → x.stopped = false → x.fmeas = true →
        x.speed = false → x.ew.k = t / 6553600000000 → x.ew.e ≠ 0 → ∃ ws : List Word, ws.length = portSlots c ∧
          (∀ i, i < portSlots c → ∀ j, j < 32 → bitAt (ws.getD i 0#32) j =
            (decide (j < n) && b (first + i * widthOf (cfgSlotw c) + (n - 1 - j)))) ∧
          Gives (.fsEdge p at_ rising ⟨bits, period⟩) s (putPort p.val { x with
            ew := { x.ew with e := x.ew.e + 1, t2 := t }
            win := x.win ++ [⟨t, ws, own || period == portSlots c * widthOf (cfgSlotw c)⟩] } s))) ∧
    (x.st ≠ .off → bitAt x.cfg 30 = false → x.stopped = false → portDom x.cfg ≠ 3 → Gives (.portStopped p) s
      (orRegAt Reg.PORT_STAT p.val 8#32 (putPort p.val { x with stopped := true } (report (portSrc p.val) 0x406#12 .degrade 0#32 s)))) ∧
    (∀ (e : Time), x.st ≠ .off → x.ew.k = e / 6553600000000 - 1 → 2 ≤ x.ew.e → x.ew.t1 < x.ew.t2 → portDom x.cfg < 3 →
      let rate := 1024 * (x.ew.e - 1) * 65536000000000 / (x.ew.t2 - x.ew.t1)
      let want := 1024 * (sps s * domN (portDom x.cfg))
      let tol := if fld (regAt s Reg.PORT_CTRL p.val) 9 0 = 0 then 100 else fld (regAt s Reg.PORT_CTRL p.val) 9 0
      let fast := bitAt x.cfg 30 = false ∧ 49152000 < portSlots x.cfg * widthOf (cfgSlotw x.cfg) * classRate x.cls
      ((rate : Int) - want).natAbs * 1000000 ≤ tol * want → x.rate.valid = true → classOf rate = x.cls → ¬ fast →
      Gives (.portRatePublish p e) s (putPort p.val { x with
        rate := ⟨true, if x.rate.gen < 65535 then x.rate.gen + 1 else 1, [wOf rate]⟩, oot := false, speed := false } s)) ∧
    (∀ (c rate : Nat), 1 ≤ c → c ≤ 7 → rate ≠ 0 → ((rate : Int) - 1024 * classRate c).natAbs * 50 ≤ 1024 * classRate c →
      classOf rate = c)


/-! ### Network, PTP and system time -/

/-- R284, R285: a frame of a down link, with a bad FCS or over 1,522 bytes is dropped; the device answers ARP and ICMP requests that name
its address, the others being the host's, and IGMP queries. The bytes of its answers are open (log entry 5). -/
def Obligations.NetworkReplies : Prop :=
  ∀ (s : State) (fr : RxFrame) (pk : MediaPacket) (msg : PtpMessage),
    let p := fr.hdr.port.val
    let good (h : RxHdr) : Prop := linkUp s h.port.val = true ∧ h.fcsOk = true ∧ h.len ≤ 1522
    (linkUp s p = false → ∀ i ∈ ([.arpRequest fr, .icmpEcho fr, .igmpQuery fr, .hostQueueRx fr] : List Instr), Gives i s s) ∧
    (linkUp s p = true → fr.hdr.fcsOk = false → ∀ i ∈ ([.arpRequest fr, .icmpEcho fr, .igmpQuery fr, .hostQueueRx fr] : List Instr),
      Gives i s (orReg (Reg.NET_STAT0 + 0x40 * p) 4#32 s)) ∧
    (linkUp s p = true → fr.hdr.fcsOk = true → 1522 < fr.hdr.len →
      ∀ i ∈ ([.arpRequest fr, .icmpEcho fr, .igmpQuery fr, .hostQueueRx fr] : List Instr),
      Gives i s (orReg (Reg.NET_STAT0 + 0x40 * p) 8#32 s)) ∧
    let start := if beField fr.bytes 12 2 = 0x8100 then 18 else 14
    let own (at_ : Nat) : Prop := beField fr.bytes (start + at_) 4 = (reg s (Reg.NET_IP0 + 0x40 * p)).toNat
    (good fr.hdr → own 24 → ∃ b, Gives (.arpRequest fr) s { s with out := s.out ++ [.frame p 1 [] b] }) ∧
    (good fr.hdr → ¬ own 24 → exec (.arpRequest fr) s = exec (.hostQueueRx fr) s) ∧
    (good fr.hdr → own 16 → ∃ b, Gives (.icmpEcho fr) s { s with out := s.out ++ [.frame p 3 [] b] }) ∧
    (good fr.hdr → ¬ own 16 → exec (.icmpEcho fr) s = exec (.hostQueueRx fr) s) ∧
    (good fr.hdr → ∃ b, Gives (.igmpQuery fr) s
      { s with out := s.out ++ [.frame p 2 ((if bitAt (reg s (Reg.NET_CFG0 + 0x40 * p)) 28 then 2 else 3) :: (groupsOn s p).map (·.toNat)) b] }) ∧
    (linkUp s pk.hdr.port.val = true → pk.hdr.fcsOk = false → Gives (.mediaPacket pk) s (orReg (Reg.NET_STAT0 + 0x40 * pk.hdr.port.val) 4#32 s)) ∧
    (∀ j, linkUp s msg.hdr.port.val = true → msg.hdr.fcsOk = false →
      Gives (.ptpMessage j msg) s (orReg (Reg.NET_STAT0 + 0x40 * msg.hdr.port.val) 4#32 s))

/-- R284, R286: the host queue stores a received frame with its header, drops one that finds the ring full, and sends the oldest entry with
its FCS; PAUSE, IPv6 and IP fragments are discarded. -/
def Obligations.HostQueue : Prop :=
  ∀ (s : State),
    (∀ (fr : RxFrame), linkUp s fr.hdr.port.val = true → fr.hdr.fcsOk = true → fr.hdr.len ≤ 1522 →
      let p := fr.hdr.port.val
      let start := if beField fr.bytes 12 2 = 0x8100 then 18 else 14
      let type := beField fr.bytes (start - 2) 2
      let discarded := type = 0x8808 ∨ type = 0x86DD ∨ (type = 0x0800 ∧ beField fr.bytes (start + 6) 2 % 16384 ≠ 0)
      let n := hqSize s Reg.NET_HQ_RXSIZE
      let held := (s.net.rxWr - (reg s Reg.NET_HQ_RXRD).truncate 11).toNat
      (discarded → Gives (.hostQueueRx fr) s s) ∧
      (¬ discarded → n ≤ held → Gives (.hostQueueRx fr) s (orReg (Reg.NET_STAT0 + 0x40 * p) 16#32 s)) ∧
      (¬ discarded → held < n →
        let a := centralAddr ((reg s Reg.NET_HQ_RXBASE).toNat + s.net.rxWr.toNat % n * 2048)
        let t := ingress s fr.hdr
        let stamp := [wOf (t % 65536000000000 / 65536), wOf (t / 65536000000000), wOf (t % 65536000000000 % 65536)]
        let bs := (((place p 15 ||| wOf (fr.bytes.length % 2048)) :: stamp).flatMap leBytes ++ fr.bytes).take 2048
        let u := (writeRun .net (fun _ => true) (cut a bs.length) bs s).1
        Gives (.hostQueueRx fr) s (irqLatch 4 { u with net := { u.net with rxWr := u.net.rxWr + 1 } }))) ∧
    (∀ (m : Master) (v : Word), let new : BitVec 11 := v.truncate 11
      let n := (new - s.net.txRd).toNat
      Gives (.netHqTxdb m v) s
        (if n ≤ hqSize s Reg.NET_HQ_TXSIZE ∧ (s.net.txProd - s.net.txRd).toNat ≤ n then { s with net := { s.net with txProd := new } } else s)) ∧
    (s.net.txRd ≠ s.net.txProd →
      let a := centralAddr ((reg s Reg.NET_HQ_TXBASE).toNat + s.net.txRd.toNat % hqSize s Reg.NET_HQ_TXSIZE * 2048)
      let h := readRun .net (cut a 4) s
      let r := readRun .net (cut (a + 16) (min 2032 (leNat h.2.1 % 2048))) h.1
      let u : State := { r.1 with net := { r.1.net with txRd := r.1.net.txRd + 1 } }
      Gives .hqTxSend s (if vget false u.net.up (leNat h.2.1 / 32768 % 2) = true
        then { u with out := u.out ++ [.frame (leNat h.2.1 / 32768 % 2) 4 [] (r.2.1 ++ leBytes (crc32 r.2.1))] } else u)) ∧
    (s.net.txRd = s.net.txProd → Gives .hqTxSend s s)

/-- R285, R302, R305: a packet that no receive entry names goes to the host queue (log entry 23); another goes to the receive entry whose filters it passes, and each sample to its place unless it is late, early or there. -/
def Obligations.MediaPackets : Prop :=
  ∀ (s : State) (pk : MediaPacket), linkUp s pk.hdr.port.val = true → pk.hdr.fcsOk = true → pk.hdr.len ≤ 1522 → sps s ≠ 0 →
    let rx := (s.net.streams.filter fun e => e.2.en && e.2.on && decide (e.1 < 512)).map (·.1)
    let p := pk.hdr.port.val
    let t := ingress s pk.hdr
    let c := t * sps s / 65536000000000
    ((∀ k ∈ rx, names s k pk = false) → exec (.mediaPacket pk) s = exec (.hostQueueRx ⟨pk.hdr, pk.bytes⟩) s) ∧
    ((∃ k ∈ rx, names s k pk = true) → (∀ k ∈ rx, takes s k pk = false) → Gives (.mediaPacket pk) s s) ∧
    (∀ k, rx = [k] → takes s k pk = true → bitAt (strCfg s k) 23 = false → bitAt (strCfg s k) 25 = false →
      (if p = 0 then (strAt s k).seq0 else (strAt s k).seq1) = some pk.seq →
      let x := { strAt s k with lost := min max32 (strAt s k).lost }
      let u := putStr k (if p = 0 then { x with seq0 := some (pk.seq + 1) } else { x with seq1 := some (pk.seq + 1) }) s
      Gives (.mediaPacket pk) s
        ((List.range (pk.payload.length / (strNch s k * strBytes s k))).foldl (fun v i => placeIndex k pk t c i v) u)) ∧
    (∀ (k i : Nat), let n := domN (strDom s k)
      let m : Int := (n * c : Nat) + (pk.ts - strWord s Reg.STR_TSOFS k + wOf i - wOf (n * c)).toInt
      let u := (m + strRxofs s k) / n
      let due : Int := (strokeStart (sps s) (u + 1).toNat : Int) - 2000 * 65536
      (m < 0 → placeIndex k pk t c i s = s) ∧
      (0 ≤ m → t ≤ due → (c : Int) + 1024 / n - 2 < u →
        placeIndex k pk t c i s = orRegAt Reg.STR_STAT k 16#32 s) ∧
      (0 ≤ m → due < t → u < s.eng.stroke.toNat →
        placeIndex k pk t c i s = orRegAt Reg.STR_STAT k 4#32 (putStr k { strAt s k with lateN := satInc max32 (strAt s k).lateN } s))) ∧
    (∀ (ch m : Nat) (w : Word) (y : Stored), tget none s.net.marks (ch * 1024 + m % 1024) = some y → y.m = m →
      placeSample ch m none w s = s)

/-- R313, R314, R412: link events of a network port, a write to NET_CFG, and the publication of the stream counters. -/
def Obligations.NetworkLinks : Prop :=
  ∀ (s : State) (p : Fin 2), NoInjection s →
    let down := orReg (Reg.NET_STAT0 + 0x40 * p.val) 2#32 { report (srcId 1 5 p.val 0) 0x500#12 .degrade 0#32 s with
      net := { s.net with up := vput s.net.up p.val false } }
    (vget false s.net.up p.val = true → Gives (.netLinkDown p) s down) ∧
    (vget false s.net.up p.val = false → Gives (.netLinkDown p) s s) ∧
    (bitAt (reg s (Reg.NET_CFG0 + 0x40 * p.val)) 31 = true → s.err.testBusy = false →
      Gives (.netLinkUp p) s { s with net := { s.net with up := vput s.net.up p.val true } }) ∧
    (∀ (m : Master) (v : Word) (prog : Option Burst), vget false s.net.up p.val = false →
      Gives (.netCfg m p v prog) s (masterReset .net memPerform prog (setReg (Reg.NET_CFG0 + 0x40 * p.val) (v &&& 0xFF000000#32) s))) ∧
    Gives .strCntPublish s { s with net := { s.net with streams := s.net.streams.map fun e => (e.1, if e.2.on then { e.2 with
      pub := ⟨true, if e.2.pub.gen < 65535 then e.2.pub.gen + 1 else 1,
        [wOf e.2.lateN, wOf e.2.lost, wOf e.2.stale, e.2.pdiff, e.2.emax]⟩ } else e.2) } }

/-- R287, R289–R293: a PTP instance learns its master by an Announce, becomes SLAVE after 16 good Syncs, and returns to LISTENING. Which
master is better and what a Sync or a delay answer gives are the formulas of IEEE 1588 (PRESUMED, log entry 117). -/
def Obligations.PtpInstances : Prop :=
  ∀ (s : State) (j : Fin 2), NoInjection s → s.net.isSplit = false →
    let x := ptpAt s j.val
    let cfg := regAt s Reg.PTP_CFG j.val
    let sec : Int := 65536000000000
    (∀ (msg : PtpMessage), linkUp s msg.hdr.port.val = true → msg.hdr.fcsOk = true → msg.hdr.len ≤ 1522 →
      (x.st = 0 ∨ msg.hdr.port.val ≠ (if bitAt cfg 28 then 1 else 0) ∨ msg.domain.toNat ≠ fld cfg 23 16 → Gives (.ptpMessage j msg) s s) ∧
      (x.st ≠ 0 → msg.hdr.port.val = (if bitAt cfg 28 then 1 else 0) → msg.domain.toNat = fld cfg 23 16 →
        let knows := ∃ m, x.master = some m ∧ m.sender = msg.sender
        let epoch := fld (reg s Reg.TIME_EPOCH) 15 0
        let time (e : Nat) (t : PtpTime) : Int := (e * 2 ^ 48 + t.sec.toNat) * sec + t.ns.toNat * 65536
        let egress (sent : Time) : Int := (sent : Int) + 2097152 + (reg s (Reg.NET_ASYM_TX0 + 0x40 * msg.hdr.port.val)).toInt * 65536 / 1000
        let p2p := fld cfg 30 29 = 2
        let goes (p : Ptp → Prop) : Prop := Goes (exec (.ptpMessage j msg) s) fun t => p (ptpAt t j.val)
        let estimate (ts : PtpTime) (corr t2 : Int) : Prop :=
          let carry := s.ref.sel = some j.val ∧ 2 ^ 47 ≤ x.sec.toNat ∧ ts.sec.toNat < 2 ^ 47
          let t21 := t2 - (time (if carry then (epoch + 1) % 2 ^ 16 else epoch) ts + corr)
          let ofs := x.mpd - t21
          let run := 0 < x.good ∧ (ofs - x.base).natAbs ≤ 65536000
          let g := if run then min 16 (x.good + 1) else 1
          goes fun y => y.t21 = t21 ∧ y.sec = ts.sec ∧ y.wait = none ∧ y.good = g ∧ y.st = (if x.st = 2 ∧ g = 16 then 3 else x.st) ∧
            (¬ (x.st = 2 ∧ g = 16) → s.net.waitHost = false → y.ofs = ofs ∧ y.base = if run then x.base else ofs)
        (∀ d, msg.body = .announce d →
          let takes := ∀ m, x.master = some m → m.sender = msg.sender ∨ ptpBetter ⟨msg.sender, d⟩ m = true
          (¬ takes → Gives (.ptpMessage j msg) s s) ∧
          (takes → goes fun y => y.master = some ⟨msg.sender, d⟩ ∧ y.gmid = d.gmid ∧ y.known = true ∧
            y.gm = place d.cls.toNat 24 ||| place d.acc.toNat 16 ||| wOf d.utc.toNat ∧
            (knows → y.st = x.st ∧ y.good = x.good) ∧ (¬ knows → y.st = 2 ∧ y.good = 0))) ∧
        (∀ two ts, msg.body = .sync two ts →
          (¬ knows → Gives (.ptpMessage j msg) s s) ∧
          (knows → two = true → Gives (.ptpMessage j msg) s
            (putPtp j.val { x with wait := some ⟨msg.seq, ingress s msg.hdr, msg.correction⟩ } s)) ∧
          (knows → two = false → estimate ts msg.correction (ingress s msg.hdr))) ∧
        (∀ ts, msg.body = .followUp ts →
          (x.wait = none ∨ ¬ knows → Gives (.ptpMessage j msg) s s) ∧
          (∀ w, x.wait = some w → (w.seq ≠ msg.seq → Gives (.ptpMessage j msg) s s) ∧
            (w.seq = msg.seq → knows → estimate ts (w.corr + msg.correction) w.at_))) ∧
        (∀ ts sent, msg.body = .delayResp ts sent →
          (p2p ∨ ¬ knows → Gives (.ptpMessage j msg) s s) ∧
          (¬ p2p → knows → goes fun y => y.mpd = (x.t21 + (time epoch ts - msg.correction - egress sent)) / 2 ∧ y.st = x.st ∧ y.good = x.good)) ∧
        (∀ recv resp sent, msg.body = .pdelayResp recv resp sent →
          (¬ p2p → Gives (.ptpMessage j msg) s s) ∧
          (p2p → goes fun y => y.st = x.st ∧ y.good = x.good ∧
            y.mpd = ((ingress s msg.hdr - egress sent) - (time epoch resp - time epoch recv) - msg.correction) / 2)))) ∧
    (2 ≤ x.st → Goes (exec (.ptpLost j) s) fun t => (ptpAt t j.val).st = 1 ∧ (ptpAt t j.val).good = 0 ∧
      (ptpAt t j.val).known = false ∧ (ptpAt t j.val).master = none) ∧
    (x.st < 2 → Gives (.ptpLost j) s s) ∧
    (∀ (m : Master) (v : Word), fld v 23 16 < 128 → (bank s m).ptp = j.val →
      Goes (exec (.ptpCfg m v) s) fun t => (ptpAt t j.val).st = (if bitAt v 31 then 1 else 0) ∧ (ptpAt t j.val).known = false ∧
        (ptpAt t j.val).pub.valid = false) ∧
    (∀ (m : Master) (v : Word), 128 ≤ fld v 23 16 → Gives (.ptpCfg m v) s (progError m Reg.PTP_CFG s))

/-- R288, R294, R296: the host ends a split by a held offset or by a step; a held offset ends; a read latches system time. -/
def Obligations.SystemTime : Prop :=
  ∀ (s : State), NoInjection s →
    (∀ m, s.net.isSplit = false ∨ ptpFirst s = none → Gives (.timeForce m) s s ∧ Gives (.timeStep m) s s) ∧
    (∀ m r, s.net.isSplit = true → ptpFirst s = some r → s.ref.sel ≠ some r → s.ref.dpll = 1 ∨ s.ref.dpll = 2 →
      Goes (exec (.timeForce m) s) fun t => t.ref.sel = some r ∧ t.net.held = (ptpAt s r).ofs ∧ t.ref.slew = 1 ∧ t.net.now = s.net.now) ∧
    (∀ m r, s.net.isSplit = true → ptpFirst s = some r → s.ref.sel ≠ some r → s.ref.dpll = 1 ∨ s.ref.dpll = 2 →
      Goes (exec (.timeStep m) s) fun t => t.net.held = 0 ∧ t.net.now = ((s.net.now : Int) + (ptpAt s r).ofs).toNat) ∧
    (∀ m r, s.net.isSplit = true → ptpFirst s = some r → s.ref.sel = some r → s.ref.dpll = 1 ∨ s.ref.dpll = 2 →
      Gives (.timeForce m) s s ∧ Goes (exec (.timeStep m) s) fun t =>
        t.net.held = 0 ∧ t.net.now = ((s.net.now : Int) + s.net.held).toNat) ∧
    (∀ m r, s.net.isSplit = true → ptpFirst s = some r → s.ref.sel ≠ some r → s.ref.dpll = 0 ∨ s.ref.dpll = 3 → s.ref.firstDone = true →
      Goes (exec (.timeForce m) s) fun t => t.ref.sel = some r ∧ t.net.held = (ptpAt s r).ofs ∧ t.ref.slew = 1 ∧ t.ref.dpll = 1 ∧
        t.net.now = s.net.now) ∧
    Gives .holdSlewDone s (if s.net.held = 0 then s else
      { s with net := { s.net with held := 0 }, ref := { s.ref with slew := if s.ref.slew = 2 then 0 else s.ref.slew } }) ∧
    (∀ (m : Master) (t : Time), let sec := t / 65536000000000
      Gives (.timeLatch m t) s (snapTake m Reg.TIME_SEC_LO [wOf sec, wOf (sec / 2 ^ 32), wOf (t % 65536000000000 / 65536), wOf (t % 65536)]
        { s with net := { s.net with now := t } }))

/-! ### References and clock outputs -/

/-- R320, R321: windows qualify a reference, or count against it. -/
def Obligations.Qualification : Prop :=
  ∀ (s : State) (meas : Vector RefMeas 4) (r : Fin 4), NoInjection s → s.sys.vio.getLsbD 5 = false → bitAt (reg s Reg.REF_CTRL) 31 = true →
    let m := vget { present := false, fofs := 0#32, phs := 0#32 } meas r.val
    let x := refAt s r.val
    let good := (m.fofs.toInt.natAbs : Int) ≤ fld (reg s Reg.REF_LIMIT) 15 0 * 2560
    let counts (st run : Nat) : Prop := ∀ pe fe, Goes (exec (.refWindowEnd meas pe fe) s) fun t =>
      (refAt t r.val).st = st ∧ (refAt t r.val).run = run ∧ (refAt t r.val).fofs = (if m.present then m.fofs else x.fofs) ∧
      (refAt t r.val).gen = genNext x.gen ∧ (refAt t r.val).valid = true
    (x.st ≠ 0 → m.present = false → counts x.st x.run) ∧
    (x.st = 1 → counts 1 x.run) ∧
    (x.st = 2 → m.present = true → good → counts (if x.run + 1 = 4 then 3 else 2) (if x.run + 1 = 4 then 0 else x.run + 1)) ∧
    (x.st = 2 → m.present = true → ¬ good → counts 2 0) ∧
    (x.st = 3 → m.present = true → good → counts 3 0) ∧
    (x.st = 3 → m.present = true → ¬ good → counts (if x.run + 1 = 4 then 2 else 3) (if x.run + 1 = 4 then 0 else x.run + 1)) ∧
    (x.st = 0 → ∀ pe fe, Goes (exec (.refWindowEnd meas pe fe) s) fun t => refAt t r.val = x)

/-- R322, R324, R325, R327: the choice takes the highest rank with the most support, keeps the current selection on a tie, and a forced
mode follows its reference. -/
def Obligations.Selection : Prop :=
  ∀ (s : State), NoInjection s →
    let c := refCands s
    let top (a : Nat) : Prop := a ∈ c ∧ ∀ v ∈ c, outranks s v a = false
    (∀ r, refChoice s c = some r → top r ∧ ∀ a, top a → refSupport s c a ≤ refSupport s c r) ∧
    (∀ r k, refChoice s c = some r → s.ref.sel = some k → top k → (∀ a, top a → refSupport s c a ≤ refSupport s c k) → r = k) ∧
    (refChoice s c = none ↔ c = []) ∧
    (∀ (m : Master) (v : Word), fld (reg s Reg.REF_CTRL) 31 28 = fld v 31 28 →
      Gives (.refCtrl m v) s (setReg Reg.REF_CTRL (v &&& 0xFC000000#32) s)) ∧
    (∀ (m : Master) (v : Word), tabWf 0#32 s.regs = true → fld (reg s Reg.REF_CTRL) 31 28 ≠ fld v 31 28 → fld v 31 30 = 1 →
      (refAt s (fld v 29 28)).st = 3 → s.ref.sel ≠ some (fld v 29 28) → s.ref.dpll = 1 ∨ s.ref.dpll = 2 →
      Goes (exec (.refCtrl m v) s) fun t => t.ref.sel = some (fld v 29 28) ∧ t.ref.slew = 1 ∧ t.ref.dpll = s.ref.dpll ∧ t.net.now = s.net.now) ∧
    (∀ (m : Master) (v : Word), (bank s m).ref < 2 → bitAt v 31 = bitAt (regAt s Reg.REF_CFG (bank s m).ref) 31 → bitAt (reg s Reg.REF_CTRL) 31 = true →
      Goes (exec (.refCfg m v) s) fun t => (refAt t (bank s m).ref).st = (refAt s (bank s m).ref).st ∧
        (refAt t (bank s m).ref).run = (refAt s (bank s m).ref).run)

/-- R319, R320, R330: loss and return of a reference's signal, its quality words, and the fault and return of the local oscillator. -/
def Obligations.ReferenceEvents : Prop :=
  ∀ (s : State), NoInjection s → bitAt (reg s Reg.REF_CTRL) 31 = true →
    (∀ (r : Fin 4), (r.val < 2 → (ptpAt s r.val).st ≠ 3) → Goes (exec (.refLos r) s) fun t =>
      (refAt t r.val).sig = false ∧ (refAt t r.val).st = (if (refAt s r.val).st = 0 then 0 else if (refAt s r.val).st = 2 ∨ (refAt s r.val).st = 3 then 1 else (refAt s r.val).st)) ∧
    (∀ (r : Fin 4), r.val < 2 → (ptpAt s r.val).st = 3 → Gives (.refLos r) s s) ∧
    (∀ (r : Fin 2), s.sys.vio.getLsbD 5 = true → Gives (.refFirstEdge r) s s ∧ ∀ w stop, Gives (.refqlWord r w stop) s s) ∧
    (∀ (r : Fin 2), s.sys.vio.getLsbD 5 = false → Goes (exec (.refFirstEdge r) s) fun t =>
      (refAt t (r.val + 2)).sig = true ∧ (refAt t (r.val + 2)).st = (if (refAt s (r.val + 2)).st = 1 then 2 else (refAt s (r.val + 2)).st)) ∧
    (∀ (r : Fin 2) (w : BitVec 16) (stop : Bool), s.sys.vio.getLsbD 5 = false →
      let k := r.val + 2
      let ok := stop = true ∧ w.extractLsb' 12 4 = 0xA#4 ∧ w.extractLsb' 0 4 = w.extractLsb' 12 4 ^^^ w.extractLsb' 8 4 ^^^ w.extractLsb' 4 4
      let q := (w.extractLsb' 8 4).toNat
      (¬ ok → Gives (.refqlWord r w stop) s (orRegAt Reg.REF_RSTAT k 16#32 s)) ∧
      (ok → Goes (exec (.refqlWord r w stop) s) fun t => (refAt t k).lastQl = some q ∧
        (refAt t k).wql = if (refAt s k).lastQl = some q then q else (refAt s k).wql)) ∧
    (∀ (r : Fin 2), bitAt (regAt s Reg.REF_CFG (r.val + 2)) 27 = true → tabWf 0#32 s.regs = true → Goes (exec (.qlLost r) s) fun t =>
      (refAt t (r.val + 2)).ql = 0 ∧ (refAt t (r.val + 2)).wql = 0 ∧ (refAt t (r.val + 2)).lastQl = none) ∧
    (∃ f : Int, Gives .loFault s (let u := orReg Reg.LO_STAT 1#32 (report (srcId 1 5 4 15) 0x617#12 .fatal 0#32 s)
      { u with ref := { u.ref with intOsc := true, xinBack := false, freq := f }, freeCtr := u.freeCtr + 1 })) ∧
    (∀ (r : Fin 2), bitAt (regAt s Reg.REF_CFG (r.val + 2)) 27 = false → Gives (.qlLost r) s s) ∧
    (let goal : Int := match s.ref.sel with
        | some r => (refAt s r).fofs.toInt
        | none => if s.ref.dpll = 3 then s.ref.hofs else (s.ref.loCfg.truncate 16 : BitVec 16).toInt * 256
     let back := s.ref.intOsc = true ∧ reg s Reg.LO_STAT &&& 1#32 = 0#32
     (back → Gives .xinReturn s { s with ref := { s.ref with intOsc := false, xinBack := true, freq := goal } }) ∧
     (¬ back → Gives .xinReturn s { s with ref := { s.ref with xinBack := true } }))

/-- R325–R327: the DPLL leaves LOCKED on a phase error above 1 µs, its estimate without the last two windows; the steps of a switch end. -/
def Obligations.DpllSteps : Prop :=
  ∀ (s : State) (e : Int),
    let w := s.ref.windows.drop 2
    (s.ref.dpll = 2 → 1000 < e.natAbs → Gives (.dpllLostLock e) s (orReg Reg.REF_HIST 2#32 { s with ref := { s.ref with
      dpll := 1, locks := 0, windows := w, hwin := min 60 w.length
      hofs := if w = [] then s.ref.hofs else ((w.take 60).foldl (· + ·) 0) / ((w.take 60).length : Int) } })) ∧
    (s.ref.dpll ≠ 2 ∨ e.natAbs ≤ 1000 → Gives (.dpllLostLock e) s s) ∧
    (let goal : Int := match s.ref.sel with
        | some r => (refAt s r).fofs.toInt
        | none => if s.ref.dpll = 3 then s.ref.hofs else (s.ref.loCfg.truncate 16 : BitVec 16).toInt * 256
     s.ref.slew = 1 → Gives .freqSlewDone s { s with ref := { s.ref with
       freq := if s.ref.intOsc then s.ref.freq else goal
       slew := match s.ref.sel with
         | some r => if slewsOut s r then 2 else 0
         | none => 0 } }) ∧
    (s.ref.slew = 2 → Gives .buildoutDone s { s with ref := { s.ref with slew := 0, bo := 0 }, net := { s.net with held := 0 } }) ∧
    (s.ref.slew ≠ 1 → Gives .freqSlewDone s s) ∧ (s.ref.slew ≠ 2 → Gives .buildoutDone s s)

/-! ### Twin operation -/

/-- R341–R345, R363, R367: a heartbeat on an enabled path is noted; a renewal moves L, makes a holder with the older epoch (or seat B with an
equal one) yield, and takes a shadow that has missed a state section out of sync; a stale renewal and a beacon that fails its tag are
discarded. -/
def Obligations.Heartbeats : Prop :=
  ∀ (s : State), NoInjection s → isTwin s = true → running s = true →
    let heard (p : TwinPath) (f : TwinFlags) (r : BitVec 64) (d : Int) (t : State) : Prop :=
      pathAt t p = { seen := true, stroke := s.eng.stroke, flags := f, lost := false } ∧ t.twin.peerSeen = true ∧
      t.twin.last.toNat = max s.twin.last.toNat r.toNat ∧ t.twin.hold = s.twin.hold ∧
      (s.twin.hold = true → t.twin.inSync = s.twin.inSync ∧
        t.twin.yield.isSome = (s.twin.yield.isSome || decide (0 < d) || (decide (d = 0) && seatB s))) ∧
      (s.twin.hold = false → t.twin.yield = s.twin.yield ∧
        t.twin.inSync = (s.twin.inSync && decide (r.toNat < s.twin.commit.toNat + 3))) ∧
      { t with twin := s.twin, regs := s.regs, host := s.host, out := s.out } = s
    (∀ (h : TwinHdr) (image : BitVec 64), s.twin.up = true → frameGood s h = true → h.typeOk = true → h.flags.seat ≠ seatB s →
      image = imageId s →
      let d := (h.epoch - s.twin.epoch).toInt
      (twinPol s 0 = true → h.flags.hold = true → s.eng.stroke.toNat ≤ h.stroke.toNat + 1 →
        Goes (exec (.marker h image) s) (heard .link h.flags h.stroke d)) ∧
      (twinPol s 0 = true → h.flags.hold = false → Goes (exec (.marker h image) s) fun t =>
        t.twin.last = s.twin.last ∧ t.twin.peerSeen = s.twin.peerSeen ∧ t.twin.yield = s.twin.yield ∧ t.twin.inSync = s.twin.inSync ∧
        t.regs = s.regs ∧ (pathAt t .link).seen = true) ∧
      (twinPol s 0 = false ∨ (h.flags.hold = true ∧ h.stroke.toNat + 1 < s.eng.stroke.toNat) →
        Gives (.marker h image) s { s with twin := { s.twin with seatClash := false, imageDiff := false } })) ∧
    (∀ (w : BitVec 8), twinPol s 1 = true → s.sys.vio.getLsbD 5 = false → w.getLsbD 0 = true →
      Goes (exec (.leasePinWord w true) s) (heard .pins
        { hold := true, ready := w.getLsbD 1, inSync := w.getLsbD 2, handover := w.getLsbD 3, seat := !seatB s } s.eng.stroke
        (w.extractLsb' 4 4 - s.twin.epoch.extractLsb' 0 4).toInt)) ∧
    (∀ w, Gives (.leasePinWord w false) s s) ∧
    (∀ (b : Beacon), linkUp s b.hdr.port.val = true → b.hdr.fcsOk = true → b.hdr.len ≤ 1522 →
      let cfg := reg s Reg.TWIN_BCN_CFG
      let ours := b.magic = 0x5457424E#32 ∧ b.version = 1#8 ∧ b.flags.seat ≠ seatB s ∧ b.image = (imageId s).extractLsb' 0 32 ∧
        bitAt cfg b.hdr.port.val = true ∧ fld cfg 31 16 ≠ 0
      let bad := bitAt (reg s Reg.TWIN_CFG) 30 = true ∧ b.tag ≠ beaconTag s b.flags.seat b.stroke (beaconBytes b.flags b.epoch b.stroke b.image)
      (¬ ours → Gives (.beacon b) s s) ∧
      (ours → bad → Gives (.beacon b) s (orReg Reg.TWIN_STAT 0x200#32 (report twinSrc 0x709#12 .note 0#32 s))) ∧
      (ours → ¬ bad → twinPol s 2 = true → b.flags.hold = true → s.eng.stroke.toNat ≤ b.stroke.toNat + 1 →
        Goes (exec (.beacon b) s) (heard .beacon b.flags b.stroke (b.epoch - s.twin.epoch).toInt)))

/-- R343, R344, R346, R348–R353: the lease expires, cox is acquired, yielded, released by offer or call, or kept where the peer is not ready;
a unit whose causes are gone leaves its self-diagnosis. -/
def Obligations.CoxHolding : Prop :=
  ∀ (s : State), NoInjection s → isTwin s = true → running s = true →
    let k := s.eng.stroke
    let acquired (t : State) : Prop :=
      t.twin.hold = true ∧ t.sys.mode = .live ∧ t.twin.take = none ∧ t.twin.expired = false ∧ t.twin.commit = s.twin.commit ∧
      t.twin.callsIn = [] ∧ t.twin.rdIn = none ∧ t.twin.carryBad = none ∧ t.twin.epoch ≠ 0#32 ∧ (let e := if 0 < (s.twin.peerEpoch - s.twin.epoch).toInt then s.twin.peerEpoch else s.twin.epoch
        t.twin.epoch = if e = 0xFFFFFFFF#32 then 1#32 else e + 1) ∧
      (strokeDue s = s.twin.commit + 1 → t.twin.unverN = s.twin.unverN) ∧ (tabWf 0#32 s.regs = true → bitAt (reg t Reg.TWIN_STAT) 0 = true)
    let dropped (b : Nat) (t : State) : Prop :=
      t.twin.hold = false ∧ t.sys.mode = .shadow ∧ t.twin.inSync = false ∧ t.twin.last = strokeDue s ∧ t.twin.epoch = s.twin.epoch ∧
      t.twin.release = none ∧ t.twin.yield = none ∧ (tabWf 0#32 s.regs = true → bitAt (reg t Reg.TWIN_STAT) b = true)
    let peer (ok : PathSt → Prop) : Prop := ∃ x, peerLatest s = some x ∧ ok x
    (s.twin.hold = false → s.eng.phase = .finished →
      (s.twin.last.toNat + (if seatB s = true ∧ s.twin.peerSeen = false then 12 else 4) ≤ k.toNat →
        Gives .leaseExpired s { s with twin := { s.twin with expired := true } }) ∧
      (k.toNat < s.twin.last.toNat + (if seatB s = true ∧ s.twin.peerSeen = false then 12 else 4) → Gives .leaseExpired s s)) ∧
    (s.twin.hold = false → s.twin.take = some (strokeDue s) → Goes (exec .acquireCox s) acquired) ∧
    (s.twin.hold = false → s.twin.take ≠ some (strokeDue s) → s.twin.expired = true →
      let may := s.twin.diag = false ∧ bitAt (reg s Reg.TWIN_STAT) 11 = false ∧ (s.twin.inSync = true ∨ s.twin.peerSeen = false ∨ twinPol s 3 = true)
      (may → Goes (exec .acquireCox s) acquired) ∧ (¬ may → Gives .acquireCox s s)) ∧
    (s.twin.hold = true → Gives .acquireCox s s) ∧
    (∀ y, s.twin.yield = some y → s.twin.hold = true → y.toNat < (strokeDue s).toNat → Goes (exec .yieldComplete s) (dropped 2)) ∧
    (∀ (h : TwinHdr) (target : BitVec 64), s.twin.up = true → frameGood s h = true → h.typeOk = true →
      let takes := s.twin.diag = false ∧ s.sys.mode = .shadow ∧ (s.twin.inSync = true ∨ twinPol s 3 = true) ∧ k.toNat < target.toNat
      (takes → Gives (.offer h target) s { s with twin := { s.twin with take := some target } }) ∧ (¬ takes → Gives (.offer h target) s s)) ∧
    (∀ r, s.twin.release = some r → s.twin.hold = true → r.toNat ≤ (strokeDue s).toNat →
      let isReady := peer fun x => x.flags.ready = true ∧ (strokeDue s).toNat ≤ x.stroke.toNat + 2
      (isReady → Goes (exec .handoverRelease s) (dropped 1)) ∧
      (¬ isReady → Gives .handoverRelease s (let n := strokeDue s + 1
        let u := orReg Reg.TWIN_STAT 64#32 (report twinSrc 0x706#12 .fault 0#32 s)
        linkSend 7 s.eng.stroke (natBytes 8 n.toNat) { u with twin := { u.twin with offer := some n, release := some n } }))) ∧
    (∀ p, Due s p 12#16 false →
      let request := pbyte p.call.payload 0 ≠ 0
      let gives := peer fun x => x.flags.ready = true ∧ (request ∨ x.flags.inSync = true)
      (s.twin.hold = true → gives → Goes (exec .twinHandover s) fun t =>
        t.twin.hold = false ∧ t.sys.mode = .shadow ∧ t.twin.inSync = false ∧ t.twin.last = strokeDue s) ∧
      (s.twin.hold = true → ¬ gives → Applies .twinHandover s p (orReg Reg.TWIN_STAT 32#32 (charged s p))) ∧
      (s.twin.hold = false → s.twin.diag = false → (request ∨ s.twin.inSync = true) → Goes (exec .twinHandover s) fun t =>
        t.twin.hold = true ∧ t.sys.mode = .live ∧ t.twin.expired = false) ∧
      (s.twin.hold = false → (s.twin.diag = true ∨ (¬ request ∧ s.twin.inSync = false)) → Applies .twinHandover s p (charged s p))) ∧
    (∀ m, let remains := bitAt (reg s Reg.DET_STAT) 2 = true ∨ bitAt (reg s Reg.ERR_STAT) 3 = true ∨ bitAt (reg s Reg.LO_STAT) 0 = true ∨
        reg s Reg.PWR_STAT &&& 0x47#32 ≠ 0#32 ∨ reg s Reg.PIN_STAT &&& 0x3F#32 ≠ 0#32 ∨
        (sps s ≠ 0 ∧ 65536000000000 / sps s < 65536 * s.eng.tskew.natAbs)
      (remains → Gives (.diagClr m) s s) ∧
      (¬ remains → Gives (.diagClr m) s { s with twin := { s.twin with diag := false, offer := none, release := none } }))

/-- R358–R361, R367: the sections of a shipment as a shadow takes them, and their commit; a frame that fails its CRC or tag, or has another
TYPE, is discarded and counted, and a state section that has lost one does not commit. -/
def Obligations.Shipments : Prop :=
  ∀ (s : State) (h : TwinHdr), NoInjection s → isTwin s = true → s.twin.up = true →
    let bad (t : State) : State := orReg Reg.TWIN_STAT 512#32 (report twinSrc 0x709#12 .note 0#32
      { t with twin := { t.twin with tagErr := satInc max32 t.twin.tagErr } })
    let empty (t : TwinState) : TwinState := { t with callsIn := [], rdIn := none, carryBad := none, secBad := false, secOf := none }
    let dropped (t : State) : State := { t with twin := empty t.twin }
    let cur := s.twin.secOf = none ∨ s.twin.secOf = some h.stroke
    let sec : TwinState := { (if cur then s.twin else empty s.twin) with secOf := some h.stroke }
    let lost (t : State) : State := if s.sys.mode = .shadow then { t with twin := { t.twin with secBad := true } } else t
    (∀ (v : BitVec 64) (b : InputBlock) bl rt tr (ok : Bool) cs rd n o ws c it,
      let frames : List Instr := [.marker h v, .offer h v, .input h b, .freeze h bl rt tr ok, .close h v ok, .rsctl h c, .resync h it]
      let state : List Instr := [.calls h cs rd, .carry h n o ws]
      let other : State := { s with twin := { s.twin with tagErr := satInc max32 s.twin.tagErr } }
      (frameGood s h = false → (∀ i ∈ frames, Gives i s (bad s)) ∧ ∀ i ∈ state, Gives i s (lost (bad s))) ∧
      (frameGood s h = true → h.typeOk = false → (∀ i ∈ frames, Gives i s other) ∧ ∀ i ∈ state, Gives i s (lost other))) ∧
    (frameGood s h = true → h.typeOk = true → s.sys.mode = .shadow →
      (∀ b, Gives (.input h b) s { s with twin := { s.twin with inRx := s.twin.inRx ++ [b] } }) ∧
      (∀ bl rt tr, Gives (.freeze h bl rt tr true) s { s with twin := { s.twin with frzRx := some ⟨h.stroke, bl, rt, tr⟩ } } ∧
        Gives (.freeze h bl rt tr false) s { bad s with twin := { (bad s).twin with inRx := [], frzRx := none } }) ∧
      (∀ (cs : List (CallRec × BitVec 64)) rd, (∀ e ∈ cs, bulkOf e.1 = none) → Gives (.calls h cs rd) s { s with twin := { sec with
        rdIn := some rd
        callsIn := sec.callsIn ++ cs.map fun e =>
          let d := dueOf { s with eng := { s.eng with stroke := e.2 } } e.1
          ⟨e.1, e.2, BitVec.ofNat 64 d.1, d.2, callRejects s e.1, armsOf s e.1 [], false⟩ } }) ∧
      (∀ n ofs ws, let same := ∀ j, j < ws.length → ws.getD j 0#32 = carryRead s (stripCrew s n) (carryBase s n + ofs + j)
        (same → Gives (.carry h n ofs ws) s { s with twin := sec }) ∧
        (¬ same → Gives (.carry h n ofs ws) s { s with twin := { sec with carryBad := some (match sec.carryBad with
          | some m => min m n
          | none => n) } })) ∧
      (∀ (digest : BitVec 64) (ok : Bool),
        let fits := s.eng.phase = .drive ∧ s.eng.stroke = h.stroke + 1#64 ∧ s.twin.commit.toNat < h.stroke.toNat ∧
          s.twin.secBad = false ∧ cur
        let equal := digest = s.eng.digest ∧ s.eng.digestOf = h.stroke ∧ s.twin.carryBad = none
        let taken (t : State) : Prop := t.twin.commit = h.stroke ∧ t.twin.unver = false ∧ t.call.pend = s.call.pend ++ s.twin.callsIn ∧
          t.call.rd = s.twin.rdIn.getD s.call.rd ∧ t.twin.callsIn = [] ∧ t.twin.rdIn = none ∧ t.twin.carryBad = none ∧ t.mem = s.mem
        (ok = false → Gives (.close h digest ok) s (dropped (bad s))) ∧
        (ok = true → ¬ fits → Gives (.close h digest ok) s (dropped s)) ∧
        (ok = true → fits → equal → Goes (exec (.close h digest ok) s) fun t =>
          taken t ∧ t.twin.inSync = s.twin.inSync ∧ t.twin.diff = s.twin.diff ∧ t.regs = s.regs ∧ t.err = s.err) ∧
        (ok = true → fits → ¬ equal → Goes (exec (.close h digest ok) s) fun t =>
          taken t ∧ t.twin.inSync = false ∧ t.twin.diff = (if s.twin.carryBad = none then s.twin.diff else s.twin.carryBad) ∧
          t.err = (report twinSrc 0x703#12 .degrade 0#32 s).err)))

/-- R356, R364–R369: the resync from its request to the cutover, and the link's ups and downs. -/
def Obligations.TwinLink : Prop :=
  ∀ (s : State), NoInjection s → isTwin s = true →
    let ask (x : Nat) (t : TwinState) : State := linkSend 9 s.eng.stroke (Config.linkPayload 9 [x]) { s with twin := t }
    (running s = true → s.twin.hold = false → s.twin.inSync = false → s.twin.up = true → s.twin.peerSeen = true → s.twin.imageDiff = false →
      ∀ m, Gives (.resyncRequest m) s (ask 0 { s.twin with resync := true, rsCut := none, rsSent := 0 })) ∧
    (s.twin.hold = true → ∀ m, Gives (.resyncRequest m) s s) ∧
    (∀ (h : TwinHdr), frameGood s h = true → h.typeOk = true → s.twin.up = true →
      (running s = true → s.twin.hold = true → Gives (.rsctl h .request) s (ask 1 { s.twin with resync := true, rsSent := 0, rsCut := none })) ∧
      (running s = true → s.twin.hold = false → s.twin.resync = true → Goes (exec (.rsctl h .resetCmd) s) fun t =>
        t.twin.rsReset = true ∧ t.twin.rsCut = none ∧ t.eng.phase = .held ∧ (s.eng.phase ≠ .held → t.call.pend = [] ∧ t.mem = s.mem)) ∧
      (s.twin.rsReset = true → s.sys.mode = .shadow →
        (∀ c, Gives (.rsctl h (.cutover c)) s { s with twin := { s.twin with rsCut := some c } }) ∧
        (∀ a bs, Gives (.resync h (.bytes a bs)) s (let t := writeBytes a bs s
          { t with twin := { t.twin with rsSent := t.twin.rsSent + bs.length } })) ∧
        (∀ a bs, Gives (.resync h (.stage a bs)) s
          { s with stage := memPutBytes s.stage a bs, twin := { s.twin with rsSent := s.twin.rsSent + bs.length } }) ∧
        (∀ ch b, Gives (.resync h (.bridge ch b)) s { s with patch := { s.patch with bridges := tset none s.patch.bridges ch b } }) ∧
        (∀ a x, Gives (.resync h (.asrc a x)) s { s with patch := { s.patch with asrc := tset {} s.patch.asrc a x } }) ∧
        (∀ v, Gives (.resync h (.sceneEvt v)) s (setReg Reg.SCENE_EVT v s)) ∧
        (∀ rd, Gives (.resync h (.callRd rd)) s { s with call := { s.call with rd := rd } }) ∧
        (∀ i x, Gives (.resync h (.sink i x)) s { s with patch := { s.patch with sinks := tset {} s.patch.sinks i x } }) ∧
        (∀ v, Gives (.resync h (.tsel v)) s { s with mix := { s.mix with tsel := v, tselWas := v } }) ∧
        (∀ x, Gives (.resync h (.scene x)) s { s with scene := x }))) ∧
    (∀ k, s.twin.rsCut = some k → s.twin.rsReset = true → bitAt (reg s Reg.RST_ENG) 0 = false → s.sys.bootHold = false → s.sys.modeHold = false →
      s.call.owed = [] → Goes (exec .resyncCutover s) fun t =>
        t.eng.stroke = k ∧ t.eng.phase = .waiting ∧ t.eng.detBase = k ∧ t.twin.inSync = true ∧ t.twin.last = k ∧ t.twin.peerSeen = false ∧
        t.twin.rsReset = false ∧ t.twin.resync = false ∧ t.twin.commit = k - 1#64 ∧
        t.mem = s.mem ∧ t.call = s.call ∧ t.patch.sinks = s.patch.sinks ∧ t.patch.bridges = s.patch.bridges ∧ t.scene = s.scene ∧
        t.mix.tsel = s.mix.tsel ∧
        t.fin.sinks = s.patch.sinks) ∧
    (s.twin.up = true → ∀ lock, ∀ e ∈ ([(.twinLinkDown ⟨lock, none⟩, lock), (.linkRestart .host, 0#4)] : List (Instr × BitVec 4)),
      Goes (exec e.1 s) fun t =>
      t.twin.up = false ∧ t.twin.lanes = e.2 ∧ t.twin.resync = false ∧ t.twin.rsReset = false ∧ t.twin.rsCut = none ∧
      t.twin.skey = [] ∧ t.twin.downs = satInc 65535 s.twin.downs ∧
      t.twin.inSync = (s.twin.hold && s.twin.inSync) ∧ bank t .twin = {} ∧ t.mem = s.mem ∧
      t.err = (report twinSrc 0x705#12 .degrade 0#32 s).err) ∧
    (s.twin.up = false → loopHolds s 2 = false → Goes (exec .twinLinkUp s) fun t =>
      t.twin.up = true ∧ t.twin.lanes = 15#4 ∧ t.twin.seq = 1#64 ∧ t.twin.crypt = bitAt (reg s Reg.TWIN_CFG) 31 ∧ t.twin.rate = bitAt (reg s Reg.TWIN_CFG) 29 ∧
      t.twin.nonce.length = 16 ∧ t.twin.peerNonce = s.twin.peerNonce ∧ t.regs = s.regs) ∧
    (s.twin.up = false → ∀ i ∈ ([.twinLinkDown ⟨0#4, none⟩, .linkRestart .host] : List Instr), Gives i s s) ∧
    (s.twin.up = true → Gives .twinLinkUp s s) ∧
    (∀ (h : TwinHdr) image nonce, s.twin.up = true → h.crcOk = true → h.typeOk = true → Goes (exec (.hello h image nonce) s) fun t =>
      t.twin.peerNonce = nonce ∧ t.twin.seatClash = (h.flags.seat == seatB s) ∧ t.twin.imageDiff = (image != imageId s) ∧
      (image ≠ imageId s → s.twin.imageDiff = false → t.twin.inSync = false) ∧ (image = imageId s → t.twin.inSync = s.twin.inSync)) ∧
    (∀ p, running s = true → twinPol s (pathBit p) = true → (pathAt s p).seen = true → (pathAt s p).lost = false →
      (pathAt s p).stroke.toNat + 4 ≤ s.eng.stroke.toNat →
      (∃ q, q ≠ p ∧ (pathAt s q).seen = true ∧ s.eng.stroke.toNat < (pathAt s q).stroke.toNat + 4 ∧ (pathAt s q).flags.hold = true) →
      Gives (.twinPathLost p) s (orReg Reg.TWIN_STAT 256#32 (let u := report twinSrc 0x70A#12 .note 0#32 s
        { u with twin := { u.twin with paths := vput u.twin.paths (pathBit p) { pathAt u p with lost := true } } })))

/-! ### The fabric and the host -/

/-- R402–R406, R32, R372: what a burst is answered, and what it reads and writes in central memory. -/
def Obligations.FabricBursts : Prop :=
  ∀ (s : State) (b : Burst), BusIdle s →
    let a := b.addr.toNat
    let answered (r : BitVec 2) (bs : List Byte) (t : State) : State := emit (.fabric b.master r bs) t
    let open_ (write : Bool) : Prop := ∀ w ∈ burstWords b, clearingAt s w.a = false ∧ closedAt s b.master write w.a = false
    let u := noteBurst b (granted b s)
    (b.master ≠ .host → (burstOk b = false ∨ burst4k b = true) → Gives (.fabricBurst b) s (answered rRefused (noData b) s)) ∧
    (b.master ≠ .host → burstOk b = true → burst4k b = false → noTarget s b = true →
      Gives (.fabricBurst b) s (answered rUnmapped (noData b)
        (noteUnmapped b.master (targetOf a) b.write a (report (fabSrc b.master) 0x100#12 .note 0#32 s)))) ∧
    (ToCentral b → b.write = false → open_ false → (∀ w ∈ burstWords b, isMeterWord w.a = false ∧ Good s w.a) →
      Gives (.fabricBurst b) s (answered rPass (answerBytes b ⟨s, rPass, (burstWords b).map fun w => (w.a, memWord s.mem w.a)⟩) u)) ∧
    (ToCentral b → b.write = true → b.collides = false → open_ true → (∀ w ∈ burstWords b, w.en = 15#4 ∧ armedAt s w.a = false) →
      (guardedMaster b.master = false ∨ ∀ w ∈ burstWords b, ownedAt s w.a = false) →
      Gives (.fabricBurst b) s (answered rPass [] ((burstWords b).foldl (fun t w => writeWord w.a w.d t) u))) ∧
    (ToCentral b → b.write = true → open_ true → (∀ w ∈ burstWords b, armedAt s w.a = false) → guardedMaster b.master = true →
      s.sys.mode ≠ .service → ∀ w, (burstWords b).find? (fun w => ownedAt s w.a) = some w →
      Gives (.fabricBurst b) s (answered rRefused [] (report (fabSrc b.master) 0x305#12 .note (wOf (w.a / 16)) u)))

/-- R374, R404, R410, R411, R423, R487: a burst waits for a locked port, but not on ENG's gateway ports; a collided write is tried 16 times; a target or a lock that does not end
is timed out. -/
def Obligations.LocksAndTimeouts : Prop :=
  ∀ (s : State), NoInjection s → s.fab.wait = [] →
    (∀ (b : Burst) i n, gateway b = false → lockOf b = some i → lockAt s i = some n → n ≠ mNum b.master →
      Gives (.fabricBurst b) s { s with fab := { s.fab with wait := [.fabricBurst b] } }) ∧
    (∀ still, s.msvc.collided = [] → Gives (.collidedRetry still) s s) ∧
    (∀ c cs, s.msvc.collided = c :: cs → c.b.master ≠ .host →
      let u : State := { s with msvc := { s.msvc with collided := cs } }
      (c.tries < 15 → Gives (.collidedRetry true) s { s with msvc := { s.msvc with collided := ⟨c.b, c.tries + 1⟩ :: cs } }) ∧
      (15 ≤ c.tries → Goes (exec (.collidedRetry true) s) fun t =>
        t.msvc.collided = cs ∧ t.mem = s.mem ∧ Says s t (.fabric c.b.master rRefused [])) ∧
      ((∀ w ∈ burstWords c.b, wholeWord (burstWords c.b) w = true) → Goes (exec (.collidedRetry false) s) fun t =>
        t.msvc.collided = cs ∧ t.mem = (writeBeats (burstWords c.b) u).1.mem ∧ Says s t (.fabric c.b.master rPass []))) ∧
    (∀ (b : Burst), burstOk b = true → burst4k b = false → noTarget s b = false → portBusy s b = false → b.master ≠ .host → b.write = false →
      Goes (exec (.fabTimeout b) s) fun t => t.fab.tmo = satInc max32 s.fab.tmo ∧ t.mem = s.mem ∧
        t.err = (report (fabSrc b.master) 0x101#12 .fault 0#32 s).err ∧ Says s t (.fabric b.master rExpired (noData b))) ∧
    (∀ (i : Fin 3), (lockAt s i.val = none → Gives (.fabLockTmo i) s s) ∧
      ∀ n, lockAt s i.val = some n → Goes (exec (.fabLockTmo i) s) fun t =>
        lockAt t i.val = none ∧ vget none t.fab.broken i.val = some n ∧ t.mem = s.mem ∧
        t.err = (report (fabSrc (masterOf n)) 0x102#12 .degrade 0#32 s).err ∧ (tabWf 0#32 s.regs = true → n = 1 → lockLen t = 0)) ∧
    (∀ m v, Gives (.hostLock m v) s (setReg Reg.HOST_LOCK (v &&& 15#32) s))

/-- R4–R6, R192, R197, R227, R228, R471, R481, R482, R488: single-word writes and reads of registers, the selects with their snapshots, and
the crosspoint's shadow target. -/
def Obligations.RegisterAccess : Prop :=
  ∀ (s : State) (m : Master), BusIdle s → m = .sc ∨ m = .host ∨ m = .dbg → s.sys.straps.hostif = false →
    let kept (t : State) : Prop := t.mem = s.mem ∧ t.banks = s.banks ∧ t.err = s.err
    (∀ e ∈ ([(Reg.SYS_IRQ_EN, 0xFFFF#32), (Reg.SYS_IRQ_PIN, 0xFFFF#32), (Reg.REF_IRQEN, 0x7F#32)] : List (Nat × Word)),
      (∀ v, tabWf 0#32 s.regs = true → Goes (exec (.registerWrite m e.1 v) s) fun t =>
        reg t e.1 = v &&& e.2 ∧ (∀ o, o ≠ e.1 → reg t o = reg s o) ∧ kept t ∧ Says s t (.fabric m rPass [])) ∧
      Goes (exec (.resultSnapshotRead m e.1) s) fun t => t.regs = s.regs ∧ kept t ∧ Says s t (.fabric m rPass (leBytes (reg s e.1)))) ∧
    (∀ v, tabWf 0#32 s.regs = true → Goes (exec (.registerWrite m Reg.TWIN_STAT v) s) fun t =>
      reg t Reg.TWIN_STAT = reg s Reg.TWIN_STAT &&& ~~~(v &&& 0xFFF#32) ∧ (∀ o, o ≠ Reg.TWIN_STAT → reg t o = reg s o) ∧ kept t) ∧
    (∀ v, Goes (exec (.registerWrite m Reg.TWIN_EPOCH v) s) fun t => t.regs = s.regs ∧ t.twin = s.twin ∧ kept t ∧ Says s t (.fabric m rPass [])) ∧
    (Goes (exec (.resultSnapshotRead m Reg.TWIN_EPOCH) s) fun t => kept t ∧ Says s t (.fabric m rPass (leBytes s.twin.epoch))) ∧
    (∀ b, b.master = m → m ≠ .host → b.lock = false → burstOk b = true → burst4k b = false → b.addr.toNat < 0x150000 → 1 < b.beats.length →
      Goes (exec (.fabricBurst b) s) fun t => t.regs = s.regs ∧ kept t ∧ Says s t (.fabric m rRefused (noData b))) ∧
    (∀ off v, 0x1000000 ≤ off → Gives (.registerWrite m off v) s s)

/-- R192, R197, R227, R228, R471, R488: a select register takes its operand and the snapshot of the block it selects; an operand that names
nothing is ignored and logged; a write of the shadow target needs a slice that is not armed. -/
def Obligations.Selects : Prop :=
  ∀ (s : State) (m : Master) (v : Word), NoInjection s →
    let sets (off : Nat) (ws : List Word) (f : Bank → Bank) : State :=
      setBank m (fun b => { b with snaps := tset [] b.snaps off ws }) (setBank m f s)
    (fld v 19 0 < xpCount → Gives (.xpSel m v) s (sets Reg.XP_SEL (xpSnap s (fld v 19 0)) fun b => { b with xp := fld v 19 0 })) ∧
    (xpCount ≤ fld v 19 0 → Gives (.xpSel m v) s (progError m Reg.XP_SEL s)) ∧
    (sinkBad (fld v 12 0) = false →
      Gives (.sinkSel m v) s (sets Reg.SINK_SEL (sinkSnap s (fld v 12 0)) fun b => { b with sink := fld v 12 0 }) ∧
      Gives (.latSel m v) s (sets Reg.LAT_SEL (latSnap s (fld v 12 0)) fun b => { b with lat := fld v 12 0 })) ∧
    (sinkBad (fld v 12 0) = true → Gives (.sinkSel m v) s (progError m Reg.SINK_SEL s) ∧ Gives (.latSel m v) s (progError m Reg.LAT_SEL s)) ∧
    (let c := tget (0#32, 0, 0) s.fin.core (fld v 6 0)
     Gives (.coreSel m v) s (sets Reg.CORE_SEL [c.1, wOf c.2.1, wOf c.2.2] fun b => { b with core := fld v 6 0 })) ∧
    (let x := (bank s m).xp
     let a := tgtAddr (xpSlice x) (shadowY s (xpSlice x)) (xpLocal x)
     clearingAt s a = false → closedAt s m true a = false →
      (armedAt s a = false → ownedAt s a = false → Gives (.xpShd m v) s (writeWord a v s)) ∧
      (armedAt s a = true → targetOf a = 3 →
        Gives (.xpShd m v) s (orReg Reg.MIX_STAT 2#32 (report (fabSrc m) 0x304#12 .note (wOf (a / 16)) s))))

/-- R412, R473, R475–R479, R484, R486: the host's requests reach registers and memory; its link, its resets, its flash master and its
interrupt messages. -/
def Obligations.HostPorts : Prop :=
  ∀ (s : State), BusIdle s →
    let some4 (v : Word) : List (Option Byte) := (leBytes v).map some
    let pcie := s.sys.straps.hostif = false ∧ s.host.up = true ∧ s.host.d3 = false
    (pcie → tabWf 0#32 s.regs = true → ∀ v,
      (Goes (exec (.pcieMemoryWrite false Reg.SYS_IRQ_PIN (some4 v)) s) fun t =>
        reg t Reg.SYS_IRQ_PIN = v &&& 0xFFFF#32 ∧ (∀ o, o ≠ Reg.SYS_IRQ_PIN → reg t o = reg s o) ∧ t.mem = s.mem) ∧
      (Goes (exec (.pcieMemoryRead false Reg.SYS_IRQ_PIN 4) s) fun t =>
        t.regs = s.regs ∧ t.mem = s.mem ∧ Says s t (.completion (leBytes (reg s Reg.SYS_IRQ_PIN)) false))) ∧
    (s.sys.straps.hostif = true → tabWf 0#32 s.regs = true → ∀ v,
      (Goes (exec (.spiWrite (BitVec.ofNat 36 Reg.SYS_IRQ_PIN) (leBytes v)) s) fun t =>
        reg t Reg.SYS_IRQ_PIN = v &&& 0xFFFF#32 ∧ (∀ o, o ≠ Reg.SYS_IRQ_PIN → reg t o = reg s o) ∧ t.mem = s.mem ∧ t.host.spiErr = false) ∧
      (Goes (exec (.spiRead (BitVec.ofNat 36 Reg.SYS_IRQ_PIN) 4) s) fun t =>
        t.regs = s.regs ∧ t.mem = s.mem ∧ Says s t (.miso (0xA5#8 :: leBytes (reg s Reg.SYS_IRQ_PIN))))) ∧
    (s.sys.straps.hostif = true → Gives .spiStatus s { s with
      host := { s.host with spiErr := false, spiDrop := false }
      out := s.out ++ [.miso [(flag (irqPin s) 3 ||| flag s.host.spiDrop 2 ||| flag s.host.spiErr 1).truncate 8]] }) ∧
    (¬ pcie → ∀ bar2 off bs n, Gives (.pcieMemoryWrite bar2 off bs) s s ∧ Gives (.pcieMemoryRead bar2 off n) s s) ∧
    (s.sys.straps.hostif = false → s.host.up = true → ∀ off,
      (s.sys.rel < 5 → ∀ p, Gives (.pcieConfigRequest off p) s (emit (.config true) s)) ∧
      (5 ≤ s.sys.rel → Gives (.pcieConfigRequest off none) s (emit (.config false) s)) ∧
      (5 ≤ s.sys.rel → ∀ p, Gives (.pcieConfigRequest off (some p)) s
        (emit (.config false) { s with host := { s.host with d3 := p == 3#2 } }))) ∧
    (s.sys.straps.hostif = false → 3 ≤ s.sys.rel → s.err.testBusy = false → ∀ (sp : BitVec 4) (w : BitVec 3),
      Gives (.pcieLinkUp sp w) s { s with host := { s.host with up := true, speed := sp.toNat, width := w.toNat } }) ∧
    (s.sys.straps.hostif = false →
      let reset (t : State) : Prop := bank t .host = {} ∧ t.host.d3 = false ∧ t.mem = s.mem ∧ t.eng = s.eng ∧
        (∀ x, x ≠ Master.host → bank t x = bank s x) ∧ (tabWf 0#32 s.regs = true → lockLen t = 0 ∧ reg t Reg.HOST_DWIN = 0#32 ∧ vecMasked t 63 = true)
      Goes (exec (.pcieLinkDown none) s) (fun t => reset t ∧ t.host.up = false) ∧
      Goes (exec (.pcieHotReset none) s) (fun t => reset t ∧ t.host.up = s.host.up) ∧
      Goes (exec (.functionLevelReset none) s) (fun t => reset t ∧ t.host.up = s.host.up ∧
        (tabWf 0#32 s.regs = true → bitAt (reg t Reg.HOST_STAT) 3 = true))) ∧
    (Goes (exec (.trstN none) s) fun t => bank t .dbg = {} ∧ (∀ x, x ≠ Master.dbg → bank t x = bank s x) ∧ t.regs = s.regs ∧ t.mem = s.mem) ∧
    (∀ m v, (vecsPending s).getLsbD (fld v 5 0) = true →
      (vecMasked s (fld v 5 0) = false → Gives (.sysIrqAck m v) s (emit (vecMsg s (fld v 5 0)) s)) ∧
      (vecMasked s (fld v 5 0) = true → Gives (.sysIrqAck m v) s
        { s with host := { s.host with pba := s.host.pba ||| BitVec.ofNat 64 (2 ^ fld v 5 0) } })) ∧
    (∀ m v, (vecsPending s).getLsbD (fld v 5 0) = false → Gives (.sysIrqAck m v) s s) ∧
    (∀ (n : Fin 64), tabWf 0#32 s.regs = true → vecsPending s = s.host.vecs → Goes (exec (.msixUnmask n) s) fun t =>
      vecMasked t n.val = false ∧ t.host.pba.getLsbD n.val = false ∧
      (s.host.pba.getLsbD n.val = true → s.host.vecs.getLsbD n.val = true → Says s t (vecMsg s n.val)) ∧
      (s.host.pba.getLsbD n.val = false → t.out = s.out)) ∧
    (∀ m v, s.sys.wait = .none →
      (s.host.qbusy = none → Gives (.qspiCmd m v) s (emit (.qspi v (reg s Reg.QSPI_ADDR) (if bitAt v 31 then (qspiBuf s).take (qspiLen v) else []))
        { s with host := { s.host with qbusy := some v, qdone := false } })) ∧
      (s.host.qbusy ≠ none → Gives (.qspiCmd m v) s (progError m Reg.QSPI_CMD s))) ∧
    (∀ v data, s.host.qbusy = some v → tabWf 0#32 s.regs = true → Goes (exec (.qspiDone data) s) fun t =>
      t.host.qbusy = none ∧ t.host.qdone = true ∧ bitAt (reg t Reg.SYS_IRQ_CAUSE) 15 = true ∧
      (∀ i, i < 256 → (qspiBuf t).getD i 0#8 = if bitAt v 31 = false ∧ i < min data.length (min 256 (fld v 23 15)) then data.getD i 0#8 else (qspiBuf s).getD i 0#8))

/-! ### DMA, memory service, Slate and Geode -/

/-- R414–R422: a channel starts, fetches and checks a descriptor, moves its data, goes on or ends; it is aborted, and all stop on an error; MODE and SX
pack 24-bit words into 32-bit ones and back. -/
def Obligations.DmaChannels : Prop :=
  (∀ (s : State) (c : Fin 16), NoInjection s →
     let x := dmaAt s c.val
     let ch (y : DmaCh) (t : State) : State := { t with dma := { t.dma with ch := vput t.dma.ch c.val y } }
     let ended (code resid : Nat) (y : DmaCh) : DmaCh := { y with busy := false, aborting := false, code := code, resid := resid }
     let irq (t : State) : State := orReg Reg.DMA_IRQ (flag true c.val) t
     (∀ m, (bank s m).dma = c.val →
       (x.busy = true → Gives (.dmaStart m) s s ∧ Gives (.dmaAbort m) s (ch { x with aborting := true } s)) ∧
       (x.busy = false → Gives (.dmaAbort m) s s) ∧
       (x.busy = false → bitAt (reg s Reg.DMA_GSTAT) 16 = true → Gives (.dmaStart m) s (progError m Reg.DMA_CTRL s)) ∧
       (x.busy = false → bitAt (reg s Reg.DMA_GSTAT) 16 = false →
         let cur := (regAt s Reg.DMA_HEAD_LO c.val).toNat / 32 * 32 + fld (regAt s Reg.DMA_HEAD_HI c.val) 3 0 * 2 ^ 32
         Gives (.dmaStart m) s (ch { busy := true, cur := cur } s))) ∧
     (let b := readBurst .dma x.cur 32
      let d := descOf (memWords s.mem x.cur 8)
      let y := { x with desc := some d, fetched := x.fetched + 1, circ := if x.fetched = 0 then d.circ else x.circ }
      x.busy = true → x.desc = none → x.aborting = false → x.cur % 32 = 0 → x.cur < 2 ^ 36 → ToCentral b →
      (∀ w ∈ burstWords b, clearingAt s w.a = false ∧ closedAt s .dma false w.a = false ∧ isMeterWord w.a = false ∧ Good s w.a) →
       let u := granted b s
       (d.bad = true → Gives (.dmaDescFetched c) s (ch (ended 4 d.len y) u)) ∧
       (d.bad = false → descAligned x.cur d = true → Gives (.dmaDescFetched c) s (ch y u)) ∧
       (d.bad = false → descAligned x.cur d = false →
         Gives (.dmaDescFetched c) s (irq (ch (ended 3 d.len y) (report (dmaSrc c.val) 0xB01#12 .note 0#32 u))))) ∧
     (∀ d u, x.busy = true → x.aborting = false → x.desc = some d → dmaMove d d.len (fun _ => true) s = (u, true) → u.regs = s.regs →
       u.err = s.err → u.dma = s.dma →
       let y := { x with done := (x.done + 1) % 2 ^ 32 }
       let v := if d.irq then irq u else u
       (d.next = 0 → Gives (.dmaDescDone c) s (ch (ended 1 0 y) v)) ∧
       (d.next ≠ 0 → (x.circ = true ∨ (d.next ≠ x.cur ∧ x.fetched < (reg s Reg.DMA_CHAIN_MAX).toNat)) →
         Gives (.dmaDescDone c) s (ch { y with cur := d.next, desc := none } v)) ∧
       (d.next ≠ 0 → x.circ = false → (d.next = x.cur ∨ (reg s Reg.DMA_CHAIN_MAX).toNat ≤ x.fetched) →
         Gives (.dmaDescDone c) s (irq (ch (ended 7 0 y) (report (dmaSrc c.val) 0xB02#12 .note 0#32 v))))) ∧
     (∀ d n u, x.busy = true → x.aborting = true → x.desc = some d → dmaMove d (dmaGroup d n) (fun _ => true) s = (u, true) → u.dma = s.dma →
       Gives (.dmaAborted c n) s (irq (ch (ended 2 (d.len - dmaGroup d n) x) u))) ∧
     (∀ a r issued, (∀ i, i < 16 → (dmaAt s i).busy = false) → Gives (.dmaHalt c a r true issued) s s) ∧
     (∀ (a : BitVec 36) (r : BitVec 2) (issued : Vector Nat 16), r ≠ 0#2 → x.busy = true → x.desc ≠ none →
       ∀ last, Goes (exec (.dmaHalt c a r last issued) s) fun t => t.dma.errAddr = a.toNat ∧ t.dma.errResp = r.toNat ∧
         (∀ i, i < 16 → (dmaAt t i).busy = false) ∧ (dmaAt t c.val).code = (if last then 6 else 5) ∧
         (∀ i, i < 16 → i ≠ c.val → (dmaAt s i).busy = true → (dmaAt t i).code = 5))) ∧
  (∀ (d : Desc) bs, d.mode = 0 → dmaData d bs = bs) ∧
  (∀ (d : Desc) (bs : List Byte) n, d.mode = 1 → bs.length = 3 * n → (dmaData d bs).length = 4 * n ∧ ∀ i, i < n →
    let v := leNat ((bs.drop (3 * i)).take 3)
    leNat (((dmaData d bs).drop (4 * i)).take 4) = if d.sx then ((BitVec.ofNat 24 v).signExtend 32).toNat else 256 * v) ∧
  (∀ (d : Desc) (bs : List Byte) n, d.mode = 2 → bs.length = 4 * n → (dmaData d bs).length = 3 * n ∧ ∀ i, i < n →
    let v := leNat ((bs.drop (4 * i)).take 4)
    leNat (((dmaData d bs).drop (3 * i)).take 3) = if d.sx then v % 2 ^ 24 else v / 256)

/-- R378–R382, R394: a clearing ends with zeros; Assay saves a row, and restores it or moves it to a spare; DRAM tracking that fails stops
the interface. -/
def Obligations.MemoryService : Prop :=
  ∀ (s : State), NoInjection s →
    (∀ k, k ∈ s.msvc.clearing → Goes (exec (.memClearDone k) s) fun t =>
      (∀ a, memGet t.mem a = if inKind k a then 0#8 else memGet s.mem a) ∧ t.msvc.clearing = s.msvc.clearing.filter (· ≠ k) ∧ t.regs = s.regs) ∧
    (∀ k, k ∉ s.msvc.clearing → Gives (.memClearDone k) s s) ∧
    (∀ (e : Fin 8), let x := assayAt s e.val
      let starts := bitAt (reg s Reg.MEM_ASSAY) 31 = true ∧ x.pass = false ∧ s.sys.mode ≠ .dormant ∧ s.sys.mode ≠ .retain
      (starts → Gives (.assayPass e) s { s with msvc := { s.msvc with assay := vput s.msvc.assay e.val { x with pass := true, last := none } } }) ∧
      (¬ starts → Gives (.assayPass e) s s)) ∧
    (∀ (e : Fin 8) k i b n, let x := assayAt s e.val
      let r : RowId := ⟨k, i, b, n⟩
      x.pass = true → x.borrowed = none → s.sys.mode ≠ .dormant → s.sys.mode ≠ .retain → assayOf k i = e.val → rowOk s r = true →
      (∀ l, x.last = some l → rowOrder l < rowOrder r) → (∀ a ∈ rowAddrs (rowHome s r), Good s a) →
      Goes (exec (.assayRow e k i b n) s) fun t => SameMemory s t ∧ assayAt t e.val = { x with borrowed := some r, last := some r } ∧
        t.regs = s.regs ∧ t.err = s.err) ∧
    (∀ (e : Fin 8) (ends : Bool) ms r, (assayAt s e.val).borrowed = some r →
      let src := memSrc (instBase r.kind r.inst)
      let free := freeSpares s r.kind r.inst r.bank
      let back (t : State) : Prop := (assayAt t e.val).borrowed = none ∧ (assayAt t e.val).pass = ((assayAt s e.val).pass && !ends) ∧
        t.mem = s.mem ∧ (ends = true → t.msvc.assayRes.words = [wOf ms]) ∧ (ends = false → t.msvc.assayRes = s.msvc.assayRes)
      (Goes (exec (.assayRowDone e false ends ms) s) fun t => back t ∧ t.msvc.repairs = s.msvc.repairs ∧ t.msvc.bad = s.msvc.bad ∧ t.err = s.err) ∧
      (∀ n ns, free = n :: ns → Goes (exec (.assayRowDone e true ends ms) s) fun t => back t ∧
        t.msvc.repairs = s.msvc.repairs.filter (fun p => p.at_ ≠ rowHome s r) ++ [{ at_ := rowHome s r, spare := n }] ∧
        t.msvc.bad = (if isSpare r then s.msvc.bad ++ [r] else s.msvc.bad) ∧ t.err = (report src 0x010#12 .note 0#32 s).err) ∧
      (free = [] → Goes (exec (.assayRowDone e true ends ms) s) fun t => back t ∧
        t.msvc.repairs = s.msvc.repairs ∧ t.msvc.bad = s.msvc.bad ++ [r] ∧ t.err = (report src 0x011#12 .fault 0#32 s).err)) ∧
    (∀ step, s.dram.ready = true → bitAt s.dram.cfg 31 = true → fld s.dram.cfg 27 24 < 6 →
      (step = 0#4 → Gives (.dramDriftTrack step) s { s with dram := { s.dram with ready := true, fail := false, failStep := 0 } }) ∧
      (step ≠ 0#4 → Gives (.dramDriftTrack step) s (let u := report (sysSrc 3 0) 0x020#12 .fault 0#32 s
        { u with dram := { u.dram with ready := false, fail := true, failStep := step.toNat } }))) ∧
    (∀ step, s.dram.ready = false → Gives (.dramDriftTrack step) s s)

/-- R385, R386, R388: a STORE is taken or refused with its status, and it is written whole. -/
def Obligations.SlateStores : Prop :=
  ∀ (s : State) (m : Master),
    let mode (l : List Mode) : Prop := s.sys.mode ∈ l
    let any := [Mode.recovery, .service, .shadow, .live]
    let src := (reg s Reg.SLATE_SRC).toNat
    let len := (reg s Reg.SLATE_LEN).toNat
    let fits (lo hi : Nat) : Prop := lo ≤ len ∧ len ≤ hi ∧ len % 64 = 0 ∧ src + len ≤ 0x800000
    let ends (x : SlateState) : State := irqLatch 13 { s with slate := x }
    (s.slate.run ≠ none → ∀ i ∈ ([.storeSettings m, .storeBoot m, .storeRepair m, .storeLog m, .storeTrim m] : List Instr),
      Gives i s (ends { s.slate with status := 2 })) ∧
    (s.slate.run = none → ∀ e ∈ ([(Instr.storeSettings m, 0, any, fits 64 1048512, src, len), (.storeBoot m, 1, [.recovery, .service], fits 0 4194304, src, len),
        (.storeRepair m, 2, any, True, 0, 0), (.storeLog m, 3, any, True, 0, 0)] : List (Instr × Nat × List Mode × Prop × Nat × Nat)),
      match e with
      | (i, item, modes, fit, a, n) =>
        let x := { s.slate with done := false, item := item }
        (¬ mode modes → Gives i s (ends { x with status := 3 })) ∧
        (mode modes → ¬ fit → Gives i s (ends { x with status := 4 })) ∧
        (mode modes → fit → Gives i s { s with slate := { x with run := some ⟨item, a, n⟩, status := 0 } })) ∧
    (s.slate.run = none →
      let bs := memGetBytes s.mem (centralAddr src) 4096
      let x := { s.slate with done := false, item := 4 }
      let crc := crc32 (bs.take 4092) = wOf (leNat (bs.drop 4092))
      let allowed := s.sys.mode = .service ∧ lcNow s = 0
      (¬ allowed → Gives (.storeTrim m) s (ends { x with status := 3 })) ∧
      (allowed → ¬ fits 4096 4096 → Gives (.storeTrim m) s (ends { x with status := 4 })) ∧
      (allowed → fits 4096 4096 → ¬ crc → Gives (.storeTrim m) s (ends { x with status := 5 })) ∧
      (allowed → fits 4096 4096 → crc → Gives (.storeTrim m) s { s with slate := { x with run := some ⟨4, src, 4096⟩, status := 0 } })) ∧
    (s.slate.run = none → Gives .slateStoreDone s s) ∧
    (∀ r, s.slate.run = some r → Goes (exec .slateStoreDone s) fun t =>
      t.slate.run = none ∧ t.slate.done = true ∧ t.slate.status = 1 ∧ (tabWf 0#32 s.regs = true → bitAt (reg t Reg.SYS_IRQ_CAUSE) 13 = true) ∧
      (r.item = 1 → r.len ≤ 0x400000 → r.src + r.len ≤ 0x800000 →
        (∀ i, i < r.len → memGet t.mem (slateBase + 0x10000 + i) = memGet s.mem (centralAddr r.src + i)) ∧
        ∀ a, (a < slateBase + 0x10000 ∨ slateBase + 0x10000 + r.len ≤ a) → memGet t.mem a = memGet s.mem a) ∧
      (r.item = 2 → t.msvc.repaired = 0 ∧ t.slate.repairSeq = s.slate.repairSeq + 1) ∧
      (r.item = 3 → t.slate.logHead = (s.slate.logHead + (logRows s).length) % 30720))

/-- R390–R392: key slots, the root digest, the wipe causes and the life cycle. -/
def Obligations.GeodeAndKeys : Prop :=
  ∀ (s : State) (m : Master),
    let a := centralAddr (reg s Reg.GEODE_SRC).toNat
    let zeroed (n : Nat) : State := writeBytes a (List.replicate n 0#8) s
    let key := memGetBytes s.mem a 32
    let refused := orReg Reg.GEODE_STAT 0x100#32 s
    let modeOk := s.sys.mode ≠ .dormant ∧ s.sys.mode ≠ .retain
    let wiped (bit : Nat) (t : State) : Prop := (∀ b, memGet t.mem b = if inKind .geode b then 0#8 else memGet s.mem b) ∧
      t.geode.root = [] ∧ t.geode.idKey = [] ∧ t.geode.keys = Vector.replicate 4 [] ∧ t.geode.wipeLog = s.geode.wipeLog ||| flag true bit
    (∀ slot, modeOk → s.eng.phase = .held → Gives (.install m slot) s { zeroed 32 with geode := { s.geode with
      keys := vput s.geode.keys slot.toNat key, beaconKeys := vput s.geode.keys slot.toNat key } }) ∧
    (∀ slot, modeOk → s.eng.phase = .drive ∨ s.eng.phase = .finished → Gives (.install m slot) s { zeroed 32 with geode := { s.geode with
      keys := vput s.geode.keys slot.toNat key } }) ∧
    (∀ slot, modeOk → Gives (.clear m slot) s { s with geode := { s.geode with
      keys := vput s.geode.keys slot.toNat [], beaconKeys := vput s.geode.beaconKeys slot.toNat [] } }) ∧
    (∀ slot, ¬ modeOk → Gives (.install m slot) s refused ∧ Gives (.clear m slot) s refused) ∧
    (s.geode.root = [] ∨ lcNow s = 0 → Gives (.provisionRoot m) s { zeroed 48 with geode := { s.geode with root := memGetBytes s.mem a 48 } }) ∧
    (s.geode.root ≠ [] → lcNow s ≠ 0 → Gives (.provisionRoot m) s refused) ∧
    (Goes (exec .vglitch s) fun t => wiped 1 t ∧ t.sys = s.sys) ∧ (Goes (exec .tglitch s) fun t => wiped 2 t ∧ t.sys = s.sys) ∧
    (∀ v, let ok := fld v 31 16 = 0x4C43 ∧ fld v 1 0 = lcNow s + 1 ∧ (s.sys.mode = .recovery ∨ s.sys.mode = .service)
      (¬ ok → Gives (.geodeLcreq m v) s (progError m Reg.GEODE_LCREQ s)) ∧
      (ok → s.slate.run = none → Goes (exec (.geodeLcreq m v) s) fun t =>
        lcNow t = lcNow s + 1 ∧ t.geode.root = [] ∧ t.geode.keys = Vector.replicate 4 [] ∧ t.geode.wipeLog = s.geode.wipeLog ||| 8#32 ∧
        bitAt (reg t Reg.RST_CAUSE) 5 = true ∧ t.eng.phase = .held))

/-! ### Resets, boot, supply and modes -/

/-- R427, R436, R438–R440, R442: which sources reset the device, what such a reset leaves, and the sources of engine reach. -/
def Obligations.ResetSources : Prop :=
  ∀ (s : State), NoInjection s →
    let was := reg s Reg.RST_CAUSE
    let fell (deep : Bool) (bits : Word) (t : State) : Prop :=
      reg t Reg.RST_CAUSE = ((if deep then was &&& 3#32 else was) ||| bits) ∧ t.sys.newCause = s.sys.newCause ||| bits ∧
      t.sys.rel = (if deep = true ∨ s.sys.rel = 0 then 0 else 1) ∧ t.sys.mode = .recovery ∧ t.sys.bootHold = true ∧ t.sys.fw = false ∧ t.sys.rstout = true ∧
      t.eng.phase = .held ∧ t.eng.img = none ∧ t.call.pend = [] ∧ t.twin.hold = false ∧ t.twin.epoch = (if deep then 0#32 else s.twin.epoch) ∧
      t.sys.straps = s.sys.straps ∧ t.sys.vio.extractLsb' 0 4 = s.sys.vio.extractLsb' 0 4 ∧
      (s.eng.phase ≠ .held → t.call.owed = s.call.owed ++ s.call.pend.map fun p => ⟨p.call.id, stRejected, 6, s.eng.stroke, callIrq p.call⟩)
    let plain (deep : Bool) (bits : Word) (t : State) : Prop := fell deep bits t ∧ t.geode = s.geode ∧ (s.slate.run = none → t.mem = s.mem)
    Goes (exec .vsysPowerOn s) (plain true 1#32) ∧ Goes (exec .brownout s) (plain true 2#32) ∧
    Goes (exec .thermTrip s) (fun t => plain false 0x80#32 t ∧ t.sys.therm = true ∧ t.sys.thermLog = true ∧ t.sys.thermInj = false) ∧
    (s.sys.mode ≠ .dormant → Goes (exec .debugReset s) (plain false 0x40#32) ∧
      (∀ ns low, 1000 ≤ ns → s.sys.resetN = false → Goes (exec (.resetN ns low) s) fun t => plain false 4#32 t ∧ t.sys.resetN = low) ∧
      (∀ ns low, 1000 ≤ ns → s.sys.tamper = false → Goes (exec (.tamperN ns low) s) fun t =>
        fell false 16#32 t ∧ t.sys.tamper = low ∧ t.geode.root = [] ∧ t.geode.idKey = [] ∧ t.geode.keys = Vector.replicate 4 [] ∧
        t.geode.wipeLog = s.geode.wipeLog ||| 1#32)) ∧
    (s.sys.mode = .dormant → Gives .debugReset s s ∧ (∀ ns low, Gives (.resetN ns low) s s) ∧ Goes (exec .wake s) (plain false 0x100#32)) ∧
    (s.sys.mode ≠ .dormant → s.sys.mode ≠ .retain → Gives .wake s s) ∧
    (∀ ns low, ns < 100 → s.sys.mode ≠ .dormant → s.sys.resetN = false → Gives (.resetN ns low) s { s with freeCtr := s.freeCtr + 1 }) ∧
    (∀ m v, (v = 0x4B43#32 → Gives (.rstWdtKick m v) s s) ∧ (v ≠ 0x4B43#32 → Goes (exec (.rstWdtKick m v) s) (plain false 8#32))) ∧
    (bitAt (reg s Reg.RST_WDT_CFG) 31 = true → Goes (exec .wdtExpiry s) (plain false 8#32)) ∧
    (bitAt (reg s Reg.RST_WDT_CFG) 31 = false → Gives .wdtExpiry s s) ∧
    (∀ m v, Gives (.rstWdtCfg m v) s (setReg Reg.RST_WDT_CFG ((v &&& 0x8000FFFF#32) ||| (reg s Reg.RST_WDT_CFG &&& 0x80000000#32)) s)) ∧
    (∀ m v, let key := fld v 31 16 = 0x5253 ∧ bitAt v 0 = true
      (key → Goes (exec (.rstCtrl m v) s) (plain false 0x20#32)) ∧ (¬ key → Gives (.rstCtrl m v) s (progError m Reg.RST_CTRL s))) ∧
    (∀ m v, (bitAt v 0 = false ∨ bitAt (reg s Reg.RST_ENG) 0 = true → Gives (.rstEng m v none) s (setReg Reg.RST_ENG (v &&& 1#32) s)) ∧
      (bitAt v 0 = true → bitAt (reg s Reg.RST_ENG) 0 = false → s.eng.phase ≠ .held → tabWf 0#32 s.regs = true →
        Goes (exec (.rstEng m v none) s) fun t => t.eng.phase = .held ∧ t.call.pend = [] ∧ t.twin.hold = false ∧ t.mem = s.mem ∧
          t.eng.img = s.eng.img ∧ t.eng.stroke = s.eng.stroke ∧ t.cores = Vector.replicate 128 {} ∧ reg t Reg.RST_ENG = 1#32 ∧
          reg t Reg.RST_CAUSE = was ||| 0x200#32 ∧
          t.call.owed = s.call.owed ++ s.call.pend.map fun p => ⟨p.call.id, stRejected, 6, s.eng.stroke, callIrq p.call⟩))

/-- R42, R437, R443, R445–R452, R479: the release order, the boot steps, and the engine's release. -/
def Obligations.BootSteps : Prop :=
  ∀ (s : State), NoInjection s →
    let fails (result : Nat) (t : State) : Prop := t.sys.step = 15 ∧ t.sys.result = result ∧ t.sys.mode = .recovery ∧ t.sys.wait = .none ∧
      t.sys.bootHold = true ∧ t.sys.modeHold = true ∧ t.sys.busy = none ∧ t.mem = s.mem
    let held := s.sys.resetN = true ∨ s.sys.tamper = true ∨ s.sys.mode = .dormant ∨ s.sys.mode = .retain
    (∀ x, 0 < s.sys.rel → held → Gives (.resetRelease x) s s) ∧
    (∀ x, s.sys.rel = 0 → Goes (exec (.resetRelease x) s) fun t => t.sys.rel = 1 ∧ t.sys.deep = false ∧ t.mem = s.mem) ∧
    (∀ x, ¬ held → (s.sys.rel = 2 → Gives (.resetRelease x) s { s with fab := {}, dma := {}, sys := { s.sys with rel := 3 } }) ∧
      (s.sys.rel = 5 → Gives (.resetRelease x) s { s with sys := { s.sys with rel := 6 } }) ∧
      (s.sys.rel = 7 → Goes (exec (.resetRelease x) s) fun t => t.sys.rel = 8 ∧ t.sys.rstout = false) ∧
      (s.sys.rel = 4 → s.msvc.clearing ≠ [] → Gives (.resetRelease x) s s) ∧
      (s.sys.rel = 3 → s.sys.retained = false → Goes (exec (.resetRelease x) s) fun t => t.sys.rel = 4 ∧
        t.msvc.clearing = [.coreProg, .coreData, .crew, .central, .matrix, .portBuf, .geode]) ∧
      (s.sys.rel = 1 → falseStart s = false → lcNow s < 2 → x.straps.bootSrc ≠ 3#2 → s.geode.root ≠ [] → trimGood s = true →
        Goes (exec (.resetRelease x) s) fun t => t.sys.rel = 2 ∧ t.sys.step = 2 ∧ t.sys.mode = .recovery ∧ t.sys.bootHold = true ∧
          t.sys.wait = .firmware ∧ t.sys.straps = x.straps ∧ t.sys.newCause = 0#32 ∧ t.geode.idKey ≠ [] ∧ t.mem = s.mem)) ∧
    (∀ (b : List Byte), s.sys.wait = .firmware → 5 ≤ s.sys.rel → s.sys.straps.bootSrc = 1#2 →
      (∀ p, envOpen s.geode.root 1 524288 b = some p → Gives (.firmwareLoad (.bytes b)) s (let u := writeBytes (centralAddr 0x780000) p (bootReads 0 b.length s)
        { u with sys := { s.sys with fw := true, fwLen := (b.length + 63) / 64 * 64, step := 4, wait := .engine, go := false } })) ∧
      (envOpen s.geode.root 1 524288 b = none → Goes (exec (.firmwareLoad (.bytes b)) s) (fails 3)) ∧
      Goes (exec (.firmwareLoad .failed) s) (fails 4)) ∧
    (∀ (b : List Byte), s.sys.wait = .engine → 5 ≤ s.sys.rel → s.sys.straps.bootSrc = 1#2 →
      Goes (exec (.engineImageLoad .failed) s) (fails 4) ∧
      (let r := imageLoad b (bootReads s.sys.fwLen b.length s)
       r.2 = true → r.1.sys.late = [] → Goes (exec (.engineImageLoad (.bytes b)) s) fun t =>
        t.mem = r.1.mem ∧ t.eng = r.1.eng ∧ t.sys.wait = .none ∧ t.sys.bootHold = false ∧ t.sys.step = 5 ∧
        t.sys.result = 0)) ∧
    (s.sys.wait ≠ .none → s.sys.straps.bootSrc = 2#2 → s.sys.go = false → 5 ≤ s.sys.rel → Goes (exec .bootHostTimeout s) (fails 8)) ∧
    (s.sys.go = true → Gives .bootHostTimeout s s) ∧
    (∀ m v, Gives (.rstBootGo m v) s (if bitAt v 0 then { s with sys := { s.sys with go := true } } else s)) ∧
    (∀ m v ms, (v ≠ 0x4F4B#32 → Gives (.sysBootOk m v ms) s (progError m Reg.SYS_BOOT_OK s)) ∧
      (v = 0x4F4B#32 → (ms ≤ 10000 ∨ s.sys.mode = .recovery) →
        Gives (.sysBootOk m v ms) s (setReg Reg.RST_FSTART (reg s Reg.RST_FSTART &&& ~~~7#32) s)) ∧
      (v = 0x4F4B#32 → 10000 < ms → s.sys.mode ≠ .recovery → Gives (.sysBootOk m v ms) s s)) ∧
    (∀ (t0 : Time), engineFree s = false → Gives (.engineRelease t0) s s) ∧
    (∀ (t0 : Time), engineFree s = true → Goes (exec (.engineRelease t0) s) fun t =>
      let d : Nat := 65536000000000
      let k := BitVec.ofNat 64 ((t0 * sps s + d - 1) / d + 2)
      t.eng.stroke = k ∧ t.eng.phase = .waiting ∧ t.eng.detBase = k ∧ t.twin.last = k ∧ t.twin.peerSeen = false ∧ t.twin.inSync = false ∧
      t.scene.arm = none ∧ t.sys.busy = none ∧ t.sys.step = 5 ∧ t.sys.retained = false ∧
      t.sys.mode = (if s.sys.mode = .recovery then (if s.sys.straps.twinEn then .shadow else .live) else s.sys.mode) ∧
      t.sys.rel = (if s.sys.rel = 6 then 7 else s.sys.rel))

/-- R428, R429, R454, R492, R493: the supply and thermal monitors, the auxiliary outputs and the I/O banks. -/
def Obligations.SupplyAndBanks : Prop :=
  ∀ (s : State), NoInjection s →
    (∀ e ∈ ([(.vsysLow, 0x800#12, .fault, 1#32), (.vsysHigh, 0x801#12, .fault, 2#32), (.railFault, 0x802#12, .fatal, 4#32),
        (.thermWarn, 0x804#12, .note, 32#32), (.thermFault, 0x805#12, .fault, 64#32)] : List (Instr × BitVec 12 × Sev × Word)),
      Gives e.1 s (orReg Reg.PWR_STAT e.2.2.2 (report (sysSrc 6 0) e.2.1 e.2.2.1 0#32 s))) ∧
    (∀ b, (bitAt (reg s Reg.PWR_AUX) (if b then 1 else 0) = false ∨ s.sys.mode = .dormant ∨ s.sys.mode = .retain) → Gives (.auxOverload b) s s) ∧
    (∀ b, bitAt (reg s Reg.PWR_AUX) (if b then 1 else 0) = true → s.sys.mode ≠ .dormant → s.sys.mode ≠ .retain → tabWf 0#32 s.regs = true → Goes (exec (.auxOverload b) s) fun t =>
      reg t Reg.PWR_AUX = reg s Reg.PWR_AUX &&& ~~~(if b then 2#32 else 1#32) ∧ bitAt (reg t Reg.PWR_STAT) (if b then 4 else 3) = true ∧
      t.err = (report (sysSrc 6 0) 0x803#12 .degrade 0#32 s).err) ∧
    (∀ m v, Gives (.pwrAux m v) s (setReg Reg.PWR_AUX (v &&& 3#32) s)) ∧
    (∀ mv tj mw, Gives (.pwrMonPublish mv tj mw) s { s with sys := { s.sys with mon :=
      { valid := true, gen := if s.sys.mon.gen < 65535 then s.sys.mon.gen + 1 else 1, words := [mv, tj, mw] } } }) ∧
    (∀ (b : Fin 6), b.val ≠ 4 → Goes (exec (.vioLow b) s) fun t => t.sys.vio = s.sys.vio ||| BitVec.ofNat 6 (2 ^ b.val) ∧ t.mem = s.mem ∧
      (tabWf 0#32 s.regs = true → bitAt (reg t Reg.PIN_STAT) b.val = true) ∧
      t.err = (report (sysSrc 6 (b.val + 1)) 0x807#12 .fault 0#32 s).err) ∧
    (s.sys.mode ≠ .dormant → Goes (exec (.vioLow 4) s) fun t => t.sys.resetN = true ∧ t.eng.phase = .held ∧ t.sys.vio = s.sys.vio ||| 16#6 ∧
      reg t Reg.RST_CAUSE = reg s Reg.RST_CAUSE ||| 4#32) ∧
    (∀ (b : Fin 6) (cls : BitVec 2), Gives (.vioRestore b cls) s { s with sys := { s.sys with
      vio := s.sys.vio &&& ~~~BitVec.ofNat 6 (2 ^ b.val), vioCls := vput s.sys.vioCls b.val cls.toNat
      resetN := if b.val = 4 ∧ s.sys.vio.getLsbD 4 = true then false else s.sys.resetN } })

/-- R23, R24, R34, R432–R434, R454: mode requests, RETAIN and its wake, and debug access to a core. -/
def Obligations.ModesAndDebug : Prop :=
  ∀ (s : State) (m : Master), NoInjection s → s.err.testBusy = false →
    let result (n : Nat) : State := { s with sys := { s.sys with modeRes := n } }
    let reqs : List (Instr × Mode × Prop) :=
      [(.reqRetain m, .retain, s.sys.mode = .live ∨ s.sys.mode = .shadow),
       (.reqDormant m, .dormant, s.sys.mode ∈ [Mode.live, .shadow, .recovery, .service]),
       (.reqRecovery m, .recovery, s.sys.mode ∈ [Mode.live, .shadow, .service]),
       (.reqService m, .service, s.sys.mode ∈ [Mode.live, .shadow, .recovery] ∧ lcNow s ≠ 3 ∧ ¬ (s.sys.straps.twinEn = true ∧ s.twin.hold = true))]
    (∀ e ∈ reqs, (s.sys.busy ≠ none → Gives e.1 s (result 3)) ∧
      (s.sys.busy = none → ¬ e.2.2 → Gives e.1 s (result 2)) ∧
      (s.sys.busy = none → e.2.2 → (s.sys.mode = .live ∨ s.sys.mode = .shadow) → sps s ≠ 0 →
        Gives e.1 s { s with sys := { s.sys with busy := some e.2.1, ramped := false, modeRes := 0 } })) ∧
    (s.sys.busy = none → s.sys.mode = .recovery → lcNow s ≠ 3 → ¬ (s.sys.straps.twinEn = true ∧ s.twin.hold = true) → s.eng.phase = .held →
      Gives (.reqService m) s { s with sys := { s.sys with mode := .service, modeHold := true, busy := none, ramped := false, modeRes := 1 } }) ∧
    (s.sys.busy ≠ none → Gives (.reqRun m) s (result 3)) ∧
    (s.sys.busy = none → (s.sys.mode ≠ .recovery ∨ 1 < lcNow s) → Gives (.reqRun m) s (result 2)) ∧
    (s.sys.busy = none → s.sys.mode = .recovery → lcNow s ≤ 1 → s.sys.fw = true → s.eng.img ≠ none → s.eng.imgBad = false →
      Gives (.reqRun m) s { s with sys := { s.sys with
        busy := some (if s.sys.straps.twinEn then .shadow else .live), modeRes := 0
        wait := .none, step := 4, modeHold := false, bootHold := false } }) ∧
    (s.sys.busy = some .retain → s.sys.modeHold = true → (∀ i, i < 8 → (assayAt s i).borrowed = none) → Goes (exec .retainEnter s) fun t =>
      t.sys.mode = .retain ∧ t.sys.busy = none ∧ t.sys.rel = 2 ∧ t.eng = s.eng ∧ t.geode = s.geode ∧ t.port = {} ∧
      (retFits { s with sys := { s.sys with retCopy := none } } = false → t.sys.retCopy = none ∧ t.dram.ready = false) ∧
      (retFits { s with sys := { s.sys with retCopy := none } } = true → t.sys.retCopy = some s.patch.sinks)) ∧
    (s.sys.mode = .retain →
      (s.sys.retCopy = none → Goes (exec .wake s) fun t => t.sys.retained = true ∧ t.sys.mode = .recovery ∧ t.eng.img = none ∧ t.sys.wait = .engine ∧
        (tabWf 0#32 s.regs = true → bitAt (reg t Reg.PWR_STAT) 7 = true)) ∧
      (s.sys.retCopy ≠ none → Goes (exec .wake s) fun t => t.sys.retained = true ∧ t.sys.mode = .recovery ∧ t.eng.img = s.eng.img ∧ t.sys.wait = .none ∧
        t.regs = s.regs)) ∧
    (∀ (c : CoreId),
      let k := coreAt s c.val
      let noted (t : State) : Prop := (tabWf 0#32 s.regs = true → bitAt (reg t Reg.DET_STAT) 6 = true) ∧ t.mem = s.mem ∧
        ∀ n, n ≠ c.val → coreAt t n = coreAt s n
      (k.run ≠ .reset → k.run ≠ .halted → Goes (exec (.debugIntrusion (.halt c)) s) fun t =>
        noted t ∧ coreAt t c.val = { k with run := .halted, paused := k.run }) ∧
      (k.run = .halted → k.paused = .running → Goes (exec (.debugIntrusion (.resume c)) s) fun t =>
        coreAt t c.val = { k with run := .running, paused := .reset } ∧ t.regs = s.regs) ∧
      (k.run = .running → k.paused = .reset → Gives (.debugIntrusion (.step c)) s
        (coreHalt c.val (runBundle c.val (bundleAt s c.val) (detLapse detDebug s)))) ∧
      (k.run = .halted → k.paused ≠ .running → Gives (.debugIntrusion (.step c)) s (detLapse detDebug s)) ∧
      (∀ r, Goes (exec (.debugIntrusion (.write c r)) s) fun t => noted t ∧ coreAt t c.val = coreRegWrite r k) ∧
      (∀ i v, Goes (exec (.debugIntrusion (.write c (.d i v))) s) fun t => noted t ∧ coreAt t c.val = { k with d := vput k.d i.toNat v }))

/-! ### Records, injection and self-test -/

/-- R34, R461–R464: a report sets its lapse bits and joins a record of its stroke in the region and chip logs, or makes a new one, replacing
the newest of a full log; ERR_POP removes the oldest record or zeroes LOST. -/
def Obligations.ErrorLogs : Prop :=
  ∀ (s : State),
    let log (t : State) (i : Nat) : Log := vget {} t.err.logs i
    (∀ (r : Report),
      let same (x : LogRec) : Prop := sameRec x r.source r.code false (engHeld s) s.eng.stroke s.err.win = true
      let new (i : Nat) : LogRec :=
        ⟨r.source, r.code, r.sev, false, engHeld s, 1, (log s i).seq, s.eng.stroke, s.err.win, r.info⟩
      let takes (i cap : Nat) (t : State) : Prop :=
        ((∀ x ∈ (log s i).recs, ¬ same x) → (log s i).recs.length < cap →
          log t i = ⟨(log s i).recs ++ [new i], (log s i).lost, (log s i).seq + 1⟩) ∧
        ((∀ x ∈ (log s i).recs, ¬ same x) → cap ≤ (log s i).recs.length →
          log t i = ⟨(log s i).recs.dropLast ++ [new i], satInc 65535 (log s i).lost, (log s i).seq + 1⟩) ∧
        (∀ pre x post, (log s i).recs = pre ++ x :: post → (∀ y ∈ pre, ¬ same y) → same x →
          log t i = ⟨pre ++ { x with count := satInc 65535 x.count } :: post, (log s i).lost, (log s i).seq⟩)
      let region := (r.source.extractLsb' 8 5).toNat
      Goes (exec (.collectReport r) s) fun t => takes 7 256 t ∧
        (r.source.extractLsb' 13 3 ≠ 0#3 → region < 7 → takes region 32 t) ∧
        (∀ i, i < 7 → (i ≠ region ∨ r.source.extractLsb' 13 3 = 0#3) → log t i = log s i) ∧
        (tabWf 0#32 s.regs = true → reg t Reg.DET_STAT = reg s Reg.DET_STAT ||| r.lapse.setWidth 32) ∧
        (reg s Reg.DET_STAT = 0#32 → r.lapse.setWidth 32 ≠ 0#32 → t.eng.detFirst = s.eng.stroke) ∧ t.mem = s.mem) ∧
    (∀ m v, let l := log s (fld v 2 0)
      let put (x : Log) : State := { s with err := { s.err with logs := vput s.err.logs (fld v 2 0) x } }
      (bitAt v 8 = false → Gives (.errPop m v) s (put { l with recs := l.recs.drop 1 })) ∧
      (bitAt v 8 = true → Gives (.clrLost m v) s (put { l with lost := 0 }))) ∧
    (∀ i, (s.eng.phase = .held → Gives (.coalesceWindow i) s { s with err := { s.err with win := i } }) ∧
      (s.eng.phase ≠ .held → Gives (.coalesceWindow i) s s))

/-- R428, R465–R470: arming and disarming an injection slot and what a fired slot does; which tests run, and how one ends. -/
def Obligations.InjectionAndTests : Prop :=
  ∀ (s : State) (m : Master), (bank s m).inj < 8 →
    let n := (bank s m).inj
    let x := vget {} s.err.inj n
    let put (y : InjSlot) (t : State) : State := { t with err := { t.err with inj := vput t.err.inj n y } }
    (NoInjection s → ∀ v, fld v 1 0 = 1 ∨ fld v 1 0 = 2 →
      let named := hasDetector (x.tgt.extractLsb' 16 16) (x.tgt.extractLsb' 4 12) = true
      let fired := x.fired && !bitAt v 4
      (fld v 31 16 ≠ 0x494A → Gives (.injArm m v) s (progError m Reg.ERR_INJ_CTRL s)) ∧
      (fld v 31 16 = 0x494A → named → Gives (.injArm m v) s (put { x with
        act := bitAt v 3, fired := fired, bad := false, cnt := 0, mode := v.extractLsb' 0 2 } s)) ∧
      (fld v 31 16 = 0x494A → ¬ named → Gives (.injArm m v) s (put { x with act := bitAt v 3, fired := fired, bad := true, mode := 0#2 }
        (report 0#16 0xC00#12 .note x.tgt s)))) ∧
    (∀ v, fld v 1 0 = 0 → Gives (.injDisarm m v) s (put { x with mode := 0#2, act := bitAt v 3, fired := x.fired && !bitAt v 4 } s)) ∧
    (∀ j, j < 8 → let y := vget {} s.err.inj j
      slotNames y (sysSrc 6 0) 0x800#12 = true → (∀ i, i < 8 → i ≠ j → (vget {} s.err.inj i).mode = 0#2) → tabWf 0#32 s.regs = true →
      Goes (exec .vsysLow s) fun t =>
        vget {} t.err.inj j = { y with fired := true, cnt := satInc max32 y.cnt, mode := if y.mode = 1#2 then 0#2 else y.mode } ∧
        bitAt (reg t Reg.PWR_STAT) 0 = (bitAt (reg s Reg.PWR_STAT) 0 || y.act)) ∧
    (∀ j, j < 8 → let y := vget {} s.err.inj j
      slotNames y (sysSrc 6 0) 0x806#12 = true → y.act = false → (∀ i, i < 8 → i ≠ j → (vget {} s.err.inj i).mode = 0#2) →
      Goes (exec .thermTrip s) fun t => t.sys = s.sys ∧ t.eng.phase = s.eng.phase ∧ t.mem = s.mem ∧
        vget {} t.err.inj j = { y with fired := true, cnt := satInc max32 y.cnt, mode := if y.mode = 1#2 then 0#2 else y.mode }) ∧
    (let published (status kind : Nat) (ws : List Word) (t : State) : State := irqLatch 14 { t with err := { t.err with
        res := { valid := true, gen := genNext t.err.res.gen, words := ws }, resStatus := status, resKind := kind } }
     let zeros : List Word := [0#32, 0#32, 0#32]
     let arg := reg s Reg.TEST_ARG
     let runs (k : Nat) (t : State) : State := { t with err := { t.err with testBusy := true, testKind := k, testArg := arg } }
     let background : List (Instr × Nat) := [(.assayNow m, 1), (.serdesAdapt m, 2), (.dramTrack m, 3)]
     let intrusive : List (Instr × Nat) := [(.memBist m, 0x10), (.coreBist m, 0x11), (.sliceTest m, 0x12), (.sapLoop m, 0x13), (.serdesLoop m, 0x14),
       (.dramTrain m, 0x15), (.tsenseCal m, 0x16)]
     s.fab.wait = [] →
     (s.err.testBusy = true → ∀ e ∈ background ++ intrusive, Gives e.1 s (published 4 e.2 zeros s)) ∧
     (s.err.testBusy = false → s.sys.mode ≠ .service → ∀ e ∈ intrusive, Gives e.1 s (published 3 e.2 zeros s)) ∧
     (s.err.testBusy = false → s.sys.mode = .dormant ∨ s.sys.mode = .retain → ∀ e ∈ background, Gives e.1 s (published 3 e.2 zeros s)) ∧
     (s.err.testBusy = false → s.sys.mode ≠ .dormant → s.sys.mode ≠ .retain →
       Gives (.serdesAdapt m) s (runs 2 s) ∧ Gives (.dramTrack m) s (runs 3 s) ∧
       (let a := assayAt s (fld arg 2 0)
        let b := if a.pass then a else { a with pass := true, last := none }
        Gives (.assayNow m) s (runs 1 { s with msvc := { s.msvc with assay := vput s.msvc.assay (fld arg 2 0) b } }))) ∧
     (s.err.testBusy = false → s.sys.mode = .service →
       (∀ e ∈ ([(.coreBist m, 0x11), (.sliceTest m, 0x12), (.dramTrain m, 0x15), (.tsenseCal m, 0x16)] : List (Instr × Nat)), Gives e.1 s (runs e.2 s)) ∧
       (∀ k, kindOf (fld arg 3 0) = some k → fld arg 10 4 < kindInst k → Goes (exec (.memBist m) s) fun t => t.err.testBusy = true ∧ t.err.testKind = 0x10 ∧
         (∀ a, memGet t.mem a = if inInst k (fld arg 10 4) a then 0#8 else memGet s.mem a) ∧
         t.eng.img = (if k = .coreProg ∨ k = .coreData ∨ k = .crew then none else s.eng.img)) ∧
       (fld arg 5 0 < 48 → Goes (exec (.sapLoop m) s) fun t => t.err.testBusy = true ∧ t.err.testKind = 0x13 ∧ t.mem = s.mem) ∧
       (Goes (exec (.serdesLoop m) s) fun t => t.err.testBusy = true ∧ t.err.testKind = 0x14 ∧ t.mem = s.mem ∧
         (fld arg 1 0 = 2 → t.twin.up = false) ∧ (fld arg 1 0 = 3 → s.sys.straps.hostif = false → t.host.up = false))) ∧
     (NoInjection s → s.err.testBusy = true → s.err.testKind ∈ [1, 2, 0x11, 0x12, 0x14, 0x16] → ∀ fails first us rows,
       let t := { s with err := { s.err with testBusy := false } }
       Gives (.testComplete true false fails first us rows) s (published 1 s.err.testKind [fails, first, us] t) ∧
       Gives (.testComplete false false fails first us rows) s (published 2 s.err.testKind [fails, first, us]
         (report 0#16 0xC10#12 .fault (wOf s.err.testKind) t)) ∧
       Gives (.testComplete true true fails first us rows) s (published 2 s.err.testKind [fails, first, us]
         (report 0#16 0xC11#12 .degrade (wOf s.err.testKind) t))) ∧
     (s.err.testBusy = false → ∀ p c fails first us rows, Gives (.testComplete p c fails first us rows) s s))

/-! ### The machine -/

/-- A step takes the command at the front of the queue and runs it with the queue's rest; with nothing queued the block stays as it is
(log entry 2). -/
def Obligations.StepRunsFront : Prop :=
  (∀ (c : Instr) (q : List Instr) (s : State), s.pending = c :: q → step s = exec c { s with pending := q }) ∧
  (∀ (s : State), s.pending = [] → step s = .next s)

/-- Every step from a state whose memories have the canonical form gives one whose memories have it, and takes exactly the front command
from the queue; and a step always goes on. -/
def Obligations.StepKeepsForm : Prop :=
  ∀ (s : State), MemoryOk s → Goes (step s) fun t => MemoryOk t ∧ t.pending = s.pending.tail

/-- R41, R381, R438, R440, R443, R444, R455: the block after power-on. A register for which the spec states no value takes the value of log entries
8 and 9. -/
def Obligations.AfterReset : Prop :=
  MemoryOk State.reset ∧ State.reset.pending = [] ∧ (∀ a, a < 0x1000FFC ∨ 0x1001003 ≤ a → memGet State.reset.mem a = 0#8) ∧ lcNow State.reset = 1 ∧
  State.reset.sys.mode = .recovery ∧ State.reset.sys.rstout = true ∧
  State.reset.eng.phase = .held ∧ State.reset.eng.img = none ∧ State.reset.call.pend = [] ∧ State.reset.twin.epoch = 0#32 ∧
  (∀ n, n < 128 → coreAt State.reset n = {}) ∧ (coreAt State.reset 0).run = .reset ∧ tabWf 0#32 State.reset.regs = true ∧
  reg State.reset Reg.TWIN_POL = 0x1F#32 ∧ reg State.reset Reg.DET_STAT = 0#32
end

