-- ==== Sys2Proof/Laws/State.lean ====
section
/-! SUPPORT. One lemma per field per shared update of the state: what the update leaves alone, and what it sets. -/

namespace Sys2Proof.Machine

/-! ### setReg -/

@[simp] theorem setReg_pending (off : Nat) (v : Word) (s : State) : (setReg off v s).pending = s.pending := rfl
@[simp] theorem setReg_freeCtr (off : Nat) (v : Word) (s : State) : (setReg off v s).freeCtr = s.freeCtr := rfl
@[simp] theorem setReg_mem (off : Nat) (v : Word) (s : State) : (setReg off v s).mem = s.mem := rfl
@[simp] theorem setReg_stage (off : Nat) (v : Word) (s : State) : (setReg off v s).stage = s.stage := rfl
@[simp] theorem setReg_act (off : Nat) (v : Word) (s : State) : (setReg off v s).act = s.act := rfl
@[simp] theorem setReg_banks (off : Nat) (v : Word) (s : State) : (setReg off v s).banks = s.banks := rfl
@[simp] theorem setReg_err (off : Nat) (v : Word) (s : State) : (setReg off v s).err = s.err := rfl
@[simp] theorem setReg_call (off : Nat) (v : Word) (s : State) : (setReg off v s).call = s.call := rfl
@[simp] theorem setReg_eng (off : Nat) (v : Word) (s : State) : (setReg off v s).eng = s.eng := rfl
@[simp] theorem setReg_cores (off : Nat) (v : Word) (s : State) : (setReg off v s).cores = s.cores := rfl
@[simp] theorem setReg_crews (off : Nat) (v : Word) (s : State) : (setReg off v s).crews = s.crews := rfl
@[simp] theorem setReg_mix (off : Nat) (v : Word) (s : State) : (setReg off v s).mix = s.mix := rfl
@[simp] theorem setReg_patch (off : Nat) (v : Word) (s : State) : (setReg off v s).patch = s.patch := rfl
@[simp] theorem setReg_scene (off : Nat) (v : Word) (s : State) : (setReg off v s).scene = s.scene := rfl
@[simp] theorem setReg_fin (off : Nat) (v : Word) (s : State) : (setReg off v s).fin = s.fin := rfl
@[simp] theorem setReg_port (off : Nat) (v : Word) (s : State) : (setReg off v s).port = s.port := rfl
@[simp] theorem setReg_net (off : Nat) (v : Word) (s : State) : (setReg off v s).net = s.net := rfl
@[simp] theorem setReg_ref (off : Nat) (v : Word) (s : State) : (setReg off v s).ref = s.ref := rfl
@[simp] theorem setReg_twin (off : Nat) (v : Word) (s : State) : (setReg off v s).twin = s.twin := rfl
@[simp] theorem setReg_msvc (off : Nat) (v : Word) (s : State) : (setReg off v s).msvc = s.msvc := rfl
@[simp] theorem setReg_slate (off : Nat) (v : Word) (s : State) : (setReg off v s).slate = s.slate := rfl
@[simp] theorem setReg_geode (off : Nat) (v : Word) (s : State) : (setReg off v s).geode = s.geode := rfl
@[simp] theorem setReg_dram (off : Nat) (v : Word) (s : State) : (setReg off v s).dram = s.dram := rfl
@[simp] theorem setReg_fab (off : Nat) (v : Word) (s : State) : (setReg off v s).fab = s.fab := rfl
@[simp] theorem setReg_dma (off : Nat) (v : Word) (s : State) : (setReg off v s).dma = s.dma := rfl
@[simp] theorem setReg_sys (off : Nat) (v : Word) (s : State) : (setReg off v s).sys = s.sys := rfl
@[simp] theorem setReg_host (off : Nat) (v : Word) (s : State) : (setReg off v s).host = s.host := rfl
@[simp] theorem setReg_out (off : Nat) (v : Word) (s : State) : (setReg off v s).out = s.out := rfl

/-! ### orReg -/

@[simp] theorem orReg_pending (off : Nat) (v : Word) (s : State) : (orReg off v s).pending = s.pending := rfl
@[simp] theorem orReg_freeCtr (off : Nat) (v : Word) (s : State) : (orReg off v s).freeCtr = s.freeCtr := rfl
@[simp] theorem orReg_mem (off : Nat) (v : Word) (s : State) : (orReg off v s).mem = s.mem := rfl
@[simp] theorem orReg_stage (off : Nat) (v : Word) (s : State) : (orReg off v s).stage = s.stage := rfl
@[simp] theorem orReg_act (off : Nat) (v : Word) (s : State) : (orReg off v s).act = s.act := rfl
@[simp] theorem orReg_banks (off : Nat) (v : Word) (s : State) : (orReg off v s).banks = s.banks := rfl
@[simp] theorem orReg_err (off : Nat) (v : Word) (s : State) : (orReg off v s).err = s.err := rfl
@[simp] theorem orReg_call (off : Nat) (v : Word) (s : State) : (orReg off v s).call = s.call := rfl
@[simp] theorem orReg_eng (off : Nat) (v : Word) (s : State) : (orReg off v s).eng = s.eng := rfl
@[simp] theorem orReg_cores (off : Nat) (v : Word) (s : State) : (orReg off v s).cores = s.cores := rfl
@[simp] theorem orReg_crews (off : Nat) (v : Word) (s : State) : (orReg off v s).crews = s.crews := rfl
@[simp] theorem orReg_mix (off : Nat) (v : Word) (s : State) : (orReg off v s).mix = s.mix := rfl
@[simp] theorem orReg_patch (off : Nat) (v : Word) (s : State) : (orReg off v s).patch = s.patch := rfl
@[simp] theorem orReg_scene (off : Nat) (v : Word) (s : State) : (orReg off v s).scene = s.scene := rfl
@[simp] theorem orReg_fin (off : Nat) (v : Word) (s : State) : (orReg off v s).fin = s.fin := rfl
@[simp] theorem orReg_port (off : Nat) (v : Word) (s : State) : (orReg off v s).port = s.port := rfl
@[simp] theorem orReg_net (off : Nat) (v : Word) (s : State) : (orReg off v s).net = s.net := rfl
@[simp] theorem orReg_ref (off : Nat) (v : Word) (s : State) : (orReg off v s).ref = s.ref := rfl
@[simp] theorem orReg_twin (off : Nat) (v : Word) (s : State) : (orReg off v s).twin = s.twin := rfl
@[simp] theorem orReg_msvc (off : Nat) (v : Word) (s : State) : (orReg off v s).msvc = s.msvc := rfl
@[simp] theorem orReg_slate (off : Nat) (v : Word) (s : State) : (orReg off v s).slate = s.slate := rfl
@[simp] theorem orReg_geode (off : Nat) (v : Word) (s : State) : (orReg off v s).geode = s.geode := rfl
@[simp] theorem orReg_dram (off : Nat) (v : Word) (s : State) : (orReg off v s).dram = s.dram := rfl
@[simp] theorem orReg_fab (off : Nat) (v : Word) (s : State) : (orReg off v s).fab = s.fab := rfl
@[simp] theorem orReg_dma (off : Nat) (v : Word) (s : State) : (orReg off v s).dma = s.dma := rfl
@[simp] theorem orReg_sys (off : Nat) (v : Word) (s : State) : (orReg off v s).sys = s.sys := rfl
@[simp] theorem orReg_host (off : Nat) (v : Word) (s : State) : (orReg off v s).host = s.host := rfl
@[simp] theorem orReg_out (off : Nat) (v : Word) (s : State) : (orReg off v s).out = s.out := rfl

/-! ### setRegAt -/

@[simp] theorem setRegAt_pending (off inst : Nat) (v : Word) (s : State) : (setRegAt off inst v s).pending = s.pending := rfl
@[simp] theorem setRegAt_freeCtr (off inst : Nat) (v : Word) (s : State) : (setRegAt off inst v s).freeCtr = s.freeCtr := rfl
@[simp] theorem setRegAt_mem (off inst : Nat) (v : Word) (s : State) : (setRegAt off inst v s).mem = s.mem := rfl
@[simp] theorem setRegAt_stage (off inst : Nat) (v : Word) (s : State) : (setRegAt off inst v s).stage = s.stage := rfl
@[simp] theorem setRegAt_act (off inst : Nat) (v : Word) (s : State) : (setRegAt off inst v s).act = s.act := rfl
@[simp] theorem setRegAt_banks (off inst : Nat) (v : Word) (s : State) : (setRegAt off inst v s).banks = s.banks := rfl
@[simp] theorem setRegAt_err (off inst : Nat) (v : Word) (s : State) : (setRegAt off inst v s).err = s.err := rfl
@[simp] theorem setRegAt_call (off inst : Nat) (v : Word) (s : State) : (setRegAt off inst v s).call = s.call := rfl
@[simp] theorem setRegAt_eng (off inst : Nat) (v : Word) (s : State) : (setRegAt off inst v s).eng = s.eng := rfl
@[simp] theorem setRegAt_cores (off inst : Nat) (v : Word) (s : State) : (setRegAt off inst v s).cores = s.cores := rfl
@[simp] theorem setRegAt_crews (off inst : Nat) (v : Word) (s : State) : (setRegAt off inst v s).crews = s.crews := rfl
@[simp] theorem setRegAt_mix (off inst : Nat) (v : Word) (s : State) : (setRegAt off inst v s).mix = s.mix := rfl
@[simp] theorem setRegAt_patch (off inst : Nat) (v : Word) (s : State) : (setRegAt off inst v s).patch = s.patch := rfl
@[simp] theorem setRegAt_scene (off inst : Nat) (v : Word) (s : State) : (setRegAt off inst v s).scene = s.scene := rfl
@[simp] theorem setRegAt_fin (off inst : Nat) (v : Word) (s : State) : (setRegAt off inst v s).fin = s.fin := rfl
@[simp] theorem setRegAt_port (off inst : Nat) (v : Word) (s : State) : (setRegAt off inst v s).port = s.port := rfl
@[simp] theorem setRegAt_net (off inst : Nat) (v : Word) (s : State) : (setRegAt off inst v s).net = s.net := rfl
@[simp] theorem setRegAt_ref (off inst : Nat) (v : Word) (s : State) : (setRegAt off inst v s).ref = s.ref := rfl
@[simp] theorem setRegAt_twin (off inst : Nat) (v : Word) (s : State) : (setRegAt off inst v s).twin = s.twin := rfl
@[simp] theorem setRegAt_msvc (off inst : Nat) (v : Word) (s : State) : (setRegAt off inst v s).msvc = s.msvc := rfl
@[simp] theorem setRegAt_slate (off inst : Nat) (v : Word) (s : State) : (setRegAt off inst v s).slate = s.slate := rfl
@[simp] theorem setRegAt_geode (off inst : Nat) (v : Word) (s : State) : (setRegAt off inst v s).geode = s.geode := rfl
@[simp] theorem setRegAt_dram (off inst : Nat) (v : Word) (s : State) : (setRegAt off inst v s).dram = s.dram := rfl
@[simp] theorem setRegAt_fab (off inst : Nat) (v : Word) (s : State) : (setRegAt off inst v s).fab = s.fab := rfl
@[simp] theorem setRegAt_dma (off inst : Nat) (v : Word) (s : State) : (setRegAt off inst v s).dma = s.dma := rfl
@[simp] theorem setRegAt_sys (off inst : Nat) (v : Word) (s : State) : (setRegAt off inst v s).sys = s.sys := rfl
@[simp] theorem setRegAt_host (off inst : Nat) (v : Word) (s : State) : (setRegAt off inst v s).host = s.host := rfl
@[simp] theorem setRegAt_out (off inst : Nat) (v : Word) (s : State) : (setRegAt off inst v s).out = s.out := rfl

/-! ### orRegAt -/

@[simp] theorem orRegAt_pending (off inst : Nat) (v : Word) (s : State) : (orRegAt off inst v s).pending = s.pending := rfl
@[simp] theorem orRegAt_freeCtr (off inst : Nat) (v : Word) (s : State) : (orRegAt off inst v s).freeCtr = s.freeCtr := rfl
@[simp] theorem orRegAt_mem (off inst : Nat) (v : Word) (s : State) : (orRegAt off inst v s).mem = s.mem := rfl
@[simp] theorem orRegAt_stage (off inst : Nat) (v : Word) (s : State) : (orRegAt off inst v s).stage = s.stage := rfl
@[simp] theorem orRegAt_act (off inst : Nat) (v : Word) (s : State) : (orRegAt off inst v s).act = s.act := rfl
@[simp] theorem orRegAt_banks (off inst : Nat) (v : Word) (s : State) : (orRegAt off inst v s).banks = s.banks := rfl
@[simp] theorem orRegAt_err (off inst : Nat) (v : Word) (s : State) : (orRegAt off inst v s).err = s.err := rfl
@[simp] theorem orRegAt_call (off inst : Nat) (v : Word) (s : State) : (orRegAt off inst v s).call = s.call := rfl
@[simp] theorem orRegAt_eng (off inst : Nat) (v : Word) (s : State) : (orRegAt off inst v s).eng = s.eng := rfl
@[simp] theorem orRegAt_cores (off inst : Nat) (v : Word) (s : State) : (orRegAt off inst v s).cores = s.cores := rfl
@[simp] theorem orRegAt_crews (off inst : Nat) (v : Word) (s : State) : (orRegAt off inst v s).crews = s.crews := rfl
@[simp] theorem orRegAt_mix (off inst : Nat) (v : Word) (s : State) : (orRegAt off inst v s).mix = s.mix := rfl
@[simp] theorem orRegAt_patch (off inst : Nat) (v : Word) (s : State) : (orRegAt off inst v s).patch = s.patch := rfl
@[simp] theorem orRegAt_scene (off inst : Nat) (v : Word) (s : State) : (orRegAt off inst v s).scene = s.scene := rfl
@[simp] theorem orRegAt_fin (off inst : Nat) (v : Word) (s : State) : (orRegAt off inst v s).fin = s.fin := rfl
@[simp] theorem orRegAt_port (off inst : Nat) (v : Word) (s : State) : (orRegAt off inst v s).port = s.port := rfl
@[simp] theorem orRegAt_net (off inst : Nat) (v : Word) (s : State) : (orRegAt off inst v s).net = s.net := rfl
@[simp] theorem orRegAt_ref (off inst : Nat) (v : Word) (s : State) : (orRegAt off inst v s).ref = s.ref := rfl
@[simp] theorem orRegAt_twin (off inst : Nat) (v : Word) (s : State) : (orRegAt off inst v s).twin = s.twin := rfl
@[simp] theorem orRegAt_msvc (off inst : Nat) (v : Word) (s : State) : (orRegAt off inst v s).msvc = s.msvc := rfl
@[simp] theorem orRegAt_slate (off inst : Nat) (v : Word) (s : State) : (orRegAt off inst v s).slate = s.slate := rfl
@[simp] theorem orRegAt_geode (off inst : Nat) (v : Word) (s : State) : (orRegAt off inst v s).geode = s.geode := rfl
@[simp] theorem orRegAt_dram (off inst : Nat) (v : Word) (s : State) : (orRegAt off inst v s).dram = s.dram := rfl
@[simp] theorem orRegAt_fab (off inst : Nat) (v : Word) (s : State) : (orRegAt off inst v s).fab = s.fab := rfl
@[simp] theorem orRegAt_dma (off inst : Nat) (v : Word) (s : State) : (orRegAt off inst v s).dma = s.dma := rfl
@[simp] theorem orRegAt_sys (off inst : Nat) (v : Word) (s : State) : (orRegAt off inst v s).sys = s.sys := rfl
@[simp] theorem orRegAt_host (off inst : Nat) (v : Word) (s : State) : (orRegAt off inst v s).host = s.host := rfl
@[simp] theorem orRegAt_out (off inst : Nat) (v : Word) (s : State) : (orRegAt off inst v s).out = s.out := rfl

/-! ### irqLatch -/

@[simp] theorem irqLatch_pending (c : Nat) (s : State) : (irqLatch c s).pending = s.pending := rfl
@[simp] theorem irqLatch_freeCtr (c : Nat) (s : State) : (irqLatch c s).freeCtr = s.freeCtr := rfl
@[simp] theorem irqLatch_mem (c : Nat) (s : State) : (irqLatch c s).mem = s.mem := rfl
@[simp] theorem irqLatch_stage (c : Nat) (s : State) : (irqLatch c s).stage = s.stage := rfl
@[simp] theorem irqLatch_act (c : Nat) (s : State) : (irqLatch c s).act = s.act := rfl
@[simp] theorem irqLatch_banks (c : Nat) (s : State) : (irqLatch c s).banks = s.banks := rfl
@[simp] theorem irqLatch_err (c : Nat) (s : State) : (irqLatch c s).err = s.err := rfl
@[simp] theorem irqLatch_call (c : Nat) (s : State) : (irqLatch c s).call = s.call := rfl
@[simp] theorem irqLatch_eng (c : Nat) (s : State) : (irqLatch c s).eng = s.eng := rfl
@[simp] theorem irqLatch_cores (c : Nat) (s : State) : (irqLatch c s).cores = s.cores := rfl
@[simp] theorem irqLatch_crews (c : Nat) (s : State) : (irqLatch c s).crews = s.crews := rfl
@[simp] theorem irqLatch_mix (c : Nat) (s : State) : (irqLatch c s).mix = s.mix := rfl
@[simp] theorem irqLatch_patch (c : Nat) (s : State) : (irqLatch c s).patch = s.patch := rfl
@[simp] theorem irqLatch_scene (c : Nat) (s : State) : (irqLatch c s).scene = s.scene := rfl
@[simp] theorem irqLatch_fin (c : Nat) (s : State) : (irqLatch c s).fin = s.fin := rfl
@[simp] theorem irqLatch_port (c : Nat) (s : State) : (irqLatch c s).port = s.port := rfl
@[simp] theorem irqLatch_net (c : Nat) (s : State) : (irqLatch c s).net = s.net := rfl
@[simp] theorem irqLatch_ref (c : Nat) (s : State) : (irqLatch c s).ref = s.ref := rfl
@[simp] theorem irqLatch_twin (c : Nat) (s : State) : (irqLatch c s).twin = s.twin := rfl
@[simp] theorem irqLatch_msvc (c : Nat) (s : State) : (irqLatch c s).msvc = s.msvc := rfl
@[simp] theorem irqLatch_slate (c : Nat) (s : State) : (irqLatch c s).slate = s.slate := rfl
@[simp] theorem irqLatch_geode (c : Nat) (s : State) : (irqLatch c s).geode = s.geode := rfl
@[simp] theorem irqLatch_dram (c : Nat) (s : State) : (irqLatch c s).dram = s.dram := rfl
@[simp] theorem irqLatch_fab (c : Nat) (s : State) : (irqLatch c s).fab = s.fab := rfl
@[simp] theorem irqLatch_dma (c : Nat) (s : State) : (irqLatch c s).dma = s.dma := rfl
@[simp] theorem irqLatch_sys (c : Nat) (s : State) : (irqLatch c s).sys = s.sys := rfl
@[simp] theorem irqLatch_host (c : Nat) (s : State) : (irqLatch c s).host = s.host := rfl
@[simp] theorem irqLatch_out (c : Nat) (s : State) : (irqLatch c s).out = s.out := rfl

/-! ### emit -/

@[simp] theorem emit_pending (o : Out) (s : State) : (emit o s).pending = s.pending := rfl
@[simp] theorem emit_freeCtr (o : Out) (s : State) : (emit o s).freeCtr = s.freeCtr := rfl
@[simp] theorem emit_mem (o : Out) (s : State) : (emit o s).mem = s.mem := rfl
@[simp] theorem emit_stage (o : Out) (s : State) : (emit o s).stage = s.stage := rfl
@[simp] theorem emit_regs (o : Out) (s : State) : (emit o s).regs = s.regs := rfl
@[simp] theorem emit_act (o : Out) (s : State) : (emit o s).act = s.act := rfl
@[simp] theorem emit_banks (o : Out) (s : State) : (emit o s).banks = s.banks := rfl
@[simp] theorem emit_err (o : Out) (s : State) : (emit o s).err = s.err := rfl
@[simp] theorem emit_call (o : Out) (s : State) : (emit o s).call = s.call := rfl
@[simp] theorem emit_eng (o : Out) (s : State) : (emit o s).eng = s.eng := rfl
@[simp] theorem emit_cores (o : Out) (s : State) : (emit o s).cores = s.cores := rfl
@[simp] theorem emit_crews (o : Out) (s : State) : (emit o s).crews = s.crews := rfl
@[simp] theorem emit_mix (o : Out) (s : State) : (emit o s).mix = s.mix := rfl
@[simp] theorem emit_patch (o : Out) (s : State) : (emit o s).patch = s.patch := rfl
@[simp] theorem emit_scene (o : Out) (s : State) : (emit o s).scene = s.scene := rfl
@[simp] theorem emit_fin (o : Out) (s : State) : (emit o s).fin = s.fin := rfl
@[simp] theorem emit_port (o : Out) (s : State) : (emit o s).port = s.port := rfl
@[simp] theorem emit_net (o : Out) (s : State) : (emit o s).net = s.net := rfl
@[simp] theorem emit_ref (o : Out) (s : State) : (emit o s).ref = s.ref := rfl
@[simp] theorem emit_twin (o : Out) (s : State) : (emit o s).twin = s.twin := rfl
@[simp] theorem emit_msvc (o : Out) (s : State) : (emit o s).msvc = s.msvc := rfl
@[simp] theorem emit_slate (o : Out) (s : State) : (emit o s).slate = s.slate := rfl
@[simp] theorem emit_geode (o : Out) (s : State) : (emit o s).geode = s.geode := rfl
@[simp] theorem emit_dram (o : Out) (s : State) : (emit o s).dram = s.dram := rfl
@[simp] theorem emit_fab (o : Out) (s : State) : (emit o s).fab = s.fab := rfl
@[simp] theorem emit_dma (o : Out) (s : State) : (emit o s).dma = s.dma := rfl
@[simp] theorem emit_sys (o : Out) (s : State) : (emit o s).sys = s.sys := rfl
@[simp] theorem emit_host (o : Out) (s : State) : (emit o s).host = s.host := rfl

/-! ### settle -/

@[simp] theorem settle_pending (s : State) : (settle s).pending = s.pending := rfl
@[simp] theorem settle_freeCtr (s : State) : (settle s).freeCtr = s.freeCtr := rfl
@[simp] theorem settle_mem (s : State) : (settle s).mem = s.mem := rfl
@[simp] theorem settle_stage (s : State) : (settle s).stage = s.stage := rfl
@[simp] theorem settle_regs (s : State) : (settle s).regs = s.regs := rfl
@[simp] theorem settle_act (s : State) : (settle s).act = s.act := rfl
@[simp] theorem settle_banks (s : State) : (settle s).banks = s.banks := rfl
@[simp] theorem settle_err (s : State) : (settle s).err = s.err := rfl
@[simp] theorem settle_call (s : State) : (settle s).call = s.call := rfl
@[simp] theorem settle_eng (s : State) : (settle s).eng = s.eng := rfl
@[simp] theorem settle_cores (s : State) : (settle s).cores = s.cores := rfl
@[simp] theorem settle_crews (s : State) : (settle s).crews = s.crews := rfl
@[simp] theorem settle_mix (s : State) : (settle s).mix = s.mix := rfl
@[simp] theorem settle_patch (s : State) : (settle s).patch = s.patch := rfl
@[simp] theorem settle_scene (s : State) : (settle s).scene = s.scene := rfl
@[simp] theorem settle_fin (s : State) : (settle s).fin = s.fin := rfl
@[simp] theorem settle_port (s : State) : (settle s).port = s.port := rfl
@[simp] theorem settle_net (s : State) : (settle s).net = s.net := rfl
@[simp] theorem settle_ref (s : State) : (settle s).ref = s.ref := rfl
@[simp] theorem settle_twin (s : State) : (settle s).twin = s.twin := rfl
@[simp] theorem settle_msvc (s : State) : (settle s).msvc = s.msvc := rfl
@[simp] theorem settle_slate (s : State) : (settle s).slate = s.slate := rfl
@[simp] theorem settle_geode (s : State) : (settle s).geode = s.geode := rfl
@[simp] theorem settle_dram (s : State) : (settle s).dram = s.dram := rfl
@[simp] theorem settle_fab (s : State) : (settle s).fab = s.fab := rfl
@[simp] theorem settle_dma (s : State) : (settle s).dma = s.dma := rfl
@[simp] theorem settle_sys (s : State) : (settle s).sys = s.sys := rfl

/-! ### setBank -/

@[simp] theorem setBank_pending (m : Master) (f : Bank → Bank) (s : State) : (setBank m f s).pending = s.pending := rfl
@[simp] theorem setBank_freeCtr (m : Master) (f : Bank → Bank) (s : State) : (setBank m f s).freeCtr = s.freeCtr := rfl
@[simp] theorem setBank_mem (m : Master) (f : Bank → Bank) (s : State) : (setBank m f s).mem = s.mem := rfl
@[simp] theorem setBank_stage (m : Master) (f : Bank → Bank) (s : State) : (setBank m f s).stage = s.stage := rfl
@[simp] theorem setBank_regs (m : Master) (f : Bank → Bank) (s : State) : (setBank m f s).regs = s.regs := rfl
@[simp] theorem setBank_act (m : Master) (f : Bank → Bank) (s : State) : (setBank m f s).act = s.act := rfl
@[simp] theorem setBank_err (m : Master) (f : Bank → Bank) (s : State) : (setBank m f s).err = s.err := rfl
@[simp] theorem setBank_call (m : Master) (f : Bank → Bank) (s : State) : (setBank m f s).call = s.call := rfl
@[simp] theorem setBank_eng (m : Master) (f : Bank → Bank) (s : State) : (setBank m f s).eng = s.eng := rfl
@[simp] theorem setBank_cores (m : Master) (f : Bank → Bank) (s : State) : (setBank m f s).cores = s.cores := rfl
@[simp] theorem setBank_crews (m : Master) (f : Bank → Bank) (s : State) : (setBank m f s).crews = s.crews := rfl
@[simp] theorem setBank_mix (m : Master) (f : Bank → Bank) (s : State) : (setBank m f s).mix = s.mix := rfl
@[simp] theorem setBank_patch (m : Master) (f : Bank → Bank) (s : State) : (setBank m f s).patch = s.patch := rfl
@[simp] theorem setBank_scene (m : Master) (f : Bank → Bank) (s : State) : (setBank m f s).scene = s.scene := rfl
@[simp] theorem setBank_fin (m : Master) (f : Bank → Bank) (s : State) : (setBank m f s).fin = s.fin := rfl
@[simp] theorem setBank_port (m : Master) (f : Bank → Bank) (s : State) : (setBank m f s).port = s.port := rfl
@[simp] theorem setBank_net (m : Master) (f : Bank → Bank) (s : State) : (setBank m f s).net = s.net := rfl
@[simp] theorem setBank_ref (m : Master) (f : Bank → Bank) (s : State) : (setBank m f s).ref = s.ref := rfl
@[simp] theorem setBank_twin (m : Master) (f : Bank → Bank) (s : State) : (setBank m f s).twin = s.twin := rfl
@[simp] theorem setBank_msvc (m : Master) (f : Bank → Bank) (s : State) : (setBank m f s).msvc = s.msvc := rfl
@[simp] theorem setBank_slate (m : Master) (f : Bank → Bank) (s : State) : (setBank m f s).slate = s.slate := rfl
@[simp] theorem setBank_geode (m : Master) (f : Bank → Bank) (s : State) : (setBank m f s).geode = s.geode := rfl
@[simp] theorem setBank_dram (m : Master) (f : Bank → Bank) (s : State) : (setBank m f s).dram = s.dram := rfl
@[simp] theorem setBank_fab (m : Master) (f : Bank → Bank) (s : State) : (setBank m f s).fab = s.fab := rfl
@[simp] theorem setBank_dma (m : Master) (f : Bank → Bank) (s : State) : (setBank m f s).dma = s.dma := rfl
@[simp] theorem setBank_sys (m : Master) (f : Bank → Bank) (s : State) : (setBank m f s).sys = s.sys := rfl
@[simp] theorem setBank_host (m : Master) (f : Bank → Bank) (s : State) : (setBank m f s).host = s.host := rfl
@[simp] theorem setBank_out (m : Master) (f : Bank → Bank) (s : State) : (setBank m f s).out = s.out := rfl

/-! ### snapTake -/

@[simp] theorem snapTake_pending (m : Master) (off : Nat) (ws : List Word) (s : State) : (snapTake m off ws s).pending = s.pending := rfl
@[simp] theorem snapTake_freeCtr (m : Master) (off : Nat) (ws : List Word) (s : State) : (snapTake m off ws s).freeCtr = s.freeCtr := rfl
@[simp] theorem snapTake_mem (m : Master) (off : Nat) (ws : List Word) (s : State) : (snapTake m off ws s).mem = s.mem := rfl
@[simp] theorem snapTake_stage (m : Master) (off : Nat) (ws : List Word) (s : State) : (snapTake m off ws s).stage = s.stage := rfl
@[simp] theorem snapTake_regs (m : Master) (off : Nat) (ws : List Word) (s : State) : (snapTake m off ws s).regs = s.regs := rfl
@[simp] theorem snapTake_act (m : Master) (off : Nat) (ws : List Word) (s : State) : (snapTake m off ws s).act = s.act := rfl
@[simp] theorem snapTake_err (m : Master) (off : Nat) (ws : List Word) (s : State) : (snapTake m off ws s).err = s.err := rfl
@[simp] theorem snapTake_call (m : Master) (off : Nat) (ws : List Word) (s : State) : (snapTake m off ws s).call = s.call := rfl
@[simp] theorem snapTake_eng (m : Master) (off : Nat) (ws : List Word) (s : State) : (snapTake m off ws s).eng = s.eng := rfl
@[simp] theorem snapTake_cores (m : Master) (off : Nat) (ws : List Word) (s : State) : (snapTake m off ws s).cores = s.cores := rfl
@[simp] theorem snapTake_crews (m : Master) (off : Nat) (ws : List Word) (s : State) : (snapTake m off ws s).crews = s.crews := rfl
@[simp] theorem snapTake_mix (m : Master) (off : Nat) (ws : List Word) (s : State) : (snapTake m off ws s).mix = s.mix := rfl
@[simp] theorem snapTake_patch (m : Master) (off : Nat) (ws : List Word) (s : State) : (snapTake m off ws s).patch = s.patch := rfl
@[simp] theorem snapTake_scene (m : Master) (off : Nat) (ws : List Word) (s : State) : (snapTake m off ws s).scene = s.scene := rfl
@[simp] theorem snapTake_fin (m : Master) (off : Nat) (ws : List Word) (s : State) : (snapTake m off ws s).fin = s.fin := rfl
@[simp] theorem snapTake_port (m : Master) (off : Nat) (ws : List Word) (s : State) : (snapTake m off ws s).port = s.port := rfl
@[simp] theorem snapTake_net (m : Master) (off : Nat) (ws : List Word) (s : State) : (snapTake m off ws s).net = s.net := rfl
@[simp] theorem snapTake_ref (m : Master) (off : Nat) (ws : List Word) (s : State) : (snapTake m off ws s).ref = s.ref := rfl
@[simp] theorem snapTake_twin (m : Master) (off : Nat) (ws : List Word) (s : State) : (snapTake m off ws s).twin = s.twin := rfl
@[simp] theorem snapTake_msvc (m : Master) (off : Nat) (ws : List Word) (s : State) : (snapTake m off ws s).msvc = s.msvc := rfl
@[simp] theorem snapTake_slate (m : Master) (off : Nat) (ws : List Word) (s : State) : (snapTake m off ws s).slate = s.slate := rfl
@[simp] theorem snapTake_geode (m : Master) (off : Nat) (ws : List Word) (s : State) : (snapTake m off ws s).geode = s.geode := rfl
@[simp] theorem snapTake_dram (m : Master) (off : Nat) (ws : List Word) (s : State) : (snapTake m off ws s).dram = s.dram := rfl
@[simp] theorem snapTake_fab (m : Master) (off : Nat) (ws : List Word) (s : State) : (snapTake m off ws s).fab = s.fab := rfl
@[simp] theorem snapTake_dma (m : Master) (off : Nat) (ws : List Word) (s : State) : (snapTake m off ws s).dma = s.dma := rfl
@[simp] theorem snapTake_sys (m : Master) (off : Nat) (ws : List Word) (s : State) : (snapTake m off ws s).sys = s.sys := rfl
@[simp] theorem snapTake_host (m : Master) (off : Nat) (ws : List Word) (s : State) : (snapTake m off ws s).host = s.host := rfl
@[simp] theorem snapTake_out (m : Master) (off : Nat) (ws : List Word) (s : State) : (snapTake m off ws s).out = s.out := rfl

/-! ### injFire -/

@[simp] theorem injFire_pending (src : BitVec 16) (code : BitVec 12) (s : State) : (injFire src code s).pending = s.pending := rfl
@[simp] theorem injFire_freeCtr (src : BitVec 16) (code : BitVec 12) (s : State) : (injFire src code s).freeCtr = s.freeCtr := rfl
@[simp] theorem injFire_mem (src : BitVec 16) (code : BitVec 12) (s : State) : (injFire src code s).mem = s.mem := rfl
@[simp] theorem injFire_stage (src : BitVec 16) (code : BitVec 12) (s : State) : (injFire src code s).stage = s.stage := rfl
@[simp] theorem injFire_regs (src : BitVec 16) (code : BitVec 12) (s : State) : (injFire src code s).regs = s.regs := rfl
@[simp] theorem injFire_act (src : BitVec 16) (code : BitVec 12) (s : State) : (injFire src code s).act = s.act := rfl
@[simp] theorem injFire_banks (src : BitVec 16) (code : BitVec 12) (s : State) : (injFire src code s).banks = s.banks := rfl
@[simp] theorem injFire_call (src : BitVec 16) (code : BitVec 12) (s : State) : (injFire src code s).call = s.call := rfl
@[simp] theorem injFire_eng (src : BitVec 16) (code : BitVec 12) (s : State) : (injFire src code s).eng = s.eng := rfl
@[simp] theorem injFire_cores (src : BitVec 16) (code : BitVec 12) (s : State) : (injFire src code s).cores = s.cores := rfl
@[simp] theorem injFire_crews (src : BitVec 16) (code : BitVec 12) (s : State) : (injFire src code s).crews = s.crews := rfl
@[simp] theorem injFire_mix (src : BitVec 16) (code : BitVec 12) (s : State) : (injFire src code s).mix = s.mix := rfl
@[simp] theorem injFire_patch (src : BitVec 16) (code : BitVec 12) (s : State) : (injFire src code s).patch = s.patch := rfl
@[simp] theorem injFire_scene (src : BitVec 16) (code : BitVec 12) (s : State) : (injFire src code s).scene = s.scene := rfl
@[simp] theorem injFire_fin (src : BitVec 16) (code : BitVec 12) (s : State) : (injFire src code s).fin = s.fin := rfl
@[simp] theorem injFire_port (src : BitVec 16) (code : BitVec 12) (s : State) : (injFire src code s).port = s.port := rfl
@[simp] theorem injFire_net (src : BitVec 16) (code : BitVec 12) (s : State) : (injFire src code s).net = s.net := rfl
@[simp] theorem injFire_ref (src : BitVec 16) (code : BitVec 12) (s : State) : (injFire src code s).ref = s.ref := rfl
@[simp] theorem injFire_twin (src : BitVec 16) (code : BitVec 12) (s : State) : (injFire src code s).twin = s.twin := rfl
@[simp] theorem injFire_msvc (src : BitVec 16) (code : BitVec 12) (s : State) : (injFire src code s).msvc = s.msvc := rfl
@[simp] theorem injFire_slate (src : BitVec 16) (code : BitVec 12) (s : State) : (injFire src code s).slate = s.slate := rfl
@[simp] theorem injFire_geode (src : BitVec 16) (code : BitVec 12) (s : State) : (injFire src code s).geode = s.geode := rfl
@[simp] theorem injFire_dram (src : BitVec 16) (code : BitVec 12) (s : State) : (injFire src code s).dram = s.dram := rfl
@[simp] theorem injFire_fab (src : BitVec 16) (code : BitVec 12) (s : State) : (injFire src code s).fab = s.fab := rfl
@[simp] theorem injFire_dma (src : BitVec 16) (code : BitVec 12) (s : State) : (injFire src code s).dma = s.dma := rfl
@[simp] theorem injFire_sys (src : BitVec 16) (code : BitVec 12) (s : State) : (injFire src code s).sys = s.sys := rfl
@[simp] theorem injFire_host (src : BitVec 16) (code : BitVec 12) (s : State) : (injFire src code s).host = s.host := rfl
@[simp] theorem injFire_out (src : BitVec 16) (code : BitVec 12) (s : State) : (injFire src code s).out = s.out := rfl

/-! ### writeWord -/

@[simp] theorem writeWord_pending (a : Nat) (w : Word) (s : State) : (writeWord a w s).pending = s.pending := rfl
@[simp] theorem writeWord_freeCtr (a : Nat) (w : Word) (s : State) : (writeWord a w s).freeCtr = s.freeCtr := rfl
@[simp] theorem writeWord_stage (a : Nat) (w : Word) (s : State) : (writeWord a w s).stage = s.stage := rfl
@[simp] theorem writeWord_regs (a : Nat) (w : Word) (s : State) : (writeWord a w s).regs = s.regs := rfl
@[simp] theorem writeWord_act (a : Nat) (w : Word) (s : State) : (writeWord a w s).act = s.act := rfl
@[simp] theorem writeWord_banks (a : Nat) (w : Word) (s : State) : (writeWord a w s).banks = s.banks := rfl
@[simp] theorem writeWord_err (a : Nat) (w : Word) (s : State) : (writeWord a w s).err = s.err := rfl
@[simp] theorem writeWord_call (a : Nat) (w : Word) (s : State) : (writeWord a w s).call = s.call := rfl
@[simp] theorem writeWord_eng (a : Nat) (w : Word) (s : State) : (writeWord a w s).eng = s.eng := rfl
@[simp] theorem writeWord_cores (a : Nat) (w : Word) (s : State) : (writeWord a w s).cores = s.cores := rfl
@[simp] theorem writeWord_crews (a : Nat) (w : Word) (s : State) : (writeWord a w s).crews = s.crews := rfl
@[simp] theorem writeWord_mix (a : Nat) (w : Word) (s : State) : (writeWord a w s).mix = s.mix := rfl
@[simp] theorem writeWord_patch (a : Nat) (w : Word) (s : State) : (writeWord a w s).patch = s.patch := rfl
@[simp] theorem writeWord_scene (a : Nat) (w : Word) (s : State) : (writeWord a w s).scene = s.scene := rfl
@[simp] theorem writeWord_fin (a : Nat) (w : Word) (s : State) : (writeWord a w s).fin = s.fin := rfl
@[simp] theorem writeWord_port (a : Nat) (w : Word) (s : State) : (writeWord a w s).port = s.port := rfl
@[simp] theorem writeWord_net (a : Nat) (w : Word) (s : State) : (writeWord a w s).net = s.net := rfl
@[simp] theorem writeWord_ref (a : Nat) (w : Word) (s : State) : (writeWord a w s).ref = s.ref := rfl
@[simp] theorem writeWord_twin (a : Nat) (w : Word) (s : State) : (writeWord a w s).twin = s.twin := rfl
@[simp] theorem writeWord_slate (a : Nat) (w : Word) (s : State) : (writeWord a w s).slate = s.slate := rfl
@[simp] theorem writeWord_geode (a : Nat) (w : Word) (s : State) : (writeWord a w s).geode = s.geode := rfl
@[simp] theorem writeWord_dram (a : Nat) (w : Word) (s : State) : (writeWord a w s).dram = s.dram := rfl
@[simp] theorem writeWord_fab (a : Nat) (w : Word) (s : State) : (writeWord a w s).fab = s.fab := rfl
@[simp] theorem writeWord_dma (a : Nat) (w : Word) (s : State) : (writeWord a w s).dma = s.dma := rfl
@[simp] theorem writeWord_sys (a : Nat) (w : Word) (s : State) : (writeWord a w s).sys = s.sys := rfl
@[simp] theorem writeWord_host (a : Nat) (w : Word) (s : State) : (writeWord a w s).host = s.host := rfl
@[simp] theorem writeWord_out (a : Nat) (w : Word) (s : State) : (writeWord a w s).out = s.out := rfl

/-! ### writeBytes -/

@[simp] theorem writeBytes_pending (a : Nat) (bs : List Byte) (s : State) : (writeBytes a bs s).pending = s.pending := rfl
@[simp] theorem writeBytes_freeCtr (a : Nat) (bs : List Byte) (s : State) : (writeBytes a bs s).freeCtr = s.freeCtr := rfl
@[simp] theorem writeBytes_stage (a : Nat) (bs : List Byte) (s : State) : (writeBytes a bs s).stage = s.stage := rfl
@[simp] theorem writeBytes_regs (a : Nat) (bs : List Byte) (s : State) : (writeBytes a bs s).regs = s.regs := rfl
@[simp] theorem writeBytes_act (a : Nat) (bs : List Byte) (s : State) : (writeBytes a bs s).act = s.act := rfl
@[simp] theorem writeBytes_banks (a : Nat) (bs : List Byte) (s : State) : (writeBytes a bs s).banks = s.banks := rfl
@[simp] theorem writeBytes_err (a : Nat) (bs : List Byte) (s : State) : (writeBytes a bs s).err = s.err := rfl
@[simp] theorem writeBytes_call (a : Nat) (bs : List Byte) (s : State) : (writeBytes a bs s).call = s.call := rfl
@[simp] theorem writeBytes_eng (a : Nat) (bs : List Byte) (s : State) : (writeBytes a bs s).eng = s.eng := rfl
@[simp] theorem writeBytes_cores (a : Nat) (bs : List Byte) (s : State) : (writeBytes a bs s).cores = s.cores := rfl
@[simp] theorem writeBytes_crews (a : Nat) (bs : List Byte) (s : State) : (writeBytes a bs s).crews = s.crews := rfl
@[simp] theorem writeBytes_mix (a : Nat) (bs : List Byte) (s : State) : (writeBytes a bs s).mix = s.mix := rfl
@[simp] theorem writeBytes_patch (a : Nat) (bs : List Byte) (s : State) : (writeBytes a bs s).patch = s.patch := rfl
@[simp] theorem writeBytes_scene (a : Nat) (bs : List Byte) (s : State) : (writeBytes a bs s).scene = s.scene := rfl
@[simp] theorem writeBytes_fin (a : Nat) (bs : List Byte) (s : State) : (writeBytes a bs s).fin = s.fin := rfl
@[simp] theorem writeBytes_port (a : Nat) (bs : List Byte) (s : State) : (writeBytes a bs s).port = s.port := rfl
@[simp] theorem writeBytes_net (a : Nat) (bs : List Byte) (s : State) : (writeBytes a bs s).net = s.net := rfl
@[simp] theorem writeBytes_ref (a : Nat) (bs : List Byte) (s : State) : (writeBytes a bs s).ref = s.ref := rfl
@[simp] theorem writeBytes_twin (a : Nat) (bs : List Byte) (s : State) : (writeBytes a bs s).twin = s.twin := rfl
@[simp] theorem writeBytes_slate (a : Nat) (bs : List Byte) (s : State) : (writeBytes a bs s).slate = s.slate := rfl
@[simp] theorem writeBytes_geode (a : Nat) (bs : List Byte) (s : State) : (writeBytes a bs s).geode = s.geode := rfl
@[simp] theorem writeBytes_dram (a : Nat) (bs : List Byte) (s : State) : (writeBytes a bs s).dram = s.dram := rfl
@[simp] theorem writeBytes_fab (a : Nat) (bs : List Byte) (s : State) : (writeBytes a bs s).fab = s.fab := rfl
@[simp] theorem writeBytes_dma (a : Nat) (bs : List Byte) (s : State) : (writeBytes a bs s).dma = s.dma := rfl
@[simp] theorem writeBytes_sys (a : Nat) (bs : List Byte) (s : State) : (writeBytes a bs s).sys = s.sys := rfl
@[simp] theorem writeBytes_host (a : Nat) (bs : List Byte) (s : State) : (writeBytes a bs s).host = s.host := rfl
@[simp] theorem writeBytes_out (a : Nat) (bs : List Byte) (s : State) : (writeBytes a bs s).out = s.out := rfl

/-! ### clearMem -/

@[simp] theorem clearMem_pending (lo n : Nat) (s : State) : (clearMem lo n s).pending = s.pending := rfl
@[simp] theorem clearMem_freeCtr (lo n : Nat) (s : State) : (clearMem lo n s).freeCtr = s.freeCtr := rfl
@[simp] theorem clearMem_stage (lo n : Nat) (s : State) : (clearMem lo n s).stage = s.stage := rfl
@[simp] theorem clearMem_regs (lo n : Nat) (s : State) : (clearMem lo n s).regs = s.regs := rfl
@[simp] theorem clearMem_act (lo n : Nat) (s : State) : (clearMem lo n s).act = s.act := rfl
@[simp] theorem clearMem_banks (lo n : Nat) (s : State) : (clearMem lo n s).banks = s.banks := rfl
@[simp] theorem clearMem_err (lo n : Nat) (s : State) : (clearMem lo n s).err = s.err := rfl
@[simp] theorem clearMem_call (lo n : Nat) (s : State) : (clearMem lo n s).call = s.call := rfl
@[simp] theorem clearMem_eng (lo n : Nat) (s : State) : (clearMem lo n s).eng = s.eng := rfl
@[simp] theorem clearMem_cores (lo n : Nat) (s : State) : (clearMem lo n s).cores = s.cores := rfl
@[simp] theorem clearMem_crews (lo n : Nat) (s : State) : (clearMem lo n s).crews = s.crews := rfl
@[simp] theorem clearMem_mix (lo n : Nat) (s : State) : (clearMem lo n s).mix = s.mix := rfl
@[simp] theorem clearMem_patch (lo n : Nat) (s : State) : (clearMem lo n s).patch = s.patch := rfl
@[simp] theorem clearMem_scene (lo n : Nat) (s : State) : (clearMem lo n s).scene = s.scene := rfl
@[simp] theorem clearMem_fin (lo n : Nat) (s : State) : (clearMem lo n s).fin = s.fin := rfl
@[simp] theorem clearMem_port (lo n : Nat) (s : State) : (clearMem lo n s).port = s.port := rfl
@[simp] theorem clearMem_net (lo n : Nat) (s : State) : (clearMem lo n s).net = s.net := rfl
@[simp] theorem clearMem_ref (lo n : Nat) (s : State) : (clearMem lo n s).ref = s.ref := rfl
@[simp] theorem clearMem_twin (lo n : Nat) (s : State) : (clearMem lo n s).twin = s.twin := rfl
@[simp] theorem clearMem_slate (lo n : Nat) (s : State) : (clearMem lo n s).slate = s.slate := rfl
@[simp] theorem clearMem_geode (lo n : Nat) (s : State) : (clearMem lo n s).geode = s.geode := rfl
@[simp] theorem clearMem_dram (lo n : Nat) (s : State) : (clearMem lo n s).dram = s.dram := rfl
@[simp] theorem clearMem_fab (lo n : Nat) (s : State) : (clearMem lo n s).fab = s.fab := rfl
@[simp] theorem clearMem_dma (lo n : Nat) (s : State) : (clearMem lo n s).dma = s.dma := rfl
@[simp] theorem clearMem_sys (lo n : Nat) (s : State) : (clearMem lo n s).sys = s.sys := rfl
@[simp] theorem clearMem_host (lo n : Nat) (s : State) : (clearMem lo n s).host = s.host := rfl
@[simp] theorem clearMem_out (lo n : Nat) (s : State) : (clearMem lo n s).out = s.out := rfl

/-! ### putCore -/

@[simp] theorem putCore_pending (n : Nat) (k : Core) (s : State) : (putCore n k s).pending = s.pending := rfl
@[simp] theorem putCore_freeCtr (n : Nat) (k : Core) (s : State) : (putCore n k s).freeCtr = s.freeCtr := rfl
@[simp] theorem putCore_mem (n : Nat) (k : Core) (s : State) : (putCore n k s).mem = s.mem := rfl
@[simp] theorem putCore_stage (n : Nat) (k : Core) (s : State) : (putCore n k s).stage = s.stage := rfl
@[simp] theorem putCore_regs (n : Nat) (k : Core) (s : State) : (putCore n k s).regs = s.regs := rfl
@[simp] theorem putCore_act (n : Nat) (k : Core) (s : State) : (putCore n k s).act = s.act := rfl
@[simp] theorem putCore_banks (n : Nat) (k : Core) (s : State) : (putCore n k s).banks = s.banks := rfl
@[simp] theorem putCore_err (n : Nat) (k : Core) (s : State) : (putCore n k s).err = s.err := rfl
@[simp] theorem putCore_call (n : Nat) (k : Core) (s : State) : (putCore n k s).call = s.call := rfl
@[simp] theorem putCore_eng (n : Nat) (k : Core) (s : State) : (putCore n k s).eng = s.eng := rfl
@[simp] theorem putCore_crews (n : Nat) (k : Core) (s : State) : (putCore n k s).crews = s.crews := rfl
@[simp] theorem putCore_mix (n : Nat) (k : Core) (s : State) : (putCore n k s).mix = s.mix := rfl
@[simp] theorem putCore_patch (n : Nat) (k : Core) (s : State) : (putCore n k s).patch = s.patch := rfl
@[simp] theorem putCore_scene (n : Nat) (k : Core) (s : State) : (putCore n k s).scene = s.scene := rfl
@[simp] theorem putCore_fin (n : Nat) (k : Core) (s : State) : (putCore n k s).fin = s.fin := rfl
@[simp] theorem putCore_port (n : Nat) (k : Core) (s : State) : (putCore n k s).port = s.port := rfl
@[simp] theorem putCore_net (n : Nat) (k : Core) (s : State) : (putCore n k s).net = s.net := rfl
@[simp] theorem putCore_ref (n : Nat) (k : Core) (s : State) : (putCore n k s).ref = s.ref := rfl
@[simp] theorem putCore_twin (n : Nat) (k : Core) (s : State) : (putCore n k s).twin = s.twin := rfl
@[simp] theorem putCore_msvc (n : Nat) (k : Core) (s : State) : (putCore n k s).msvc = s.msvc := rfl
@[simp] theorem putCore_slate (n : Nat) (k : Core) (s : State) : (putCore n k s).slate = s.slate := rfl
@[simp] theorem putCore_geode (n : Nat) (k : Core) (s : State) : (putCore n k s).geode = s.geode := rfl
@[simp] theorem putCore_dram (n : Nat) (k : Core) (s : State) : (putCore n k s).dram = s.dram := rfl
@[simp] theorem putCore_fab (n : Nat) (k : Core) (s : State) : (putCore n k s).fab = s.fab := rfl
@[simp] theorem putCore_dma (n : Nat) (k : Core) (s : State) : (putCore n k s).dma = s.dma := rfl
@[simp] theorem putCore_sys (n : Nat) (k : Core) (s : State) : (putCore n k s).sys = s.sys := rfl
@[simp] theorem putCore_host (n : Nat) (k : Core) (s : State) : (putCore n k s).host = s.host := rfl
@[simp] theorem putCore_out (n : Nat) (k : Core) (s : State) : (putCore n k s).out = s.out := rfl

/-! ### putSink -/

@[simp] theorem putSink_pending (i : Nat) (x : Sink) (s : State) : (putSink i x s).pending = s.pending := rfl
@[simp] theorem putSink_freeCtr (i : Nat) (x : Sink) (s : State) : (putSink i x s).freeCtr = s.freeCtr := rfl
@[simp] theorem putSink_mem (i : Nat) (x : Sink) (s : State) : (putSink i x s).mem = s.mem := rfl
@[simp] theorem putSink_stage (i : Nat) (x : Sink) (s : State) : (putSink i x s).stage = s.stage := rfl
@[simp] theorem putSink_regs (i : Nat) (x : Sink) (s : State) : (putSink i x s).regs = s.regs := rfl
@[simp] theorem putSink_act (i : Nat) (x : Sink) (s : State) : (putSink i x s).act = s.act := rfl
@[simp] theorem putSink_banks (i : Nat) (x : Sink) (s : State) : (putSink i x s).banks = s.banks := rfl
@[simp] theorem putSink_err (i : Nat) (x : Sink) (s : State) : (putSink i x s).err = s.err := rfl
@[simp] theorem putSink_call (i : Nat) (x : Sink) (s : State) : (putSink i x s).call = s.call := rfl
@[simp] theorem putSink_eng (i : Nat) (x : Sink) (s : State) : (putSink i x s).eng = s.eng := rfl
@[simp] theorem putSink_cores (i : Nat) (x : Sink) (s : State) : (putSink i x s).cores = s.cores := rfl
@[simp] theorem putSink_crews (i : Nat) (x : Sink) (s : State) : (putSink i x s).crews = s.crews := rfl
@[simp] theorem putSink_mix (i : Nat) (x : Sink) (s : State) : (putSink i x s).mix = s.mix := rfl
@[simp] theorem putSink_patch (i : Nat) (x : Sink) (s : State) : (putSink i x s).patch = { s.patch with sinks := tset {} s.patch.sinks i x } := rfl
@[simp] theorem putSink_scene (i : Nat) (x : Sink) (s : State) : (putSink i x s).scene = s.scene := rfl
@[simp] theorem putSink_fin (i : Nat) (x : Sink) (s : State) : (putSink i x s).fin = s.fin := rfl
@[simp] theorem putSink_port (i : Nat) (x : Sink) (s : State) : (putSink i x s).port = s.port := rfl
@[simp] theorem putSink_net (i : Nat) (x : Sink) (s : State) : (putSink i x s).net = s.net := rfl
@[simp] theorem putSink_ref (i : Nat) (x : Sink) (s : State) : (putSink i x s).ref = s.ref := rfl
@[simp] theorem putSink_twin (i : Nat) (x : Sink) (s : State) : (putSink i x s).twin = s.twin := rfl
@[simp] theorem putSink_msvc (i : Nat) (x : Sink) (s : State) : (putSink i x s).msvc = s.msvc := rfl
@[simp] theorem putSink_slate (i : Nat) (x : Sink) (s : State) : (putSink i x s).slate = s.slate := rfl
@[simp] theorem putSink_geode (i : Nat) (x : Sink) (s : State) : (putSink i x s).geode = s.geode := rfl
@[simp] theorem putSink_dram (i : Nat) (x : Sink) (s : State) : (putSink i x s).dram = s.dram := rfl
@[simp] theorem putSink_fab (i : Nat) (x : Sink) (s : State) : (putSink i x s).fab = s.fab := rfl
@[simp] theorem putSink_dma (i : Nat) (x : Sink) (s : State) : (putSink i x s).dma = s.dma := rfl
@[simp] theorem putSink_sys (i : Nat) (x : Sink) (s : State) : (putSink i x s).sys = s.sys := rfl
@[simp] theorem putSink_host (i : Nat) (x : Sink) (s : State) : (putSink i x s).host = s.host := rfl
@[simp] theorem putSink_out (i : Nat) (x : Sink) (s : State) : (putSink i x s).out = s.out := rfl

/-! ### putAsrc -/

@[simp] theorem putAsrc_pending (a : Nat) (x : Asrc) (s : State) : (putAsrc a x s).pending = s.pending := rfl
@[simp] theorem putAsrc_freeCtr (a : Nat) (x : Asrc) (s : State) : (putAsrc a x s).freeCtr = s.freeCtr := rfl
@[simp] theorem putAsrc_mem (a : Nat) (x : Asrc) (s : State) : (putAsrc a x s).mem = s.mem := rfl
@[simp] theorem putAsrc_stage (a : Nat) (x : Asrc) (s : State) : (putAsrc a x s).stage = s.stage := rfl
@[simp] theorem putAsrc_regs (a : Nat) (x : Asrc) (s : State) : (putAsrc a x s).regs = s.regs := rfl
@[simp] theorem putAsrc_act (a : Nat) (x : Asrc) (s : State) : (putAsrc a x s).act = s.act := rfl
@[simp] theorem putAsrc_banks (a : Nat) (x : Asrc) (s : State) : (putAsrc a x s).banks = s.banks := rfl
@[simp] theorem putAsrc_err (a : Nat) (x : Asrc) (s : State) : (putAsrc a x s).err = s.err := rfl
@[simp] theorem putAsrc_call (a : Nat) (x : Asrc) (s : State) : (putAsrc a x s).call = s.call := rfl
@[simp] theorem putAsrc_eng (a : Nat) (x : Asrc) (s : State) : (putAsrc a x s).eng = s.eng := rfl
@[simp] theorem putAsrc_cores (a : Nat) (x : Asrc) (s : State) : (putAsrc a x s).cores = s.cores := rfl
@[simp] theorem putAsrc_crews (a : Nat) (x : Asrc) (s : State) : (putAsrc a x s).crews = s.crews := rfl
@[simp] theorem putAsrc_mix (a : Nat) (x : Asrc) (s : State) : (putAsrc a x s).mix = s.mix := rfl
@[simp] theorem putAsrc_patch (a : Nat) (x : Asrc) (s : State) : (putAsrc a x s).patch = { s.patch with asrc := tset {} s.patch.asrc a x } := rfl
@[simp] theorem putAsrc_scene (a : Nat) (x : Asrc) (s : State) : (putAsrc a x s).scene = s.scene := rfl
@[simp] theorem putAsrc_fin (a : Nat) (x : Asrc) (s : State) : (putAsrc a x s).fin = s.fin := rfl
@[simp] theorem putAsrc_port (a : Nat) (x : Asrc) (s : State) : (putAsrc a x s).port = s.port := rfl
@[simp] theorem putAsrc_net (a : Nat) (x : Asrc) (s : State) : (putAsrc a x s).net = s.net := rfl
@[simp] theorem putAsrc_ref (a : Nat) (x : Asrc) (s : State) : (putAsrc a x s).ref = s.ref := rfl
@[simp] theorem putAsrc_twin (a : Nat) (x : Asrc) (s : State) : (putAsrc a x s).twin = s.twin := rfl
@[simp] theorem putAsrc_msvc (a : Nat) (x : Asrc) (s : State) : (putAsrc a x s).msvc = s.msvc := rfl
@[simp] theorem putAsrc_slate (a : Nat) (x : Asrc) (s : State) : (putAsrc a x s).slate = s.slate := rfl
@[simp] theorem putAsrc_geode (a : Nat) (x : Asrc) (s : State) : (putAsrc a x s).geode = s.geode := rfl
@[simp] theorem putAsrc_dram (a : Nat) (x : Asrc) (s : State) : (putAsrc a x s).dram = s.dram := rfl
@[simp] theorem putAsrc_fab (a : Nat) (x : Asrc) (s : State) : (putAsrc a x s).fab = s.fab := rfl
@[simp] theorem putAsrc_dma (a : Nat) (x : Asrc) (s : State) : (putAsrc a x s).dma = s.dma := rfl
@[simp] theorem putAsrc_sys (a : Nat) (x : Asrc) (s : State) : (putAsrc a x s).sys = s.sys := rfl
@[simp] theorem putAsrc_host (a : Nat) (x : Asrc) (s : State) : (putAsrc a x s).host = s.host := rfl
@[simp] theorem putAsrc_out (a : Nat) (x : Asrc) (s : State) : (putAsrc a x s).out = s.out := rfl

/-! ### putPort -/

@[simp] theorem putPort_pending (p : Nat) (x : Port) (s : State) : (putPort p x s).pending = s.pending := rfl
@[simp] theorem putPort_freeCtr (p : Nat) (x : Port) (s : State) : (putPort p x s).freeCtr = s.freeCtr := rfl
@[simp] theorem putPort_mem (p : Nat) (x : Port) (s : State) : (putPort p x s).mem = s.mem := rfl
@[simp] theorem putPort_stage (p : Nat) (x : Port) (s : State) : (putPort p x s).stage = s.stage := rfl
@[simp] theorem putPort_regs (p : Nat) (x : Port) (s : State) : (putPort p x s).regs = s.regs := rfl
@[simp] theorem putPort_act (p : Nat) (x : Port) (s : State) : (putPort p x s).act = s.act := rfl
@[simp] theorem putPort_banks (p : Nat) (x : Port) (s : State) : (putPort p x s).banks = s.banks := rfl
@[simp] theorem putPort_err (p : Nat) (x : Port) (s : State) : (putPort p x s).err = s.err := rfl
@[simp] theorem putPort_call (p : Nat) (x : Port) (s : State) : (putPort p x s).call = s.call := rfl
@[simp] theorem putPort_eng (p : Nat) (x : Port) (s : State) : (putPort p x s).eng = s.eng := rfl
@[simp] theorem putPort_cores (p : Nat) (x : Port) (s : State) : (putPort p x s).cores = s.cores := rfl
@[simp] theorem putPort_crews (p : Nat) (x : Port) (s : State) : (putPort p x s).crews = s.crews := rfl
@[simp] theorem putPort_mix (p : Nat) (x : Port) (s : State) : (putPort p x s).mix = s.mix := rfl
@[simp] theorem putPort_patch (p : Nat) (x : Port) (s : State) : (putPort p x s).patch = s.patch := rfl
@[simp] theorem putPort_scene (p : Nat) (x : Port) (s : State) : (putPort p x s).scene = s.scene := rfl
@[simp] theorem putPort_fin (p : Nat) (x : Port) (s : State) : (putPort p x s).fin = s.fin := rfl
@[simp] theorem putPort_port (p : Nat) (x : Port) (s : State) : (putPort p x s).port = { s.port with ports := vput s.port.ports p x } := rfl
@[simp] theorem putPort_net (p : Nat) (x : Port) (s : State) : (putPort p x s).net = s.net := rfl
@[simp] theorem putPort_ref (p : Nat) (x : Port) (s : State) : (putPort p x s).ref = s.ref := rfl
@[simp] theorem putPort_twin (p : Nat) (x : Port) (s : State) : (putPort p x s).twin = s.twin := rfl
@[simp] theorem putPort_msvc (p : Nat) (x : Port) (s : State) : (putPort p x s).msvc = s.msvc := rfl
@[simp] theorem putPort_slate (p : Nat) (x : Port) (s : State) : (putPort p x s).slate = s.slate := rfl
@[simp] theorem putPort_geode (p : Nat) (x : Port) (s : State) : (putPort p x s).geode = s.geode := rfl
@[simp] theorem putPort_dram (p : Nat) (x : Port) (s : State) : (putPort p x s).dram = s.dram := rfl
@[simp] theorem putPort_fab (p : Nat) (x : Port) (s : State) : (putPort p x s).fab = s.fab := rfl
@[simp] theorem putPort_dma (p : Nat) (x : Port) (s : State) : (putPort p x s).dma = s.dma := rfl
@[simp] theorem putPort_sys (p : Nat) (x : Port) (s : State) : (putPort p x s).sys = s.sys := rfl
@[simp] theorem putPort_host (p : Nat) (x : Port) (s : State) : (putPort p x s).host = s.host := rfl
@[simp] theorem putPort_out (p : Nat) (x : Port) (s : State) : (putPort p x s).out = s.out := rfl

/-! ### putPdm -/

@[simp] theorem putPdm_pending (k : Nat) (x : PdmStream) (s : State) : (putPdm k x s).pending = s.pending := rfl
@[simp] theorem putPdm_freeCtr (k : Nat) (x : PdmStream) (s : State) : (putPdm k x s).freeCtr = s.freeCtr := rfl
@[simp] theorem putPdm_mem (k : Nat) (x : PdmStream) (s : State) : (putPdm k x s).mem = s.mem := rfl
@[simp] theorem putPdm_stage (k : Nat) (x : PdmStream) (s : State) : (putPdm k x s).stage = s.stage := rfl
@[simp] theorem putPdm_regs (k : Nat) (x : PdmStream) (s : State) : (putPdm k x s).regs = s.regs := rfl
@[simp] theorem putPdm_act (k : Nat) (x : PdmStream) (s : State) : (putPdm k x s).act = s.act := rfl
@[simp] theorem putPdm_banks (k : Nat) (x : PdmStream) (s : State) : (putPdm k x s).banks = s.banks := rfl
@[simp] theorem putPdm_err (k : Nat) (x : PdmStream) (s : State) : (putPdm k x s).err = s.err := rfl
@[simp] theorem putPdm_call (k : Nat) (x : PdmStream) (s : State) : (putPdm k x s).call = s.call := rfl
@[simp] theorem putPdm_eng (k : Nat) (x : PdmStream) (s : State) : (putPdm k x s).eng = s.eng := rfl
@[simp] theorem putPdm_cores (k : Nat) (x : PdmStream) (s : State) : (putPdm k x s).cores = s.cores := rfl
@[simp] theorem putPdm_crews (k : Nat) (x : PdmStream) (s : State) : (putPdm k x s).crews = s.crews := rfl
@[simp] theorem putPdm_mix (k : Nat) (x : PdmStream) (s : State) : (putPdm k x s).mix = s.mix := rfl
@[simp] theorem putPdm_patch (k : Nat) (x : PdmStream) (s : State) : (putPdm k x s).patch = s.patch := rfl
@[simp] theorem putPdm_scene (k : Nat) (x : PdmStream) (s : State) : (putPdm k x s).scene = s.scene := rfl
@[simp] theorem putPdm_fin (k : Nat) (x : PdmStream) (s : State) : (putPdm k x s).fin = s.fin := rfl
@[simp] theorem putPdm_port (k : Nat) (x : PdmStream) (s : State) : (putPdm k x s).port = { s.port with pdm := vput s.port.pdm k x } := rfl
@[simp] theorem putPdm_net (k : Nat) (x : PdmStream) (s : State) : (putPdm k x s).net = s.net := rfl
@[simp] theorem putPdm_ref (k : Nat) (x : PdmStream) (s : State) : (putPdm k x s).ref = s.ref := rfl
@[simp] theorem putPdm_twin (k : Nat) (x : PdmStream) (s : State) : (putPdm k x s).twin = s.twin := rfl
@[simp] theorem putPdm_msvc (k : Nat) (x : PdmStream) (s : State) : (putPdm k x s).msvc = s.msvc := rfl
@[simp] theorem putPdm_slate (k : Nat) (x : PdmStream) (s : State) : (putPdm k x s).slate = s.slate := rfl
@[simp] theorem putPdm_geode (k : Nat) (x : PdmStream) (s : State) : (putPdm k x s).geode = s.geode := rfl
@[simp] theorem putPdm_dram (k : Nat) (x : PdmStream) (s : State) : (putPdm k x s).dram = s.dram := rfl
@[simp] theorem putPdm_fab (k : Nat) (x : PdmStream) (s : State) : (putPdm k x s).fab = s.fab := rfl
@[simp] theorem putPdm_dma (k : Nat) (x : PdmStream) (s : State) : (putPdm k x s).dma = s.dma := rfl
@[simp] theorem putPdm_sys (k : Nat) (x : PdmStream) (s : State) : (putPdm k x s).sys = s.sys := rfl
@[simp] theorem putPdm_host (k : Nat) (x : PdmStream) (s : State) : (putPdm k x s).host = s.host := rfl
@[simp] theorem putPdm_out (k : Nat) (x : PdmStream) (s : State) : (putPdm k x s).out = s.out := rfl

/-! ### putStr -/

@[simp] theorem putStr_pending (k : Nat) (x : Stream) (s : State) : (putStr k x s).pending = s.pending := rfl
@[simp] theorem putStr_freeCtr (k : Nat) (x : Stream) (s : State) : (putStr k x s).freeCtr = s.freeCtr := rfl
@[simp] theorem putStr_mem (k : Nat) (x : Stream) (s : State) : (putStr k x s).mem = s.mem := rfl
@[simp] theorem putStr_stage (k : Nat) (x : Stream) (s : State) : (putStr k x s).stage = s.stage := rfl
@[simp] theorem putStr_regs (k : Nat) (x : Stream) (s : State) : (putStr k x s).regs = s.regs := rfl
@[simp] theorem putStr_act (k : Nat) (x : Stream) (s : State) : (putStr k x s).act = s.act := rfl
@[simp] theorem putStr_banks (k : Nat) (x : Stream) (s : State) : (putStr k x s).banks = s.banks := rfl
@[simp] theorem putStr_err (k : Nat) (x : Stream) (s : State) : (putStr k x s).err = s.err := rfl
@[simp] theorem putStr_call (k : Nat) (x : Stream) (s : State) : (putStr k x s).call = s.call := rfl
@[simp] theorem putStr_eng (k : Nat) (x : Stream) (s : State) : (putStr k x s).eng = s.eng := rfl
@[simp] theorem putStr_cores (k : Nat) (x : Stream) (s : State) : (putStr k x s).cores = s.cores := rfl
@[simp] theorem putStr_crews (k : Nat) (x : Stream) (s : State) : (putStr k x s).crews = s.crews := rfl
@[simp] theorem putStr_mix (k : Nat) (x : Stream) (s : State) : (putStr k x s).mix = s.mix := rfl
@[simp] theorem putStr_patch (k : Nat) (x : Stream) (s : State) : (putStr k x s).patch = s.patch := rfl
@[simp] theorem putStr_scene (k : Nat) (x : Stream) (s : State) : (putStr k x s).scene = s.scene := rfl
@[simp] theorem putStr_fin (k : Nat) (x : Stream) (s : State) : (putStr k x s).fin = s.fin := rfl
@[simp] theorem putStr_port (k : Nat) (x : Stream) (s : State) : (putStr k x s).port = s.port := rfl
@[simp] theorem putStr_net (k : Nat) (x : Stream) (s : State) : (putStr k x s).net = { s.net with streams := tset {} s.net.streams k x } := rfl
@[simp] theorem putStr_ref (k : Nat) (x : Stream) (s : State) : (putStr k x s).ref = s.ref := rfl
@[simp] theorem putStr_twin (k : Nat) (x : Stream) (s : State) : (putStr k x s).twin = s.twin := rfl
@[simp] theorem putStr_msvc (k : Nat) (x : Stream) (s : State) : (putStr k x s).msvc = s.msvc := rfl
@[simp] theorem putStr_slate (k : Nat) (x : Stream) (s : State) : (putStr k x s).slate = s.slate := rfl
@[simp] theorem putStr_geode (k : Nat) (x : Stream) (s : State) : (putStr k x s).geode = s.geode := rfl
@[simp] theorem putStr_dram (k : Nat) (x : Stream) (s : State) : (putStr k x s).dram = s.dram := rfl
@[simp] theorem putStr_fab (k : Nat) (x : Stream) (s : State) : (putStr k x s).fab = s.fab := rfl
@[simp] theorem putStr_dma (k : Nat) (x : Stream) (s : State) : (putStr k x s).dma = s.dma := rfl
@[simp] theorem putStr_sys (k : Nat) (x : Stream) (s : State) : (putStr k x s).sys = s.sys := rfl
@[simp] theorem putStr_host (k : Nat) (x : Stream) (s : State) : (putStr k x s).host = s.host := rfl
@[simp] theorem putStr_out (k : Nat) (x : Stream) (s : State) : (putStr k x s).out = s.out := rfl

/-! ### putPtp -/

@[simp] theorem putPtp_pending (i : Nat) (x : Ptp) (s : State) : (putPtp i x s).pending = s.pending := rfl
@[simp] theorem putPtp_freeCtr (i : Nat) (x : Ptp) (s : State) : (putPtp i x s).freeCtr = s.freeCtr := rfl
@[simp] theorem putPtp_mem (i : Nat) (x : Ptp) (s : State) : (putPtp i x s).mem = s.mem := rfl
@[simp] theorem putPtp_stage (i : Nat) (x : Ptp) (s : State) : (putPtp i x s).stage = s.stage := rfl
@[simp] theorem putPtp_regs (i : Nat) (x : Ptp) (s : State) : (putPtp i x s).regs = s.regs := rfl
@[simp] theorem putPtp_act (i : Nat) (x : Ptp) (s : State) : (putPtp i x s).act = s.act := rfl
@[simp] theorem putPtp_banks (i : Nat) (x : Ptp) (s : State) : (putPtp i x s).banks = s.banks := rfl
@[simp] theorem putPtp_err (i : Nat) (x : Ptp) (s : State) : (putPtp i x s).err = s.err := rfl
@[simp] theorem putPtp_call (i : Nat) (x : Ptp) (s : State) : (putPtp i x s).call = s.call := rfl
@[simp] theorem putPtp_eng (i : Nat) (x : Ptp) (s : State) : (putPtp i x s).eng = s.eng := rfl
@[simp] theorem putPtp_cores (i : Nat) (x : Ptp) (s : State) : (putPtp i x s).cores = s.cores := rfl
@[simp] theorem putPtp_crews (i : Nat) (x : Ptp) (s : State) : (putPtp i x s).crews = s.crews := rfl
@[simp] theorem putPtp_mix (i : Nat) (x : Ptp) (s : State) : (putPtp i x s).mix = s.mix := rfl
@[simp] theorem putPtp_patch (i : Nat) (x : Ptp) (s : State) : (putPtp i x s).patch = s.patch := rfl
@[simp] theorem putPtp_scene (i : Nat) (x : Ptp) (s : State) : (putPtp i x s).scene = s.scene := rfl
@[simp] theorem putPtp_fin (i : Nat) (x : Ptp) (s : State) : (putPtp i x s).fin = s.fin := rfl
@[simp] theorem putPtp_port (i : Nat) (x : Ptp) (s : State) : (putPtp i x s).port = s.port := rfl
@[simp] theorem putPtp_net (i : Nat) (x : Ptp) (s : State) : (putPtp i x s).net = { s.net with ptp := vput s.net.ptp i x } := rfl
@[simp] theorem putPtp_ref (i : Nat) (x : Ptp) (s : State) : (putPtp i x s).ref = s.ref := rfl
@[simp] theorem putPtp_twin (i : Nat) (x : Ptp) (s : State) : (putPtp i x s).twin = s.twin := rfl
@[simp] theorem putPtp_msvc (i : Nat) (x : Ptp) (s : State) : (putPtp i x s).msvc = s.msvc := rfl
@[simp] theorem putPtp_slate (i : Nat) (x : Ptp) (s : State) : (putPtp i x s).slate = s.slate := rfl
@[simp] theorem putPtp_geode (i : Nat) (x : Ptp) (s : State) : (putPtp i x s).geode = s.geode := rfl
@[simp] theorem putPtp_dram (i : Nat) (x : Ptp) (s : State) : (putPtp i x s).dram = s.dram := rfl
@[simp] theorem putPtp_fab (i : Nat) (x : Ptp) (s : State) : (putPtp i x s).fab = s.fab := rfl
@[simp] theorem putPtp_dma (i : Nat) (x : Ptp) (s : State) : (putPtp i x s).dma = s.dma := rfl
@[simp] theorem putPtp_sys (i : Nat) (x : Ptp) (s : State) : (putPtp i x s).sys = s.sys := rfl
@[simp] theorem putPtp_host (i : Nat) (x : Ptp) (s : State) : (putPtp i x s).host = s.host := rfl
@[simp] theorem putPtp_out (i : Nat) (x : Ptp) (s : State) : (putPtp i x s).out = s.out := rfl

/-! ### setHeld -/

@[simp] theorem setHeld_pending (h : Int) (s : State) : (setHeld h s).pending = s.pending := rfl
@[simp] theorem setHeld_freeCtr (h : Int) (s : State) : (setHeld h s).freeCtr = s.freeCtr := rfl
@[simp] theorem setHeld_mem (h : Int) (s : State) : (setHeld h s).mem = s.mem := rfl
@[simp] theorem setHeld_stage (h : Int) (s : State) : (setHeld h s).stage = s.stage := rfl
@[simp] theorem setHeld_regs (h : Int) (s : State) : (setHeld h s).regs = s.regs := rfl
@[simp] theorem setHeld_act (h : Int) (s : State) : (setHeld h s).act = s.act := rfl
@[simp] theorem setHeld_banks (h : Int) (s : State) : (setHeld h s).banks = s.banks := rfl
@[simp] theorem setHeld_err (h : Int) (s : State) : (setHeld h s).err = s.err := rfl
@[simp] theorem setHeld_call (h : Int) (s : State) : (setHeld h s).call = s.call := rfl
@[simp] theorem setHeld_eng (h : Int) (s : State) : (setHeld h s).eng = s.eng := rfl
@[simp] theorem setHeld_cores (h : Int) (s : State) : (setHeld h s).cores = s.cores := rfl
@[simp] theorem setHeld_crews (h : Int) (s : State) : (setHeld h s).crews = s.crews := rfl
@[simp] theorem setHeld_mix (h : Int) (s : State) : (setHeld h s).mix = s.mix := rfl
@[simp] theorem setHeld_patch (h : Int) (s : State) : (setHeld h s).patch = s.patch := rfl
@[simp] theorem setHeld_scene (h : Int) (s : State) : (setHeld h s).scene = s.scene := rfl
@[simp] theorem setHeld_fin (h : Int) (s : State) : (setHeld h s).fin = s.fin := rfl
@[simp] theorem setHeld_port (h : Int) (s : State) : (setHeld h s).port = s.port := rfl
@[simp] theorem setHeld_net (h : Int) (s : State) : (setHeld h s).net = { s.net with held := h } := rfl
@[simp] theorem setHeld_ref (h : Int) (s : State) : (setHeld h s).ref = s.ref := rfl
@[simp] theorem setHeld_twin (h : Int) (s : State) : (setHeld h s).twin = s.twin := rfl
@[simp] theorem setHeld_msvc (h : Int) (s : State) : (setHeld h s).msvc = s.msvc := rfl
@[simp] theorem setHeld_slate (h : Int) (s : State) : (setHeld h s).slate = s.slate := rfl
@[simp] theorem setHeld_geode (h : Int) (s : State) : (setHeld h s).geode = s.geode := rfl
@[simp] theorem setHeld_dram (h : Int) (s : State) : (setHeld h s).dram = s.dram := rfl
@[simp] theorem setHeld_fab (h : Int) (s : State) : (setHeld h s).fab = s.fab := rfl
@[simp] theorem setHeld_dma (h : Int) (s : State) : (setHeld h s).dma = s.dma := rfl
@[simp] theorem setHeld_sys (h : Int) (s : State) : (setHeld h s).sys = s.sys := rfl
@[simp] theorem setHeld_host (h : Int) (s : State) : (setHeld h s).host = s.host := rfl
@[simp] theorem setHeld_out (h : Int) (s : State) : (setHeld h s).out = s.out := rfl

/-! ### putRef -/

@[simp] theorem putRef_pending (r : Nat) (x : RefSt) (s : State) : (putRef r x s).pending = s.pending := rfl
@[simp] theorem putRef_freeCtr (r : Nat) (x : RefSt) (s : State) : (putRef r x s).freeCtr = s.freeCtr := rfl
@[simp] theorem putRef_mem (r : Nat) (x : RefSt) (s : State) : (putRef r x s).mem = s.mem := rfl
@[simp] theorem putRef_stage (r : Nat) (x : RefSt) (s : State) : (putRef r x s).stage = s.stage := rfl
@[simp] theorem putRef_regs (r : Nat) (x : RefSt) (s : State) : (putRef r x s).regs = s.regs := rfl
@[simp] theorem putRef_act (r : Nat) (x : RefSt) (s : State) : (putRef r x s).act = s.act := rfl
@[simp] theorem putRef_banks (r : Nat) (x : RefSt) (s : State) : (putRef r x s).banks = s.banks := rfl
@[simp] theorem putRef_err (r : Nat) (x : RefSt) (s : State) : (putRef r x s).err = s.err := rfl
@[simp] theorem putRef_call (r : Nat) (x : RefSt) (s : State) : (putRef r x s).call = s.call := rfl
@[simp] theorem putRef_eng (r : Nat) (x : RefSt) (s : State) : (putRef r x s).eng = s.eng := rfl
@[simp] theorem putRef_cores (r : Nat) (x : RefSt) (s : State) : (putRef r x s).cores = s.cores := rfl
@[simp] theorem putRef_crews (r : Nat) (x : RefSt) (s : State) : (putRef r x s).crews = s.crews := rfl
@[simp] theorem putRef_mix (r : Nat) (x : RefSt) (s : State) : (putRef r x s).mix = s.mix := rfl
@[simp] theorem putRef_patch (r : Nat) (x : RefSt) (s : State) : (putRef r x s).patch = s.patch := rfl
@[simp] theorem putRef_scene (r : Nat) (x : RefSt) (s : State) : (putRef r x s).scene = s.scene := rfl
@[simp] theorem putRef_fin (r : Nat) (x : RefSt) (s : State) : (putRef r x s).fin = s.fin := rfl
@[simp] theorem putRef_port (r : Nat) (x : RefSt) (s : State) : (putRef r x s).port = s.port := rfl
@[simp] theorem putRef_net (r : Nat) (x : RefSt) (s : State) : (putRef r x s).net = s.net := rfl
@[simp] theorem putRef_ref (r : Nat) (x : RefSt) (s : State) : (putRef r x s).ref = { s.ref with refs := vput s.ref.refs r x } := rfl
@[simp] theorem putRef_twin (r : Nat) (x : RefSt) (s : State) : (putRef r x s).twin = s.twin := rfl
@[simp] theorem putRef_msvc (r : Nat) (x : RefSt) (s : State) : (putRef r x s).msvc = s.msvc := rfl
@[simp] theorem putRef_slate (r : Nat) (x : RefSt) (s : State) : (putRef r x s).slate = s.slate := rfl
@[simp] theorem putRef_geode (r : Nat) (x : RefSt) (s : State) : (putRef r x s).geode = s.geode := rfl
@[simp] theorem putRef_dram (r : Nat) (x : RefSt) (s : State) : (putRef r x s).dram = s.dram := rfl
@[simp] theorem putRef_fab (r : Nat) (x : RefSt) (s : State) : (putRef r x s).fab = s.fab := rfl
@[simp] theorem putRef_dma (r : Nat) (x : RefSt) (s : State) : (putRef r x s).dma = s.dma := rfl
@[simp] theorem putRef_sys (r : Nat) (x : RefSt) (s : State) : (putRef r x s).sys = s.sys := rfl
@[simp] theorem putRef_host (r : Nat) (x : RefSt) (s : State) : (putRef r x s).host = s.host := rfl
@[simp] theorem putRef_out (r : Nat) (x : RefSt) (s : State) : (putRef r x s).out = s.out := rfl

/-! ### putCk -/

@[simp] theorem putCk_pending (i : Nat) (x : Ckout) (s : State) : (putCk i x s).pending = s.pending := rfl
@[simp] theorem putCk_freeCtr (i : Nat) (x : Ckout) (s : State) : (putCk i x s).freeCtr = s.freeCtr := rfl
@[simp] theorem putCk_mem (i : Nat) (x : Ckout) (s : State) : (putCk i x s).mem = s.mem := rfl
@[simp] theorem putCk_stage (i : Nat) (x : Ckout) (s : State) : (putCk i x s).stage = s.stage := rfl
@[simp] theorem putCk_regs (i : Nat) (x : Ckout) (s : State) : (putCk i x s).regs = s.regs := rfl
@[simp] theorem putCk_act (i : Nat) (x : Ckout) (s : State) : (putCk i x s).act = s.act := rfl
@[simp] theorem putCk_banks (i : Nat) (x : Ckout) (s : State) : (putCk i x s).banks = s.banks := rfl
@[simp] theorem putCk_err (i : Nat) (x : Ckout) (s : State) : (putCk i x s).err = s.err := rfl
@[simp] theorem putCk_call (i : Nat) (x : Ckout) (s : State) : (putCk i x s).call = s.call := rfl
@[simp] theorem putCk_eng (i : Nat) (x : Ckout) (s : State) : (putCk i x s).eng = s.eng := rfl
@[simp] theorem putCk_cores (i : Nat) (x : Ckout) (s : State) : (putCk i x s).cores = s.cores := rfl
@[simp] theorem putCk_crews (i : Nat) (x : Ckout) (s : State) : (putCk i x s).crews = s.crews := rfl
@[simp] theorem putCk_mix (i : Nat) (x : Ckout) (s : State) : (putCk i x s).mix = s.mix := rfl
@[simp] theorem putCk_patch (i : Nat) (x : Ckout) (s : State) : (putCk i x s).patch = s.patch := rfl
@[simp] theorem putCk_scene (i : Nat) (x : Ckout) (s : State) : (putCk i x s).scene = s.scene := rfl
@[simp] theorem putCk_fin (i : Nat) (x : Ckout) (s : State) : (putCk i x s).fin = s.fin := rfl
@[simp] theorem putCk_port (i : Nat) (x : Ckout) (s : State) : (putCk i x s).port = s.port := rfl
@[simp] theorem putCk_net (i : Nat) (x : Ckout) (s : State) : (putCk i x s).net = s.net := rfl
@[simp] theorem putCk_ref (i : Nat) (x : Ckout) (s : State) : (putCk i x s).ref = { s.ref with ck := vput s.ref.ck i x } := rfl
@[simp] theorem putCk_twin (i : Nat) (x : Ckout) (s : State) : (putCk i x s).twin = s.twin := rfl
@[simp] theorem putCk_msvc (i : Nat) (x : Ckout) (s : State) : (putCk i x s).msvc = s.msvc := rfl
@[simp] theorem putCk_slate (i : Nat) (x : Ckout) (s : State) : (putCk i x s).slate = s.slate := rfl
@[simp] theorem putCk_geode (i : Nat) (x : Ckout) (s : State) : (putCk i x s).geode = s.geode := rfl
@[simp] theorem putCk_dram (i : Nat) (x : Ckout) (s : State) : (putCk i x s).dram = s.dram := rfl
@[simp] theorem putCk_fab (i : Nat) (x : Ckout) (s : State) : (putCk i x s).fab = s.fab := rfl
@[simp] theorem putCk_dma (i : Nat) (x : Ckout) (s : State) : (putCk i x s).dma = s.dma := rfl
@[simp] theorem putCk_sys (i : Nat) (x : Ckout) (s : State) : (putCk i x s).sys = s.sys := rfl
@[simp] theorem putCk_host (i : Nat) (x : Ckout) (s : State) : (putCk i x s).host = s.host := rfl
@[simp] theorem putCk_out (i : Nat) (x : Ckout) (s : State) : (putCk i x s).out = s.out := rfl

/-! ### putTreat -/

@[simp] theorem putTreat_pending (e : Nat) (t : Treat) (s : State) : (putTreat e t s).pending = s.pending := rfl
@[simp] theorem putTreat_freeCtr (e : Nat) (t : Treat) (s : State) : (putTreat e t s).freeCtr = s.freeCtr := rfl
@[simp] theorem putTreat_mem (e : Nat) (t : Treat) (s : State) : (putTreat e t s).mem = s.mem := rfl
@[simp] theorem putTreat_stage (e : Nat) (t : Treat) (s : State) : (putTreat e t s).stage = s.stage := rfl
@[simp] theorem putTreat_regs (e : Nat) (t : Treat) (s : State) : (putTreat e t s).regs = s.regs := rfl
@[simp] theorem putTreat_act (e : Nat) (t : Treat) (s : State) : (putTreat e t s).act = s.act := rfl
@[simp] theorem putTreat_banks (e : Nat) (t : Treat) (s : State) : (putTreat e t s).banks = s.banks := rfl
@[simp] theorem putTreat_err (e : Nat) (t : Treat) (s : State) : (putTreat e t s).err = s.err := rfl
@[simp] theorem putTreat_call (e : Nat) (t : Treat) (s : State) : (putTreat e t s).call = s.call := rfl
@[simp] theorem putTreat_eng (e : Nat) (t : Treat) (s : State) : (putTreat e t s).eng = { s.eng with ovr := tset .none s.eng.ovr e t } := rfl
@[simp] theorem putTreat_cores (e : Nat) (t : Treat) (s : State) : (putTreat e t s).cores = s.cores := rfl
@[simp] theorem putTreat_crews (e : Nat) (t : Treat) (s : State) : (putTreat e t s).crews = s.crews := rfl
@[simp] theorem putTreat_mix (e : Nat) (t : Treat) (s : State) : (putTreat e t s).mix = s.mix := rfl
@[simp] theorem putTreat_patch (e : Nat) (t : Treat) (s : State) : (putTreat e t s).patch = s.patch := rfl
@[simp] theorem putTreat_scene (e : Nat) (t : Treat) (s : State) : (putTreat e t s).scene = s.scene := rfl
@[simp] theorem putTreat_fin (e : Nat) (t : Treat) (s : State) : (putTreat e t s).fin = s.fin := rfl
@[simp] theorem putTreat_port (e : Nat) (t : Treat) (s : State) : (putTreat e t s).port = s.port := rfl
@[simp] theorem putTreat_net (e : Nat) (t : Treat) (s : State) : (putTreat e t s).net = s.net := rfl
@[simp] theorem putTreat_ref (e : Nat) (t : Treat) (s : State) : (putTreat e t s).ref = s.ref := rfl
@[simp] theorem putTreat_twin (e : Nat) (t : Treat) (s : State) : (putTreat e t s).twin = s.twin := rfl
@[simp] theorem putTreat_msvc (e : Nat) (t : Treat) (s : State) : (putTreat e t s).msvc = s.msvc := rfl
@[simp] theorem putTreat_slate (e : Nat) (t : Treat) (s : State) : (putTreat e t s).slate = s.slate := rfl
@[simp] theorem putTreat_geode (e : Nat) (t : Treat) (s : State) : (putTreat e t s).geode = s.geode := rfl
@[simp] theorem putTreat_dram (e : Nat) (t : Treat) (s : State) : (putTreat e t s).dram = s.dram := rfl
@[simp] theorem putTreat_fab (e : Nat) (t : Treat) (s : State) : (putTreat e t s).fab = s.fab := rfl
@[simp] theorem putTreat_dma (e : Nat) (t : Treat) (s : State) : (putTreat e t s).dma = s.dma := rfl
@[simp] theorem putTreat_sys (e : Nat) (t : Treat) (s : State) : (putTreat e t s).sys = s.sys := rfl
@[simp] theorem putTreat_host (e : Nat) (t : Treat) (s : State) : (putTreat e t s).host = s.host := rfl
@[simp] theorem putTreat_out (e : Nat) (t : Treat) (s : State) : (putTreat e t s).out = s.out := rfl

/-! ### sectionDrop -/

@[simp] theorem sectionDrop_pending (s : State) : (sectionDrop s).pending = s.pending := rfl
@[simp] theorem sectionDrop_freeCtr (s : State) : (sectionDrop s).freeCtr = s.freeCtr := rfl
@[simp] theorem sectionDrop_mem (s : State) : (sectionDrop s).mem = s.mem := rfl
@[simp] theorem sectionDrop_stage (s : State) : (sectionDrop s).stage = s.stage := rfl
@[simp] theorem sectionDrop_regs (s : State) : (sectionDrop s).regs = s.regs := rfl
@[simp] theorem sectionDrop_act (s : State) : (sectionDrop s).act = s.act := rfl
@[simp] theorem sectionDrop_banks (s : State) : (sectionDrop s).banks = s.banks := rfl
@[simp] theorem sectionDrop_err (s : State) : (sectionDrop s).err = s.err := rfl
@[simp] theorem sectionDrop_call (s : State) : (sectionDrop s).call = s.call := rfl
@[simp] theorem sectionDrop_eng (s : State) : (sectionDrop s).eng = s.eng := rfl
@[simp] theorem sectionDrop_cores (s : State) : (sectionDrop s).cores = s.cores := rfl
@[simp] theorem sectionDrop_crews (s : State) : (sectionDrop s).crews = s.crews := rfl
@[simp] theorem sectionDrop_mix (s : State) : (sectionDrop s).mix = s.mix := rfl
@[simp] theorem sectionDrop_patch (s : State) : (sectionDrop s).patch = s.patch := rfl
@[simp] theorem sectionDrop_scene (s : State) : (sectionDrop s).scene = s.scene := rfl
@[simp] theorem sectionDrop_fin (s : State) : (sectionDrop s).fin = s.fin := rfl
@[simp] theorem sectionDrop_port (s : State) : (sectionDrop s).port = s.port := rfl
@[simp] theorem sectionDrop_net (s : State) : (sectionDrop s).net = s.net := rfl
@[simp] theorem sectionDrop_ref (s : State) : (sectionDrop s).ref = s.ref := rfl
@[simp] theorem sectionDrop_twin (s : State) : (sectionDrop s).twin = { s.twin with callsIn := [], rdIn := none, carryBad := none, secOf := none, secBad := false } := rfl
@[simp] theorem sectionDrop_msvc (s : State) : (sectionDrop s).msvc = s.msvc := rfl
@[simp] theorem sectionDrop_slate (s : State) : (sectionDrop s).slate = s.slate := rfl
@[simp] theorem sectionDrop_geode (s : State) : (sectionDrop s).geode = s.geode := rfl
@[simp] theorem sectionDrop_dram (s : State) : (sectionDrop s).dram = s.dram := rfl
@[simp] theorem sectionDrop_fab (s : State) : (sectionDrop s).fab = s.fab := rfl
@[simp] theorem sectionDrop_dma (s : State) : (sectionDrop s).dma = s.dma := rfl
@[simp] theorem sectionDrop_sys (s : State) : (sectionDrop s).sys = s.sys := rfl
@[simp] theorem sectionDrop_host (s : State) : (sectionDrop s).host = s.host := rfl
@[simp] theorem sectionDrop_out (s : State) : (sectionDrop s).out = s.out := rfl

/-! ### What the updates set -/

@[simp] theorem setReg_regs (off : Nat) (v : Word) (s : State) : (setReg off v s).regs = tset 0#32 s.regs off v := rfl
@[simp] theorem orReg_regs (off : Nat) (v : Word) (s : State) : (orReg off v s).regs = tset 0#32 s.regs off (reg s off ||| v) := rfl
@[simp] theorem emit_out (o : Out) (s : State) : (emit o s).out = s.out ++ [o] := rfl
@[simp] theorem writeWord_mem (a : Nat) (w : Word) (s : State) : (writeWord a w s).mem = memPutWord s.mem a w := rfl
@[simp] theorem writeBytes_mem (a : Nat) (bs : List Byte) (s : State) : (writeBytes a bs s).mem = memPutBytes s.mem a bs := rfl
@[simp] theorem putCore_cores (n : Nat) (k : Core) (s : State) : (putCore n k s).cores = vput s.cores n k := rfl

@[simp] theorem settle_reg (s : State) (off : Nat) : reg (settle s) off = reg s off := rfl
@[simp] theorem settle_coreAt (s : State) (n : Nat) : coreAt (settle s) n = coreAt s n := rfl
@[simp] theorem settle_bank (s : State) (m : Master) : bank (settle s) m = bank s m := rfl
@[simp] theorem putCore_reg (n : Nat) (k : Core) (s : State) (off : Nat) : reg (putCore n k s) off = reg s off := rfl

/-- A command that ends in `done` completes. -/
theorem done_eq (s : State) : done s = .next (settle s) := rfl

end Sys2Proof.Machine
end

