-- ==== Sys2Proof/Laws/Cores.lean ====
section
/-! SUPPORT. What issuing a bundle does, said once: the fetch that finds nothing, the bundle that commits, the syllable that is gated off. -/

namespace Sys2Proof.Machine

/-! ### Units of a vector -/

@[simp] theorem vget_vput {α : Type} {n : Nat} (d : α) (v : Vector α n) (i : Nat) (x : α) :
    vget d (vput v i x) i = if i < n then x else d := by
  by_cases h : i < n <;> simp [vget, vput, h]

theorem vget_vput_ne {α : Type} {n i j : Nat} (d : α) (v : Vector α n) (x : α) (h : i ≠ j) : vget d (vput v i x) j = vget d v j := by
  by_cases hi : i < n <;> by_cases hj : j < n <;> simp [vget, vput, hi, hj, h]

@[simp] theorem vput_vput {α : Type} {n : Nat} (v : Vector α n) (i : Nat) (x y : α) : vput (vput v i x) i y = vput v i y := by
  by_cases h : i < n
  · simp only [vput, h, dite_true]
    ext j hj
    by_cases hij : i = j <;> simp [hij]
  · simp [vput, h]

@[simp] theorem putCore_putCore (n : Nat) (k l : Core) (s : State) : putCore n k (putCore n l s) = putCore n k s := by
  simp [putCore]

@[simp] theorem coreAt_putCore {n : Nat} (h : n < 128) (k : Core) (s : State) : coreAt (putCore n k s) n = k := by
  simp [coreAt, putCore, h]

theorem coreAt_putCore_ne {m n : Nat} (h : n ≠ m) (k : Core) (s : State) : coreAt (putCore n k s) m = coreAt s m :=
  vget_vput_ne _ _ _ h

/-! ### Detectors that find nothing -/

theorem injActs_eq_false {s : State} {src : BitVec 16} {code : BitVec 12} (h : injArmed s src code = false) :
    injActs s src code = false := by
  simp only [injArmed, injActs, List.any_eq_false, Bool.and_eq_true, not_and, Bool.not_eq_true] at h ⊢
  exact fun x hx hn => absurd hn (by simpa using h x hx)

/-- A detector whose condition does not hold, with no slot armed for it, leaves the state alone. -/
theorem detect_none {alters : Bool} {src : BitVec 16} {code : BitVec 12} {sev : Sev} {info : Word} {s : State}
    (h : injArmed s src code = false) : detect alters src code sev info false s = (s, false) := by
  simp [detect, h]

/-- A word with good check bits reads without a record. -/
theorem eccCheck_good {k : Reader} {a : Nat} {s : State} (h : NoInjection s) : eccCheck k a 0 s = (s, false, false) := by
  simp [eccCheck, detect_none (h _ _), injActs_eq_false (h _ _)]

theorem readWord_good {k : Reader} {a : Nat} {s : State} (h : NoInjection s) (he : Good s a) :
    readWord k a s = (s, memWord s.mem a, false) := by
  simp [readWord, show tget 0 s.msvc.ecc (eccKey a) = 0 from he, eccCheck_good h]

theorem fetchCheck_good {s : State} {n : Nat} (h : Issues s n) : fetchCheck n (coreAt s n) s = (s, false) := by
  simp [fetchCheck, Nat.not_le.mpr h.pc, show tget 0 s.msvc.ecc (eccKey _) = 0 from h.ecc, eccCheck_good h.inj]

theorem coreInject_none {s : State} {n : Nat} {real : Option (BitVec 12)} (h : NoInjection s) : coreInject n real s = (s, real) := by
  have : coreCodes.find? (fun c => injArmed s (coreSrc n) c) = none := by
    simp [List.find?_eq_none, h _ _]
  simp [coreInject, this]

/-! ### Bundles -/

/-- A bundle with no fault and nothing to wait for commits. -/
theorem runBundle_commit {s : State} {n : Nat} {b : Bundle} (h : Issues s n)
    (hf : bundleFault s n (coreAt s n) b (computeRes n (coreAt s n) b) = none) (hh : xferHold s n (coreAt s n) b = none) :
    runBundle n b s = commit n b (computeRes n (coreAt s n) b) s := by
  simp [runBundle, h.run, fetchCheck_good h, coreInject_none h.inj, hf, hh]

/-- A bundle with a fault stops its core (R108). -/
theorem runBundle_fault {s : State} {n : Nat} {b : Bundle} {c : BitVec 12} (h : Issues s n)
    (hf : bundleFault s n (coreAt s n) b (computeRes n (coreAt s n) b) = some c) :
    runBundle n b s = coreFault n c s := by
  simp [runBundle, h.run, fetchCheck_good h, coreInject_none h.inj, hf]

/-! ### A compute syllable beside an idle transfer -/

theorem xferOf_idle {op : BitVec 6} {f : CSyl} {x : Word} (h : XferIdle f x) : xferOf (mkC op f x) = some .tnop := by
  rcases h with h | ⟨h, _⟩
  · simp [xferOf, mkC, h]
  · simp [xferOf, mkC, h, xopOf]

theorem xferFault_idle {n : Nat} {k : Core} {op : BitVec 6} {f : CSyl} {x : Word} (h : XferIdle f x) :
    xferFault n k (mkC op f x) = none := by
  rw [xferFault, xferOf_idle h]
  rcases h with h | ⟨_, h⟩
  · simp [xferOn, mkC, h]
  · simp [mkC, h, accAddrs]

theorem xferHold_idle {s : State} {n : Nat} {k : Core} {op : BitVec 6} {f : CSyl} {x : Word} (h : XferIdle f x) :
    xferHold s n k (mkC op f x) = none := by
  simp [xferHold, xferOf_idle h]

theorem xferAct_idle {n : Nat} {k : Core} {op : BitVec 6} {f : CSyl} {x : Word} {r : CRes} {s : State} (h : XferIdle f x) :
    xferAct n k (mkC op f x) r s = s := by
  simp [xferAct, xferOf_idle h, postMod]

/-- A compute command whose syllable writes registers and flags only. -/
theorem runBundle_compute {s : State} {n : Nat} {op : BitVec 6} {f : CSyl} {x : Word} {r : CRes} (hn : n < 128) (h : Issues s n)
    (hx : XferIdle f x) (hr : computeRes n (coreAt s n) (mkC op f x) = r) (hi : r.ill = false) (hc : r.ctl = .seq)
    (hw : r.csrw = none) :
    runBundle n (mkC op f x) s = putCore n { nextPc (writeC n r (coreAt s n)) .seq with held := none } s := by
  have hf : bundleFault s n (coreAt s n) (mkC op f x) (computeRes n (coreAt s n) (mkC op f x)) = none := by
    simp [bundleFault, hr, hi, hc, ctlFault, xferFault_idle hx]
  rw [runBundle_commit h hf (xferHold_idle hx), hr]
  simp only [commit, hc, hw, xferAct_idle hx, coreAt_putCore hn, ctlAct]
  simp [putCore]

/-- Under a false predicate a compute syllable that is not a control instruction does nothing (R114). -/
theorem computeRes_off {n : Nat} {k : Core} {op : BitVec 6} {f : CSyl} {x : Word} (ho : (semOf op.toNat).isSome = true)
    (hc : isControl op.toNat = false) (hp : rP k f.prd.toNat = false) : computeRes n k (mkC op f x) = {} := by
  obtain ⟨g, hg⟩ := Option.isSome_iff_exists.mp ho
  simp [computeRes, mkC, hg, hc, hp]

/-- Under a true predicate a compute syllable has the meaning of its opcode. -/
theorem computeRes_on {n : Nat} {k : Core} {op : BitVec 6} {f : CSyl} {x : Word} {g : CIn → CRes} (ho : semOf op.toNat = some g)
    (hp : rP k f.prd.toNat = true) : computeRes n k (mkC op f x) = g { k, n, f, imm := x } := by
  simp [computeRes, mkC, ho, hp]

@[simp] theorem writeC_none (n : Nat) (k : Core) : writeC n {} k = k := by
  simp [writeC]

@[simp] theorem writeC_one (n d : Nat) (v : Word) (k : Core) : writeC n { dw := [(d, v)] } k = setD d v k := by
  simp [writeC, setD]

/-- A compute command under a true predicate whose syllable writes registers and flags only: the core it leaves. -/
theorem becomes_compute {i : Instr} {s : State} {c : CoreId} {op : BitVec 6} {f : CSyl} {x : Word} {g : CIn → CRes} (k : CIn)
    (hk : k = { k := coreAt s c.val, n := c.val, f, imm := x }) (h : Computes s c f x)
    (he : exec i s = done (runBundle c.val (mkC op f x) s)) (ho : semOf op.toNat = some g) (hi : (g k).ill = false)
    (hc : (g k).ctl = .seq) (hw : (g k).csrw = none) : Becomes i s c (writeC c.val (g k) (coreAt s c.val)).onward := by
  subst hk
  rw [Becomes, Gives, he, done_eq, runBundle_compute c.isLt h.issues h.idle (computeRes_on ho h.pred) hi hc hw]
  rfl

theorem nextPc_seq (k : Core) : { nextPc k .seq with held := none } = k.onward := rfl

@[simp] theorem onward_setD (d : Nat) (v : Word) (k : Core) : (setD d v k).onward = setD d v k.onward := rfl

end Sys2Proof.Machine
end

