-- ==== Sys2Proof/Laws/Memory.lean ====
section
/-! SUPPORT. The laws of sparse tables and of byte memory: a read after a write, the canonical form, and the writes of words and
runs. -/

namespace Sys2Proof.Machine

variable {α : Type} [DecidableEq α]

/-! ### Sparse tables -/

theorem tget_of_tabFrom {d : α} {n i : Nat} {t : Tab α} (h : tabFrom d n t = true) (hi : i < n) : tget d t i = d := by
  cases t with
  | nil => rfl
  | cons e t =>
    obtain ⟨k, v⟩ := e
    simp only [tabFrom, Bool.and_eq_true, decide_eq_true_eq] at h
    have hk : ¬ i = k := by omega
    have hl : i < k := by omega
    simp only [tget, if_neg hk, if_pos hl]

theorem tabFrom_mono {d : α} {m n : Nat} {t : Tab α} (h : tabFrom d n t = true) (hm : m ≤ n) : tabFrom d m t = true := by
  cases t with
  | nil => rfl
  | cons e t =>
    obtain ⟨k, v⟩ := e
    simp only [tabFrom, Bool.and_eq_true, decide_eq_true_eq] at h ⊢
    exact ⟨⟨by omega, h.1.2⟩, h.2⟩

theorem tset_tabFrom {d : α} {n i : Nat} {v : α} {t : Tab α} (h : tabFrom d n t = true) (hi : n ≤ i) :
    tabFrom d n (tset d t i v) = true := by
  induction t generalizing n with
  | nil =>
    by_cases hv : v = d
    · simp [tset, hv, tabFrom]
    · simp [tset, hv, tabFrom, hi]
  | cons e t ih =>
    obtain ⟨k, w⟩ := e
    simp only [tabFrom, Bool.and_eq_true, decide_eq_true_eq] at h
    obtain ⟨⟨hk, hw⟩, ht⟩ := h
    by_cases h1 : i < k
    · by_cases hv : v = d
      · simp [tset, h1, hv, tabFrom, hk, hw, ht]
      · have hw' : ¬ w = d := by simpa using hw
        have hk' : i + 1 ≤ k := h1
        simp [tset, h1, hv, tabFrom, hi, hw', hk', ht]
    · by_cases h2 : i = k
      · subst h2
        by_cases hv : v = d
        · simpa [tset, hv] using tabFrom_mono ht (by omega)
        · simp [tset, hv, tabFrom, hi, ht]
      · simpa [tset, h1, h2, tabFrom, hk] using ⟨by simpa using hw, ih ht (by omega)⟩

theorem tget_tset {d : α} {n i j : Nat} {v : α} {t : Tab α} (h : tabFrom d n t = true) :
    tget d (tset d t i v) j = if j = i then v else tget d t j := by
  induction t generalizing n with
  | nil =>
    by_cases hv : v = d <;> by_cases hj : j = i <;> simp [tset, tget, hv, hj]
  | cons e t ih =>
    obtain ⟨k, w⟩ := e
    simp only [tabFrom, Bool.and_eq_true, decide_eq_true_eq] at h
    obtain ⟨⟨_, _⟩, ht⟩ := h
    by_cases h1 : i < k
    · by_cases hv : v = d
      · by_cases hj : j = i
        · subst hj
          have hne : ¬ j = k := by omega
          simp [tset, h1, hv, tget, hne]
        · simp [tset, h1, hv, hj]
      · by_cases hj : j = i
        · subst hj; simp [tset, h1, hv, tget]
        · by_cases hl : j < i
          · have hne : ¬ j = k := by omega
            have hlt : j < k := by omega
            simp [tset, h1, hv, tget, hj, hl, hne, hlt]
          · simp [tset, h1, hv, tget, hj, hl]
    · by_cases h2 : i = k
      · subst h2
        by_cases hj : j = i
        · subst hj
          by_cases hv : v = d
          · simpa [tset, hv] using tget_of_tabFrom ht (by omega)
          · simp [tset, hv, tget]
        · by_cases hv : v = d
          · by_cases hl : j < i
            · simpa [tset, hv, tget, hj, hl] using tget_of_tabFrom ht (by omega)
            · simp [tset, hv, tget, hj, hl]
          · simp [tset, hv, tget, hj]
      · by_cases hj : j = k
        · subst hj
          simp [tset, h1, h2, tget, Ne.symm h2]
        · by_cases hl : j < k
          · have hji : ¬ j = i := by omega
            simp [tset, h1, h2, tget, hj, hl, hji]
          · simp [tset, h1, h2, tget, hj, hl, ih ht]

theorem filter_tabFrom {d : α} {n : Nat} {t : Tab α} (p : Nat × α → Bool) (h : tabFrom d n t = true) :
    tabFrom d n (t.filter p) = true := by
  induction t generalizing n with
  | nil => rfl
  | cons e t ih =>
    obtain ⟨k, v⟩ := e
    simp only [tabFrom, Bool.and_eq_true, decide_eq_true_eq] at h
    by_cases hp : p (k, v)
    · rw [List.filter_cons_of_pos hp]
      simp only [tabFrom, Bool.and_eq_true, decide_eq_true_eq]
      exact ⟨h.1, ih h.2⟩
    · rw [List.filter_cons_of_neg (by simpa using hp)]
      exact tabFrom_mono (ih h.2) (by omega)

theorem tclear_tabWf {d : α} {lo n : Nat} {t : Tab α} (h : tabWf d t = true) : tabWf d (tclear t lo n) = true :=
  filter_tabFrom _ h

theorem tset_tabWf {d : α} {i : Nat} {v : α} {t : Tab α} (h : tabWf d t = true) : tabWf d (tset d t i v) = true :=
  tset_tabFrom h (Nat.zero_le i)

/-! ### Runs of cells -/

theorem append_tabFrom {m : Nat} {a b : List Host.Cell} {n : Nat} (ha : tabFrom 0#8 n a = true) (hb : tabFrom 0#8 m b = true)
    (hm : ∀ e ∈ a, e.1 < m) (hn : n ≤ m) : tabFrom 0#8 n (a ++ b) = true := by
  induction a generalizing n with
  | nil => exact tabFrom_mono hb hn
  | cons e t ih =>
    obtain ⟨k, v⟩ := e
    simp only [tabFrom, Bool.and_eq_true, decide_eq_true_eq, List.cons_append] at ha ⊢
    have hk : k < m := hm (k, v) (List.mem_cons_self ..)
    exact ⟨ha.1, ih ha.2 (fun e he => hm e (List.mem_cons_of_mem _ he)) hk⟩

theorem tabFrom_raise {n m : Nat} {t : List Host.Cell} (h : tabFrom 0#8 n t = true) (hm : ∀ e ∈ t, m ≤ e.1) : tabFrom 0#8 m t = true := by
  cases t with
  | nil => rfl
  | cons e t =>
    obtain ⟨k, v⟩ := e
    simp only [tabFrom, Bool.and_eq_true, decide_eq_true_eq] at h ⊢
    exact ⟨⟨hm (k, v) (List.mem_cons_self ..), h.1.2⟩, h.2⟩

theorem moved_tabFrom {n lo to_ : Nat} {t : List Host.Cell} (h : tabFrom 0#8 n t = true) (hl : ∀ e ∈ t, lo ≤ e.1) :
    tabFrom 0#8 to_ (t.map fun e => (e.1 - lo + to_, e.2)) = true := by
  have key : ∀ (n : Nat) (t : List Host.Cell), tabFrom 0#8 n t = true → lo ≤ n →
      tabFrom 0#8 (n - lo + to_) (t.map fun e => (e.1 - lo + to_, e.2)) = true := by
    intro n t
    induction t generalizing n with
    | nil => intros; rfl
    | cons e t ih =>
      intro h hn
      obtain ⟨k, v⟩ := e
      simp only [tabFrom, Bool.and_eq_true, decide_eq_true_eq, List.map_cons] at h ⊢
      refine ⟨⟨by omega, h.1.2⟩, ?_⟩
      have := ih (k + 1) h.2 (by omega)
      rwa [show k + 1 - lo + to_ = k - lo + to_ + 1 by omega] at this
  have := key lo t (tabFrom_raise h hl) (le_refl lo)
  simpa using this

/-! ### Bytes -/

theorem memPut_wf {m : List Host.Cell} {a : Nat} {b : Byte} (h : Memory.wf m = true) : Memory.wf (memPut m a b) = true :=
  tset_tabWf h

theorem memGet_memPut {m : List Host.Cell} {a c : Nat} {b : Byte} (h : Memory.wf m = true) :
    memGet (memPut m a b) c = if c = a then b else memGet m c :=
  tget_tset h

theorem memPutBytes_wf {m : List Host.Cell} {a : Nat} {bs : List Byte} (h : Memory.wf m = true) :
    Memory.wf (memPutBytes m a bs) = true := by
  induction bs generalizing m a with
  | nil => exact h
  | cons b bs ih => exact ih (memPut_wf h)

/-- A run of bytes is written from its address on, and nothing else. -/
theorem memGet_memPutBytes {m : List Host.Cell} {a c : Nat} {bs : List Byte} (h : Memory.wf m = true) :
    memGet (memPutBytes m a bs) c = if a ≤ c ∧ c < a + bs.length then bs[c - a]?.getD 0#8 else memGet m c := by
  induction bs generalizing m a with
  | nil =>
    simp only [memPutBytes, List.length_nil]
    rw [if_neg (by omega)]
  | cons b bs ih =>
    simp only [memPutBytes, ih (memPut_wf h), memGet_memPut h, List.length_cons]
    by_cases h1 : c = a
    · subst h1
      have : ¬ (c + 1 ≤ c) := by omega
      simp [this]
    · by_cases h2 : a + 1 ≤ c ∧ c < a + 1 + bs.length
      · have h3 : a ≤ c ∧ c < a + (bs.length + 1) := by omega
        have h4 : c - a = (c - (a + 1)) + 1 := by omega
        simp [h2, h3, h4]
      · have h3 : ¬ (a ≤ c ∧ c < a + (bs.length + 1)) := by omega
        rw [if_neg h2, if_neg h3, if_neg h1]

/-! ### Words -/

theorem memPutWord_wf {m : List Host.Cell} {a : Nat} {w : Word} (h : Memory.wf m = true) : Memory.wf (memPutWord m a w) = true :=
  memPut_wf (memPut_wf (memPut_wf (memPut_wf h)))

/-- A word's four bytes are written, and nothing else. -/
theorem memGet_memPutWord_outside {m : List Host.Cell} {a c : Nat} {w : Word} (h : Memory.wf m = true) (hc : c < a ∨ a + 4 ≤ c) :
    memGet (memPutWord m a w) c = memGet m c := by
  simp only [memPutWord]
  rw [memGet_memPut (memPut_wf (memPut_wf (memPut_wf h))), if_neg (by omega), memGet_memPut (memPut_wf (memPut_wf h)),
    if_neg (by omega), memGet_memPut (memPut_wf h), if_neg (by omega), memGet_memPut h, if_neg (by omega)]

/-- The four bytes of a word that was written. -/
theorem memGet_memPutWord {m : List Host.Cell} {a i : Nat} {w : Word} (h : Memory.wf m = true) (hi : i < 4) :
    memGet (memPutWord m a w) (a + i) = w.extractLsb' (8 * i) 8 := by
  simp only [memPutWord]
  rw [memGet_memPut (memPut_wf (memPut_wf (memPut_wf h))), memGet_memPut (memPut_wf (memPut_wf h)),
    memGet_memPut (memPut_wf h), memGet_memPut h]
  have : i = 0 ∨ i = 1 ∨ i = 2 ∨ i = 3 := by omega
  rcases this with rfl | rfl | rfl | rfl <;> simp

/-- A word reads back as it was written. -/
theorem memWord_memPutWord {m : List Host.Cell} {a : Nat} {w : Word} (h : Memory.wf m = true) :
    memWord (memPutWord m a w) a = w := by
  have e (i : Nat) (hi : i < 4) : memGet (memPutWord m a w) (a + i) = w.extractLsb' (8 * i) 8 := memGet_memPutWord h hi
  have e0 : memGet (memPutWord m a w) a = w.extractLsb' 0 8 := e 0 (by omega)
  simp only [memWord, e 3 (by omega), e 2 (by omega), e 1 (by omega), e0]
  ext i hi
  simp only [BitVec.getElem_append, BitVec.getElem_extractLsb']
  split
  · simp [BitVec.getLsbD_eq_getElem hi]
  · split
    · rw [show 8 * 1 + (i - 8) = i by omega]; exact BitVec.getLsbD_eq_getElem hi
    · split
      · rw [show 8 * 2 + (i - 8 - 8) = i by omega]; exact BitVec.getLsbD_eq_getElem hi
      · rw [show 8 * 3 + (i - 8 - 8 - 8) = i by omega]; exact BitVec.getLsbD_eq_getElem hi

theorem memWord_memPutWord_outside {m : List Host.Cell} {a c : Nat} {w : Word} (h : Memory.wf m = true) (hc : c + 4 ≤ a ∨ a + 4 ≤ c) :
    memWord (memPutWord m a w) c = memWord m c := by
  have e (i : Nat) (hi : i < 4) : memGet (memPutWord m a w) (c + i) = memGet m (c + i) :=
    memGet_memPutWord_outside h (by omega)
  have e0 : memGet (memPutWord m a w) c = memGet m c := e 0 (by omega)
  simp only [memWord, e 3 (by omega), e 2 (by omega), e 1 (by omega), e0]

theorem memPutWords_wf {m : List Host.Cell} {a : Nat} {ws : List Word} (h : Memory.wf m = true) :
    Memory.wf (memPutWords m a ws) = true := by
  induction ws generalizing m a with
  | nil => exact h
  | cons w ws ih => exact ih (memPutWord_wf h)

end Sys2Proof.Machine
end

