-- ==== Sys2Proof/Laws/Kept.lean ====
section
/-! SUPPORT. Two facts of every function of the machine, said once each: `f_kept`, that it changes neither the queue nor a memory, or `f_ok`, that it
leaves the queue alone and keeps the canonical form of the memories. The lemmas below carry them through updates, conditionals and folds.
The equations are closed by `id rfl`, so that simp keeps a proof term and the kernel need not compare whole states. -/

namespace Sys2Proof.Machine

/-- What every command must treat with care: the queue and the two byte memories. -/
structure Kept where
  queue : List Instr
  mem : List Host.Cell
  stage : List Host.Cell

/-- The kept part of a state. -/
def kept (s : State) : Kept := ⟨s.pending, s.mem, s.stage⟩

/-- The queue is `q` and both memories have their canonical form (log entry 1). -/
structure Ok (q : List Instr) (k : Kept) : Prop where
  queue : k.queue = q
  mem : Memory.wf k.mem = true
  stage : Memory.wf k.stage = true

theorem mk_kept (a b c d e f g h i j k l m n o p q r s t u v w x y z a1 b1 c1) :
    kept (State.mk a b c d e f g h i j k l m n o p q r s t u v w x y z a1 b1 c1) = ⟨a, c, d⟩ := id rfl
theorem kept_eta (s : State) : Kept.mk s.pending s.mem s.stage = kept s := id rfl
theorem ite_kept (c : Prop) [Decidable c] (a b : State) : kept (if c then a else b) = if c then kept a else kept b := by split <;> rfl
theorem ite_fst {α β : Type} (c : Prop) [Decidable c] (a b : α × β) : (if c then a else b).1 = if c then a.1 else b.1 := by split <;> rfl
theorem ite_snd {α β : Type} (c : Prop) [Decidable c] (a b : α × β) : (if c then a else b).2 = if c then a.2 else b.2 := by split <;> rfl
theorem fst_mk {α β : Type} (a : α) (b : β) : (a, b).1 = a := id rfl
theorem snd_mk {α β : Type} (a : α) (b : β) : (a, b).2 = b := id rfl
theorem ite_ans (c : Prop) [Decidable c] (a b : Answer) : (if c then a else b).s = if c then a.s else b.s := by split <;> rfl
theorem ans_mk (s r d) : (Answer.mk s r d).s = s := id rfl
theorem ite_run (c : Prop) [Decidable c] (a b : ReadRun) : (if c then a else b).s = if c then a.s else b.s := by split <;> rfl
theorem run_mk (s r d) : (ReadRun.mk s r d).s = s := id rfl
theorem ite_slice (c : Prop) [Decidable c] (a b : SliceRun) : (if c then a else b).s = if c then a.s else b.s := by split <;> rfl
theorem slice_mk (s r) : (SliceRun.mk s r).s = s := id rfl
theorem ite_ovr (c : Prop) [Decidable c] (a b : OverrunRes) : (if c then a else b).s = if c then a.s else b.s := by split <;> rfl
theorem ovr_mk (s r) : (OverrunRes.mk s r).s = s := id rfl
theorem foldl_kept {α : Type} (f : State → α → State) (l : List α) (s : State) (h : ∀ s x, kept (f s x) = kept s) : kept (l.foldl f s) = kept s := by
  induction l generalizing s with
  | nil => rfl
  | cons x xs ih => exact (ih (f s x)).trans (h s x)
theorem foldl_ok {α : Type} {q : List Instr} (f : State → α → State) (l : List α) (s : State)
    (hf : ∀ s x, Ok q (kept s) → Ok q (kept (f s x))) (h : Ok q (kept s)) : Ok q (kept (l.foldl f s)) := by
  induction l generalizing s with
  | nil => exact h
  | cons x xs ih => exact ih (f s x) (hf s x h)
theorem ok_ite {q : List Instr} {c : Prop} [Decidable c] {a b : State} (ha : Ok q (kept b) → Ok q (kept a)) (hb : Ok q (kept b)) :
    Ok q (kept (if c then a else b)) := by
  split
  · exact ha hb
  · exact hb
theorem foldl_state {α β : Type} {π : β → State} {P : State → Prop} (f : β → α → β) (l : List α) (b : β)
    (hf : ∀ b x, P (π b) → P (π (f b x))) (h : P (π b)) : P (π (l.foldl f b)) := by
  induction l generalizing b with
  | nil => exact h
  | cons x xs ih => exact ih (f b x) (hf b x h)

theorem cellsPut_wf {m new : List Host.Cell} {lo n : Nat} (h : Memory.wf m = true) (hn : tabFrom 0#8 lo new = true)
    (hu : ∀ e ∈ new, e.1 < lo + n) : Memory.wf (cellsPut m lo n new) = true := by
  have hf (p : Host.Cell → Bool) : tabFrom 0#8 0 (m.filter p) = true := filter_tabFrom p h
  have h3 : tabFrom 0#8 (lo + n) (m.filter fun e => decide (lo + n ≤ e.1)) = true :=
    tabFrom_raise (hf _) (fun e he => by simpa using (List.mem_filter.mp he).2)
  have h2 : tabFrom 0#8 lo (new ++ m.filter fun e => decide (lo + n ≤ e.1)) = true :=
    append_tabFrom hn h3 hu (Nat.le_add_right ..)
  have h1 : tabFrom 0#8 0 ((m.filter fun e => decide (e.1 < lo)) ++ (new ++ m.filter fun e => decide (lo + n ≤ e.1))) = true :=
    append_tabFrom (hf _) h2 (fun e he => by simpa using (List.mem_filter.mp he).2) (Nat.zero_le _)
  simpa [cellsPut, tabWf] using h1

theorem cellsPut_moved_wf {m c : List Host.Cell} {lo n to_ : Nat} (h : Memory.wf m = true) (hc : Memory.wf c = true) :
    Memory.wf (cellsPut m to_ n (cellsMoved c lo n to_)) = true := by
  refine cellsPut_wf h (moved_tabFrom (filter_tabFrom _ hc) (fun e he => ?_)) (fun e he => ?_)
  · have := (List.mem_filter.mp he).2
    simp only [Bool.and_eq_true, decide_eq_true_eq] at this
    exact this.1
  · simp only [cellsMoved, List.mem_map, List.mem_filter, Bool.and_eq_true, decide_eq_true_eq] at he
    obtain ⟨x, ⟨_, hx⟩, rfl⟩ := he
    show x.1 - lo + to_ < to_ + n
    omega

end Sys2Proof.Machine
end

