-- ==== Sys2Proof/Laws/KeptCore.lean ====
section
/-! SUPPORT. What the records, the memories and the cores keep (Laws/Kept.lean). -/

namespace Sys2Proof.Machine

theorem setReg_kept (off : ℕ) (v : Word) (s : State) : kept (setReg off v s) = kept s := by
  simp -proj only [setReg, ↓mk_kept, kept_eta]

theorem orReg_kept (off : ℕ) (v : Word) (s : State) : kept (orReg off v s) = kept s := by
  simp -proj only [orReg, setReg_kept]

theorem collect_kept (i : ℕ) (src : BitVec 16) (code : BitVec 12) (sev : Sev) (inj : Bool) (info : Word) (s : State) : kept (collect i src code sev inj info s) = kept s := by
  unfold collect
  repeat' first
    | with_reducible rfl
    | simp -proj only [↓mk_kept, kept_eta, ↓ite_kept, ite_self, orReg_kept]
    | split

theorem frameSend_kept (type : ℕ) (stroke : BitVec 64) (payload : List Byte) (s : State) : kept (frameSend type stroke payload s) = kept s := by
  simp -proj only [frameSend, ↓mk_kept, kept_eta]

theorem linkSend_kept (type : ℕ) (stroke : BitVec 64) (payload : List Byte) (s : State) : kept (linkSend type stroke payload s) = kept s := by
  unfold linkSend
  repeat' first
    | with_reducible rfl
    | simp -proj only [↓ite_kept, frameSend_kept]
    | split
    | (with_reducible refine (foldl_kept _ _ _ ?_).trans ?_)
    | intro

theorem offerSend_kept (h : BitVec 64) (s : State) : kept (offerSend h s) = kept s := by
  simp -proj only [offerSend, linkSend_kept]

theorem diagnose_kept (s : State) : kept (diagnose s) = kept s := by
  simp -proj only [diagnose, ↓mk_kept, kept_eta, ↓ite_kept, ite_self, offerSend_kept]

theorem reportI_kept (inj : Bool) (src : BitVec 16) (code : BitVec 12) (sev : Sev) (info : Word) (s : State) : kept (reportI inj src code sev info s) = kept s := by
  simp -proj only [reportI, ↓ite_kept, ite_self, collect_kept, diagnose_kept]

theorem injFire_kept (src : BitVec 16) (code : BitVec 12) (s : State) : kept (injFire src code s) = kept s := by
  simp -proj only [injFire, ↓mk_kept, kept_eta]

theorem lapseAt_kept (k : BitVec 64) (bits : Word) (s : State) : kept (lapseAt k bits s) = kept s := by
  simp -proj only [lapseAt, ↓mk_kept, kept_eta, ↓ite_kept, ite_self, orReg_kept]

theorem lapse_kept (bits : Word) (s : State) : kept (lapse bits s) = kept s := by
  simp -proj only [lapse, lapseAt_kept]

theorem report_kept (src : BitVec 16) (code : BitVec 12) (sev : Sev) (info : optParam Word 0#32) (s : State) : kept (report src code sev info s) = kept s := by
  simp -proj only [report, reportI_kept]

theorem detect_kept (alters : Bool) (src : BitVec 16) (code : BitVec 12) (sev : Sev) (info : Word) (cond : Bool) (s : State) : kept (detect alters src code sev info cond s).1 = kept s := by
  simp -proj only [detect, ↓ite_kept, ite_fst, fst_mk, ite_self, reportI_kept, injFire_kept, lapse_kept, report_kept]

theorem setBank_kept (m : Master) (f : Bank → Bank) (s : State) : kept (setBank m f s) = kept s := by
  simp -proj only [setBank, ↓mk_kept, kept_eta]

theorem detLapse_kept (bits : Word) (s : State) : kept (detLapse bits s) = kept s := by
  simp -proj only [detLapse, report_kept, lapse_kept]

theorem progError_kept (m : Master) (off : ℕ) (s : State) : kept (progError m off s) = kept s := by
  simp -proj only [progError, report_kept]

theorem irqLatch_kept (c : ℕ) (s : State) : kept (irqLatch c s) = kept s := by
  simp -proj only [irqLatch, orReg_kept]

theorem orRegAt_kept (off : ℕ) (inst : ℕ) (v : Word) (s : State) : kept (orRegAt off inst v s) = kept s := by
  simp -proj only [orRegAt, orReg_kept]

theorem snapTake_kept (m : Master) (off : ℕ) (ws : List Word) (s : State) : kept (snapTake m off ws s) = kept s := by
  simp -proj only [snapTake, setBank_kept]

theorem setRegAt_kept (off : ℕ) (inst : ℕ) (v : Word) (s : State) : kept (setRegAt off inst v s) = kept s := by
  simp -proj only [setRegAt, setReg_kept]

theorem emit_kept (o : Out) (s : State) : kept (emit o s) = kept s := by
  simp -proj only [emit, ↓mk_kept, kept_eta]

theorem settle_kept (s : State) : kept (settle s) = kept s := by
  simp -proj only [settle, ↓mk_kept, kept_eta]

theorem done_ok (q : List Instr) (s t : State) (hok : Ok q (kept s)) (h : done s = .next t) : Ok q (kept t) := by
  cases h
  rw [settle_kept]
  exact hok

theorem noteCe_kept (a : ℕ) (s : State) : kept (noteCe a s) = kept s := by
  simp -proj only [noteCe, ↓mk_kept, kept_eta, ↓ite_kept, ite_self, orReg_kept]

theorem noteUe_kept (k : Reader) (a : ℕ) (s : State) : kept (noteUe k a s) = kept s := by
  simp -proj only [noteUe, ↓mk_kept, kept_eta, ↓ite_kept, ite_self, orReg_kept, lapse_kept]

theorem eccCheck_kept (k : Reader) (a : ℕ) (mark : ℕ) (s : State) : kept ((eccCheck k a mark s).1) = kept s := by
  simp -proj only [eccCheck, ↓ite_kept, ite_fst, fst_mk, ite_self, detect_kept, noteCe_kept, noteUe_kept]

theorem readWord_kept (k : Reader) (a : ℕ) (s : State) : kept (readWord k a s).1 = kept s := by
  simp -proj only [readWord, fst_mk, eccCheck_kept]

theorem writeWord_ok (q : List Instr) (a : ℕ) (w : Word) (s : State) (hok : Ok q (kept s)) : Ok q (kept (writeWord a w s)) := by
  unfold writeWord
  simp -proj only [↓mk_kept]
  exact ⟨hok.queue, memPutWord_wf hok.mem, hok.stage⟩

theorem writeWords_ok (q : List Instr) (a : ℕ) (x1 : List Word) (x2 : State) (hok : Ok q (kept x2)) : Ok q (kept (writeWords a x1 x2)) := by
  induction x1 generalizing a x2 with
  | nil => exact hok
  | cons y ys ih =>
  simp -proj only [writeWords]
  repeat' first
    | with_reducible assumption
    | simp -proj only [↓mk_kept, kept_eta, ↓ite_kept, ite_fst, ite_snd, fst_mk, snd_mk, ite_ans, ans_mk, ite_run, run_mk, ite_slice, slice_mk, ite_ovr, ovr_mk, id_eq, ite_self]
    | with_reducible apply writeWord_ok
    | (with_reducible refine ok_ite (fun h' => ?_) ?_)
    | with_reducible apply ih

theorem writeCrew_ok (q : List Instr) (c : ℕ) (w : ℕ) (v : Word) (s : State) (hok : Ok q (kept s)) : Ok q (kept (writeCrew c w v s)) := by
  unfold writeCrew
  repeat' first
    | with_reducible assumption
    | simp -proj only [↓mk_kept, kept_eta, ↓ite_kept]
    | with_reducible apply writeWord_ok
    | (with_reducible refine ok_ite (fun h' => ?_) ?_)
    | split

theorem collideCheck_kept (a : ℕ) (collides : Bool) (s : State) : kept (collideCheck a collides s).1 = kept s := by
  simp -proj only [collideCheck, ↓ite_kept, ite_fst, fst_mk, ite_self, detect_kept, orReg_kept]

theorem writeBytes_ok (q : List Instr) (a : ℕ) (bs : List Byte) (s : State) (hok : Ok q (kept s)) : Ok q (kept (writeBytes a bs s)) := by
  unfold writeBytes
  simp -proj only [↓mk_kept]
  exact ⟨hok.queue, memPutBytes_wf hok.mem, hok.stage⟩

theorem clearMem_ok (q : List Instr) (lo : ℕ) (n : ℕ) (s : State) (hok : Ok q (kept s)) : Ok q (kept (clearMem lo n s)) := by
  unfold clearMem
  simp -proj only [↓mk_kept]
  exact ⟨hok.queue, tclear_tabWf hok.mem, hok.stage⟩

theorem storeWindow_ok (q : List Instr) (a : ℕ) (v : Word) (s : State) (hok : Ok q (kept s)) : Ok q (kept (storeWindow a v s)) := by
  unfold storeWindow
  split
  · exact hok
  split
  · split
    · exact hok
    · simp -proj only [↓mk_kept]
      exact ⟨hok.queue, hok.mem, memPutWord_wf hok.stage⟩
  · exact writeWord_ok q _ _ _ hok

theorem storeCrew_ok (q : List Instr) (a : ℕ) (v : Word) (s : State) (hok : Ok q (kept s)) : Ok q (kept (storeCrew a v s)) := by
  unfold storeCrew
  repeat' first
    | with_reducible assumption
    | simp -proj only [↓mk_kept, kept_eta, ↓ite_kept, ite_fst, ite_snd, fst_mk, snd_mk, ite_ans, ans_mk, ite_run, run_mk, ite_slice, slice_mk, ite_ovr, ovr_mk, id_eq, ite_self]
    | with_reducible apply writeCrew_ok

theorem drainEnt_ok (q : List Instr) (window : Bool) (x1 : StoreEnt) (x2 : State) (hok : Ok q (kept x2)) : Ok q (kept (drainEnt window x1 x2)) := by
  induction x1 generalizing window x2 with
  | nil => exact hok
  | cons y ys ih =>
  simp -proj only [drainEnt]
  repeat' first
    | with_reducible assumption
    | simp -proj only [↓ite_kept]
    | with_reducible apply storeWindow_ok
    | with_reducible apply storeCrew_ok
    | (with_reducible refine ok_ite (fun h' => ?_) ?_)
    | with_reducible apply ih
    | split

theorem putCore_kept (n : ℕ) (k : Core) (s : State) : kept (putCore n k s) = kept s := by
  simp -proj only [putCore, ↓mk_kept, kept_eta]

theorem drainHead_ok (q : List Instr) (n : ℕ) (window : Bool) (s : State) (hok : Ok q (kept s)) : Ok q (kept (drainHead n window s)) := by
  unfold drainHead
  repeat' first
    | with_reducible assumption
    | simp -proj only [putCore_kept]
    | with_reducible apply drainEnt_ok
    | (with_reducible refine ok_ite (fun h' => ?_) ?_)
    | split

theorem drainAll_ok (q : List Instr) (n : ℕ) (s : State) (hok : Ok q (kept s)) : Ok q (kept (drainAll n s)) := by
  unfold drainAll
  repeat' first
    | with_reducible assumption
    | with_reducible apply drainHead_ok

theorem ctlAct_ok (q : List Instr) (n : ℕ) (c : Ctl) (s : State) (hok : Ok q (kept s)) : Ok q (kept (ctlAct n c s)) := by
  unfold ctlAct
  repeat' first
    | with_reducible assumption
    | simp -proj only [↓mk_kept, kept_eta, putCore_kept]
    | with_reducible apply drainAll_ok
    | (with_reducible refine ok_ite (fun h' => ?_) ?_)
    | split

theorem loadWord_kept (k : Core) (a : ℕ) (s : State) : kept ((loadWord k a s).1) = kept s := by
  unfold loadWord
  repeat' first
    | with_reducible rfl
    | simp -proj only [↓mk_kept, kept_eta, ↓ite_kept, ite_fst, fst_mk, ite_self, eccCheck_kept, readWord_kept]
    | split

theorem loadWords_kept (k : Core) (x1 : List ℕ) (x2 : State) : kept (loadWords k x1 x2).1 = kept x2 := by
  induction x1 generalizing k x2 with
  | nil => rfl
  | cons y ys ih =>
    repeat' first
      | with_reducible rfl
      | simp -proj only [loadWords, ih, fst_mk, loadWord_kept]

theorem enqueue_ok (q : List Instr) (n : ℕ) (window : Bool) (e : StoreEnt) (s : State) (hok : Ok q (kept s)) : Ok q (kept (enqueue n window e s)) := by
  unfold enqueue
  repeat' first
    | with_reducible assumption
    | simp -proj only [↓ite_kept, putCore_kept]
    | with_reducible apply drainHead_ok
    | (with_reducible refine ok_ite (fun h' => ?_) ?_)
    | split

theorem storeWords_ok (q : List Instr) (n : ℕ) (l : List ((Region × ℕ) × Word)) (s : State) (hok : Ok q (kept s)) : Ok q (kept (storeWords n l s)) := by
  unfold storeWords
  repeat' first
    | with_reducible assumption
    | with_reducible apply writeWord_ok
    | with_reducible apply enqueue_ok
    | (with_reducible refine ok_ite (fun h' => ?_) ?_)
    | split
    | (with_reducible refine foldl_ok _ _ _ ?_ ?_)
    | intro

theorem mailPut_kept (n : ℕ) (w : Word) (s : State) : kept (mailPut n w s) = kept s := by
  simp -proj only [mailPut, putCore_kept]

theorem xferAct_ok (q : List Instr) (n : ℕ) (old : Core) (b : Bundle) (r : CRes) (s : State) (hok : Ok q (kept s)) : Ok q (kept (xferAct n old b r s)) := by
  unfold xferAct
  repeat' first
    | with_reducible assumption
    | simp -proj only [↓ite_kept, putCore_kept, loadWords_kept, mailPut_kept]
    | with_reducible apply storeWords_ok
    | (with_reducible refine ok_ite (fun h' => ?_) ?_)
    | split

theorem commit_ok (q : List Instr) (n : ℕ) (b : Bundle) (r : CRes) (s : State) (hok : Ok q (kept s)) : Ok q (kept (commit n b r s)) := by
  unfold commit
  repeat' first
    | with_reducible assumption
    | simp -proj only [↓mk_kept, kept_eta, ↓ite_kept, ite_self, putCore_kept, report_kept]
    | with_reducible apply xferAct_ok
    | with_reducible apply ctlAct_ok
    | (with_reducible refine ok_ite (fun h' => ?_) ?_)
    | split

theorem retryHeld_ok (q : List Instr) (n : ℕ) (was : CoreRun) (s : State) (hok : Ok q (kept s)) : Ok q (kept (retryHeld n was s)) := by
  unfold retryHeld
  repeat' first
    | with_reducible assumption
    | simp -proj only [↓ite_kept, putCore_kept]
    | with_reducible apply commit_ok
    | (with_reducible refine ok_ite (fun h' => ?_) ?_)
    | split

theorem fetchCheck_kept (n : ℕ) (k : Core) (s : State) : kept (fetchCheck n k s).1 = kept s := by
  simp -proj only [fetchCheck, ↓ite_kept, ite_fst, fst_mk, ite_self, eccCheck_kept]

theorem coreInject_kept (n : ℕ) (real : Option (BitVec 12)) (s : State) : kept (coreInject n real s).1 = kept s := by
  unfold coreInject
  repeat' first
    | with_reducible rfl
    | simp -proj only [fst_mk, detect_kept]
    | split

theorem coreFault_kept (n : ℕ) (code : BitVec 12) (s : State) : kept (coreFault n code s) = kept s := by
  simp -proj only [coreFault, ↓mk_kept, kept_eta, report_kept, putCore_kept]

theorem runBundle_ok (q : List Instr) (n : ℕ) (b : Bundle) (s : State) (hok : Ok q (kept s)) : Ok q (kept (runBundle n b s)) := by
  unfold runBundle
  repeat' first
    | with_reducible assumption
    | simp -proj only [↓ite_kept, fetchCheck_kept, coreInject_kept, coreFault_kept, putCore_kept]
    | with_reducible apply commit_ok
    | (with_reducible refine ok_ite (fun h' => ?_) ?_)
    | split

theorem coreAsleep_kept (n : ℕ) (cycles : ℕ) (s : State) : kept (coreAsleep n cycles s) = kept s := by
  simp -proj only [coreAsleep, ↓ite_kept, ite_self, putCore_kept]

theorem barrierGo_kept (crew : ℕ) (k : ℕ) (s : State) : kept (barrierGo crew k s) = kept s := by
  simp -proj only [barrierGo, ↓mk_kept, kept_eta]

theorem headKeep_kept (n : ℕ) (window : Bool) (l : StoreEnt) (s : State) : kept (headKeep n window l s) = kept s := by
  simp -proj only [headKeep, ite_fst, ite_snd, fst_mk, snd_mk, putCore_kept]

theorem drainCollided_ok (q : List Instr) (n : ℕ) (window : Bool) (mask : BitVec 4) (e : StoreEnt) (s : State) (hok : Ok q (kept s)) : Ok q (kept (drainCollided n window mask e s)) := by
  unfold drainCollided
  repeat' first
    | with_reducible assumption
    | simp -proj only [collideCheck_kept, headKeep_kept]
    | with_reducible apply drainEnt_ok
    | (with_reducible refine ok_ite (fun h' => ?_) ?_)
    | split
    | (with_reducible refine foldl_ok _ _ _ ?_ ?_)
    | intro

theorem bankGrant_kept (crew : ℕ) (bank : ℕ) (waiting : BitVec 9) (s : State) : kept (bankGrant crew bank waiting s) = kept s := by
  unfold bankGrant
  repeat' first
    | with_reducible rfl
    | simp -proj only [↓mk_kept, kept_eta]
    | split

theorem moverTake_kept (n : ℕ) (b : ℕ) (waited : ℕ) (coreWants : Bool) (s : State) : kept (moverTake n b waited coreWants s) = kept s := by
  simp -proj only [moverTake, putCore_kept]

theorem queueDrain_ok (q : List Instr) (n : ℕ) (window : Bool) (collides : BitVec 4) (s : State) (hok : Ok q (kept s)) : Ok q (kept (queueDrain n window collides s)) := by
  unfold queueDrain
  repeat' first
    | with_reducible assumption
    | simp -proj only [↓ite_kept]
    | with_reducible apply drainHead_ok
    | with_reducible apply drainCollided_ok
    | (with_reducible refine ok_ite (fun h' => ?_) ?_)
    | split

end Sys2Proof.Machine
end

