-- ==== Sys2Proof/Laws/KeptPatch.lean ====
section
/-! SUPPORT. What the matrix, the patch, the ports and the strips keep (Laws/Kept.lean). -/

namespace Sys2Proof.Machine

theorem readSeq_kept (a : ℕ) (x1 : ℕ) (x2 : State) : kept (readSeq a x1 x2).1 = kept x2 := by
  induction x1 generalizing a x2 with
  | zero => rfl
  | succ y ih =>
    repeat' first
      | with_reducible rfl
      | simp -proj only [readSeq, ih, fst_mk, readWord_kept]

theorem readHalf_kept (a : ℕ) (s : State) : kept (readHalf a s).1 = kept s := by
  simp -proj only [readHalf, fst_mk, readWord_kept]

theorem writeHalf_ok (q : List Instr) (a : ℕ) (v : ℕ) (s : State) (hok : Ok q (kept s)) : Ok q (kept (writeHalf a v s)) := by
  unfold writeHalf
  repeat' first
    | with_reducible assumption
    | simp -proj only [↓mk_kept, kept_eta, ↓ite_kept, ite_fst, ite_snd, fst_mk, snd_mk, ite_ans, ans_mk, ite_run, run_mk, ite_slice, slice_mk, ite_ovr, ovr_mk, id_eq, ite_self]
    | with_reducible apply writeBytes_ok

theorem evalTerm_ok (q : List Instr) (sl : ℕ) (tmos : List ℕ) (plane signs : List Word) (k : ℕ) (lb : ℕ) (r : SliceRun) (hok : Ok q (kept r.s)) : Ok q (kept (evalTerm sl tmos plane signs k lb r).s) := by
  unfold evalTerm
  repeat' first
    | with_reducible assumption
    | simp -proj only [↓ite_kept, ite_fst, ite_snd, fst_mk, snd_mk, slice_mk, ite_self, readHalf_kept, readWord_kept]
    | with_reducible apply writeHalf_ok
    | with_reducible apply writeWord_ok

theorem busSet_kept (b : ℕ) (s : State) : kept (busSet b s).1 = kept s := by
  simp -proj only [busSet, ↓ite_kept, ite_fst, fst_mk, ite_self, readWord_kept]

theorem busSets_kept (sl : ℕ) (s : State) : kept (busSets sl s).1 = kept s := by
  unfold busSets
  refine foldl_state (π := Prod.fst) (P := fun t => kept t = kept s) _ _ _ (fun r p h => ?_) rfl
  simp -proj only [fst_mk, busSet_kept]
  exact h

theorem outStage_kept (sl : ℕ) (sets : List BusSet) (r : SliceRun) : kept (outStage sl sets r) = kept r.s := by
  simp -proj only [outStage, ↓mk_kept, kept_eta, ↓ite_kept, ite_self, orReg_kept, detect_kept]

theorem signStore_ok (q : List Instr) (sl : ℕ) (plane : List Word) (s : State) (hok : Ok q (kept s)) : Ok q (kept (signStore sl plane s)) := by
  unfold signStore
  repeat' first
    | with_reducible assumption
    | simp -proj only [↓mk_kept, kept_eta, ↓ite_kept, ite_fst, ite_snd, fst_mk, snd_mk, ite_ans, ans_mk, ite_run, run_mk, ite_slice, slice_mk, ite_ovr, ovr_mk, id_eq, ite_self]
    | with_reducible apply writeBytes_ok

theorem sliceEval_ok (q : List Instr) (plane : List Word) (sl : ℕ) (s : State) (hok : Ok q (kept s)) : Ok q (kept (sliceEval plane sl s)) := by
  unfold sliceEval
  simp -proj only [outStage_kept, slice_mk]
  refine signStore_ok q _ _ _ ?_
  refine foldl_state (π := SliceRun.s) (P := fun s => Ok q (kept s)) _ _ _ (fun r k h => ?_) ?_
  · exact foldl_state (π := SliceRun.s) (P := fun s => Ok q (kept s)) _ _ _ (fun r lb h => evalTerm_ok q _ _ _ _ _ _ _ h) h
  · simp -proj only [slice_mk, readSeq_kept, busSets_kept]
    exact hok

theorem slicesRun_ok (q : List Instr) (s : State) (hok : Ok q (kept s)) : Ok q (kept (slicesRun s)) := by
  unfold slicesRun
  repeat' first
    | with_reducible assumption
    | simp -proj only [↓mk_kept, kept_eta, ↓ite_kept, readSeq_kept]
    | with_reducible apply writeWords_ok
    | with_reducible apply sliceEval_ok
    | (with_reducible refine ok_ite (fun h' => ?_) ?_)
    | split
    | (with_reducible refine foldl_ok _ _ _ ?_ ?_)
    | intro

theorem putTreat_kept (e : ℕ) (t : Treat) (s : State) : kept (putTreat e t s) = kept s := by
  simp -proj only [putTreat, ↓mk_kept, kept_eta]

theorem treatBuses_kept (sl : ℕ) (ws : List Word) (s : State) : kept ((treatBuses sl ws s).1) = kept s := by
  simp -proj only [treatBuses, ↓ite_kept, ite_fst, fst_mk, ite_self, putTreat_kept]

theorem sliceDone_ok (q : List Instr) (sl : ℕ) (cycles : ℕ) (s : State) (hok : Ok q (kept s)) : Ok q (kept (sliceDone sl cycles s)) := by
  unfold sliceDone
  repeat' first
    | with_reducible assumption
    | simp -proj only [↓mk_kept, kept_eta, ↓ite_kept, treatBuses_kept]
    | with_reducible apply writeWords_ok
    | (with_reducible refine ok_ite (fun h' => ?_) ?_)
    | split

theorem xpSwap_kept (mask : BitVec 16) (s : State) : kept (xpSwap mask s) = kept s := by
  simp -proj only [xpSwap, ↓mk_kept, kept_eta, orReg_kept]

theorem xpGain_ok (q : List Instr) (x : ℕ) (t : Word) (s : State) (hok : Ok q (kept s)) : Ok q (kept (xpGain x t s)) := by
  unfold xpGain
  repeat' first
    | with_reducible assumption
    | with_reducible apply writeHalf_ok
    | with_reducible apply writeWord_ok

theorem putAsrc_kept (a : ℕ) (x : Asrc) (s : State) : kept (putAsrc a x s) = kept s := by
  simp -proj only [putAsrc, ↓mk_kept, kept_eta]

theorem asrcUnlock_kept (port : ℕ) (s : State) : kept (asrcUnlock port s) = kept s := by
  unfold asrcUnlock
  repeat' first
    | with_reducible rfl
    | simp -proj only [↓ite_kept, ite_self, detect_kept, orRegAt_kept, putAsrc_kept]
    | split
    | (with_reducible refine (foldl_kept _ _ _ ?_).trans ?_)
    | (intro x)

theorem putSink_kept (i : ℕ) (x : Sink) (s : State) : kept (putSink i x s) = kept s := by
  simp -proj only [putSink, ↓mk_kept, kept_eta]

theorem brGc_kept (s : State) : kept (brGc s) = kept s := by
  simp -proj only [brGc, ↓mk_kept, kept_eta]

theorem patchStat_kept (b : ℕ) (s : State) : kept (patchStat b s) = kept s := by
  simp -proj only [patchStat, orReg_kept]

theorem noBridge_kept (s : State) : kept (noBridge s) = kept s := by
  simp -proj only [noBridge, patchStat_kept, detect_kept]

theorem alignCheck_kept (src : ℕ) (sink : ℕ) (s : State) : kept (alignCheck src sink s) = kept s := by
  simp -proj only [alignCheck, ↓ite_kept, ite_self, detect_kept, patchStat_kept]

theorem settleOn_kept (src : ℕ) (i : ℕ) (s : State) : kept (settleOn src i s) = kept s := by
  simp -proj only [settleOn, alignCheck_kept, brGc_kept, putSink_kept]

theorem brAlloc_kept (x1 : List BrKey) (x2 : State) : kept (brAlloc x1 x2) = kept x2 := by
  induction x1 generalizing x2 with
  | nil => rfl
  | cons y ys ih =>
    repeat' first
      | with_reducible rfl
      | simp -proj only [brAlloc, ih, ↓mk_kept, kept_eta]
      | split

theorem routeCut_kept (src : ℕ) (i : ℕ) (s : State) : kept (routeCut src i s).1 = kept s := by
  simp -proj only [routeCut, ↓ite_kept, ite_fst, fst_mk, ite_self, brGc_kept, putSink_kept, noBridge_kept, settleOn_kept, brAlloc_kept]

theorem routeStart_kept (r : RouteReq) (i : ℕ) (s : State) : kept (routeStart r i s).1 = kept s := by
  simp -proj only [routeStart, ↓ite_kept, ite_fst, fst_mk, ite_self, routeCut_kept, noBridge_kept, brAlloc_kept, putSink_kept]

theorem heldStart_kept (i : ℕ) (s : State) : kept (heldStart i s) = kept s := by
  unfold heldStart
  repeat' first
    | with_reducible rfl
    | simp -proj only [↓ite_kept, ite_self, putSink_kept, routeStart_kept]
    | split

theorem brRestore_kept (old : Tab (Option Bridge)) (k : BrKey) (s : State) : kept (brRestore old k s) = kept s := by
  unfold brRestore
  repeat' first
    | with_reducible rfl
    | simp -proj only [↓mk_kept, kept_eta]
    | split

theorem sinkRestore_kept (i : ℕ) (o : SameSink) (s : State) : kept (sinkRestore i o s) = kept s := by
  unfold sinkRestore
  repeat' first
    | with_reducible rfl
    | simp -proj only [brGc_kept, putSink_kept, brRestore_kept]
    | split
    | (with_reducible refine (foldl_kept _ _ _ ?_).trans ?_)
    | intro

theorem sinkKeep_kept (i : ℕ) (s : State) : kept (sinkKeep i s) = kept s := by
  unfold sinkKeep
  repeat' first
    | with_reducible rfl
    | simp -proj only [↓mk_kept, kept_eta, sinkRestore_kept]
    | split

theorem routeApply_kept (i : ℕ) (r : RouteReq) (s : State) : kept ((routeApply i r s).1) = kept s := by
  unfold routeApply
  repeat' first
    | with_reducible rfl
    | simp -proj only [↓ite_kept, ite_fst, fst_mk, ite_self, sinkKeep_kept, noBridge_kept, routeCut_kept, routeStart_kept, patchStat_kept, putSink_kept]
    | split

theorem readSrc_kept (h : ℕ) (i : ℕ) (s : State) : kept ((readSrc h i s).1) = kept s := by
  simp -proj only [readSrc, fst_mk, readSeq_kept]

theorem publishSrc_kept (h : ℕ) (i : ℕ) (s : State) : kept (publishSrc h i s) = kept s := by
  simp -proj only [publishSrc, ↓mk_kept, kept_eta, readSrc_kept]

theorem tapDone_kept (i : ℕ) (s : State) : kept (tapDone i s) = kept s := by
  unfold tapDone
  repeat' first
    | with_reducible rfl
    | simp -proj only [↓ite_kept, ite_self, heldStart_kept, putSink_kept]
    | split

theorem fadeDone_kept (i : ℕ) (s : State) : kept (fadeDone i s) = kept s := by
  unfold fadeDone
  repeat' first
    | with_reducible rfl
    | simp -proj only [↓ite_kept, ite_self, alignCheck_kept, heldStart_kept, brGc_kept, putSink_kept]
    | split

theorem fillDone_kept (i : ℕ) (s : State) : kept (fillDone i s) = kept s := by
  simp -proj only [fillDone, ↓ite_kept, ite_self, putSink_kept]

theorem sinkAdvance_kept (i : ℕ) (s : State) : kept (sinkAdvance i s) = kept s := by
  simp -proj only [sinkAdvance, tapDone_kept, fadeDone_kept, fillDone_kept]

theorem sinkRun_kept (i : ℕ) (s : State) : kept (sinkRun i s).1 = kept s := by
  simp -proj only [sinkRun, ↓ite_kept, ite_fst, fst_mk, ite_self, sinkAdvance_kept, putSink_kept]

theorem writeInput_ok (q : List Instr) (i : ℕ) (b : Blk) (s : State) (hok : Ok q (kept s)) : Ok q (kept (writeInput i b s)) := by
  unfold writeInput
  repeat' first
    | with_reducible assumption
    | with_reducible apply writeWords_ok

theorem publishNow_kept (h : ℕ) (i : ℕ) (s : State) : kept (publishNow h i s) = kept s := by
  simp -proj only [publishNow, ↓mk_kept, kept_eta, readSrc_kept]

theorem treatWords_kept (e : ℕ) (ws : List Word) (s : State) : kept ((treatWords e ws s).1) = kept s := by
  simp -proj only [treatWords, ↓ite_kept, ite_fst, fst_mk, ite_self, putTreat_kept]

theorem deliverInput_ok (q : List Instr) (i : ℕ) (s : State) (hok : Ok q (kept s)) : Ok q (kept (deliverInput i s)) := by
  unfold deliverInput
  repeat' first
    | with_reducible assumption
    | simp -proj only [sinkRun_kept, treatWords_kept]
    | with_reducible apply writeInput_ok

theorem deliverChained_ok (q : List Instr) (crew : ℕ) (s : State) (hok : Ok q (kept s)) : Ok q (kept (deliverChained crew s)) := by
  unfold deliverChained
  repeat' first
    | with_reducible assumption
    | simp -proj only [↓mk_kept, kept_eta, ↓ite_kept, publishNow_kept]
    | with_reducible apply deliverInput_ok
    | (with_reducible refine ok_ite (fun h' => ?_) ?_)
    | split
    | (with_reducible refine foldl_ok _ _ _ ?_ ?_)
    | intro

theorem asrcRun_kept (a : ℕ) (n : ℕ) (ws : List Word) (force : Bool) (s : State) : kept (asrcRun a n ws force s) = kept s := by
  simp -proj only [asrcRun, ↓ite_kept, ite_self, detect_kept, orRegAt_kept, putAsrc_kept]

theorem presence_kept (i : ℕ) (s : State) : kept (presence i s) = kept s := by
  unfold presence
  repeat' first
    | with_reducible rfl
    | simp -proj only [↓ite_kept, ite_self, brGc_kept, putSink_kept, patchStat_kept, noBridge_kept, alignCheck_kept, brAlloc_kept]
    | split

theorem deliverStrip_ok (q : List Instr) (i : ℕ) (s : State) (hok : Ok q (kept s)) : Ok q (kept (deliverStrip i s)) := by
  unfold deliverStrip
  repeat' first
    | with_reducible assumption
    | simp -proj only [↓mk_kept, kept_eta, ↓ite_kept]
    | with_reducible apply deliverInput_ok
    | (with_reducible refine ok_ite (fun h' => ?_) ?_)
    | split

theorem brRunStage_kept (out : Bool) (second : Bool) (s : State) : kept (brRunStage out second s) = kept s := by
  simp -proj only [brRunStage, ↓mk_kept, kept_eta]

theorem brRun_kept (out : Bool) (s : State) : kept (brRun out s) = kept s := by
  simp -proj only [brRun, brRunStage_kept]

theorem presNext_kept (i : ℕ) (s : State) : kept (presNext i s) = kept s := by
  unfold presNext
  repeat' first
    | with_reducible rfl
    | simp -proj only [↓ite_kept, ite_self, brGc_kept, putSink_kept, patchStat_kept, noBridge_kept, brAlloc_kept]
    | split

theorem patchDeliver_ok (q : List Instr) (s : State) (hok : Ok q (kept s)) : Ok q (kept (patchDeliver s)) := by
  unfold patchDeliver
  repeat' first
    | with_reducible assumption
    | simp -proj only [presNext_kept, presence_kept, brRun_kept]
    | with_reducible apply deliverStrip_ok
    | (with_reducible refine ok_ite (fun h' => ?_) ?_)
    | split
    | (with_reducible refine foldl_ok _ _ _ ?_ ?_)
    | intro

theorem patchPublish_kept (s : State) : kept (patchPublish s) = kept s := by
  unfold patchPublish
  repeat' first
    | with_reducible rfl
    | simp -proj only [↓mk_kept, kept_eta, publishSrc_kept, sinkRun_kept, brRun_kept]
    | split
    | (with_reducible refine (foldl_kept _ _ _ ?_).trans ?_)
    | (intro x)

theorem putPort_kept (p : ℕ) (x : Port) (s : State) : kept (putPort p x s) = kept s := by
  simp -proj only [putPort, ↓mk_kept, kept_eta]

theorem portReset_kept (p : ℕ) (s : State) : kept (portReset p s) = kept s := by
  simp -proj only [portReset, putPort_kept]

theorem pdmReset_kept (g : ℕ) (s : State) : kept (pdmReset g s) = kept s := by
  simp -proj only [pdmReset, ↓mk_kept, kept_eta]

theorem unitReset_kept (u : ℕ) (s : State) : kept (unitReset u s) = kept s := by
  simp -proj only [unitReset, ↓ite_kept, ite_self, portReset_kept, pdmReset_kept]

theorem putPdm_kept (k : ℕ) (x : PdmStream) (s : State) : kept (putPdm k x s) = kept s := by
  simp -proj only [putPdm, ↓mk_kept, kept_eta]

theorem putHeader_ok (q : List Instr) (emit : Bool) (p : ℕ) (k : BitVec 64) (status : ℕ) (frames : ℕ) (ts : Option Time) (s : State) (hok : Ok q (kept s)) : Ok q (kept (putHeader emit p k status frames ts s)) := by
  unfold putHeader
  repeat' first
    | with_reducible assumption
    | simp -proj only [↓mk_kept, kept_eta, ↓ite_kept, ite_fst, ite_snd, fst_mk, snd_mk, ite_ans, ans_mk, ite_run, run_mk, ite_slice, slice_mk, ite_ovr, ovr_mk, id_eq, ite_self]
    | with_reducible apply writeWords_ok

theorem portAct_kept (go : Bool) (p : ℕ) (s : State) : kept (portAct go p s) = kept s := by
  unfold portAct
  repeat' first
    | with_reducible rfl
    | simp -proj only [↓ite_kept, putPort_kept]
    | split

theorem grpDue_kept (t : BitVec 64) (s : State) : kept (grpDue t s) = kept s := by
  unfold grpDue
  repeat' first
    | with_reducible rfl
    | simp -proj only [↓mk_kept, kept_eta, ↓ite_kept, ite_self, portAct_kept]
    | split
    | (with_reducible refine (foldl_kept _ _ _ ?_).trans ?_)
    | (intro x)

theorem portStat_kept (p : ℕ) (b : ℕ) (s : State) : kept (portStat p b s) = kept s := by
  simp -proj only [portStat, orRegAt_kept]

theorem portRelease_kept (p : ℕ) (s : State) : kept (portRelease p s) = kept s := by
  simp -proj only [portRelease, ↓ite_kept, ite_self, detect_kept, portStat_kept, putPort_kept]

theorem grpWrite_kept (go : Bool) (v : Word) (s : State) : kept (grpWrite go v s) = kept s := by
  simp -proj only [grpWrite, ↓mk_kept, kept_eta]

theorem portRstWrite_kept (hi : Bool) (v : Word) (s : State) : kept (portRstWrite hi v s) = kept s := by
  unfold portRstWrite
  repeat' first
    | with_reducible rfl
    | simp -proj only [↓mk_kept, kept_eta, ↓ite_kept, ite_self, unitReset_kept]
    | split
    | (with_reducible refine (foldl_kept _ _ _ ?_).trans ?_)
    | (intro x)

theorem pdmEnWrite_kept (v : Word) (s : State) : kept (pdmEnWrite v s) = kept s := by
  simp -proj only [pdmEnWrite, ↓mk_kept, kept_eta, setReg_kept]

theorem grpForget_kept (s : State) : kept (grpForget s) = kept s := by
  simp -proj only [grpForget, ↓mk_kept, kept_eta]

theorem freezeRows_ok (q : List Instr) (p : ℕ) (k : BitVec 64) (status : ℕ) (frames : ℕ) (ts : Option Time) (rows : List (List Word)) (s : State) (hok : Ok q (kept s)) : Ok q (kept (freezeRows p k status frames ts rows s)) := by
  unfold freezeRows
  repeat' first
    | with_reducible assumption
    | simp -proj only [↓mk_kept, kept_eta]
    | with_reducible apply putHeader_ok
    | with_reducible apply writeBytes_ok
    | (with_reducible refine ok_ite (fun h' => ?_) ?_)
    | split
    | (with_reducible refine foldl_ok _ _ _ ?_ ?_)
    | intro

theorem detectSlots_kept (n : ℕ) (alters : Bool) (src : BitVec 16) (code : BitVec 12) (cond : Bool) (s : State) : kept (detectSlots n alters src code cond s).1 = kept s := by
  unfold detectSlots
  simp -proj only [ite_fst, fst_mk, ↓ite_kept]
  split
  · exact (foldl_kept _ _ _ (fun s x => reportI_kept ..)).trans (detect_kept ..)
  · exact detect_kept ..

theorem windowCheck_kept (p : ℕ) (n : ℕ) (frames : ℕ) (bad : Bool) (s : State) : kept (windowCheck p n frames bad s).1 = kept s := by
  simp -proj only [windowCheck, ↓ite_kept, fst_mk, ite_self, detectSlots_kept, portStat_kept]

theorem alignCheckPort_kept (p : ℕ) (c : Time) (f : Option Frame) (s : State) : kept (alignCheckPort p c f s) = kept s := by
  unfold alignCheckPort
  repeat' first
    | with_reducible rfl
    | simp -proj only [↓ite_kept, ite_self, detect_kept, portStat_kept, putPort_kept]
    | split

theorem captureFreeze_ok (q : List Instr) (p : ℕ) (k : BitVec 64) (c : Time) (moving : Bool) (gs : List GatePos) (s : State) (hok : Ok q (kept s)) : Ok q (kept (captureFreeze p k c moving gs s)) := by
  unfold captureFreeze
  repeat' first
    | with_reducible assumption
    | simp -proj only [↓ite_kept, ite_self, detectSlots_kept, portStat_kept, putPort_kept, windowCheck_kept, alignCheckPort_kept]
    | with_reducible apply freezeRows_ok
    | (with_reducible refine ok_ite (fun h' => ?_) ?_)
    | split

theorem emitEnd_ok (q : List Instr) (p : ℕ) (c : Time) (s : State) (hok : Ok q (kept s)) : Ok q (kept (emitEnd p c s)) := by
  have h3 : ∀ (k : BitVec 64) (st m : Nat) (t : Option Time) (x : Port) (w : Bool),
      Ok q (kept (putHeader true p k st m t (if w = true then portStat p 2 (putPort p x s) else putPort p x s))) := by
    intro k st m t x w
    refine putHeader_ok q _ _ _ _ _ _ _ ?_
    split
    · rw [portStat_kept, putPort_kept]; exact hok
    · rw [putPort_kept]; exact hok
  unfold emitEnd
  simp -proj only []
  split
  · exact hok
  · split
    · with_reducible exact h3 ..
    · refine foldl_ok _ _ _ (fun s r h => ?_) (by with_reducible exact h3 ..)
      split
      · rw [emit_kept]; exact h
      · split
        · exact h
        · rw [emit_kept]; exact h

theorem sapClocks_kept (p : ℕ) (s : State) : kept (sapClocks p s) = kept s := by
  simp -proj only [sapClocks, ↓ite_kept, ite_self, emit_kept]

theorem portCatch_ok (q : List Instr) (k : BitVec 64) (t : BitVec 64) (c : Time) (fade : Bool) (p : ℕ) (s : State) (hok : Ok q (kept s)) : Ok q (kept (portCatch k t c fade p s)) := by
  unfold portCatch
  repeat' first
    | with_reducible assumption
    | simp -proj only [↓ite_kept, ite_fst, ite_snd, fst_mk, snd_mk, putPort_kept, sapClocks_kept]
    | with_reducible apply captureFreeze_ok
    | with_reducible apply emitEnd_ok
    | (with_reducible refine ok_ite (fun h' => ?_) ?_)
    | split

theorem pdmSettled_kept (k : ℕ) (s : State) : kept (pdmSettled k s) = kept s := by
  simp -proj only [pdmSettled, ↓ite_kept, ite_self, putPdm_kept]

theorem pdmCatch_ok (q : List Instr) (j : BitVec 64) (ws : List Word) (k : ℕ) (s : State) (hok : Ok q (kept s)) : Ok q (kept (pdmCatch j ws k s)) := by
  unfold pdmCatch
  repeat' first
    | with_reducible assumption
    | simp -proj only [↓mk_kept, kept_eta, ite_fst, ite_snd, fst_mk, snd_mk, pdmSettled_kept, putPdm_kept]
    | with_reducible apply writeWords_ok

theorem pdmSet_kept (k : ℕ) (on : Bool) (s : State) : kept (pdmSet k on s) = kept s := by
  simp -proj only [pdmSet, ↓ite_kept, ite_self, putPdm_kept]

theorem pdmDue_kept (t : BitVec 64) (s : State) : kept (pdmDue t s) = kept s := by
  unfold pdmDue
  repeat' first
    | with_reducible rfl
    | simp -proj only [↓mk_kept, kept_eta, pdmSet_kept]
    | split
    | (with_reducible refine (foldl_kept _ _ _ ?_).trans ?_)
    | (intro x)

theorem pdmClock_kept (g : ℕ) (s : State) : kept (pdmClock g s) = kept s := by
  simp -proj only [pdmClock, ↓ite_kept, ite_self, emit_kept]

theorem portsCatch_ok (q : List Instr) (k : BitVec 64) (t : BitVec 64) (c : Time) (fade : Bool) (pdm : List (ℕ × PdmIn)) (s : State) (hok : Ok q (kept s)) : Ok q (kept (portsCatch k t c fade pdm s)) := by
  unfold portsCatch
  repeat' first
    | with_reducible assumption
    | simp -proj only [↓mk_kept, kept_eta, grpForget_kept, grpDue_kept, pdmClock_kept, pdmDue_kept]
    | with_reducible apply portCatch_ok
    | with_reducible apply pdmCatch_ok
    | (with_reducible refine ok_ite (fun h' => ?_) ?_)
    | split
    | (with_reducible refine foldl_ok _ _ _ ?_ ?_)
    | intro

theorem portEmitBlock_ok (q : List Instr) (t : BitVec 64) (p : ℕ) (s : State) (hok : Ok q (kept s)) : Ok q (kept (portEmitBlock t p s)) := by
  unfold portEmitBlock
  repeat' first
    | with_reducible assumption
    | simp -proj only [↓ite_kept]
    | with_reducible apply writeBytes_ok
    | (with_reducible refine ok_ite (fun h' => ?_) ?_)
    | split

theorem portRamp_kept (p : ℕ) (up : Bool) (len : ℕ) (s : State) : kept (portRamp p up len s) = kept s := by
  simp -proj only [portRamp, putPort_kept]

theorem pdmRelease_kept (g : ℕ) (s : State) : kept (pdmRelease g s) = kept s := by
  simp -proj only [pdmRelease, ↓mk_kept, kept_eta, ↓ite_kept, ite_self]

theorem unitRelease_kept (u : ℕ) (s : State) : kept (unitRelease u s) = kept s := by
  simp -proj only [unitRelease, ↓ite_kept, ite_self, portRelease_kept, pdmRelease_kept]

theorem portMask_kept (p : ℕ) (m : Word) (s : State) : kept (portMask p m s) = kept s := by
  simp -proj only [portMask, putPort_kept]

theorem measurePhi_kept (p : ℕ) (t : Time) (s : State) : kept (measurePhi p t s) = kept s := by
  unfold measurePhi
  repeat' first
    | with_reducible rfl
    | simp -proj only [↓mk_kept, kept_eta, ↓ite_kept, ite_self, putPort_kept]
    | split

theorem asrcRelock_kept (p : ℕ) (s : State) : kept (asrcRelock p s) = kept s := by
  unfold asrcRelock
  repeat' first
    | with_reducible rfl
    | simp -proj only [↓ite_kept, ite_self, putAsrc_kept]
    | split
    | (with_reducible refine (foldl_kept _ _ _ ?_).trans ?_)
    | (intro x)

theorem fsEdge_kept (p : ℕ) (at_ : Time) (rising : Bool) (bits : List DiBit) (period : ℕ) (s : State) : kept (fsEdge p at_ rising bits period s) = kept s := by
  simp -proj only [fsEdge, ↓ite_kept, ite_self, putPort_kept, asrcRelock_kept, measurePhi_kept]

theorem ratePublish_kept (p : ℕ) (e : Time) (s : State) : kept (ratePublish p e s) = kept s := by
  simp -proj only [ratePublish, ↓ite_kept, ite_self, detect_kept, portStat_kept, putPort_kept]

theorem portStop_kept (p : ℕ) (s : State) : kept (portStop p s) = kept s := by
  simp -proj only [portStop, ↓ite_kept, ite_self, detect_kept, portStat_kept, putPort_kept, asrcUnlock_kept]

theorem setDescBit_ok (q : List Instr) (n : ℕ) (b : ℕ) (v : Bool) (s : State) (hok : Ok q (kept s)) : Ok q (kept (setDescBit n b v s)) := by
  unfold setDescBit
  repeat' first
    | with_reducible assumption
    | with_reducible apply writeWord_ok

theorem putFork_ok (q : List Instr) (n : ℕ) (w : Word) (s : State) (hok : Ok q (kept s)) : Ok q (kept (putFork n w s)) := by
  unfold putFork
  repeat' first
    | with_reducible assumption
    | simp -proj only [↓mk_kept, kept_eta, ↓ite_kept, ite_fst, ite_snd, fst_mk, snd_mk, ite_ans, ans_mk, ite_run, run_mk, ite_slice, slice_mk, ite_ovr, ovr_mk, id_eq, ite_self]
    | with_reducible apply writeWord_ok

theorem forkClear_ok (q : List Instr) (n : ℕ) (s : State) (hok : Ok q (kept s)) : Ok q (kept (forkClear n s)) := by
  unfold forkClear
  repeat' first
    | with_reducible assumption
    | simp -proj only [↓mk_kept, kept_eta, ↓ite_kept, ite_fst, ite_snd, fst_mk, snd_mk, ite_ans, ans_mk, ite_run, run_mk, ite_slice, slice_mk, ite_ovr, ovr_mk, id_eq, ite_self]
    | with_reducible apply setDescBit_ok
    | with_reducible apply putFork_ok

theorem recallDrop_ok (q : List Instr) (s : State) (hok : Ok q (kept s)) : Ok q (kept (recallDrop s)) := by
  unfold recallDrop
  repeat' first
    | with_reducible assumption
    | simp -proj only [↓mk_kept, kept_eta]
    | with_reducible apply forkClear_ok
    | (with_reducible refine ok_ite (fun h' => ?_) ?_)
    | split
    | (with_reducible refine foldl_ok _ _ _ ?_ ?_)
    | intro

theorem sceneEvt_kept (b : ℕ) (s : State) : kept (sceneEvt b s) = kept s := by
  simp -proj only [sceneEvt, orReg_kept]

theorem toggleLive_ok (q : List Instr) (n : ℕ) (s : State) (hok : Ok q (kept s)) : Ok q (kept (toggleLive n s)) := by
  unfold toggleLive
  repeat' first
    | with_reducible assumption
    | simp -proj only [↓mk_kept, kept_eta, ↓ite_kept, ite_fst, ite_snd, fst_mk, snd_mk, ite_ans, ans_mk, ite_run, run_mk, ite_slice, slice_mk, ite_ovr, ovr_mk, id_eq, ite_self]
    | with_reducible apply setDescBit_ok

theorem fadeCut_ok (q : List Instr) (n : ℕ) (s : State) (hok : Ok q (kept s)) : Ok q (kept (fadeCut n s)) := by
  unfold fadeCut
  repeat' first
    | with_reducible assumption
    | simp -proj only [↓mk_kept, kept_eta, sceneEvt_kept, detect_kept]
    | with_reducible apply putFork_ok

theorem swapStrip_ok (q : List Instr) (n : ℕ) (s : State) (hok : Ok q (kept s)) : Ok q (kept (swapStrip n s)) := by
  unfold swapStrip
  repeat' first
    | with_reducible assumption
    | simp -proj only [↓mk_kept, kept_eta, ↓ite_kept, sceneEvt_kept]
    | with_reducible apply toggleLive_ok
    | with_reducible apply forkClear_ok
    | with_reducible apply fadeCut_ok
    | (with_reducible refine ok_ite (fun h' => ?_) ?_)
    | split

theorem forkWrite_ok (q : List Instr) (k : ℕ) (s : State) (hok : Ok q (kept s)) : Ok q (kept (forkWrite k s)) := by
  unfold forkWrite
  repeat' first
    | with_reducible assumption
    | simp -proj only [↓mk_kept, kept_eta, ↓ite_kept]
    | with_reducible apply forkClear_ok
    | with_reducible apply putFork_ok
    | (with_reducible refine ok_ite (fun h' => ?_) ?_)
    | split
    | (with_reducible refine foldl_ok _ _ _ ?_ ?_)
    | intro

theorem sceneDone_ok (q : List Instr) (s : State) (hok : Ok q (kept s)) : Ok q (kept (sceneDone s)) := by
  unfold sceneDone
  repeat' first
    | with_reducible assumption
    | simp -proj only [↓mk_kept, kept_eta, ↓ite_kept, sceneEvt_kept]
    | with_reducible apply forkClear_ok
    | (with_reducible refine ok_ite (fun h' => ?_) ?_)
    | split
    | (with_reducible refine foldl_ok _ _ _ ?_ ?_)
    | intro

theorem alignSwap_kept (s : State) : kept (alignSwap s) = kept s := by
  unfold alignSwap
  repeat' first
    | with_reducible rfl
    | simp -proj only [↓mk_kept, kept_eta, ↓ite_kept, xpSwap_kept]
    | split
    | (with_reducible refine (foldl_kept _ _ _ ?_).trans ?_)
    | intro

end Sys2Proof.Machine
end

