-- ==== Sys2Proof/Laws/KeptFabric.lean ====
section
/-! SUPPORT. What the fabric, the logs, the memory services, the image, the calls and the DMA keep (Laws/Kept.lean). -/

namespace Sys2Proof.Machine

theorem fabCapture_kept (m : Master) (t : ℕ) (resp : BitVec 2) (write : Bool) (a : ℕ) (s : State) : kept (fabCapture m t resp write a s) = kept s := by
  simp -proj only [fabCapture, ↓mk_kept, kept_eta, ↓ite_kept, ite_self]

theorem noteUnmapped_kept (m : Master) (t : ℕ) (write : Bool) (a : ℕ) (s : State) : kept (noteUnmapped m t write a s) = kept s := by
  simp -proj only [noteUnmapped, ↓mk_kept, kept_eta, fabCapture_kept, orReg_kept]

theorem decodeBurst_kept (b : Burst) (s : State) : kept (decodeBurst b s).1 = kept s := by
  simp -proj only [decodeBurst, ↓ite_kept, ite_fst, fst_mk, ite_self, detect_kept, noteUnmapped_kept]

theorem geodeDenied_kept (s : State) : kept (geodeDenied s) = kept s := by
  simp -proj only [geodeDenied, detect_kept]

theorem readMeter_kept (m : Master) (a : ℕ) (s : State) : kept (readMeter m a s).1 = kept s := by
  unfold readMeter
  repeat' first
    | with_reducible rfl
    | simp -proj only [↓ite_kept, ite_fst, fst_mk, readWord_kept, setBank_kept]
    | split

theorem readBeats_kept (m : Master) (x1 : List BusWord) (x2 : State) : kept (readBeats m x1 x2).1 = kept x2 := by
  induction x1 generalizing m x2 with
  | nil => simp only [readBeats]
  | cons y ys ih =>
    repeat' first
      | with_reducible rfl
      | simp -proj only [readBeats, ih, ↓ite_kept, ite_fst, ite_snd, fst_mk, ite_self, readMeter_kept, readWord_kept]

theorem memRead_kept (b : Burst) (s : State) : kept (memRead b s).s = kept s := by
  simp -proj only [memRead, ↓ite_kept, ite_ans, ans_mk, ite_self, readBeats_kept]

theorem judgeWrite_kept (m : Master) (ws : List BusWord) (s : State) : kept (judgeWrite m ws s).1 = kept s := by
  simp -proj only [judgeWrite, ↓ite_kept, ite_fst, fst_mk, ite_self, detect_kept, orReg_kept, detLapse_kept]

theorem putBusWord_ok (q : List Instr) (a : ℕ) (v : Word) (s : State) (hok : Ok q (kept s)) : Ok q (kept (putBusWord a v s)) := by
  unfold putBusWord
  repeat' first
    | with_reducible assumption
    | simp -proj only [↓ite_kept]
    | with_reducible apply writeCrew_ok
    | with_reducible apply writeWord_ok
    | (with_reducible refine ok_ite (fun h' => ?_) ?_)
    | split

theorem writeBusWord_ok (q : List Instr) (all : List BusWord) (w : BusWord) (s : State) (hok : Ok q (kept s)) : Ok q (kept ((writeBusWord all w s).1)) := by
  unfold writeBusWord
  repeat' first
    | with_reducible assumption
    | simp -proj only [↓ite_kept, ite_fst, fst_mk, readWord_kept]
    | with_reducible apply putBusWord_ok
    | (with_reducible refine ok_ite (fun h' => ?_) ?_)
    | split

theorem writeWordsIn_ok (q : List Instr) (all : List BusWord) (x2 : List BusWord) (x3 : State) (hok : Ok q (kept x3)) : Ok q (kept ((writeWordsIn all x2 x3).1)) := by
  induction x2 generalizing all x3 with
  | nil => exact hok
  | cons y ys ih =>
  simp -proj only [writeWordsIn]
  repeat' first
    | with_reducible assumption
    | simp -proj only [↓ite_kept, ite_fst, fst_mk]
    | with_reducible apply writeBusWord_ok
    | with_reducible apply ih
    | (with_reducible refine ok_ite (fun h' => ?_) ?_)
    | split

theorem writeBeats_ok (q : List Instr) (ws : List BusWord) (s : State) (hok : Ok q (kept s)) : Ok q (kept ((writeBeats ws s).1)) := by
  unfold writeBeats
  repeat' first
    | with_reducible assumption
    | simp -proj only [↓mk_kept, kept_eta, ↓ite_kept, ite_fst, ite_snd, fst_mk, snd_mk, ite_ans, ans_mk, ite_run, run_mk, ite_slice, slice_mk, ite_ovr, ovr_mk, id_eq, ite_self]
    | with_reducible apply writeWordsIn_ok

theorem writePerform_ok (q : List Instr) (b : Burst) (s : State) (hok : Ok q (kept s)) : Ok q (kept (writePerform b s).s) := by
  unfold writePerform
  repeat' first
    | with_reducible assumption
    | simp -proj only [ans_mk]
    | with_reducible apply writeBeats_ok

theorem memWrite_ok (q : List Instr) (b : Burst) (s : State) (hok : Ok q (kept s)) : Ok q (kept ((memWrite b s).1)) := by
  unfold memWrite
  repeat' first
    | with_reducible assumption
    | simp -proj only [↓mk_kept, kept_eta, ↓ite_kept, ite_fst, fst_mk, judgeWrite_kept, collideCheck_kept]
    | with_reducible apply writeBeats_ok
    | with_reducible apply writePerform_ok
    | (with_reducible refine ok_ite (fun h' => ?_) ?_)
    | split
    | (with_reducible refine foldl_ok _ _ _ ?_ ?_)
    | intro

theorem memServe_ok (q : List Instr) (b : Burst) (s : State) (hok : Ok q (kept s)) : Ok q (kept (memServe b s).1.s) := by
  have hw := memWrite_ok q b s hok
  have hr := memRead_kept b s
  unfold memServe
  split
  · exact hok
  · split
    · exact hok
    · simp -proj only [fst_mk, ans_mk, geodeDenied_kept]; exact hok
    · split
      · exact hok
      · simp -proj only [fst_mk, hr]; exact hok
    · split
      · split <;> (rename_i h; rw [h] at hw; exact hw)
      · simp -proj only [fst_mk, hr]; exact hok

theorem granted_kept (b : Burst) (s : State) : kept (granted b s) = kept s := by
  simp -proj only [granted, ↓mk_kept, kept_eta, ↓ite_kept, ite_self]

theorem memBurst_ok (q : List Instr) (b : Burst) (s : State) (hok : Ok q (kept s)) : Ok q (kept (memBurst b s).1.s) := by
  unfold memBurst
  repeat' first
    | with_reducible assumption
    | simp -proj only [↓ite_kept, ite_fst, fst_mk, ite_ans, ans_mk, decodeBurst_kept, granted_kept]
    | with_reducible apply memServe_ok
    | (with_reducible refine ok_ite (fun h' => ?_) ?_)
    | split

theorem putSlot_kept (m : Master) (x : InjSlot) (s : State) : kept (putSlot m x s) = kept s := by
  simp -proj only [putSlot, ↓mk_kept, kept_eta]

theorem injArming_kept (m : Master) (v : Word) (s : State) : kept (injArming m v s) = kept s := by
  simp -proj only [injArming, ↓ite_kept, ite_self, detect_kept, putSlot_kept]

theorem errPopWrite_kept (v : Word) (s : State) : kept (errPopWrite v s) = kept s := by
  simp -proj only [errPopWrite, ↓mk_kept, kept_eta]

theorem injTgtWrite_kept (m : Master) (v : Word) (s : State) : kept (injTgtWrite m v s) = kept s := by
  simp -proj only [injTgtWrite, ↓ite_kept, ite_self, putSlot_kept]

theorem injDisarming_kept (m : Master) (v : Word) (s : State) : kept (injDisarming m v s) = kept s := by
  simp -proj only [injDisarming, putSlot_kept]

theorem injCtrlWrite_kept (m : Master) (v : Word) (s : State) : kept (injCtrlWrite m v s) = kept s := by
  simp -proj only [injCtrlWrite, ↓ite_kept, ite_self, injDisarming_kept, progError_kept, injArming_kept]

theorem detectTimed_kept (alters : Bool) (src : BitVec 16) (code : BitVec 12) (sev : Sev) (info : Word) (s : State) : kept (detectTimed alters src code sev info s).1 = kept s := by
  simp -proj only [detectTimed, detect_kept]

theorem coalesceWindow_kept (index : ℕ) (s : State) : kept (coalesceWindow index s) = kept s := by
  simp -proj only [coalesceWindow, ↓mk_kept, kept_eta, ↓ite_kept, ite_self]

theorem collectReport_kept (r : Report) (s : State) : kept (collectReport r s) = kept s := by
  simp -proj only [collectReport, report_kept, lapse_kept]

theorem geodeRefused_kept (s : State) : kept (geodeRefused s) = kept s := by
  simp -proj only [geodeRefused, orReg_kept]

theorem geodeClear_kept (slot : ℕ) (s : State) : kept (geodeClear slot s) = kept s := by
  simp -proj only [geodeClear, ↓mk_kept, kept_eta, ↓ite_kept, ite_self, geodeRefused_kept]

theorem dramTrained_kept (step : ℕ) (s : State) : kept (dramTrained step s) = kept s := by
  simp -proj only [dramTrained, ↓mk_kept, kept_eta, detect_kept]

theorem putRows_ok (q : List Instr) (x1 : List SlateRow) (x2 : State) (hok : Ok q (kept x2)) : Ok q (kept (putRows x1 x2)) := by
  induction x1 generalizing x2 with
  | nil => exact hok
  | cons y ys ih =>
  simp -proj only [putRows]
  repeat' first
    | with_reducible assumption
    | simp -proj only [↓mk_kept, kept_eta, ↓ite_kept, ite_fst, ite_snd, fst_mk, snd_mk, ite_ans, ans_mk, ite_run, run_mk, ite_slice, slice_mk, ite_ovr, ovr_mk, id_eq, ite_self]
    | with_reducible apply writeBytes_ok
    | (with_reducible refine ok_ite (fun h' => ?_) ?_)
    | with_reducible apply ih

theorem storeAbort_ok (q : List Instr) (s : State) (hok : Ok q (kept s)) : Ok q (kept (storeAbort s)) := by
  unfold storeAbort
  repeat' first
    | with_reducible assumption
    | simp -proj only [↓mk_kept, kept_eta]
    | with_reducible apply putRows_ok
    | (with_reducible refine ok_ite (fun h' => ?_) ?_)
    | split

theorem putAssay_kept (e : ℕ) (x : Assay) (s : State) : kept (putAssay e x s) = kept s := by
  simp -proj only [putAssay, ↓mk_kept, kept_eta]

theorem assayStart_kept (e : ℕ) (s : State) : kept (assayStart e s) = kept s := by
  simp -proj only [assayStart, ↓ite_kept, ite_self, putAssay_kept]

theorem zeroWhere_ok (q : List Instr) (p : ℕ → Bool) (s : State) (hok : Ok q (kept s)) : Ok q (kept (zeroWhere p s)) := by
  unfold zeroWhere
  simp -proj only [↓mk_kept]
  exact ⟨hok.queue, filter_tabFrom _ hok.mem, hok.stage⟩

theorem slateEnd_kept (status : ℕ) (s : State) : kept (slateEnd status s) = kept s := by
  simp -proj only [slateEnd, ↓mk_kept, kept_eta, irqLatch_kept]

theorem storeStart_kept (item : ℕ) (modeOk : Bool) (src : ℕ) (len : ℕ) (lenOk : Bool) (crcOk : Bool) (s : State) : kept (storeStart item modeOk src len lenOk crcOk s) = kept s := by
  simp -proj only [storeStart, ↓mk_kept, kept_eta, ↓ite_kept, ite_self, slateEnd_kept]

theorem storeSettings_kept (s : State) : kept (storeSettings s) = kept s := by
  simp -proj only [storeSettings, storeStart_kept]

theorem storeBoot_kept (s : State) : kept (storeBoot s) = kept s := by
  simp -proj only [storeBoot, storeStart_kept]

theorem storeRepair_kept (s : State) : kept (storeRepair s) = kept s := by
  simp -proj only [storeRepair, storeStart_kept]

theorem storeLog_kept (s : State) : kept (storeLog s) = kept s := by
  simp -proj only [storeLog, storeStart_kept]

theorem storeTrim_kept (s : State) : kept (storeTrim s) = kept s := by
  simp -proj only [storeTrim, storeStart_kept]

theorem slateCmdWrite_kept (m : Master) (v : Word) (s : State) : kept (slateCmdWrite m v s) = kept s := by
  unfold slateCmdWrite
  repeat' first
    | with_reducible rfl
    | simp -proj only [storeSettings_kept, storeBoot_kept, storeRepair_kept, storeLog_kept, storeTrim_kept, progError_kept]
    | split

theorem geodeTake_ok (q : List Instr) (n : ℕ) (s : State) (hok : Ok q (kept s)) : Ok q (kept (geodeTake n s).2) := by
  unfold geodeTake
  repeat' first
    | with_reducible assumption
    | simp -proj only [snd_mk]
    | with_reducible apply writeBytes_ok

theorem geodeInstall_ok (q : List Instr) (slot : ℕ) (s : State) (hok : Ok q (kept s)) : Ok q (kept (geodeInstall slot s)) := by
  unfold geodeInstall
  repeat' first
    | with_reducible assumption
    | simp -proj only [↓mk_kept, kept_eta, ↓ite_kept, geodeRefused_kept]
    | with_reducible apply geodeTake_ok
    | (with_reducible refine ok_ite (fun h' => ?_) ?_)
    | split

theorem geodeProvision_ok (q : List Instr) (s : State) (hok : Ok q (kept s)) : Ok q (kept (geodeProvision s)) := by
  unfold geodeProvision
  repeat' first
    | with_reducible assumption
    | simp -proj only [↓mk_kept, kept_eta, ↓ite_kept, geodeRefused_kept]
    | with_reducible apply geodeTake_ok
    | (with_reducible refine ok_ite (fun h' => ?_) ?_)
    | split

theorem geodeCmdWrite_ok (q : List Instr) (v : Word) (s : State) (hok : Ok q (kept s)) : Ok q (kept (geodeCmdWrite v s)) := by
  unfold geodeCmdWrite
  repeat' first
    | with_reducible assumption
    | simp -proj only [geodeClear_kept, geodeRefused_kept]
    | with_reducible apply geodeInstall_ok
    | with_reducible apply geodeProvision_ok
    | (with_reducible refine ok_ite (fun h' => ?_) ?_)
    | split

theorem lcWrite_ok (q : List Instr) (n : ℕ) (s : State) (hok : Ok q (kept s)) : Ok q (kept (lcWrite n s)) := by
  unfold lcWrite
  repeat' first
    | with_reducible assumption
    | simp -proj only [↓mk_kept, kept_eta, ↓ite_kept, ite_fst, ite_snd, fst_mk, snd_mk, ite_ans, ans_mk, ite_run, run_mk, ite_slice, slice_mk, ite_ovr, ovr_mk, id_eq, ite_self]
    | with_reducible apply writeBytes_ok

theorem geodeWipe_ok (q : List Instr) (cause : ℕ) (s : State) (hok : Ok q (kept s)) : Ok q (kept (geodeWipe cause s)) := by
  unfold geodeWipe
  repeat' first
    | with_reducible assumption
    | simp -proj only [↓mk_kept, kept_eta, orReg_kept]
    | with_reducible apply zeroWhere_ok

theorem slateErase_ok (q : List Instr) (s : State) (hok : Ok q (kept s)) : Ok q (kept (slateErase s)) := by
  unfold slateErase
  repeat' first
    | with_reducible assumption
    | simp -proj only [↓mk_kept, kept_eta, ↓ite_kept, ite_fst, ite_snd, fst_mk, snd_mk, ite_ans, ans_mk, ite_run, run_mk, ite_slice, slice_mk, ite_ovr, ovr_mk, id_eq, ite_self]
    | with_reducible apply zeroWhere_ok

theorem saveRow_ok (q : List Instr) (x1 : List ℕ) (x2 : State) (hok : Ok q (kept x2)) : Ok q (kept (saveRow x1 x2)) := by
  induction x1 generalizing x2 with
  | nil => exact hok
  | cons y ys ih =>
  simp -proj only [saveRow]
  repeat' first
    | with_reducible assumption
    | simp -proj only [readWord_kept]
    | with_reducible apply writeWord_ok
    | (with_reducible refine ok_ite (fun h' => ?_) ?_)
    | with_reducible apply ih

theorem dramDriftTrack_kept (step : ℕ) (s : State) : kept (dramDriftTrack step s) = kept s := by
  simp -proj only [dramDriftTrack, ↓ite_kept, ite_self, dramTrained_kept]

theorem repairRow_kept (r : RowId) (n : ℕ) (s : State) : kept (repairRow r n s) = kept s := by
  simp -proj only [repairRow, ↓mk_kept, kept_eta]

theorem restoreRow_kept (r : RowId) (faulty : Bool) (s : State) : kept (restoreRow r faulty s) = kept s := by
  unfold restoreRow
  repeat' first
    | with_reducible rfl
    | simp -proj only [↓mk_kept, kept_eta, ↓ite_kept, ite_self, detect_kept, repairRow_kept, orReg_kept]
    | split

theorem slateStoreDone_ok (q : List Instr) (s : State) (hok : Ok q (kept s)) : Ok q (kept (slateStoreDone s)) := by
  unfold slateStoreDone
  repeat' first
    | with_reducible assumption
    | simp -proj only [↓mk_kept, kept_eta, ↓ite_kept, ite_self, slateEnd_kept]
    | with_reducible apply putRows_ok
    | (with_reducible refine ok_ite (fun h' => ?_) ?_)
    | split

theorem memClearDone_ok (q : List Instr) (k : MemKind) (s : State) (hok : Ok q (kept s)) : Ok q (kept (memClearDone k s)) := by
  unfold memClearDone
  repeat' first
    | with_reducible assumption
    | simp -proj only [↓mk_kept, kept_eta, ↓ite_kept]
    | with_reducible apply zeroWhere_ok
    | (with_reducible refine ok_ite (fun h' => ?_) ?_)
    | split

theorem loadRepairs_kept (s : State) : kept (loadRepairs s) = kept s := by
  simp -proj only [loadRepairs, ↓mk_kept, kept_eta]

theorem assayRow_ok (q : List Instr) (e : ℕ) (r : RowId) (s : State) (hok : Ok q (kept s)) : Ok q (kept (assayRow e r s)) := by
  unfold assayRow
  repeat' first
    | with_reducible assumption
    | simp -proj only [↓ite_kept, putAssay_kept]
    | with_reducible apply saveRow_ok
    | (with_reducible refine ok_ite (fun h' => ?_) ?_)
    | split

theorem assayRowDone_kept (e : ℕ) (faulty : Bool) (passEnds : Bool) (ms : ℕ) (s : State) : kept (assayRowDone e faulty passEnds ms s) = kept s := by
  unfold assayRowDone
  repeat' first
    | with_reducible rfl
    | simp -proj only [↓mk_kept, kept_eta, ↓ite_kept, ite_self, putAssay_kept, restoreRow_kept]
    | split

theorem loadSlice_ok (q : List Instr) (m : List Byte) (sl : ℕ) (s : State) (hok : Ok q (kept s)) : Ok q (kept (loadSlice m sl s)) := by
  unfold loadSlice
  repeat' first
    | with_reducible assumption
    | with_reducible apply writeWords_ok
    | with_reducible apply writeBytes_ok

theorem loadMemories_ok (q : List Instr) (f : List Byte) (s : State) (hok : Ok q (kept s)) : Ok q (kept (loadMemories f s)) := by
  unfold loadMemories
  repeat' first
    | with_reducible assumption
    | with_reducible apply zeroWhere_ok
    | with_reducible apply writeBytes_ok
    | with_reducible apply loadSlice_ok
    | (with_reducible refine ok_ite (fun h' => ?_) ?_)
    | split
    | (with_reducible refine foldl_ok _ _ _ ?_ ?_)
    | intro

theorem loadRoute_kept (r : InitRoute) (s : State) : kept (loadRoute r s) = kept s := by
  simp -proj only [loadRoute, ↓ite_kept, ite_self, putSink_kept, brAlloc_kept]

theorem imageTake_ok (q : List Instr) (f : List Byte) (s : State) (hok : Ok q (kept s)) : Ok q (kept (imageTake f s)) := by
  unfold imageTake
  repeat' first
    | with_reducible assumption
    | simp -proj only [↓mk_kept, kept_eta, loadRoute_kept]
    | with_reducible apply loadMemories_ok
    | (with_reducible refine ok_ite (fun h' => ?_) ?_)
    | split
    | (with_reducible refine foldl_ok _ _ _ ?_ ?_)
    | intro

theorem imageRefuse_kept (reason : ℕ) (s : State) : kept (imageRefuse reason s) = kept s := by
  simp -proj only [imageRefuse, ↓mk_kept, kept_eta]

theorem imageTry_ok (q : List Instr) (f : List Byte) (s : State) (hok : Ok q (kept s)) : Ok q (kept (imageTry f s)) := by
  unfold imageTry
  repeat' first
    | with_reducible assumption
    | simp -proj only [↓mk_kept, kept_eta]
    | with_reducible apply writeBytes_ok

theorem imageLoad_ok (q : List Instr) (bs : List Byte) (s : State) (hok : Ok q (kept s)) : Ok q (kept (imageLoad bs s).1) := by
  unfold imageLoad
  repeat' first
    | with_reducible assumption
    | simp -proj only [↓ite_kept, ite_fst, fst_mk, detect_kept, imageRefuse_kept]
    | with_reducible apply imageTake_ok
    | (with_reducible refine ok_ite (fun h' => ?_) ?_)
    | split

theorem readBulk_kept (c : CallRec) (s : State) : kept (readBulk c s).1 = kept s := by
  unfold readBulk
  repeat' first
    | with_reducible rfl
    | simp -proj only [↓ite_kept, ite_fst, fst_mk, ite_self, readSeq_kept]
    | split

theorem callStat_kept (b : ℕ) (s : State) : kept (callStat b s) = kept s := by
  simp -proj only [callStat, orReg_kept]

theorem writeReceipt_ok (q : List Instr) (r : Receipt) (s : State) (hok : Ok q (kept s)) : Ok q (kept (writeReceipt r s)) := by
  unfold writeReceipt
  repeat' first
    | with_reducible assumption
    | simp -proj only [↓mk_kept, kept_eta, ↓ite_kept, ite_self, callStat_kept, detect_kept, irqLatch_kept]
    | with_reducible apply writeWords_ok
    | (with_reducible refine ok_ite (fun h' => ?_) ?_)
    | split

theorem receiptEnd_ok (q : List Instr) (c : CallRec) (status : ℕ) (reason : ℕ) (u : BitVec 64) (s : State) (hok : Ok q (kept s)) : Ok q (kept (receiptEnd c status reason u s)) := by
  unfold receiptEnd
  repeat' first
    | with_reducible assumption
    | simp -proj only [↓mk_kept, kept_eta, ↓ite_kept, ite_fst, ite_snd, fst_mk, snd_mk, ite_ans, ans_mk, ite_run, run_mk, ite_slice, slice_mk, ite_ovr, ovr_mk, id_eq, ite_self]
    | with_reducible apply writeReceipt_ok

theorem acceptCall_ok (q : List Instr) (c : CallRec) (s : State) (hok : Ok q (kept s)) : Ok q (kept (acceptCall c s)) := by
  unfold acceptCall
  repeat' first
    | with_reducible assumption
    | simp -proj only [↓mk_kept, kept_eta, ↓ite_kept, readBulk_kept]
    | with_reducible apply receiptEnd_ok
    | (with_reducible refine ok_ite (fun h' => ?_) ?_)
    | split

theorem cancelPend_ok (q : List Instr) (reason : ℕ) (u : BitVec 64) (p : Pend) (s : State) (hok : Ok q (kept s)) : Ok q (kept (cancelPend reason u p s)) := by
  unfold cancelPend
  repeat' first
    | with_reducible assumption
    | simp -proj only [↓mk_kept, kept_eta, ↓ite_kept]
    | with_reducible apply recallDrop_ok
    | with_reducible apply receiptEnd_ok
    | (with_reducible refine ok_ite (fun h' => ?_) ?_)
    | split

theorem recallRoute_kept (e : ℕ × RouteReq) (s : State) : kept (recallRoute e s) = kept s := by
  simp -proj only [recallRoute, ↓ite_kept, ite_self, routeApply_kept, sceneEvt_kept]

theorem callsDiscard_kept (s : State) : kept (callsDiscard s) = kept s := by
  simp -proj only [callsDiscard, ↓mk_kept, kept_eta]

theorem callEnableWrite_kept (m : Master) (v : Word) (s : State) : kept (callEnableWrite m v s) = kept s := by
  simp -proj only [callEnableWrite, ↓ite_kept, ite_self, progError_kept, setReg_kept]

theorem callDbWrite_kept (v : Word) (s : State) : kept (callDbWrite v s) = kept s := by
  simp -proj only [callDbWrite, ↓mk_kept, kept_eta, ↓ite_kept, ite_self, detect_kept, callStat_kept]

theorem cvtConvert_kept (m : Master) (v : Word) (s : State) : kept (cvtConvert m v s) = kept s := by
  simp -proj only [cvtConvert, ↓mk_kept, kept_eta, ↓ite_kept, ite_self, setBank_kept]

theorem recallStrip_ok (q : List Instr) (n : ℕ) (s : State) (hok : Ok q (kept s)) : Ok q (kept (recallStrip n s)) := by
  unfold recallStrip
  repeat' first
    | with_reducible assumption
    | simp -proj only [↓ite_kept]
    | with_reducible apply toggleLive_ok
    | with_reducible apply fadeCut_ok
    | (with_reducible refine ok_ite (fun h' => ?_) ?_)
    | split

theorem sceneCancel_ok (q : List Instr) (p : Pend) (s : State) (hok : Ok q (kept s)) : Ok q (kept (sceneCancel p s).1) := by
  unfold sceneCancel
  repeat' first
    | with_reducible assumption
    | simp -proj only [↓ite_kept, ite_fst, fst_mk, sceneEvt_kept]
    | with_reducible apply cancelPend_ok
    | (with_reducible refine ok_ite (fun h' => ?_) ?_)
    | split
    | (with_reducible refine foldl_ok _ _ _ ?_ ?_)
    | intro

theorem routeCall_kept (p : Pend) (s : State) : kept (routeCall p s).1 = kept s := by
  simp -proj only [routeCall, fst_mk, routeApply_kept]

theorem paramWrite_ok (q : List Instr) (n : ℕ) (w : ℕ) (ws : List Word) (s : State) (hok : Ok q (kept s)) : Ok q (kept (paramWrite n w ws s)) := by
  unfold paramWrite
  repeat' first
    | with_reducible assumption
    | simp -proj only [↓mk_kept, kept_eta, ↓ite_kept, ite_fst, ite_snd, fst_mk, snd_mk, ite_ans, ans_mk, ite_run, run_mk, ite_slice, slice_mk, ite_ovr, ovr_mk, id_eq, ite_self]
    | with_reducible apply writeWords_ok

theorem setParam_ok (q : List Instr) (p : Pend) (s : State) (hok : Ok q (kept s)) : Ok q (kept (setParam p s).1) := by
  unfold setParam
  repeat' first
    | with_reducible assumption
    | simp -proj only [↓ite_kept, ite_fst, ite_snd, fst_mk, snd_mk, ite_self, readBulk_kept]
    | with_reducible apply paramWrite_ok

theorem receiptApplied_ok (q : List Instr) (p : Pend) (u : BitVec 64) (s : State) (hok : Ok q (kept s)) : Ok q (kept (receiptApplied p u s)) := by
  unfold receiptApplied
  repeat' first
    | with_reducible assumption
    | simp -proj only [↓ite_kept, ite_self, lapseAt_kept]
    | with_reducible apply writeReceipt_ok

theorem receiptsOwed_ok (q : List Instr) (s : State) (hok : Ok q (kept s)) : Ok q (kept (receiptsOwed s)) := by
  unfold receiptsOwed
  repeat' first
    | with_reducible assumption
    | simp -proj only [↓mk_kept, kept_eta]
    | with_reducible apply writeReceipt_ok
    | (with_reducible refine ok_ite (fun h' => ?_) ?_)
    | split
    | (with_reducible refine foldl_ok _ _ _ ?_ ?_)
    | intro

theorem muteCall_ok (q : List Instr) (p : Pend) (s : State) (hok : Ok q (kept s)) : Ok q (kept (muteCall p s).1) := by
  unfold muteCall
  repeat' first
    | with_reducible assumption
    | simp -proj only [fst_mk]
    | with_reducible apply setDescBit_ok

theorem callAccept_ok (q : List Instr) (s : State) (hok : Ok q (kept s)) : Ok q (kept (callAccept s)) := by
  unfold callAccept
  repeat' first
    | with_reducible assumption
    | simp -proj only [↓mk_kept, kept_eta, ↓ite_kept, detect_kept, callStat_kept, readSeq_kept]
    | with_reducible apply acceptCall_ok
    | (with_reducible refine ok_ite (fun h' => ?_) ?_)
    | split

theorem sceneArm_ok (q : List Instr) (p : Pend) (s : State) (hok : Ok q (kept s)) : Ok q (kept (sceneArm p s).1) := by
  unfold sceneArm
  repeat' first
    | with_reducible assumption
    | simp -proj only [↓mk_kept, kept_eta, fst_mk, sceneEvt_kept, detect_kept, readBulk_kept]
    | with_reducible apply cancelPend_ok
    | with_reducible apply putFork_ok
    | with_reducible apply setDescBit_ok
    | (with_reducible refine ok_ite (fun h' => ?_) ?_)
    | split
    | (with_reducible refine foldl_ok _ _ _ ?_ ?_)
    | intro

theorem swapBank_ok (q : List Instr) (p : Pend) (s : State) (hok : Ok q (kept s)) : Ok q (kept (swapBank p s).1) := by
  unfold swapBank
  repeat' first
    | with_reducible assumption
    | simp -proj only [fst_mk, readBulk_kept]
    | with_reducible apply swapStrip_ok
    | (with_reducible refine ok_ite (fun h' => ?_) ?_)
    | split
    | (with_reducible refine foldl_ok _ _ _ ?_ ?_)
    | intro

theorem sceneRecall_ok (q : List Instr) (_p : Pend) (s : State) (hok : Ok q (kept s)) : Ok q (kept (sceneRecall _p s).1) := by
  unfold sceneRecall
  repeat' first
    | with_reducible assumption
    | simp -proj only [↓mk_kept, kept_eta, ↓ite_kept, fst_mk, ite_self, recallRoute_kept, xpSwap_kept]
    | with_reducible apply recallStrip_ok
    | with_reducible apply putFork_ok
    | (with_reducible refine ok_ite (fun h' => ?_) ?_)
    | split
    | (with_reducible refine foldl_ok _ _ _ ?_ ?_)
    | intro

theorem moveRest_ok (q : List Instr) (s : State) (hok : Ok q (kept s)) : Ok q (kept (moveRest s)) := by
  unfold moveRest
  repeat' first
    | with_reducible assumption
    | simp -proj only [↓mk_kept, kept_eta, ↓ite_kept]
    | with_reducible apply receiptEnd_ok
    | with_reducible apply recallDrop_ok
    | with_reducible apply putFork_ok
    | (with_reducible refine ok_ite (fun h' => ?_) ?_)
    | split
    | (with_reducible refine foldl_ok _ _ _ ?_ ?_)
    | intro

theorem applyCall_ok (q : List Instr) (op : BitVec 16) (armed : Bool) (act : Pend → State → State × Applied) (s : State)
    (ha : ∀ p s, Ok q (kept s) → Ok q (kept (act p s).1)) (hok : Ok q (kept s)) : Ok q (kept (applyCall op armed act s)) := by
  unfold applyCall
  split
  · exact hok
  · rename_i p _
    split
    · exact hok
    · have h1 : Ok q (kept (alignSwap s)) := by rw [alignSwap_kept]; exact hok
      simp -proj only []
      split
      · exact moveRest_ok q _ h1
      · have h2 : ∀ c, Ok q (kept { alignSwap s with call := c }) := fun c => by simp -proj only [↓mk_kept, kept_eta]; exact h1
        split
        · refine receiptApplied_ok q _ _ _ ?_
          simp -proj only [↓mk_kept, kept_eta]; exact ha _ _ (h2 _)
        · refine receiptEnd_ok q _ _ _ _ _ ?_
          simp -proj only [↓mk_kept, kept_eta]; exact ha _ _ (h2 _)
        · simp -proj only [↓mk_kept, kept_eta]; exact ha _ _ (h2 _)

theorem dmaFailed_ok (q : List Instr) (a : ℕ) (resp : ℕ) (last : Bool) (s : State) (hok : Ok q (kept s)) : Ok q (kept (dmaFailed a resp last s)) := by
  unfold dmaFailed
  repeat' first
    | with_reducible assumption
    | simp -proj only [↓ite_kept, decodeBurst_kept]
    | with_reducible apply memBurst_ok
    | (with_reducible refine ok_ite (fun h' => ?_) ?_)
    | split

theorem putDma_kept (c : ℕ) (x : DmaCh) (s : State) : kept (putDma c x s) = kept s := by
  simp -proj only [putDma, ↓mk_kept, kept_eta]

theorem dmaIrq_kept (c : ℕ) (s : State) : kept (dmaIrq c s) = kept s := by
  simp -proj only [dmaIrq, orReg_kept]

theorem dmaStop_kept (c : ℕ) (code : ℕ) (resid : ℕ) (irq : Bool) (s : State) : kept (dmaStop c code resid irq s) = kept s := by
  simp -proj only [dmaStop, ↓ite_kept, ite_self, putDma_kept, dmaIrq_kept]

theorem readRun_ok (q : List Instr) (m : Master) (x1 : List Piece) (x2 : State) (hok : Ok q (kept x2)) : Ok q (kept (readRun m x1 x2).1) := by
  induction x1 generalizing m x2 with
  | nil => exact hok
  | cons y ys ih =>
  simp -proj only [readRun]
  repeat' first
    | with_reducible assumption
    | simp -proj only [fst_mk]
    | with_reducible apply memBurst_ok
    | (with_reducible refine ok_ite (fun h' => ?_) ?_)
    | with_reducible apply ih

theorem writeRun_ok (q : List Instr) (m : Master) (go : ℕ → Bool) (x1 : List Piece) (x2 : List Byte) (x3 : State) (hok : Ok q (kept x3)) : Ok q (kept (writeRun m go x1 x2 x3).1) := by
  induction x1 generalizing m go x2 x3 with
  | nil => exact hok
  | cons y ys ih =>
  simp -proj only [writeRun]
  repeat' first
    | with_reducible assumption
    | simp -proj only [↓ite_kept, fst_mk, ite_ans, ans_mk]
    | with_reducible apply memBurst_ok
    | (with_reducible refine ok_ite (fun h' => ?_) ?_)
    | with_reducible apply ih
    | split

theorem dmaMove_ok (q : List Instr) (d : Desc) (n : ℕ) (go : ℕ → Bool) (s : State) (hok : Ok q (kept s)) : Ok q (kept (dmaMove d n go s).1) := by
  unfold dmaMove
  repeat' first
    | with_reducible assumption
    | simp -proj only [↓ite_kept, ite_fst, fst_mk]
    | with_reducible apply readRun_ok
    | with_reducible apply writeRun_ok
    | (with_reducible refine ok_ite (fun h' => ?_) ?_)
    | split

theorem dmaHaltCh_ok (q : List Instr) (one : Option ℕ) (resp : ℕ) (issued : ℕ → ℕ) (c : ℕ) (s : State) (hok : Ok q (kept s)) : Ok q (kept (dmaHaltCh one resp issued c s)) := by
  unfold dmaHaltCh
  repeat' first
    | with_reducible assumption
    | simp -proj only [↓mk_kept, kept_eta, ↓ite_kept, ite_self, dmaStop_kept]
    | with_reducible apply dmaMove_ok
    | (with_reducible refine ok_ite (fun h' => ?_) ?_)
    | split

theorem dmaHaltEvent_ok (q : List Instr) (c : ℕ) (a : ℕ) (resp : ℕ) (lastWrite : Bool) (issued : ℕ → ℕ) (s : State) (hok : Ok q (kept s)) : Ok q (kept (dmaHaltEvent c a resp lastWrite issued s)) := by
  unfold dmaHaltEvent
  repeat' first
    | with_reducible assumption
    | simp -proj only [↓mk_kept, kept_eta, ↓ite_kept, detect_kept, orReg_kept]
    | with_reducible apply dmaFailed_ok
    | with_reducible apply dmaHaltCh_ok
    | (with_reducible refine ok_ite (fun h' => ?_) ?_)
    | split
    | (with_reducible refine foldl_ok _ _ _ ?_ ?_)
    | intro

theorem burstComplete_ok (q : List Instr) (m : Master) (perform : Burst → State → State) (prog : Option Burst) (s : State) (hp : ∀ b s, Ok q (kept s) → Ok q (kept (perform b s))) (hok : Ok q (kept s)) : Ok q (kept (burstComplete m perform prog s)) := by
  unfold burstComplete
  repeat' first
    | with_reducible assumption
    | simp -proj only [↓ite_kept, ite_self, detect_kept, orReg_kept]
    | with_reducible apply hp
    | (with_reducible refine ok_ite (fun h' => ?_) ?_)
    | split

theorem masterReset_ok (q : List Instr) (m : Master) (perform : Burst → State → State) (prog : Option Burst) (s : State) (hp : ∀ b s, Ok q (kept s) → Ok q (kept (perform b s))) (hok : Ok q (kept s)) : Ok q (kept (masterReset m perform prog s)) := by
  unfold masterReset
  repeat' first
    | with_reducible assumption
    | simp -proj only [↓mk_kept, kept_eta]
    | with_reducible apply burstComplete_ok

theorem memPerform_ok (q : List Instr) (b : Burst) (s : State) (hok : Ok q (kept s)) : Ok q (kept (memPerform b s)) := by
  unfold memPerform
  repeat' first
    | with_reducible assumption
    | simp -proj only [↓mk_kept, kept_eta, ↓ite_kept, ite_fst, ite_snd, fst_mk, snd_mk, ite_ans, ans_mk, ite_run, run_mk, ite_slice, slice_mk, ite_ovr, ovr_mk, id_eq, ite_self]
    | with_reducible apply memBurst_ok

theorem dmaAbort_kept (m : Master) (s : State) : kept (dmaAbort m s) = kept s := by
  simp -proj only [dmaAbort, ↓ite_kept, ite_self, putDma_kept]

theorem dmaStart_kept (m : Master) (s : State) : kept (dmaStart m s) = kept s := by
  simp -proj only [dmaStart, ↓ite_kept, ite_self, progError_kept, putDma_kept]

theorem dmaCtrlWrite_kept (m : Master) (v : Word) (s : State) : kept (dmaCtrlWrite m v s) = kept s := by
  simp -proj only [dmaCtrlWrite, ↓ite_kept, ite_self, dmaAbort_kept, dmaStart_kept]

theorem dmaAborted_ok (q : List Instr) (c : ℕ) (issued : ℕ) (s : State) (hok : Ok q (kept s)) : Ok q (kept (dmaAborted c issued s)) := by
  unfold dmaAborted
  repeat' first
    | with_reducible assumption
    | simp -proj only [↓ite_kept, dmaStop_kept]
    | with_reducible apply dmaMove_ok
    | (with_reducible refine ok_ite (fun h' => ?_) ?_)
    | split

theorem dmaDescFetched_ok (q : List Instr) (c : ℕ) (s : State) (hok : Ok q (kept s)) : Ok q (kept (dmaDescFetched c s)) := by
  unfold dmaDescFetched
  repeat' first
    | with_reducible assumption
    | simp -proj only [↓ite_kept, ite_self, putDma_kept, dmaStop_kept, detect_kept]
    | with_reducible apply memBurst_ok
    | (with_reducible refine ok_ite (fun h' => ?_) ?_)
    | split

theorem dmaNext_kept (c : ℕ) (d : Desc) (s : State) : kept (dmaNext c d s) = kept s := by
  simp -proj only [dmaNext, ↓ite_kept, ite_self, dmaStop_kept, detect_kept, putDma_kept]

theorem dmaDescDone_ok (q : List Instr) (c : ℕ) (s : State) (hok : Ok q (kept s)) : Ok q (kept (dmaDescDone c s)) := by
  unfold dmaDescDone
  repeat' first
    | with_reducible assumption
    | simp -proj only [↓ite_kept, ite_self, putDma_kept, dmaNext_kept, dmaIrq_kept]
    | with_reducible apply dmaMove_ok
    | (with_reducible refine ok_ite (fun h' => ?_) ?_)
    | split

end Sys2Proof.Machine
end

