-- ==== Sys2Proof/Laws/KeptNet.lean ====
section
/-! SUPPORT. What the references, the network, the twin, reset and time keep (Laws/Kept.lean). -/

namespace Sys2Proof.Machine

theorem putPtp_kept (i : ℕ) (x : Ptp) (s : State) : kept (putPtp i x s) = kept s := by
  simp -proj only [putPtp, ↓mk_kept, kept_eta]

theorem refHist_kept (b : ℕ) (s : State) : kept (refHist b s) = kept s := by
  simp -proj only [refHist, orReg_kept]

theorem dropWindows_kept (s : State) : kept (dropWindows s) = kept s := by
  simp -proj only [dropWindows, ↓mk_kept, kept_eta]

theorem setHeld_kept (h : ℤ) (s : State) : kept (setHeld h s) = kept s := by
  simp -proj only [setHeld, ↓mk_kept, kept_eta]

theorem runAlone_kept (st : ℕ) (s : State) : kept (runAlone st s) = kept s := by
  simp -proj only [runAlone, ↓mk_kept, kept_eta]

theorem refNone_kept (useEst : Bool) (force : Bool) (s : State) : kept (refNone useEst force s) = kept s := by
  simp -proj only [refNone, ↓mk_kept, kept_eta, ↓ite_kept, ite_self, refHist_kept, dropWindows_kept, setHeld_kept, runAlone_kept, detect_kept]

theorem buildOut_kept (r : ℕ) (s : State) : kept (buildOut r s) = kept s := by
  simp -proj only [buildOut, ↓mk_kept, kept_eta, ↓ite_kept, ite_self, setHeld_kept]

theorem stepTime_kept (d : ℤ) (s : State) : kept (stepTime d s) = kept s := by
  simp -proj only [stepTime, ↓mk_kept, kept_eta, orReg_kept]

theorem putRef_kept (r : ℕ) (x : RefSt) (s : State) : kept (putRef r x s) = kept s := by
  simp -proj only [putRef, ↓mk_kept, kept_eta]

theorem clearOfs_kept (r : ℕ) (s : State) : kept (clearOfs r s) = kept s := by
  simp -proj only [clearOfs, ↓ite_kept, ite_self, putRef_kept]

theorem firstStep_kept (r : ℕ) (s : State) : kept (firstStep r s) = kept s := by
  simp -proj only [firstStep, ↓mk_kept, kept_eta, ↓ite_kept, ite_self, stepTime_kept, clearOfs_kept, setHeld_kept]

theorem refSwitch_kept (r : ℕ) (s : State) : kept (refSwitch r s) = kept s := by
  simp -proj only [refSwitch, ↓mk_kept, kept_eta, ↓ite_kept, ite_self, detect_kept, refHist_kept, buildOut_kept, firstStep_kept]

theorem refFollow_kept (r : ℕ) (s : State) : kept (refFollow r s) = kept s := by
  simp -proj only [refFollow, ↓ite_kept, ite_self, refSwitch_kept]

theorem disagreeCheck_kept (cands : List ℕ) (s : State) : kept (disagreeCheck cands s) = kept s := by
  simp -proj only [disagreeCheck, ↓mk_kept, kept_eta, ↓ite_kept, ite_self, refHist_kept, detect_kept]

theorem selectAuto_kept (s : State) : kept (selectAuto s) = kept s := by
  unfold selectAuto
  repeat' first
    | with_reducible rfl
    | simp -proj only [↓mk_kept, kept_eta, ↓ite_kept, ite_self, refNone_kept, refFollow_kept, disagreeCheck_kept]
    | split

theorem refSelect_kept (s : State) : kept (refSelect s) = kept s := by
  unfold refSelect
  repeat' first
    | with_reducible rfl
    | simp -proj only [↓ite_kept, ite_self, selectAuto_kept, refFollow_kept, refNone_kept]
    | split

theorem rstat_kept (r : ℕ) (b : ℕ) (s : State) : kept (rstat r b s) = kept s := by
  simp -proj only [rstat, orRegAt_kept]

theorem refLose_kept (r : ℕ) (s : State) : kept (refLose r s) = kept s := by
  unfold refLose
  repeat' first
    | with_reducible rfl
    | simp -proj only [putRef_kept, rstat_kept, detect_kept]
    | split

theorem endWait_kept (s : State) : kept (endWait s) = kept s := by
  simp -proj only [endWait, ↓mk_kept, kept_eta]

theorem refCtrlWrite_kept (v : Word) (s : State) : kept (refCtrlWrite v s) = kept s := by
  simp -proj only [refCtrlWrite, ↓ite_kept, ite_self, setReg_kept, refSelect_kept, endWait_kept]

theorem refRestart_kept (r : ℕ) (s : State) : kept (refRestart r s) = kept s := by
  simp -proj only [refRestart, putRef_kept]

theorem qlRefresh_kept (r : ℕ) (s : State) : kept (qlRefresh r s) = kept s := by
  simp -proj only [qlRefresh, ↓ite_kept, ite_self, putRef_kept, refHist_kept, detect_kept, refSelect_kept]

theorem refCfgWrite_kept (m : Master) (r : ℕ) (v : Word) (s : State) : kept (refCfgWrite m r v s) = kept s := by
  simp -proj only [refCfgWrite, ↓ite_kept, ite_self, setRegAt_kept, progError_kept, refRestart_kept, refSelect_kept, qlRefresh_kept]

theorem setFreq_kept (f : ℤ) (s : State) : kept (setFreq f s) = kept s := by
  simp -proj only [setFreq, ↓mk_kept, kept_eta, ↓ite_kept, ite_self]

theorem loCheck_kept (s : State) : kept (loCheck s) = kept s := by
  simp -proj only [loCheck, ↓mk_kept, kept_eta, ↓ite_kept, ite_self, setFreq_kept]

theorem loFaultEvent_kept (s : State) : kept (loFaultEvent s) = kept s := by
  simp -proj only [loFaultEvent, ↓mk_kept, kept_eta, ↓ite_kept, ite_self, detect_kept, orReg_kept]

theorem refGain_kept (r : ℕ) (s : State) : kept (refGain r s) = kept s := by
  simp -proj only [refGain, putRef_kept]

theorem putCk_kept (i : ℕ) (x : Ckout) (s : State) : kept (putCk i x s) = kept s := by
  simp -proj only [putCk, ↓mk_kept, kept_eta]

theorem ckApply_kept (i : ℕ) (s : State) : kept (ckApply i s) = kept s := by
  simp -proj only [ckApply, ↓ite_kept, ite_self, progError_kept, putCk_kept]

theorem lostLock_kept (phaseErr : ℤ) (s : State) : kept (lostLock phaseErr s) = kept s := by
  simp -proj only [lostLock, ↓mk_kept, kept_eta, ↓ite_kept, ite_self, dropWindows_kept, refHist_kept]

theorem lockedWindow_kept (freqErr : ℤ) (s : State) : kept (lockedWindow freqErr s) = kept s := by
  simp -proj only [lockedWindow, ↓mk_kept, kept_eta, ↓ite_kept, ite_self, setFreq_kept]

theorem dpllWindow_kept (phaseErr : ℤ) (freqErr : ℤ) (s : State) : kept (dpllWindow phaseErr freqErr s) = kept s := by
  unfold dpllWindow
  repeat' first
    | with_reducible rfl
    | simp -proj only [↓mk_kept, kept_eta, ↓ite_kept, ite_self, refHist_kept, lostLock_kept, lockedWindow_kept]
    | split

theorem buildoutEnd_kept (s : State) : kept (buildoutEnd s) = kept s := by
  simp -proj only [buildoutEnd, ↓mk_kept, kept_eta, ↓ite_kept, ite_self, setHeld_kept]

theorem alignJoin_kept (r : ℕ) (s : State) : kept (alignJoin r s) = kept s := by
  unfold alignJoin
  repeat' first
    | with_reducible rfl
    | simp -proj only [↓ite_kept, ite_self, putCk_kept]
    | split
    | (with_reducible refine (foldl_kept _ _ _ ?_).trans ?_)
    | (intro x)

theorem refWindow_kept (r : ℕ) (m : RefMeas) (s : State) : kept (refWindow r m s) = kept s := by
  simp -proj only [refWindow, ↓ite_kept, ite_self, putRef_kept, detect_kept, refHist_kept, rstat_kept]

theorem alignLose_kept (r : ℕ) (s : State) : kept (alignLose r s) = kept s := by
  unfold alignLose
  repeat' first
    | with_reducible rfl
    | simp -proj only [↓ite_kept, ite_self, orReg_kept, putCk_kept]
    | split
    | (with_reducible refine (foldl_kept _ _ _ ?_).trans ?_)
    | (intro x)

theorem losEvent_kept (r : ℕ) (s : State) : kept (losEvent r s) = kept s := by
  unfold losEvent
  split
  · rfl
  · simp -proj only [refSelect_kept]
    split
    · exact refLose_kept ..
    · simp -proj only [alignLose_kept, refLose_kept]

theorem freqDone_kept (s : State) : kept (freqDone s) = kept s := by
  simp -proj only [freqDone, ↓mk_kept, kept_eta, ↓ite_kept, ite_self, setFreq_kept]

theorem slewSecond_kept (s : State) : kept (slewSecond s) = kept s := by
  simp -proj only [slewSecond, ↓mk_kept, kept_eta, ↓ite_kept, ite_self, setFreq_kept, freqDone_kept, setHeld_kept, buildoutEnd_kept]

theorem windowEnd_kept (meas : Vector RefMeas 4) (phaseErr : ℤ) (freqErr : ℤ) (s : State) : kept (windowEnd meas phaseErr freqErr s) = kept s := by
  unfold windowEnd
  repeat' first
    | with_reducible rfl
    | simp -proj only [↓mk_kept, kept_eta, refWindow_kept, refSelect_kept, slewSecond_kept, dpllWindow_kept]
    | split
    | (with_reducible refine (foldl_kept _ _ _ ?_).trans ?_)
    | intro

theorem qlWord_kept (r : ℕ) (w : BitVec 16) (stopOk : Bool) (s : State) : kept (qlWord r w stopOk s) = kept s := by
  simp -proj only [qlWord, ↓ite_kept, ite_self, rstat_kept, qlRefresh_kept, putRef_kept]

theorem qlLose_kept (r : ℕ) (s : State) : kept (qlLose r s) = kept s := by
  simp -proj only [qlLose, ↓ite_kept, ite_self, qlRefresh_kept, putRef_kept, rstat_kept]

theorem netStat_kept (p : ℕ) (b : ℕ) (s : State) : kept (netStat p b s) = kept s := by
  simp -proj only [netStat, orReg_kept]

theorem linkDown_kept (p : ℕ) (s : State) : kept (linkDown p s) = kept s := by
  simp -proj only [linkDown, ↓mk_kept, kept_eta, ↓ite_kept, ite_self, detect_kept, netStat_kept]

theorem netCfgWrite_ok (q : List Instr) (p : ℕ) (v : Word) (prog : Option Burst) (s : State) (hok : Ok q (kept s)) : Ok q (kept (netCfgWrite p v prog s)) := by
  unfold netCfgWrite
  repeat' first
    | with_reducible assumption
    | simp -proj only [setReg_kept, linkDown_kept]
    | with_reducible apply masterReset_ok
    | with_reducible apply memPerform_ok

theorem hqTxdb_kept (v : Word) (s : State) : kept (hqTxdb v s) = kept s := by
  simp -proj only [hqTxdb, ↓mk_kept, kept_eta, ↓ite_kept, ite_self]

theorem sendFrame_kept (p : ℕ) (kind : ℕ) (fields : List ℕ) (payload : List Byte) (s : State) : kept (sendFrame p kind fields payload s) = kept s := by
  simp -proj only [sendFrame, ↓ite_kept, ite_self, emit_kept]

theorem groupFrame_kept (kind : ℕ) (k : ℕ) (s : State) : kept (groupFrame kind k s) = kept s := by
  simp -proj only [groupFrame, ↓ite_kept, ite_self, sendFrame_kept]

theorem putStr_kept (k : ℕ) (x : Stream) (s : State) : kept (putStr k x s) = kept s := by
  simp -proj only [putStr, ↓mk_kept, kept_eta]

theorem strDisable_kept (k : ℕ) (s : State) : kept (strDisable k s) = kept s := by
  simp -proj only [strDisable, ↓ite_kept, ite_self, groupFrame_kept, putStr_kept]

theorem putRxt_kept (ch : ℕ) (x : RxTreat) (s : State) : kept (putRxt ch x s) = kept s := by
  simp -proj only [putRxt, ↓mk_kept, kept_eta]

theorem strStat_kept (k : ℕ) (b : ℕ) (s : State) : kept (strStat k b s) = kept s := by
  simp -proj only [strStat, orRegAt_kept]

theorem strRefuse_kept (k : ℕ) (reason : ℕ) (s : State) : kept (strRefuse k reason s) = kept s := by
  simp -proj only [strRefuse, putStr_kept, strStat_kept, setRegAt_kept]

theorem streamsLeave_kept (s : State) : kept (streamsLeave s) = kept s := by
  simp -proj only [streamsLeave, ↓mk_kept, kept_eta]

theorem rxStart_kept (n : ℕ) (ch : ℕ) (s : State) : kept (rxStart n ch s) = kept s := by
  simp -proj only [rxStart, ↓mk_kept, kept_eta, putRxt_kept]

theorem strStart_kept (k : ℕ) (s : State) : kept (strStart k s) = kept s := by
  unfold strStart
  repeat' first
    | with_reducible rfl
    | simp -proj only [↓mk_kept, kept_eta, ↓ite_kept, streamsLeave_kept, putStr_kept, rxStart_kept, groupFrame_kept]
    | split
    | (with_reducible refine (foldl_kept _ _ _ ?_).trans ?_)
    | intro

theorem strEnable_kept (k : ℕ) (s : State) : kept (strEnable k s) = kept s := by
  simp -proj only [strEnable, ↓ite_kept, ite_self, detect_kept, strRefuse_kept, strStart_kept]

theorem streamsLatch_kept (s : State) : kept (streamsLatch s) = kept s := by
  unfold streamsLatch
  repeat' first
    | with_reducible rfl
    | simp -proj only [strDisable_kept, strEnable_kept]
    | split
    | (with_reducible refine (foldl_kept _ _ _ ?_).trans ?_)
    | (intro x)

theorem rxWords_ok (q : List Instr) (k : ℕ) (ch : ℕ) (u : ℕ) (s : State) (hok : Ok q (kept s)) : Ok q (kept (rxWords k ch u s).1) := by
  unfold rxWords
  refine foldl_state (π := fun r : State × Bool × List Word => r.1) (P := fun s => Ok q (kept s)) _ _ _ (fun r j h => ?_) hok
  simp -proj only [ite_fst, fst_mk]
  split
  · exact h
  · exact readRun_ok q _ _ _ h

theorem rxChan_kept (slip : Bool) (n : ℕ) (ch : ℕ) (ok : Bool) (ws : List Word) (s : State) : kept (rxChan slip n ch ok ws s) = kept s := by
  simp -proj only [rxChan, ↓mk_kept, kept_eta, putRxt_kept]

theorem rxFreeze_ok (q : List Instr) (u : ℕ) (k : ℕ) (s : State) (hok : Ok q (kept s)) : Ok q (kept (rxFreeze u k s)) := by
  unfold rxFreeze
  simp -proj only [putStr_kept]
  refine foldl_ok _ _ _ (fun s x h => ?_) ?_
  · simp -proj only [rxChan_kept]; exact h
  · simp -proj only [detect_kept]
    exact foldl_state (π := Prod.fst) (P := fun s => Ok q (kept s)) _ _ _ (fun r i h => rxWords_ok q _ _ _ _ h) hok

theorem netFreeze_ok (q : List Instr) (u : ℕ) (s : State) (hok : Ok q (kept s)) : Ok q (kept (netFreeze u s)) := by
  unfold netFreeze
  repeat' first
    | with_reducible assumption
    | simp -proj only [streamsLeave_kept]
    | with_reducible apply rxFreeze_ok
    | (with_reducible refine ok_ite (fun h' => ?_) ?_)
    | split
    | (with_reducible refine foldl_ok _ _ _ ?_ ?_)
    | intro

theorem txEntry_kept (t : ℕ) (fade : Bool) (k : ℕ) (s : State) : kept (txEntry t fade k s) = kept s := by
  unfold txEntry
  repeat' first
    | with_reducible rfl
    | simp -proj only [↓mk_kept, kept_eta, ↓ite_kept, ite_self, sendFrame_kept]
    | split
    | (with_reducible refine (foldl_kept _ _ _ ?_).trans ?_)
    | (intro x)

theorem mediaTransmit_kept (t : ℕ) (fade : Bool) (s : State) : kept (mediaTransmit t fade s) = kept s := by
  unfold mediaTransmit
  repeat' first
    | with_reducible rfl
    | simp -proj only [txEntry_kept]
    | split
    | (with_reducible refine (foldl_kept _ _ _ ?_).trans ?_)
    | (intro x)

theorem linkRaise_kept (p : ℕ) (s : State) : kept (linkRaise p s) = kept s := by
  simp -proj only [linkRaise, ↓mk_kept, kept_eta, ↓ite_kept, ite_self]

theorem placeSample_ok (q : List Instr) (ch : ℕ) (m : ℕ) (epoch : Option Word) (v : Word) (s : State) (hok : Ok q (kept s)) : Ok q (kept (placeSample ch m epoch v s)) := by
  unfold placeSample
  repeat' first
    | with_reducible assumption
    | simp -proj only [↓mk_kept, kept_eta, ↓ite_kept, ite_self]
    | with_reducible apply memBurst_ok
    | (with_reducible refine ok_ite (fun h' => ?_) ?_)
    | split

theorem placeIndex_ok (q : List Instr) (k : ℕ) (pk : MediaPacket) (t : Time) (c : ℕ) (i : ℕ) (s : State) (hok : Ok q (kept s)) : Ok q (kept (placeIndex k pk t c i s)) := by
  unfold placeIndex
  repeat' first
    | with_reducible assumption
    | simp -proj only [↓ite_kept, strStat_kept, putStr_kept]
    | with_reducible apply placeSample_ok
    | (with_reducible refine ok_ite (fun h' => ?_) ?_)
    | split
    | (with_reducible refine foldl_ok _ _ _ ?_ ?_)
    | intro

theorem frameCheck_kept (h : RxHdr) (s : State) : kept (frameCheck h s).1 = kept s := by
  simp -proj only [frameCheck, ↓ite_kept, ite_fst, fst_mk, ite_self, netStat_kept]

theorem hostQueue_ok (q : List Instr) (h : RxHdr) (bytes : List Byte) (s : State) (hok : Ok q (kept s)) : Ok q (kept (hostQueue h bytes s)) := by
  unfold hostQueue
  repeat' first
    | with_reducible assumption
    | simp -proj only [↓mk_kept, kept_eta, ↓ite_kept, netStat_kept, irqLatch_kept]
    | with_reducible apply writeRun_ok
    | (with_reducible refine ok_ite (fun h' => ?_) ?_)
    | split

theorem hostQueueRx_ok (q : List Instr) (fr : RxFrame) (s : State) (hok : Ok q (kept s)) : Ok q (kept (hostQueueRx fr s)) := by
  unfold hostQueueRx
  repeat' first
    | with_reducible assumption
    | simp -proj only [↓ite_kept, frameCheck_kept]
    | with_reducible apply hostQueue_ok
    | (with_reducible refine ok_ite (fun h' => ?_) ?_)
    | split

theorem reply_ok (q : List Instr) (kind : ℕ) (at_ : ℕ) (fr : RxFrame) (s : State) (hok : Ok q (kept s)) : Ok q (kept (reply kind at_ fr s)) := by
  unfold reply
  repeat' first
    | with_reducible assumption
    | simp -proj only [↓ite_kept, frameCheck_kept, sendFrame_kept]
    | with_reducible apply hostQueue_ok
    | (with_reducible refine ok_ite (fun h' => ?_) ?_)
    | split

theorem noteSeq_kept (k : ℕ) (p : ℕ) (seq : BitVec 16) (s : State) : kept (noteSeq k p seq s) = kept s := by
  simp -proj only [noteSeq, ↓ite_kept, ite_self, putStr_kept, strStat_kept]

theorem epochFilter_kept (k : ℕ) (pk : MediaPacket) (s : State) : kept (epochFilter k pk s).1 = kept s := by
  unfold epochFilter
  repeat' first
    | with_reducible rfl
    | simp -proj only [↓ite_kept, ite_fst, fst_mk, ite_self, strStat_kept, putStr_kept]
    | split

theorem notePair_kept (k : ℕ) (p : ℕ) (seq : BitVec 16) (ts : Word) (t : Time) (s : State) : kept (notePair k p seq ts t s) = kept s := by
  unfold notePair
  repeat' first
    | with_reducible rfl
    | simp -proj only [↓ite_kept, ite_self, putStr_kept, detect_kept, strStat_kept]
    | split

theorem igmpQuery_kept (fr : RxFrame) (s : State) : kept (igmpQuery fr s) = kept s := by
  simp -proj only [igmpQuery, ↓ite_kept, ite_self, frameCheck_kept, sendFrame_kept]

theorem rxPacket_ok (q : List Instr) (pk : MediaPacket) (k : ℕ) (s : State) (hok : Ok q (kept s)) : Ok q (kept (rxPacket pk k s)) := by
  unfold rxPacket
  repeat' first
    | with_reducible assumption
    | simp -proj only [↓ite_kept, epochFilter_kept, notePair_kept, noteSeq_kept]
    | with_reducible apply placeIndex_ok
    | (with_reducible refine ok_ite (fun h' => ?_) ?_)
    | split
    | (with_reducible refine foldl_ok _ _ _ ?_ ?_)
    | intro

theorem mediaPacket_ok (q : List Instr) (pk : MediaPacket) (s : State) (hok : Ok q (kept s)) : Ok q (kept (mediaPacket pk s)) := by
  unfold mediaPacket
  repeat' first
    | with_reducible assumption
    | simp -proj only [↓ite_kept, frameCheck_kept]
    | with_reducible apply hostQueue_ok
    | with_reducible apply rxPacket_ok
    | (with_reducible refine ok_ite (fun h' => ?_) ?_)
    | split
    | (with_reducible refine foldl_ok _ _ _ ?_ ?_)
    | intro

theorem strPublish_kept (s : State) : kept (strPublish s) = kept s := by
  simp -proj only [strPublish, ↓mk_kept, kept_eta]

theorem hqTxSend_ok (q : List Instr) (s : State) (hok : Ok q (kept s)) : Ok q (kept (hqTxSend s)) := by
  unfold hqTxSend
  repeat' first
    | with_reducible assumption
    | simp -proj only [↓mk_kept, kept_eta, ↓ite_kept, sendFrame_kept]
    | with_reducible apply readRun_ok
    | (with_reducible refine ok_ite (fun h' => ?_) ?_)
    | split

theorem twinStat_kept (b : ℕ) (s : State) : kept (twinStat b s) = kept s := by
  simp -proj only [twinStat, orReg_kept]

theorem syncLost_kept (s : State) : kept (syncLost s) = kept s := by
  simp -proj only [syncLost, ↓mk_kept, kept_eta, ↓ite_kept, ite_self, twinStat_kept]

theorem setDrive_kept (live : Bool) (s : State) : kept (setDrive live s) = kept s := by
  simp -proj only [setDrive, ↓mk_kept, kept_eta, ↓ite_kept, ite_self]

theorem coxDrop_kept (s : State) : kept (coxDrop s) = kept s := by
  simp -proj only [coxDrop, ↓mk_kept, kept_eta, syncLost_kept, setDrive_kept]

theorem sectionDrop_kept (s : State) : kept (sectionDrop s) = kept s := by
  simp -proj only [sectionDrop, ↓mk_kept, kept_eta]

theorem acquire_kept (s : State) : kept (acquire s) = kept s := by
  simp -proj only [acquire, ↓mk_kept, kept_eta, ↓ite_kept, ite_self, sectionDrop_kept, setDrive_kept, twinStat_kept, detect_kept]

theorem handoverCall_kept (p : Pend) (s : State) : kept (handoverCall p s).1 = kept s := by
  simp -proj only [handoverCall, ↓ite_kept, ite_fst, fst_mk, ite_self, coxDrop_kept, twinStat_kept, detect_kept, acquire_kept]

theorem linkBad_kept (s : State) : kept (linkBad s) = kept s := by
  simp -proj only [linkBad, ↓mk_kept, kept_eta, twinStat_kept, detect_kept]

theorem linkFrame_kept (h : TwinHdr) (s : State) : kept ((linkFrame h s).1) = kept s := by
  simp -proj only [linkFrame, ↓mk_kept, kept_eta, ↓ite_kept, ite_fst, fst_mk, ite_self, linkBad_kept]

theorem shadowFrame_kept (h : TwinHdr) (s : State) : kept (shadowFrame h s).1 = kept s := by
  simp -proj only [shadowFrame, fst_mk, linkFrame_kept]

theorem freezeFrame_kept (h : TwinHdr) (blocks : List (ℕ × BitVec 2 × BitVec 8)) (ratios : List (ℕ × Word)) (treats : List SrcTreat) (ok : Bool) (s : State) : kept (freezeFrame h blocks ratios treats ok s) = kept s := by
  simp -proj only [freezeFrame, ↓mk_kept, kept_eta, ↓ite_kept, ite_self, shadowFrame_kept, linkBad_kept]

theorem diagClr_kept (s : State) : kept (diagClr s) = kept s := by
  simp -proj only [diagClr, ↓mk_kept, kept_eta, ↓ite_kept, ite_self]

theorem twinDown_ok (q : List Instr) (lock : BitVec 4) (prog : Option Burst) (s : State) (hok : Ok q (kept s)) : Ok q (kept (twinDown lock prog s)) := by
  unfold twinDown
  repeat' first
    | with_reducible assumption
    | simp -proj only [↓mk_kept, kept_eta, ↓ite_kept, ite_self, twinStat_kept, detect_kept, syncLost_kept]
    | with_reducible apply masterReset_ok
    | with_reducible apply memPerform_ok
    | (with_reducible refine ok_ite (fun h' => ?_) ?_)
    | split

theorem resyncAsk_kept (force : Bool) (s : State) : kept (resyncAsk force s) = kept s := by
  simp -proj only [resyncAsk, ↓mk_kept, kept_eta, ↓ite_kept, ite_self, linkSend_kept]

theorem twinCtrlWrite_ok (q : List Instr) (v : Word) (s : State) (hok : Ok q (kept s)) : Ok q (kept (twinCtrlWrite v s)) := by
  unfold twinCtrlWrite
  repeat' first
    | with_reducible assumption
    | simp -proj only [↓ite_kept, ite_self, diagClr_kept, resyncAsk_kept]
    | with_reducible apply twinDown_ok
    | (with_reducible refine ok_ite (fun h' => ?_) ?_)
    | split

theorem twinUp_kept (s : State) : kept (twinUp s) = kept s := by
  simp -proj only [twinUp, ↓mk_kept, kept_eta, ↓ite_kept, ite_self, linkSend_kept]

theorem sectionLost_kept (s : State) : kept (sectionLost s) = kept s := by
  simp -proj only [sectionLost, ↓mk_kept, kept_eta, ↓ite_kept, ite_self]

theorem sectionFor_kept (k : BitVec 64) (s : State) : kept (sectionFor k s) = kept s := by
  unfold sectionFor
  repeat' first
    | with_reducible rfl
    | simp -proj only [↓mk_kept, kept_eta, ↓ite_kept, ite_self, sectionDrop_kept]
    | split

theorem carryFrame_kept (h : TwinHdr) (n : ℕ) (ofs : ℕ) (ws : List Word) (s : State) : kept (carryFrame h n ofs ws s) = kept s := by
  simp -proj only [carryFrame, ↓mk_kept, kept_eta, ↓ite_kept, ite_self, shadowFrame_kept, sectionLost_kept, sectionFor_kept]

theorem peerCheck_kept (seat : Bool) (image : BitVec 64) (s : State) : kept (peerCheck seat image s) = kept s := by
  simp -proj only [peerCheck, ↓mk_kept, kept_eta, ↓ite_kept, ite_self, detect_kept, twinStat_kept, syncLost_kept]

theorem hello_kept (h : TwinHdr) (image : BitVec 64) (nonce : List Byte) (s : State) : kept (hello h image nonce s) = kept s := by
  simp -proj only [hello, ↓mk_kept, kept_eta, ↓ite_kept, ite_self, linkFrame_kept, peerCheck_kept]

theorem yieldComplete_kept (s : State) : kept (yieldComplete s) = kept s := by
  unfold yieldComplete
  repeat' first
    | with_reducible rfl
    | simp -proj only [↓ite_kept, ite_self, coxDrop_kept, twinStat_kept, detect_kept]
    | split

theorem coxYield_kept (s : State) : kept (coxYield s) = kept s := by
  simp -proj only [coxYield, ↓mk_kept, kept_eta, ↓ite_kept, ite_self]

theorem heartbeatSend_kept (s : State) : kept (heartbeatSend s) = kept s := by
  unfold heartbeatSend
  repeat' first
    | with_reducible rfl
    | simp -proj only [↓ite_kept, ite_self, linkSend_kept, emit_kept, sendFrame_kept]
    | split
    | (with_reducible refine (foldl_kept _ _ _ ?_).trans ?_)
    | intro

theorem handoverRelease_kept (s : State) : kept (handoverRelease s) = kept s := by
  unfold handoverRelease
  repeat' first
    | with_reducible rfl
    | simp -proj only [↓mk_kept, kept_eta, ↓ite_kept, ite_self, coxDrop_kept, twinStat_kept, detect_kept, offerSend_kept]
    | split

theorem putPath_kept (p : TwinPath) (x : PathSt) (s : State) : kept (putPath p x s) = kept s := by
  simp -proj only [putPath, ↓mk_kept, kept_eta]

theorem holderHears_kept (d : ℤ) (s : State) : kept (holderHears d s) = kept s := by
  simp -proj only [holderHears, ↓ite_kept, ite_self, coxYield_kept]

theorem renewal_kept (r : BitVec 64) (d : ℤ) (s : State) : kept (renewal r d s) = kept s := by
  simp -proj only [renewal, ↓mk_kept, kept_eta, ↓ite_kept, ite_self, holderHears_kept, syncLost_kept, resyncAsk_kept]

theorem heartbeat_kept (p : TwinPath) (f : TwinFlags) (e : Word) (r : BitVec 64) (d : ℤ) (s : State) : kept (heartbeat p f e r d s) = kept s := by
  simp -proj only [heartbeat, ↓mk_kept, kept_eta, ↓ite_kept, ite_self, putPath_kept, renewal_kept]

theorem marker_kept (h : TwinHdr) (image : BitVec 64) (s : State) : kept (marker h image s) = kept s := by
  simp -proj only [marker, ↓ite_kept, ite_self, linkFrame_kept, heartbeat_kept, peerCheck_kept]

theorem offerFrame_kept (h : TwinHdr) (target : BitVec 64) (s : State) : kept (offerFrame h target s) = kept s := by
  simp -proj only [offerFrame, ↓mk_kept, kept_eta, ↓ite_kept, ite_self, linkFrame_kept]

theorem pathLost_kept (p : TwinPath) (s : State) : kept (pathLost p s) = kept s := by
  simp -proj only [pathLost, ↓ite_kept, ite_self, twinStat_kept, putPath_kept, detect_kept]

theorem shippedCall_kept (acc : BitVec 64) (c : CallRec) (s : State) : kept (shippedCall acc c s).1 = kept s := by
  simp -proj only [shippedCall, fst_mk, readBulk_kept]

theorem leaseExpired_kept (s : State) : kept (leaseExpired s) = kept s := by
  simp -proj only [leaseExpired, ↓mk_kept, kept_eta, ↓ite_kept, ite_self]

theorem inputFrame_kept (h : TwinHdr) (b : InputBlock) (s : State) : kept (inputFrame h b s) = kept s := by
  simp -proj only [inputFrame, ↓mk_kept, kept_eta, ↓ite_kept, ite_self, shadowFrame_kept]

theorem acquireCox_kept (s : State) : kept (acquireCox s) = kept s := by
  simp -proj only [acquireCox, ↓ite_kept, ite_self, acquire_kept]

theorem closeFrame_kept (h : TwinHdr) (digest : BitVec 64) (ok : Bool) (s : State) : kept (closeFrame h digest ok s) = kept s := by
  simp -proj only [closeFrame, ↓mk_kept, kept_eta, ↓ite_kept, ite_self, shadowFrame_kept, sectionDrop_kept, linkBad_kept, detect_kept, syncLost_kept]

theorem beacon_kept (b : Beacon) (s : State) : kept (beacon b s) = kept s := by
  simp -proj only [beacon, ↓ite_kept, ite_self, frameCheck_kept, detect_kept, twinStat_kept, heartbeat_kept]

theorem leasePin_kept (w : BitVec 8) (stopOk : Bool) (s : State) : kept (leasePin w stopOk s) = kept s := by
  simp -proj only [leasePin, ↓ite_kept, ite_self, heartbeat_kept]

theorem callsFrame_kept (h : TwinHdr) (cs : List (CallRec × BitVec 64)) (rd : BitVec 17) (s : State) : kept (callsFrame h cs rd s) = kept s := by
  unfold callsFrame
  simp -proj only []
  split
  · exact (sectionLost_kept _).trans (shadowFrame_kept ..)
  · simp -proj only [↓mk_kept, kept_eta]
    refine (foldl_state (π := Prod.fst) (P := fun t => kept t = kept (sectionFor h.stroke (shadowFrame h s).1)) _ cs
      (sectionFor h.stroke (shadowFrame h s).1, []) (fun r p hr => ?_) rfl).trans ((sectionFor_kept ..).trans (shadowFrame_kept ..))
    exact (shippedCall_kept p.2 p.1 r.1).trans hr

theorem resyncFrame_ok (q : List Instr) (h : TwinHdr) (i : RsItem) (s : State) (hok : Ok q (kept s)) : Ok q (kept (resyncFrame h i s)) := by
  have hf : Ok q (kept (shadowFrame h s).1) := by rw [shadowFrame_kept]; exact hok
  unfold resyncFrame
  repeat' first
    | with_reducible assumption
    | exact ⟨hf.queue, hf.mem, memPutBytes_wf hf.stage⟩
    | simp -proj only [↓mk_kept, kept_eta, ↓ite_kept, shadowFrame_kept, shippedCall_kept, putSink_kept, putAsrc_kept, setReg_kept]
    | with_reducible apply writeBytes_ok
    | (with_reducible refine ok_ite (fun h' => ?_) ?_)
    | split

theorem detBaseline_kept (k : BitVec 64) (s : State) : kept (detBaseline k s) = kept s := by
  simp -proj only [detBaseline, ↓mk_kept, kept_eta, setReg_kept]

theorem opSet_kept (s : State) : kept (opSet s) = kept s := by
  unfold opSet
  repeat' first
    | with_reducible rfl
    | simp -proj only [↓mk_kept, kept_eta]
    | split

theorem asrcLatch_kept (a : ℕ) (s : State) : kept (asrcLatch a s) = kept s := by
  simp -proj only [asrcLatch, putAsrc_kept]

theorem sinkSettle_kept (i : ℕ) (s : State) : kept (sinkSettle i s) = kept s := by
  simp -proj only [sinkSettle, ↓ite_kept, ite_self, alignCheck_kept, patchStat_kept, brAlloc_kept, noBridge_kept, putSink_kept]

theorem patchBase_kept (s : State) : kept (patchBase s) = kept s := by
  unfold patchBase
  repeat' first
    | with_reducible rfl
    | simp -proj only [↓mk_kept, kept_eta, asrcLatch_kept, sinkSettle_kept]
    | split
    | (with_reducible refine (foldl_kept _ _ _ ?_).trans ?_)
    | (intro x)

theorem sysAssert_ok (q : List Instr) (deep : Bool) (bits : Word) (s : State) (hok : Ok q (kept s)) : Ok q (kept (sysAssert deep bits s)) := by
  unfold sysAssert
  have h : Ok q (kept (storeAbort (if engHeld s then s else callsDiscard s))) := by
    refine storeAbort_ok q _ ?_
    split
    · exact hok
    · simp -proj only [callsDiscard_kept]; exact hok
  simp -proj only [↓mk_kept]
  exact ⟨h.queue, h.mem, rfl⟩

theorem dormant_ok (q : List Instr) (s : State) (hok : Ok q (kept s)) : Ok q (kept (dormant s)) := by
  unfold dormant
  repeat' first
    | with_reducible assumption
    | simp -proj only [↓mk_kept, kept_eta]
    | with_reducible apply sysAssert_ok

theorem coxEnd_kept (s : State) : kept (coxEnd s) = kept s := by
  simp -proj only [coxEnd, ↓mk_kept, kept_eta, ↓ite_kept, ite_self, setDrive_kept]

theorem engReset_ok (q : List Instr) (prog : Option Burst) (s : State) (hok : Ok q (kept s)) : Ok q (kept (engReset prog s)) := by
  unfold engReset
  repeat' first
    | with_reducible assumption
    | simp -proj only [↓mk_kept, kept_eta, ↓ite_kept, callsDiscard_kept, coxEnd_kept]
    | with_reducible apply masterReset_ok
    | with_reducible apply memPerform_ok
    | (with_reducible refine ok_ite (fun h' => ?_) ?_)
    | split

theorem modeEnter_ok (q : List Instr) (m : Mode) (s : State) (hok : Ok q (kept s)) : Ok q (kept (modeEnter m s)) := by
  unfold modeEnter
  repeat' first
    | with_reducible assumption
    | simp -proj only [↓mk_kept, kept_eta]
    | with_reducible apply dormant_ok
    | with_reducible apply engReset_ok
    | (with_reducible refine ok_ite (fun h' => ?_) ?_)
    | split

theorem unitsBase_kept (k : BitVec 64) (s : State) : kept (unitsBase k s) = kept s := by
  simp -proj only [unitsBase, ↓mk_kept, kept_eta]

theorem baseClear_ok (q : List Instr) (s : State) (hok : Ok q (kept s)) : Ok q (kept (baseClear s)) := by
  unfold baseClear
  simp -proj only []
  rw [foldl_kept _ _ _ (fun s i => publishSrc_kept 0 i s)]
  simp -proj only [↓mk_kept, kept_eta]
  refine foldl_ok _ _ _ (fun s c h => clearMem_ok q _ _ _ h) ?_
  refine foldl_ok _ _ _ (fun s n h => ?_) ?_
  · split
    · exact setDescBit_ok q _ _ _ _ h
    · exact h
  · simp -proj only [↓mk_kept]
    have h := clearMem_ok q (centralAddr 0x3E0000) 0xF000 _ (clearMem_ok q (forkAddr 0) 0x1E00 _ (clearMem_ok q (planeAddr s 0) 0x18000 s hok))
    exact ⟨h.queue, h.mem, rfl⟩

theorem sliceCold_ok (q : List Instr) (sl : ℕ) (s : State) (hok : Ok q (kept s)) : Ok q (kept (sliceCold sl s)) := by
  unfold sliceCold
  repeat' first
    | with_reducible assumption
    | with_reducible apply writeWords_ok
    | with_reducible apply clearMem_ok

theorem matrixCold_ok (q : List Instr) (s : State) (hok : Ok q (kept s)) : Ok q (kept (matrixCold s)) := by
  unfold matrixCold
  repeat' first
    | with_reducible assumption
    | simp -proj only [↓mk_kept, kept_eta, ↓ite_kept, ite_fst, ite_snd, fst_mk, snd_mk, ite_ans, ans_mk, ite_run, run_mk, ite_slice, slice_mk, ite_ovr, ovr_mk, id_eq, ite_self]
    | with_reducible apply sliceCold_ok
    | (with_reducible refine ok_ite (fun h' => ?_) ?_)
    | split
    | (with_reducible refine foldl_ok _ _ _ ?_ ?_)
    | intro

theorem baseline_ok (q : List Instr) (warm : Bool) (k : BitVec 64) (s : State) (hok : Ok q (kept s)) : Ok q (kept (baseline warm k s)) := by
  unfold baseline
  repeat' first
    | with_reducible assumption
    | simp -proj only [↓mk_kept, kept_eta, ↓ite_kept, opSet_kept, detBaseline_kept, unitsBase_kept, patchBase_kept, syncLost_kept]
    | with_reducible apply baseClear_ok
    | with_reducible apply matrixCold_ok
    | with_reducible apply receiptsOwed_ok
    | (with_reducible refine ok_ite (fun h' => ?_) ?_)
    | split

theorem splitCheck_kept (s : State) : kept (splitCheck s) = kept s := by
  simp -proj only [splitCheck, ↓mk_kept, kept_eta, ↓ite_kept, ite_self, refSelect_kept, endWait_kept, detect_kept, orReg_kept]

theorem ptpLeave_kept (i : ℕ) (st : ℕ) (s : State) : kept (ptpLeave i st s) = kept s := by
  simp -proj only [ptpLeave, putPtp_kept, splitCheck_kept, refSelect_kept, qlRefresh_kept, refLose_kept]

theorem ptpLost_kept (i : ℕ) (s : State) : kept (ptpLost i s) = kept s := by
  simp -proj only [ptpLost, ↓ite_kept, ite_self, ptpLeave_kept, detect_kept]

theorem timeForce_kept (s : State) : kept (timeForce s) = kept s := by
  unfold timeForce
  repeat' first
    | with_reducible rfl
    | simp -proj only [↓ite_kept, ite_self, refSwitch_kept, endWait_kept]
    | split

theorem hostStep_kept (d : ℤ) (s : State) : kept (hostStep d s) = kept s := by
  simp -proj only [hostStep, stepTime_kept, detect_kept]

theorem holdEnd_kept (s : State) : kept (holdEnd s) = kept s := by
  simp -proj only [holdEnd, ↓mk_kept, kept_eta, ↓ite_kept, ite_self, setHeld_kept]

theorem timeStep_kept (s : State) : kept (timeStep s) = kept s := by
  unfold timeStep
  repeat' first
    | with_reducible rfl
    | simp -proj only [↓mk_kept, kept_eta, ↓ite_kept, ite_self, hostStep_kept, holdEnd_kept, refSwitch_kept, endWait_kept, setFreq_kept, setHeld_kept]
    | split

theorem timeCtrlWrite_kept (v : Word) (s : State) : kept (timeCtrlWrite v s) = kept s := by
  simp -proj only [timeCtrlWrite, ↓ite_kept, ite_self, timeForce_kept, timeStep_kept]

theorem ptpCfgWrite_kept (m : Master) (v : Word) (s : State) : kept (ptpCfgWrite m v s) = kept s := by
  simp -proj only [ptpCfgWrite, ↓mk_kept, kept_eta, ↓ite_kept, ite_self, progError_kept, setRegAt_kept, putPtp_kept, ptpLeave_kept, endWait_kept]

theorem ptpPublish_kept (i : ℕ) (s : State) : kept (ptpPublish i s) = kept s := by
  simp -proj only [ptpPublish, ↓ite_kept, ite_self, putPtp_kept]

theorem ptpSeconds_kept (i : ℕ) (sec : BitVec 48) (s : State) : kept (ptpSeconds i sec s) = kept s := by
  simp -proj only [ptpSeconds, ↓ite_kept, ite_self, setReg_kept, putPtp_kept]

theorem ptpEstimate_kept (i : ℕ) (ofs : ℤ) (s : State) : kept (ptpEstimate i ofs s) = kept s := by
  simp -proj only [ptpEstimate, ↓ite_kept, ite_self, putPtp_kept, refSelect_kept, qlRefresh_kept, refGain_kept, splitCheck_kept, ptpPublish_kept]

theorem ptpSync_kept (i : ℕ) (t1 : PtpTime) (corr : ℤ) (t2 : Time) (s : State) : kept (ptpSync i t1 corr t2 s) = kept s := by
  simp -proj only [ptpSync, ptpSeconds_kept, ptpEstimate_kept, putPtp_kept]

theorem timeLatch_kept (m : Master) (t : Time) (s : State) : kept (timeLatch m t s) = kept s := by
  simp -proj only [timeLatch, ↓mk_kept, kept_eta, snapTake_kept]

theorem ptpAnnounce_kept (i : ℕ) (sender : BitVec 80) (d : PtpData) (s : State) : kept (ptpAnnounce i sender d s) = kept s := by
  simp -proj only [ptpAnnounce, ↓ite_kept, ite_self, ptpLeave_kept, putPtp_kept, qlRefresh_kept, ptpPublish_kept]

theorem ptpDelay_kept (i : ℕ) (d : ℤ) (s : State) : kept (ptpDelay i d s) = kept s := by
  simp -proj only [ptpDelay, ptpPublish_kept, putPtp_kept]

theorem ptpBody_kept (i : ℕ) (msg : PtpMessage) (s : State) : kept (ptpBody i msg s) = kept s := by
  unfold ptpBody
  repeat' first
    | with_reducible rfl
    | simp -proj only [↓ite_kept, ite_self, ptpAnnounce_kept, putPtp_kept, ptpSync_kept, ptpDelay_kept]
    | split

theorem ptpMessage_kept (i : ℕ) (msg : PtpMessage) (s : State) : kept (ptpMessage i msg s) = kept s := by
  simp -proj only [ptpMessage, ↓ite_kept, ite_self, frameCheck_kept, ptpBody_kept]

end Sys2Proof.Machine
end

