-- ==== Sys2Proof/Laws/KeptSystem.lean ====
section
/-! SUPPORT. What the stroke, power, self-test, the registers, boot and the host ports keep (Laws/Kept.lean). -/

namespace Sys2Proof.Machine

theorem coreStop_ok (q : List Instr) (n : ℕ) (s : State) (hok : Ok q (kept s)) : Ok q (kept (coreStop n s)) := by
  unfold coreStop
  repeat' first
    | with_reducible assumption
    | simp -proj only [putCore_kept]
    | with_reducible apply drainAll_ok

theorem overrunNote_kept (late : List ℕ) (s : State) : kept (overrunNote late s) = kept s := by
  simp -proj only [overrunNote, ↓mk_kept, kept_eta]

theorem overrunRepeat_kept (s : State) : kept (overrunRepeat s) = kept s := by
  simp -proj only [overrunRepeat, ↓mk_kept, kept_eta, detect_kept]

theorem xpBack_ok (q : List Instr) (sl : ℕ) (r : ℕ) (s : State) (hok : Ok q (kept s)) : Ok q (kept (xpBack sl r s)) := by
  unfold xpBack
  repeat' first
    | with_reducible assumption
    | simp -proj only [↓mk_kept, kept_eta, ↓ite_kept, ite_fst, ite_snd, fst_mk, snd_mk, ite_ans, ans_mk, ite_run, run_mk, ite_slice, slice_mk, ite_ovr, ovr_mk, id_eq, ite_self]
    | with_reducible apply writeHalf_ok
    | with_reducible apply writeWord_ok

theorem sliceBack_ok (q : List Instr) (sl : ℕ) (q1 : ℕ) (s : State) (hok : Ok q (kept s)) : Ok q (kept (sliceBack sl q1 s)) := by
  unfold sliceBack
  repeat' first
    | with_reducible assumption
    | simp -proj only [↓ite_kept]
    | with_reducible apply xpBack_ok
    | with_reducible apply writeBytes_ok
    | (with_reducible refine ok_ite (fun h' => ?_) ?_)
    | split
    | (with_reducible refine foldl_ok _ _ _ ?_ ?_)
    | intro

theorem sliceStop_ok (q : List Instr) (sl : ℕ) (s : State) (hok : Ok q (kept s)) : Ok q (kept (sliceStop sl s)) := by
  unfold sliceStop
  repeat' first
    | with_reducible assumption
    | simp -proj only [↓mk_kept, kept_eta, ↓ite_kept, putTreat_kept]
    | with_reducible apply sliceBack_ok
    | with_reducible apply writeWords_ok
    | (with_reducible refine ok_ite (fun h' => ?_) ?_)
    | split

theorem overrunAct_ok (q : List Instr) (late : List ℕ) (s : State) (hok : Ok q (kept s)) : Ok q (kept (overrunAct late s)) := by
  unfold overrunAct
  repeat' first
    | with_reducible assumption
    | simp -proj only [↓ite_kept, overrunNote_kept, overrunRepeat_kept]
    | with_reducible apply coreStop_ok
    | with_reducible apply sliceStop_ok
    | (with_reducible refine ok_ite (fun h' => ?_) ?_)
    | split
    | (with_reducible refine foldl_ok _ _ _ ?_ ?_)
    | intro

theorem loadsRetry_ok (q : List Instr) (crew : ℕ) (s : State) (hok : Ok q (kept s)) : Ok q (kept (loadsRetry crew s)) := by
  unfold loadsRetry
  repeat' first
    | with_reducible assumption
    | simp -proj only [↓mk_kept, kept_eta, ↓ite_kept, ite_fst, ite_snd, fst_mk, snd_mk, ite_ans, ans_mk, ite_run, run_mk, ite_slice, slice_mk, ite_ovr, ovr_mk, id_eq, ite_self]
    | with_reducible apply retryHeld_ok
    | (with_reducible refine ok_ite (fun h' => ?_) ?_)
    | split
    | (with_reducible refine foldl_ok _ _ _ ?_ ?_)
    | intro

theorem barrierRelease_ok (q : List Instr) (crew : ℕ) (k : ℕ) (s : State) (hok : Ok q (kept s)) : Ok q (kept (barrierRelease crew k s)) := by
  unfold barrierRelease
  repeat' first
    | with_reducible assumption
    | simp -proj only [↓ite_kept, barrierGo_kept]
    | with_reducible apply loadsRetry_ok
    | with_reducible apply deliverChained_ok
    | (with_reducible refine ok_ite (fun h' => ?_) ?_)
    | split

theorem meterPublish_ok (q : List Instr) (n : ℕ) (s : State) (hok : Ok q (kept s)) : Ok q (kept (meterPublish n s)) := by
  unfold meterPublish
  repeat' first
    | with_reducible assumption
    | with_reducible apply writeWords_ok

theorem metersPublish_ok (q : List Instr) (s : State) (hok : Ok q (kept s)) : Ok q (kept (metersPublish s)) := by
  unfold metersPublish
  repeat' first
    | with_reducible assumption
    | simp -proj only [↓mk_kept, kept_eta, ↓ite_kept, ite_fst, ite_snd, fst_mk, snd_mk, ite_ans, ans_mk, ite_run, run_mk, ite_slice, slice_mk, ite_ovr, ovr_mk, id_eq, ite_self]
    | with_reducible apply meterPublish_ok
    | (with_reducible refine ok_ite (fun h' => ?_) ?_)
    | split
    | (with_reducible refine foldl_ok _ _ _ ?_ ?_)
    | intro

theorem asrcStroke_kept (ratios : List (ℕ × Word)) (a : ℕ) (s : State) : kept (asrcStroke ratios a s) = kept s := by
  simp -proj only [asrcStroke, ↓mk_kept, kept_eta, ↓ite_kept, ite_fst, ite_snd, fst_mk, snd_mk, ite_self, putAsrc_kept, treatWords_kept, asrcRun_kept]

theorem asrcCatch_kept (ratios : List (ℕ × Word)) (s : State) : kept (asrcCatch ratios s) = kept s := by
  unfold asrcCatch
  repeat' first
    | with_reducible rfl
    | simp -proj only [asrcStroke_kept]
    | split
    | (with_reducible refine (foldl_kept _ _ _ ?_).trans ?_)
    | (intro x)

theorem treatTake_kept (x : SrcTreat) (s : State) : kept (treatTake x s) = kept s := by
  simp -proj only [treatTake, ↓ite_kept, ite_self, putPort_kept, putPdm_kept, putRxt_kept]

theorem framesTake_ok (q : List Instr) (k : BitVec 64) (src : ℕ) (frames : BitVec 8) (s : State) (hok : Ok q (kept s)) : Ok q (kept (framesTake k src frames s)) := by
  unfold framesTake
  repeat' first
    | with_reducible assumption
    | simp -proj only [↓ite_kept]
    | with_reducible apply writeWord_ok
    | (with_reducible refine ok_ite (fun h' => ?_) ?_)
    | split

theorem blockTake_ok (q : List Instr) (inp : List InputBlock) (k : BitVec 64) (e : ℕ × BitVec 2 × BitVec 8) (s : State) (hok : Ok q (kept s)) : Ok q (kept (blockTake inp k e s)) := by
  unfold blockTake
  repeat' first
    | with_reducible assumption
    | simp -proj only [↓mk_kept, kept_eta]
    | with_reducible apply framesTake_ok

theorem shipTake_ok (q : List Instr) (k : BitVec 64) (s : State) (hok : Ok q (kept s)) : Ok q (kept (shipTake k s)) := by
  unfold shipTake
  repeat' first
    | with_reducible assumption
    | simp -proj only [↓mk_kept, kept_eta, ↓ite_kept, treatTake_kept]
    | with_reducible apply blockTake_ok
    | (with_reducible refine ok_ite (fun h' => ?_) ?_)
    | split
    | (with_reducible refine foldl_ok _ _ _ ?_ ?_)
    | intro

theorem sectionSend_kept (k : BitVec 64) (frames : List (ℕ × List ℕ)) (close : ℕ) (last : List ℕ) (s : State) : kept (sectionSend k frames close last s) = kept s := by
  unfold sectionSend
  repeat' first
    | with_reducible rfl
    | simp -proj only [linkSend_kept]
    | split
    | (with_reducible refine (foldl_kept _ _ _ ?_).trans ?_)
    | intro

theorem shipSend_kept (k : BitVec 64) (s : State) : kept (shipSend k s) = kept s := by
  simp -proj only [shipSend, ↓ite_kept, ite_self, sectionSend_kept]

theorem actCopy_kept (s : State) : kept (actCopy s) = kept s := by
  simp -proj only [actCopy, ↓mk_kept, kept_eta]

theorem emitFreeze_kept (s : State) : kept (emitFreeze s) = kept s := by
  simp -proj only [emitFreeze, ↓mk_kept, kept_eta]

theorem ckDrive_kept (t : ℕ) (i : ℕ) (s : State) : kept (ckDrive t i s) = kept s := by
  simp -proj only [ckDrive, ↓ite_kept, ite_self, emit_kept, putCk_kept]

theorem ioCatch_ok (q : List Instr) (t : BitVec 64) (pdm : List (ℕ × PdmIn)) (mid : State → State) (s : State) (hp : ∀ s, Ok q (kept s) → Ok q (kept (mid s))) (hok : Ok q (kept s)) : Ok q (kept (ioCatch t pdm mid s)) := by
  unfold ioCatch
  repeat' first
    | with_reducible assumption
    | simp -proj only [streamsLatch_kept, actCopy_kept, emitFreeze_kept, mediaTransmit_kept, ckApply_kept, ckDrive_kept]
    | with_reducible apply netFreeze_ok
    | with_reducible apply portsCatch_ok
    | with_reducible apply portEmitBlock_ok
    | with_reducible apply hp
    | (with_reducible refine ok_ite (fun h' => ?_) ?_)
    | split
    | (with_reducible refine foldl_ok _ _ _ ?_ ?_)
    | intro

theorem skewCheck_kept (at_ : Time) (s : State) : kept (skewCheck at_ s) = kept s := by
  simp -proj only [skewCheck, ↓mk_kept, kept_eta, detect_kept]

theorem tickCheck_kept (s : State) : kept (tickCheck s) = kept s := by
  simp -proj only [tickCheck, ↓ite_kept, ite_self, irqLatch_kept]

theorem engineCatch_ok (q : List Instr) (at_ : Time) (s : State) (hok : Ok q (kept s)) : Ok q (kept (engineCatch at_ s)) := by
  unfold engineCatch
  repeat' first
    | with_reducible assumption
    | simp -proj only [↓mk_kept, kept_eta, ↓ite_kept, ite_self, skewCheck_kept, opSet_kept, tickCheck_kept]
    | with_reducible apply slicesRun_ok
    | with_reducible apply patchDeliver_ok

theorem runCatch_ok (q : List Instr) (t : BitVec 64) (at_ : Time) (ratios : List (ℕ × Word)) (pdm : List (ℕ × PdmIn)) (s : State) (hok : Ok q (kept s)) : Ok q (kept (runCatch t at_ ratios pdm s)) := by
  unfold runCatch
  repeat' first
    | with_reducible assumption
    | simp -proj only [↓mk_kept, kept_eta, shipSend_kept, asrcCatch_kept]
    | with_reducible apply shipTake_ok
    | with_reducible apply ioCatch_ok
    | with_reducible apply engineCatch_ok

theorem overrunUnit_kept (r : OverrunRes) (u : ℕ) (src : BitVec 16) (late : Bool) : kept (overrunUnit r u src late).s = kept r.s := by
  simp -proj only [overrunUnit, ↓ite_kept, ite_ovr, ovr_mk, ite_self, detect_kept, lapse_kept]

theorem treatSink_kept (late : List ℕ) (was : Tab Blk) (i : ℕ) (s : State) : kept (treatSink late was i s) = kept s := by
  simp -proj only [treatSink, ↓mk_kept, kept_eta, ↓ite_kept, ite_self, putTreat_kept]

theorem treatPlane_ok (q : List Instr) (late : List ℕ) (e : ℕ) (s : State) (hok : Ok q (kept s)) : Ok q (kept (treatPlane late e s)) := by
  unfold treatPlane
  repeat' first
    | with_reducible assumption
    | simp -proj only [↓ite_kept, putTreat_kept]
    | with_reducible apply writeWords_ok
    | (with_reducible refine ok_ite (fun h' => ?_) ?_)
    | split

theorem treatInput_ok (q : List Instr) (late : List ℕ) (i : ℕ) (s : State) (hok : Ok q (kept s)) : Ok q (kept (treatInput late i s)) := by
  unfold treatInput
  repeat' first
    | with_reducible assumption
    | simp -proj only [↓ite_kept, putTreat_kept]
    | with_reducible apply writeWords_ok
    | (with_reducible refine ok_ite (fun h' => ?_) ?_)
    | split

theorem treatAsync_kept (late : List ℕ) (a : ℕ) (s : State) : kept (treatAsync late a s) = kept s := by
  simp -proj only [treatAsync, ↓ite_kept, ite_self, putTreat_kept, putAsrc_kept]

theorem treatEntry_ok (q : List Instr) (late : List ℕ) (was : Tab Blk) (e : ℕ) (s : State) (hok : Ok q (kept s)) : Ok q (kept (treatEntry late was e s)) := by
  unfold treatEntry
  repeat' first
    | with_reducible assumption
    | simp -proj only [↓ite_kept, ite_self, treatSink_kept, treatAsync_kept]
    | with_reducible apply treatPlane_ok
    | with_reducible apply treatInput_ok
    | (with_reducible refine ok_ite (fun h' => ?_) ?_)
    | split

theorem overrunTreat_ok (q : List Instr) (late : List ℕ) (was : Tab Blk) (s : State) (hok : Ok q (kept s)) : Ok q (kept (overrunTreat late was s)) := by
  unfold overrunTreat
  repeat' first
    | with_reducible assumption
    | simp -proj only [↓ite_kept]
    | with_reducible apply treatEntry_ok
    | (with_reducible refine ok_ite (fun h' => ?_) ?_)
    | split
    | (with_reducible refine foldl_ok _ _ _ ?_ ?_)
    | intro

theorem leaveMode_ok (q : List Instr) (s : State) (hok : Ok q (kept s)) : Ok q (kept (leaveMode s)) := by
  unfold leaveMode
  repeat' first
    | with_reducible assumption
    | simp -proj only [↓mk_kept, kept_eta, ↓ite_kept]
    | with_reducible apply modeEnter_ok
    | (with_reducible refine ok_ite (fun h' => ?_) ?_)
    | split

theorem overrunTest_kept (s : State) : kept (overrunTest s).s = kept s := by
  unfold overrunTest
  refine foldl_state (π := OverrunRes.s) (P := fun t => kept t = kept s) _ _ _ (fun r p h => ?_) ?_
  · exact (overrunUnit_kept ..).trans h
  · exact foldl_state (π := OverrunRes.s) (P := fun t => kept t = kept s) _ _ _ (fun r p h => (overrunUnit_kept ..).trans h) rfl

theorem digestTake_kept (meters : List ℕ) (s : State) : kept (digestTake meters s) = kept s := by
  simp -proj only [digestTake, ↓mk_kept, kept_eta, ↓ite_kept, ite_self]

theorem resyncStep_kept (s : State) : kept (resyncStep s) = kept s := by
  unfold resyncStep
  repeat' first
    | with_reducible rfl
    | simp -proj only [↓mk_kept, kept_eta, ↓ite_kept, linkSend_kept]
    | split
    | (with_reducible refine (foldl_kept _ _ _ ?_).trans ?_)
    | intro

theorem finishStroke_ok (q : List Instr) (s : State) (hok : Ok q (kept s)) : Ok q (kept (finishStroke s)) := by
  unfold finishStroke
  repeat' first
    | with_reducible assumption
    | simp -proj only [↓mk_kept, kept_eta, ↓ite_kept, overrunTest_kept, patchPublish_kept, digestTake_kept, resyncStep_kept, heartbeatSend_kept]
    | with_reducible apply overrunTreat_ok
    | with_reducible apply overrunAct_ok
    | with_reducible apply metersPublish_ok
    | with_reducible apply forkWrite_ok
    | (with_reducible refine ok_ite (fun h' => ?_) ?_)
    | split

theorem idleCatch_ok (q : List Instr) (at_ : Time) (pdm : List (ℕ × PdmIn)) (s : State) (hok : Ok q (kept s)) : Ok q (kept (idleCatch at_ pdm s)) := by
  unfold idleCatch
  repeat' first
    | with_reducible assumption
    | simp -proj only [↓mk_kept, kept_eta]
    | with_reducible apply ioCatch_ok
    | (with_reducible refine ok_ite (fun h' => ?_) ?_)
    | split
    | (with_reducible refine foldl_ok _ _ _ ?_ ?_)
    | intro

theorem catchUp_ok (q : List Instr) (at_ : Time) (ratios : List (ℕ × Word)) (pdm : List (ℕ × PdmIn)) (s : State) (hok : Ok q (kept s)) : Ok q (kept (catchUp at_ ratios pdm s)) := by
  unfold catchUp
  repeat' first
    | with_reducible assumption
    | simp -proj only [↓mk_kept, kept_eta, ↓ite_kept]
    | with_reducible apply finishStroke_ok
    | with_reducible apply leaveMode_ok
    | with_reducible apply idleCatch_ok
    | with_reducible apply runCatch_ok
    | (with_reducible refine ok_ite (fun h' => ?_) ?_)
    | split

theorem sinkRecover_kept (e : ℕ) (s : State) : kept (sinkRecover e s) = kept s := by
  simp -proj only [sinkRecover, ↓ite_kept, ite_self, putTreat_kept]

theorem causeLog_kept (s : State) : kept (causeLog s) = kept s := by
  simp -proj only [causeLog, ↓mk_kept, kept_eta, ↓ite_kept, ite_self, report_kept]

theorem patchCutover_kept (k : BitVec 64) (s : State) : kept (patchCutover k s) = kept s := by
  unfold patchCutover
  repeat' first
    | with_reducible rfl
    | simp -proj only [asrcLatch_kept, publishSrc_kept]
    | split
    | (with_reducible refine (foldl_kept _ _ _ ?_).trans ?_)
    | intro

theorem resyncCutover_ok (q : List Instr) (s : State) (hok : Ok q (kept s)) : Ok q (kept (resyncCutover s)) := by
  unfold resyncCutover
  repeat' first
    | with_reducible assumption
    | simp -proj only [↓mk_kept, kept_eta, ↓ite_kept, patchCutover_kept, detBaseline_kept, causeLog_kept, twinStat_kept, detect_kept, opSet_kept]
    | with_reducible apply receiptsOwed_ok
    | (with_reducible refine ok_ite (fun h' => ?_) ?_)
    | split

theorem modeResult_kept (n : ℕ) (s : State) : kept (modeResult n s) = kept s := by
  simp -proj only [modeResult, ↓mk_kept, kept_eta]

theorem testPublish_kept (status : ℕ) (kind : ℕ) (ws : List Word) (s : State) : kept (testPublish status kind ws s) = kept s := by
  simp -proj only [testPublish, ↓mk_kept, kept_eta, irqLatch_kept]

theorem testLetGo_kept (kind : ℕ) (arg : Word) (s : State) : kept (testLetGo kind arg s) = kept s := by
  simp -proj only [testLetGo, ↓ite_kept, ite_self, portRelease_kept]

theorem testAbort_kept (s : State) : kept (testAbort s) = kept s := by
  simp -proj only [testAbort, ↓mk_kept, kept_eta, ↓ite_kept, ite_self, testPublish_kept, testLetGo_kept]

theorem reqRun_kept (s : State) : kept (reqRun s) = kept s := by
  simp -proj only [reqRun, ↓mk_kept, kept_eta, ↓ite_kept, ite_self, modeResult_kept, testAbort_kept]

theorem modeRequest_ok (q : List Instr) (m : Mode) (ok : Bool) (s : State) (hok : Ok q (kept s)) : Ok q (kept (modeRequest m ok s)) := by
  unfold modeRequest
  repeat' first
    | with_reducible assumption
    | simp -proj only [↓mk_kept, kept_eta, ↓ite_kept, modeResult_kept, testAbort_kept]
    | with_reducible apply modeEnter_ok
    | (with_reducible refine ok_ite (fun h' => ?_) ?_)
    | split

theorem reqRetain_ok (q : List Instr) (s : State) (hok : Ok q (kept s)) : Ok q (kept (reqRetain s)) := by
  unfold reqRetain
  repeat' first
    | with_reducible assumption
    | simp -proj only [↓mk_kept, kept_eta, ↓ite_kept, ite_fst, ite_snd, fst_mk, snd_mk, ite_ans, ans_mk, ite_run, run_mk, ite_slice, slice_mk, ite_ovr, ovr_mk, id_eq, ite_self]
    | with_reducible apply modeRequest_ok

theorem reqDormant_ok (q : List Instr) (s : State) (hok : Ok q (kept s)) : Ok q (kept (reqDormant s)) := by
  unfold reqDormant
  repeat' first
    | with_reducible assumption
    | simp -proj only [↓mk_kept, kept_eta, ↓ite_kept, ite_fst, ite_snd, fst_mk, snd_mk, ite_ans, ans_mk, ite_run, run_mk, ite_slice, slice_mk, ite_ovr, ovr_mk, id_eq, ite_self]
    | with_reducible apply modeRequest_ok

theorem reqRecovery_ok (q : List Instr) (s : State) (hok : Ok q (kept s)) : Ok q (kept (reqRecovery s)) := by
  unfold reqRecovery
  repeat' first
    | with_reducible assumption
    | simp -proj only [↓mk_kept, kept_eta, ↓ite_kept, ite_fst, ite_snd, fst_mk, snd_mk, ite_ans, ans_mk, ite_run, run_mk, ite_slice, slice_mk, ite_ovr, ovr_mk, id_eq, ite_self]
    | with_reducible apply modeRequest_ok

theorem reqService_ok (q : List Instr) (s : State) (hok : Ok q (kept s)) : Ok q (kept (reqService s)) := by
  unfold reqService
  repeat' first
    | with_reducible assumption
    | simp -proj only [↓mk_kept, kept_eta, ↓ite_kept, ite_fst, ite_snd, fst_mk, snd_mk, ite_ans, ans_mk, ite_run, run_mk, ite_slice, slice_mk, ite_ovr, ovr_mk, id_eq, ite_self]
    | with_reducible apply modeRequest_ok

theorem pwrModeWrite_ok (q : List Instr) (v : Word) (s : State) (hok : Ok q (kept s)) : Ok q (kept (pwrModeWrite v s)) := by
  unfold pwrModeWrite
  repeat' first
    | with_reducible assumption
    | simp -proj only [reqRun_kept]
    | with_reducible apply reqRetain_ok
    | with_reducible apply reqDormant_ok
    | with_reducible apply reqRecovery_ok
    | with_reducible apply reqService_ok
    | (with_reducible refine ok_ite (fun h' => ?_) ?_)
    | split

theorem lcReqWrite_ok (q : List Instr) (m : Master) (v : Word) (s : State) (hok : Ok q (kept s)) : Ok q (kept (lcReqWrite m v s)) := by
  unfold lcReqWrite
  repeat' first
    | with_reducible assumption
    | simp -proj only [↓ite_kept, progError_kept]
    | with_reducible apply lcWrite_ok
    | with_reducible apply geodeWipe_ok
    | with_reducible apply sysAssert_ok
    | with_reducible apply slateErase_ok
    | (with_reducible refine ok_ite (fun h' => ?_) ?_)
    | split

theorem bootOk_kept (m : Master) (v : Word) (ms : ℕ) (s : State) : kept (bootOk m v ms s) = kept s := by
  simp -proj only [bootOk, ↓ite_kept, ite_self, progError_kept, setReg_kept]

theorem rstCtrlWrite_ok (q : List Instr) (m : Master) (v : Word) (s : State) (hok : Ok q (kept s)) : Ok q (kept (rstCtrlWrite m v s)) := by
  unfold rstCtrlWrite
  repeat' first
    | with_reducible assumption
    | simp -proj only [↓ite_kept, progError_kept]
    | with_reducible apply sysAssert_ok
    | (with_reducible refine ok_ite (fun h' => ?_) ?_)
    | split

theorem causeSet_kept (bits : Word) (s : State) : kept (causeSet bits s) = kept s := by
  simp -proj only [causeSet, ↓mk_kept, kept_eta, orReg_kept]

theorem rstEngWrite_ok (q : List Instr) (v : Word) (prog : Option Burst) (s : State) (hok : Ok q (kept s)) : Ok q (kept (rstEngWrite v prog s)) := by
  unfold rstEngWrite
  repeat' first
    | with_reducible assumption
    | simp -proj only [↓ite_kept, setReg_kept, causeSet_kept]
    | with_reducible apply engReset_ok
    | (with_reducible refine ok_ite (fun h' => ?_) ?_)
    | split

theorem wdtCfgWrite_kept (v : Word) (s : State) : kept (wdtCfgWrite v s) = kept s := by
  simp -proj only [wdtCfgWrite, setReg_kept]

theorem wdtFire_ok (q : List Instr) (s : State) (hok : Ok q (kept s)) : Ok q (kept (wdtFire s)) := by
  unfold wdtFire
  repeat' first
    | with_reducible assumption
    | simp -proj only [↓mk_kept, kept_eta, ↓ite_kept, ite_fst, ite_snd, fst_mk, snd_mk, ite_ans, ans_mk, ite_run, run_mk, ite_slice, slice_mk, ite_ovr, ovr_mk, id_eq, ite_self]
    | with_reducible apply sysAssert_ok

theorem wdtKick_ok (q : List Instr) (v : Word) (s : State) (hok : Ok q (kept s)) : Ok q (kept (wdtKick v s)) := by
  unfold wdtKick
  repeat' first
    | with_reducible assumption
    | simp -proj only [↓ite_kept]
    | with_reducible apply wdtFire_ok
    | (with_reducible refine ok_ite (fun h' => ?_) ?_)
    | split

theorem supplyEvent_kept (code : BitVec 12) (sev : Sev) (bit : ℕ) (s : State) : kept (supplyEvent code sev bit s) = kept s := by
  simp -proj only [supplyEvent, ↓ite_kept, ite_self, detectTimed_kept, orReg_kept]

theorem vioRestore_kept (b : ℕ) (cls : BitVec 2) (s : State) : kept (vioRestore b cls s) = kept s := by
  simp -proj only [vioRestore, ↓mk_kept, kept_eta]

theorem coreHalt_kept (n : ℕ) (s : State) : kept (coreHalt n s) = kept s := by
  simp -proj only [coreHalt, ↓ite_kept, ite_self, putCore_kept]

theorem coreStep_ok (q : List Instr) (n : ℕ) (s : State) (hok : Ok q (kept s)) : Ok q (kept (coreStep n s)) := by
  unfold coreStep
  repeat' first
    | with_reducible assumption
    | simp -proj only [↓ite_kept, coreHalt_kept, putCore_kept]
    | with_reducible apply runBundle_ok
    | (with_reducible refine ok_ite (fun h' => ?_) ?_)
    | split

theorem debugAct_ok (q : List Instr) (act : DebugAct) (s : State) (hok : Ok q (kept s)) : Ok q (kept (debugAct act s)) := by
  unfold debugAct
  repeat' first
    | with_reducible assumption
    | simp -proj only [↓ite_kept, coreHalt_kept, detLapse_kept, putCore_kept]
    | with_reducible apply retryHeld_ok
    | with_reducible apply coreStep_ok
    | (with_reducible refine ok_ite (fun h' => ?_) ?_)
    | split

theorem vioLow_ok (q : List Instr) (b : ℕ) (s : State) (hok : Ok q (kept s)) : Ok q (kept (vioLow b s)) := by
  unfold vioLow
  repeat' first
    | with_reducible assumption
    | simp -proj only [↓mk_kept, kept_eta, ↓ite_kept, detectTimed_kept, orReg_kept]
    | with_reducible apply sysAssert_ok
    | (with_reducible refine ok_ite (fun h' => ?_) ?_)
    | split

theorem resetPulse_ok (q : List Instr) (ns : ℕ) (low : Bool) (s : State) (hok : Ok q (kept s)) : Ok q (kept (resetPulse ns low s)) := by
  unfold resetPulse
  repeat' first
    | with_reducible assumption
    | simp -proj only [↓mk_kept, kept_eta, ↓ite_kept]
    | with_reducible apply sysAssert_ok
    | (with_reducible refine ok_ite (fun h' => ?_) ?_)
    | split

theorem thermTrip_ok (q : List Instr) (s : State) (hok : Ok q (kept s)) : Ok q (kept (thermTrip s)) := by
  unfold thermTrip
  repeat' first
    | with_reducible assumption
    | simp -proj only [↓mk_kept, kept_eta, ↓ite_kept, detectTimed_kept]
    | with_reducible apply sysAssert_ok
    | (with_reducible refine ok_ite (fun h' => ?_) ?_)
    | split

theorem resyncControl_ok (q : List Instr) (c : RsCtl) (s : State) (hok : Ok q (kept s)) : Ok q (kept (resyncControl c s)) := by
  unfold resyncControl
  repeat' first
    | with_reducible assumption
    | simp -proj only [↓mk_kept, kept_eta, ↓ite_kept, ite_self, linkSend_kept, causeSet_kept]
    | with_reducible apply engReset_ok
    | (with_reducible refine ok_ite (fun h' => ?_) ?_)
    | split

theorem pwrAuxWrite_kept (v : Word) (s : State) : kept (pwrAuxWrite v s) = kept s := by
  simp -proj only [pwrAuxWrite, setReg_kept]

theorem tamperPulse_ok (q : List Instr) (ns : ℕ) (low : Bool) (s : State) (hok : Ok q (kept s)) : Ok q (kept (tamperPulse ns low s)) := by
  unfold tamperPulse
  repeat' first
    | with_reducible assumption
    | simp -proj only [↓mk_kept, kept_eta, ↓ite_kept, orReg_kept]
    | with_reducible apply geodeWipe_ok
    | with_reducible apply sysAssert_ok
    | (with_reducible refine ok_ite (fun h' => ?_) ?_)
    | split

theorem auxOverload_kept (is18 : Bool) (s : State) : kept (auxOverload is18 s) = kept s := by
  simp -proj only [auxOverload, ↓ite_kept, ite_self, detectTimed_kept, orReg_kept, setReg_kept]

theorem resyncCtl_ok (q : List Instr) (h : TwinHdr) (c : RsCtl) (s : State) (hok : Ok q (kept s)) : Ok q (kept (resyncCtl h c s)) := by
  unfold resyncCtl
  repeat' first
    | with_reducible assumption
    | simp -proj only [↓ite_kept, linkFrame_kept]
    | with_reducible apply resyncControl_ok
    | (with_reducible refine ok_ite (fun h' => ?_) ?_)
    | split

theorem msixReset_kept (s : State) : kept (msixReset s) = kept s := by
  unfold msixReset
  repeat' first
    | with_reducible rfl
    | simp -proj only [setReg_kept]
    | split
    | (with_reducible refine (foldl_kept _ _ _ ?_).trans ?_)
    | (intro x)

theorem endpointReset_ok (q : List Instr) (bits : Word) (perform : Burst → State → State) (prog : Option Burst) (s : State) (hp : ∀ b s, Ok q (kept s) → Ok q (kept (perform b s))) (hok : Ok q (kept s)) : Ok q (kept (endpointReset bits perform prog s)) := by
  unfold endpointReset
  repeat' first
    | with_reducible assumption
    | simp -proj only [↓mk_kept, kept_eta, setReg_kept, msixReset_kept, orReg_kept]
    | with_reducible apply masterReset_ok

theorem bistClear_ok (q : List Instr) (arg : Word) (s : State) (hok : Ok q (kept s)) : Ok q (kept (bistClear arg s)) := by
  unfold bistClear
  repeat' first
    | with_reducible assumption
    | simp -proj only [↓mk_kept, kept_eta, ↓ite_kept, ite_self]
    | with_reducible apply zeroWhere_ok
    | (with_reducible refine ok_ite (fun h' => ?_) ?_)
    | split

theorem pcieDown_ok (q : List Instr) (perform : Burst → State → State) (prog : Option Burst) (s : State) (hp : ∀ b s, Ok q (kept s) → Ok q (kept (perform b s))) (hok : Ok q (kept s)) : Ok q (kept (pcieDown perform prog s)) := by
  unfold pcieDown
  repeat' first
    | with_reducible assumption
    | simp -proj only [↓mk_kept, kept_eta, ↓ite_kept]
    | with_reducible apply endpointReset_ok
    | with_reducible apply hp
    | (with_reducible refine ok_ite (fun h' => ?_) ?_)
    | split

theorem testEnter_ok (q : List Instr) (k : ℕ) (arg : Word) (s : State) (hok : Ok q (kept s)) : Ok q (kept (testEnter k arg s)) := by
  unfold testEnter
  repeat' first
    | with_reducible assumption
    | simp -proj only [↓ite_kept, ite_self, assayStart_kept, portReset_kept, linkDown_kept]
    | with_reducible apply bistClear_ok
    | with_reducible apply twinDown_ok
    | with_reducible apply pcieDown_ok
    | with_reducible apply memPerform_ok
    | (with_reducible refine ok_ite (fun h' => ?_) ?_)
    | split

theorem testRequest_ok (q : List Instr) (k : ℕ) (s : State) (hok : Ok q (kept s)) : Ok q (kept (testRequest k s)) := by
  unfold testRequest
  repeat' first
    | with_reducible assumption
    | simp -proj only [↓mk_kept, kept_eta, ↓ite_kept, testPublish_kept]
    | with_reducible apply testEnter_ok
    | (with_reducible refine ok_ite (fun h' => ?_) ?_)
    | split

theorem bistRepair_kept (k : MemKind) (i : ℕ) (rows : List (ℕ × ℕ)) (s : State) : kept (bistRepair k i rows s) = kept s := by
  unfold bistRepair
  repeat' first
    | with_reducible rfl
    | simp -proj only [↓ite_kept, ite_self, restoreRow_kept]
    | split
    | (with_reducible refine (foldl_kept _ _ _ ?_).trans ?_)
    | (intro x)

theorem testLeave_ok (q : List Instr) (k : ℕ) (arg : Word) (pass : Bool) (calFail : Bool) (step : ℕ) (rows : List (ℕ × ℕ)) (s : State) (hok : Ok q (kept s)) : Ok q (kept (testLeave k arg pass calFail step rows s)) := by
  unfold testLeave
  repeat' first
    | with_reducible assumption
    | simp -proj only [↓ite_kept, ite_self, bistRepair_kept, dramTrained_kept, dramDriftTrack_kept, testLetGo_kept]
    | with_reducible apply bistClear_ok
    | (with_reducible refine ok_ite (fun h' => ?_) ?_)
    | split

theorem testComplete_ok (q : List Instr) (pass : Bool) (calFail : Bool) (failures : Word) (first : Word) (us : Word) (rows : List (ℕ × ℕ)) (s : State) (hok : Ok q (kept s)) : Ok q (kept (testComplete pass calFail failures first us rows s)) := by
  unfold testComplete
  repeat' first
    | with_reducible assumption
    | simp -proj only [↓mk_kept, kept_eta, ↓ite_kept, detect_kept, testPublish_kept]
    | with_reducible apply testLeave_ok
    | (with_reducible refine ok_ite (fun h' => ?_) ?_)
    | split

theorem finState_kept (s : State) : kept (finState s) = kept s := by
  simp -proj only [finState, ↓mk_kept, kept_eta]

theorem latSelWrite_kept (m : Master) (v : Word) (s : State) : kept (latSelWrite m v s) = kept s := by
  simp -proj only [latSelWrite, ↓ite_kept, ite_self, progError_kept, snapTake_kept, setBank_kept]

theorem xpShdWrite_eq (m : Master) (v : Word) (s : State) :
    xpShdWrite m v s =
      if (judgeWrite m [{ a := xpShdAddr s m, d := v, en := 15#4 }] s).2 then
        (writeWord (xpShdAddr s m) v (judgeWrite m [{ a := xpShdAddr s m, d := v, en := 15#4 }] s).1, true)
      else ((judgeWrite m [{ a := xpShdAddr s m, d := v, en := 15#4 }] s).1, false) := rfl

theorem xpShdWrite_ok (q : List Instr) (m : Master) (v : Word) (s : State) (hok : Ok q (kept s)) : Ok q (kept (xpShdWrite m v s).1) := by
  have h : Ok q (kept (judgeWrite m [{ a := xpShdAddr s m, d := v, en := 15#4 }] s).1) := by rw [judgeWrite_kept]; exact hok
  rw [xpShdWrite_eq]
  generalize judgeWrite m [{ a := xpShdAddr s m, d := v, en := 15#4 }] s = j at h ⊢
  obtain ⟨j1, j2⟩ := j
  cases j2
  · exact h
  · exact writeWord_ok q _ _ _ h

theorem strWrite_kept (m : Master) (r : RegRow) (k : ℕ) (v : Word) (s : State) : kept (strWrite m r k v s) = kept s := by
  simp -proj only [strWrite, ↓ite_kept, ite_self, setRegAt_kept, progError_kept]

theorem msixUnmask_kept (v : ℕ) (s : State) : kept (msixUnmask v s) = kept s := by
  simp -proj only [msixUnmask, ↓mk_kept, kept_eta, ↓ite_kept, ite_self, setReg_kept, emit_kept]

theorem msixWrite_kept (off : ℕ) (v : Word) (s : State) : kept (msixWrite off v s) = kept s := by
  simp -proj only [msixWrite, ↓ite_kept, ite_self, setReg_kept, msixUnmask_kept]

theorem plainWrite_kept (m : Master) (r : RegRow) (off : ℕ) (v : Word) (s : State) : kept (plainWrite m r off v s) = kept s := by
  unfold plainWrite
  repeat' first
    | with_reducible rfl
    | simp -proj only [setReg_kept]
    | split

theorem callCfgWrite_kept (m : Master) (v : Word) (s : State) : kept (callCfgWrite m v s) = kept s := by
  simp -proj only [callCfgWrite, ↓ite_kept, ite_self, setReg_kept, progError_kept]

theorem ringWrite_kept (off : ℕ) (mask : Word) (v : Word) (s : State) : kept (ringWrite off mask v s) = kept s := by
  simp -proj only [ringWrite, ↓ite_kept, ite_self, setReg_kept]

theorem fabStatWrite_kept (v : Word) (s : State) : kept (fabStatWrite v s) = kept s := by
  simp -proj only [fabStatWrite, ↓mk_kept, kept_eta, ↓ite_kept, ite_self, setReg_kept]

theorem qspiCmdWrite_kept (m : Master) (v : Word) (s : State) : kept (qspiCmdWrite m v s) = kept s := by
  simp -proj only [qspiCmdWrite, ↓mk_kept, kept_eta, ↓ite_kept, ite_self, progError_kept, emit_kept]

theorem bootOkBus_kept (m : Master) (v : Word) (s : State) : kept (bootOkBus m v s) = kept s := by
  simp -proj only [bootOkBus, ↓mk_kept, kept_eta, bootOk_kept]

theorem irqAck_kept (v : ℕ) (s : State) : kept (irqAck v s) = kept s := by
  simp -proj only [irqAck, ↓mk_kept, kept_eta, ↓ite_kept, ite_self, emit_kept]

theorem fstartWrite_kept (m : Master) (v : Word) (s : State) : kept (fstartWrite m v s) = kept s := by
  simp -proj only [fstartWrite, ↓ite_kept, ite_self, progError_kept, setReg_kept]

theorem bootGoWrite_kept (v : Word) (s : State) : kept (bootGoWrite v s) = kept s := by
  simp -proj only [bootGoWrite, ↓mk_kept, kept_eta, ↓ite_kept, ite_self]

theorem rangedWrite_kept (m : Master) (off : ℕ) (lo1 : ℕ) (hi1 : ℕ) (lo0 : ℕ) (hi0 : ℕ) (v : Word) (s : State) : kept (rangedWrite m off lo1 hi1 lo0 hi0 v s) = kept s := by
  simp -proj only [rangedWrite, ↓ite_kept, ite_self, setReg_kept, progError_kept]

theorem ckCfgWrite_kept (m : Master) (i : ℕ) (v : Word) (s : State) : kept (ckCfgWrite m i v s) = kept s := by
  simp -proj only [ckCfgWrite, ↓ite_kept, ite_self, setRegAt_kept, progError_kept]

theorem selPut_kept (m : Master) (off : ℕ) (ok : Bool) (extra : Bool) (f : Bank → Bank) (s : State) : kept (selPut m off ok extra f s) = kept s := by
  simp -proj only [selPut, ↓ite_kept, ite_self, progError_kept, setBank_kept]

theorem xpSelWrite_kept (m : Master) (v : Word) (s : State) : kept (xpSelWrite m v s) = kept s := by
  simp -proj only [xpSelWrite, ↓ite_kept, ite_self, snapTake_kept, setBank_kept, progError_kept]

theorem sinkSelWrite_kept (m : Master) (v : Word) (s : State) : kept (sinkSelWrite m v s) = kept s := by
  simp -proj only [sinkSelWrite, ↓ite_kept, ite_self, progError_kept, snapTake_kept, setBank_kept]

theorem coreSelWrite_kept (m : Master) (v : Word) (s : State) : kept (coreSelWrite m v s) = kept s := by
  simp -proj only [coreSelWrite, snapTake_kept, setBank_kept]

theorem asrcCfgWrite_kept (m : Master) (a : ℕ) (v : Word) (s : State) : kept (asrcCfgWrite m a v s) = kept s := by
  simp -proj only [asrcCfgWrite, ↓ite_kept, ite_self, setRegAt_kept, progError_kept]

theorem actions_ok (q : List Instr) (a : Action) (ha : a ∈ actions) (m : Master) (i : Nat) (v : Word) (s : State) (hok : Ok q (kept s)) : Ok q (kept (a.run m i v s)) := by
  revert a
  simp only [actions, bankActions, sysActions, unitActions, List.cons_append, List.nil_append, List.forall_mem_cons]
  and_intros
  all_goals repeat' first
    | with_reducible assumption
    | simp -proj only [↓ite_kept, ite_self, asrcCfgWrite_kept, bootGoWrite_kept, bootOkBus_kept, callCfgWrite_kept, callDbWrite_kept, callEnableWrite_kept, ckCfgWrite_kept, coreSelWrite_kept, cvtConvert_kept, dmaCtrlWrite_kept, errPopWrite_kept, fabStatWrite_kept, fstartWrite_kept, grpWrite_kept, hqTxdb_kept, injCtrlWrite_kept, injTgtWrite_kept, irqAck_kept, latSelWrite_kept, loCheck_kept, pdmEnWrite_kept, portRstWrite_kept, progError_kept, ptpCfgWrite_kept, qspiCmdWrite_kept, rangedWrite_kept, refCfgWrite_kept, refCtrlWrite_kept, ringWrite_kept, selPut_kept, setBank_kept, setReg_kept, sinkSelWrite_kept, slateCmdWrite_kept, timeCtrlWrite_kept, wdtCfgWrite_kept, xpSelWrite_kept]
    | with_reducible apply geodeCmdWrite_ok
    | with_reducible apply lcReqWrite_ok
    | with_reducible apply netCfgWrite_ok
    | with_reducible apply pwrModeWrite_ok
    | with_reducible apply rstCtrlWrite_ok
    | with_reducible apply rstEngWrite_ok
    | with_reducible apply testRequest_ok
    | with_reducible apply twinCtrlWrite_ok
    | with_reducible apply wdtKick_ok
    | split
    | (intro a ha; cases ha)

theorem ccmapWrite_kept (off : ℕ) (v : Word) (s : State) : kept (ccmapWrite off v s) = kept s := by
  simp -proj only [ccmapWrite, qlRefresh_kept, setReg_kept]

theorem rowWrite_ok (q : List Instr) (m : Master) (r : RegRow) (off : ℕ) (v : Word) (s : State) (hok : Ok q (kept s)) : Ok q (kept (rowWrite m r off v s)) := by
  unfold rowWrite
  split
  · rename_i a ha
    exact actions_ok q a (List.mem_of_find?_eq_some ha) _ _ _ _ hok
  · repeat' first
      | with_reducible assumption
      | simp -proj only [strWrite_kept, progError_kept, ccmapWrite_kept, msixWrite_kept, plainWrite_kept]
      | split

theorem regWrite_ok (q : List Instr) (m : Master) (off : ℕ) (v : Word) (s : State) (hok : Ok q (kept s)) : Ok q (kept (regWrite m off v s).1) := by
  unfold regWrite
  repeat' first
    | with_reducible assumption
    | simp -proj only [↓ite_kept, ite_fst, fst_mk, progError_kept]
    | with_reducible apply xpShdWrite_ok
    | with_reducible apply rowWrite_ok
    | (with_reducible refine ok_ite (fun h' => ?_) ?_)
    | split

theorem groupTake_kept (m : Master) (g : Group) (s : State) : kept (groupTake m g s).1 = kept s := by
  simp -proj only [groupTake, fst_mk, snapTake_kept]

theorem rowRead_kept (m : Master) (r : RegRow) (off : ℕ) (s : State) : kept (rowRead m r off s).1 = kept s := by
  unfold rowRead
  repeat' first
    | with_reducible rfl
    | simp -proj only [↓ite_kept, ite_fst, fst_mk, ite_self, groupTake_kept]
    | split

theorem regRead_kept (m : Master) (off : ℕ) (s : State) : kept (regRead m off s).1 = kept s := by
  unfold regRead
  repeat' first
    | with_reducible rfl
    | simp -proj only [rowRead_kept]
    | split

theorem qspiDone_kept (data : List Byte) (s : State) : kept (qspiDone data s) = kept s := by
  unfold qspiDone
  repeat' first
    | with_reducible rfl
    | simp -proj only [↓mk_kept, kept_eta, setReg_kept, irqLatch_kept]
    | split
    | (with_reducible refine (foldl_kept _ _ _ ?_).trans ?_)
    | (intro x)

theorem dramStep_kept (fail : ℕ) (s : State) : kept (dramStep fail s) = kept s := by
  simp -proj only [dramStep, ↓mk_kept, kept_eta, ↓ite_kept, ite_self, dramTrained_kept]

theorem settingsBad_kept (s : State) : kept (settingsBad s) = kept s := by
  simp -proj only [settingsBad, detect_kept]

theorem bootFail_kept (code : ℕ) (s : State) : kept (bootFail code s) = kept s := by
  simp -proj only [bootFail, ↓mk_kept, kept_eta]

theorem bootError_kept (rec : BitVec 12) (code : ℕ) (s : State) : kept (bootError rec code s) = kept s := by
  simp -proj only [bootError, bootFail_kept, report_kept]

theorem trimPut_kept (good : Bool) (off : ℕ) (mask : Word) (s : State) : kept (trimPut good off mask s) = kept s := by
  simp -proj only [trimPut, setReg_kept]

theorem lateWrites_ok (q : List Instr) (s : State) (hok : Ok q (kept s)) : Ok q (kept (lateWrites s)) := by
  unfold lateWrites
  repeat' first
    | with_reducible assumption
    | simp -proj only [↓mk_kept, kept_eta]
    | with_reducible apply writeWord_ok
    | (with_reducible refine ok_ite (fun h' => ?_) ?_)
    | split
    | (with_reducible refine foldl_ok _ _ _ ?_ ?_)
    | intro

theorem hostTimeout_kept (s : State) : kept (hostTimeout s) = kept s := by
  simp -proj only [hostTimeout, ↓ite_kept, ite_self, bootError_kept]

theorem timeStart_kept (s : State) : kept (timeStart s) = kept s := by
  unfold timeStart
  repeat' first
    | with_reducible rfl
    | simp -proj only [↓mk_kept, kept_eta, ↓ite_kept, setFreq_kept, ptpLeave_kept, refRestart_kept]
    | split
    | (with_reducible refine (foldl_kept _ _ _ ?_).trans ?_)
    | intro

theorem retRestore_ok (q : List Instr) (s : State) (hok : Ok q (kept s)) : Ok q (kept (retRestore s)) := by
  unfold retRestore
  split
  · exact hok
  · simp -proj only [↓mk_kept]
    exact ⟨hok.queue, cellsPut_moved_wf (cellsPut_moved_wf hok.mem hok.mem) hok.mem, hok.stage⟩

theorem slotLog_kept (i : ℕ) (s : State) : kept (slotLog i s) = kept s := by
  simp -proj only [slotLog, ↓ite_kept, ite_self, report_kept]

theorem settingsRun_ok (q : List Instr) (x1 : List Word) (x2 : State) (hok : Ok q (kept x2)) : Ok q (kept (settingsRun x1 x2)) := by
  fun_induction settingsRun x1 x2
  all_goals repeat' first
    | with_reducible assumption
    | simp -proj only [settingsBad_kept]
    | simp -proj only [↓mk_kept, kept_eta] at *
    | with_reducible apply regWrite_ok
    | (rename_i ih; with_reducible apply ih)

theorem settingsApply_ok (q : List Instr) (s : State) (hok : Ok q (kept s)) : Ok q (kept (settingsApply s)) := by
  unfold settingsApply
  repeat' first
    | with_reducible assumption
    | simp -proj only [slotLog_kept]
    | with_reducible apply settingsRun_ok
    | (with_reducible refine ok_ite (fun h' => ?_) ?_)
    | split

theorem timeStep5_ok (q : List Instr) (s : State) (hok : Ok q (kept s)) : Ok q (kept (timeStep5 s)) := by
  unfold timeStep5
  repeat' first
    | with_reducible assumption
    | simp -proj only [↓mk_kept, kept_eta, ↓ite_kept, ite_self, timeStart_kept]
    | with_reducible apply retRestore_ok
    | with_reducible apply settingsApply_ok
    | (with_reducible refine ok_ite (fun h' => ?_) ?_)
    | split

theorem engineRelease_ok (q : List Instr) (t : Time) (s : State) (hok : Ok q (kept s)) : Ok q (kept (engineRelease t s)) := by
  unfold engineRelease
  repeat' first
    | with_reducible assumption
    | simp -proj only [↓mk_kept, kept_eta, ↓ite_kept, causeLog_kept]
    | with_reducible apply baseline_ok
    | (with_reducible refine ok_ite (fun h' => ?_) ?_)
    | split

theorem retOff_ok (q : List Instr) (s : State) (hok : Ok q (kept s)) : Ok q (kept (retOff s)) := by
  unfold retOff
  simp -proj only [↓mk_kept]
  have h := zeroWhere_ok q (fun a => inKind .central a || inKind .matrix a || inKind .portBuf a) s hok
  exact ⟨h.queue, h.mem, rfl⟩

theorem engineTake_ok (q : List Instr) (bs : List Byte) (s : State) (hok : Ok q (kept s)) : Ok q (kept (engineTake bs s)) := by
  unfold engineTake
  repeat' first
    | with_reducible assumption
    | simp -proj only [↓mk_kept, kept_eta, ↓ite_kept, bootFail_kept]
    | with_reducible apply imageLoad_ok
    | with_reducible apply lateWrites_ok
    | (with_reducible refine ok_ite (fun h' => ?_) ?_)
    | split

theorem bootReads_kept (ofs : ℕ) (n : ℕ) (s : State) : kept (bootReads ofs n s) = kept s := by
  simp -proj only [bootReads, ↓ite_kept, ite_self, emit_kept]

theorem engineImageLoad_ok (q : List Instr) (src : Fetch) (s : State) (hok : Ok q (kept s)) : Ok q (kept (engineImageLoad src s)) := by
  unfold engineImageLoad
  repeat' first
    | with_reducible assumption
    | simp -proj only [↓mk_kept, kept_eta, ↓ite_kept, bootError_kept, bootReads_kept]
    | with_reducible apply engineTake_ok
    | with_reducible apply imageLoad_ok
    | (with_reducible refine ok_ite (fun h' => ?_) ?_)
    | split

theorem trimLoad_kept (s : State) : kept (trimLoad s) = kept s := by
  simp -proj only [trimLoad, ↓ite_kept, ite_self, trimPut_kept, report_kept]

theorem firmwareLoad_ok (q : List Instr) (src : Fetch) (s : State) (hok : Ok q (kept s)) : Ok q (kept (firmwareLoad src s)) := by
  unfold firmwareLoad
  repeat' first
    | with_reducible assumption
    | simp -proj only [↓mk_kept, kept_eta, ↓ite_kept, bootError_kept, bootReads_kept]
    | with_reducible apply writeBytes_ok
    | (with_reducible refine ok_ite (fun h' => ?_) ?_)
    | split

theorem portStep_kept (s : State) : kept (portStep s) = kept s := by
  unfold portStep
  repeat' first
    | with_reducible rfl
    | simp -proj only [↓mk_kept, kept_eta, ↓ite_kept, ite_self, portRelease_kept, pdmRelease_kept]
    | split
    | (with_reducible refine (foldl_kept _ _ _ ?_).trans ?_)
    | (intro x)

theorem keelStep_kept (s : State) : kept (keelStep s) = kept s := by
  simp -proj only [keelStep, ↓mk_kept, kept_eta, trimPut_kept]

theorem releaseLogs_kept (s : State) : kept (releaseLogs s) = kept s := by
  simp -proj only [releaseLogs, ↓mk_kept, kept_eta, ↓ite_kept, ite_self, reportI_kept, report_kept, causeLog_kept]

theorem identity_kept (s : State) : kept (identity s) = kept s := by
  simp -proj only [identity, ↓mk_kept, kept_eta, ↓ite_kept, ite_self]

theorem scStep_kept (x : Straps) (s : State) : kept (scStep x s) = kept s := by
  simp -proj only [scStep, ↓mk_kept, kept_eta, ↓ite_kept, ite_self, releaseLogs_kept, identity_kept, setReg_kept, report_kept, trimLoad_kept, bootFail_kept]

theorem memStep_kept (fail : ℕ) (s : State) : kept (memStep fail s) = kept s := by
  simp -proj only [memStep, ↓mk_kept, kept_eta, ↓ite_kept, ite_self, loadRepairs_kept, dramStep_kept]

theorem resetRelease_ok (q : List Instr) (x : ReleaseIn) (s : State) (hok : Ok q (kept s)) : Ok q (kept (resetRelease x s)) := by
  unfold resetRelease
  repeat' first
    | with_reducible assumption
    | simp -proj only [↓mk_kept, kept_eta, ↓ite_kept, ite_self, keelStep_kept, scStep_kept, memStep_kept, portStep_kept]
    | with_reducible apply timeStep5_ok
    | (with_reducible refine ok_ite (fun h' => ?_) ?_)
    | split

theorem wakeRetain_kept (s : State) : kept (wakeRetain s) = kept s := by
  simp -proj only [wakeRetain, ↓mk_kept, kept_eta, ↓ite_kept, ite_self, orReg_kept]

theorem wakeUp_ok (q : List Instr) (s : State) (hok : Ok q (kept s)) : Ok q (kept (wakeUp s)) := by
  unfold wakeUp
  repeat' first
    | with_reducible assumption
    | simp -proj only [wakeRetain_kept]
    | with_reducible apply sysAssert_ok
    | (with_reducible refine ok_ite (fun h' => ?_) ?_)
    | split

theorem retCopyOut_ok (q : List Instr) (s : State) (hok : Ok q (kept s)) : Ok q (kept (retCopyOut s)) := by
  unfold retCopyOut
  refine writeBytes_ok q _ _ _ ?_
  simp -proj only [↓mk_kept]
  exact ⟨hok.queue, cellsPut_moved_wf (cellsPut_moved_wf hok.mem hok.mem) hok.mem, hok.stage⟩

theorem retainEnter_ok (q : List Instr) (s : State) (hok : Ok q (kept s)) : Ok q (kept (retainEnter s)) := by
  unfold retainEnter
  repeat' first
    | with_reducible assumption
    | simp -proj only [↓mk_kept, kept_eta, ↓ite_kept]
    | with_reducible apply retOff_ok
    | with_reducible apply retCopyOut_ok
    | (with_reducible refine ok_ite (fun h' => ?_) ?_)
    | split

theorem hostAttr_kept (b : Burst) (s : State) : kept (hostAttr b s).1 = kept s := by
  simp -proj only [hostAttr, ↓ite_kept, ite_fst, fst_mk, ite_self, setReg_kept]

theorem noteBurst_kept (b : Burst) (s : State) : kept (noteBurst b s) = kept s := by
  unfold noteBurst
  repeat' first
    | with_reducible rfl
    | simp -proj only [↓mk_kept, kept_eta]
    | split

theorem lockTake_kept (b : Burst) (s : State) : kept (lockTake b s).1 = kept s := by
  unfold lockTake
  repeat' first
    | with_reducible rfl
    | simp -proj only [↓mk_kept, kept_eta, ↓ite_kept, ite_fst, fst_mk, ite_self]
    | split

theorem regBurst_ok (q : List Instr) (b : Burst) (s : State) (hok : Ok q (kept s)) : Ok q (kept (regBurst b s).s) := by
  unfold regBurst
  repeat' first
    | with_reducible assumption
    | simp -proj only [↓ite_kept, ite_ans, ans_mk, regRead_kept]
    | with_reducible apply regWrite_ok
    | (with_reducible refine ok_ite (fun h' => ?_) ?_)
    | split

theorem targetServe_ok (q : List Instr) (b : Burst) (s : State) (hok : Ok q (kept s)) : Ok q (kept (targetServe b s).1.s) := by
  unfold targetServe
  repeat' first
    | with_reducible assumption
    | simp -proj only [↓ite_kept, ite_fst, fst_mk, ite_ans]
    | with_reducible apply regBurst_ok
    | with_reducible apply memServe_ok
    | (with_reducible refine ok_ite (fun h' => ?_) ?_)
    | split

theorem freeLocks_kept (m : Master) (s : State) : kept (freeLocks m s) = kept s := by
  simp -proj only [freeLocks, ↓mk_kept, kept_eta]

theorem endSequence_kept (b : Burst) (lock : Bool) (s : State) : kept (endSequence b lock s) = kept s := by
  simp -proj only [endSequence, ↓ite_kept, ite_self, freeLocks_kept]

theorem lockServe_ok (q : List Instr) (b : Burst) (lock : Bool) (s : State) (hok : Ok q (kept s)) : Ok q (kept (lockServe b lock s).1.s) := by
  unfold lockServe
  repeat' first
    | with_reducible assumption
    | simp -proj only [↓ite_kept, ite_fst, ite_snd, fst_mk, snd_mk, ite_ans, ans_mk, ite_self, lockTake_kept, endSequence_kept]
    | with_reducible apply targetServe_ok
    | (with_reducible refine ok_ite (fun h' => ?_) ?_)
    | split

theorem busServe_ok (q : List Instr) (b : Burst) (s : State) (hok : Ok q (kept s)) : Ok q (kept (busServe b s).1.s) := by
  unfold busServe
  repeat' first
    | with_reducible assumption
    | simp -proj only [↓ite_kept, ite_fst, fst_mk, ite_ans, ans_mk, decodeBurst_kept, hostAttr_kept, noteBurst_kept, granted_kept]
    | with_reducible apply lockServe_ok
    | (with_reducible refine ok_ite (fun h' => ?_) ?_)
    | split

theorem hostNote_kept (b : Burst) (resp : BitVec 2) (s : State) : kept (hostNote b resp s) = kept s := by
  simp -proj only [hostNote, ↓mk_kept, kept_eta, ↓ite_kept, ite_self, orReg_kept]

theorem hostWrites_ok (q : List Instr) (ps : List HostPiece) (s : State) (hok : Ok q (kept s)) : Ok q (kept (hostWrites ps s)) := by
  unfold hostWrites
  repeat' first
    | with_reducible assumption
    | simp -proj only [hostNote_kept]
    | with_reducible apply busServe_ok
    | (with_reducible refine ok_ite (fun h' => ?_) ?_)
    | split
    | (with_reducible refine foldl_ok _ _ _ ?_ ?_)
    | intro

theorem spiWrite_ok (q : List Instr) (addr : BitVec 36) (bs : List Byte) (s : State) (hok : Ok q (kept s)) : Ok q (kept (spiWrite addr bs s)) := by
  unfold spiWrite
  repeat' first
    | with_reducible assumption
    | simp -proj only [↓mk_kept, kept_eta]
    | with_reducible apply hostWrites_ok

theorem fabricBurst_ok (q : List Instr) (b : Burst) (s : State) (hok : Ok q (kept s)) : Ok q (kept (fabricBurst b s)) := by
  unfold fabricBurst
  repeat' first
    | with_reducible assumption
    | simp -proj only [↓ite_kept, ite_self, emit_kept, hostNote_kept]
    | with_reducible apply busServe_ok

theorem registerWrite_ok (q : List Instr) (m : Master) (off : ℕ) (v : Word) (s : State) (hok : Ok q (kept s)) : Ok q (kept (registerWrite m off v s)) := by
  unfold registerWrite
  repeat' first
    | with_reducible assumption
    | simp -proj only [↓ite_kept]
    | with_reducible apply fabricBurst_ok
    | (with_reducible refine ok_ite (fun h' => ?_) ?_)
    | split

theorem snapshotRead_ok (q : List Instr) (m : Master) (a : ℕ) (s : State) (hok : Ok q (kept s)) : Ok q (kept (snapshotRead m a s)) := by
  unfold snapshotRead
  repeat' first
    | with_reducible assumption
    | simp -proj only [emit_kept, hostNote_kept]
    | with_reducible apply busServe_ok

theorem pcieWrite_ok (q : List Instr) (bar2 : Bool) (off : ℕ) (bs : List (Option Byte)) (s : State) (hok : Ok q (kept s)) : Ok q (kept (pcieWrite bar2 off bs s)) := by
  unfold pcieWrite
  repeat' first
    | with_reducible assumption
    | simp -proj only [↓ite_kept]
    | with_reducible apply hostWrites_ok
    | (with_reducible refine ok_ite (fun h' => ?_) ?_)
    | split

theorem hostReads_ok (q : List Instr) (ps : List HostPiece) (s : State) (hok : Ok q (kept s)) : Ok q (kept (hostReads ps s).s) := by
  unfold hostReads
  refine foldl_state (π := ReadRun.s) (P := fun s => Ok q (kept s)) _ _ _ (fun r p h => ?_) hok
  simp -proj only [run_mk, hostNote_kept]
  exact busServe_ok q _ _ h

theorem pcieRead_ok (q : List Instr) (bar2 : Bool) (off : ℕ) (n : ℕ) (s : State) (hok : Ok q (kept s)) : Ok q (kept (pcieRead bar2 off n s)) := by
  unfold pcieRead
  repeat' first
    | with_reducible assumption
    | simp -proj only [↓ite_kept, ite_self, emit_kept]
    | with_reducible apply hostReads_ok
    | (with_reducible refine ok_ite (fun h' => ?_) ?_)
    | split

theorem spiRead_ok (q : List Instr) (addr : BitVec 36) (n : ℕ) (s : State) (hok : Ok q (kept s)) : Ok q (kept (spiRead addr n s)) := by
  unfold spiRead
  repeat' first
    | with_reducible assumption
    | simp -proj only [↓mk_kept, kept_eta, emit_kept]
    | with_reducible apply hostReads_ok

theorem busDo_ok (q : List Instr) (i : Instr) (s : State) (hok : Ok q (kept s)) : Ok q (kept (busDo i s)) := by
  unfold busDo
  repeat' first
    | with_reducible assumption
    | simp -proj only [↓mk_kept, kept_eta, ↓ite_kept, ite_fst, ite_snd, fst_mk, snd_mk, ite_ans, ans_mk, ite_run, run_mk, ite_slice, slice_mk, ite_ovr, ovr_mk, id_eq, ite_self]
    | with_reducible apply fabricBurst_ok
    | with_reducible apply registerWrite_ok
    | with_reducible apply snapshotRead_ok
    | with_reducible apply pcieWrite_ok
    | with_reducible apply pcieRead_ok
    | with_reducible apply spiWrite_ok
    | with_reducible apply spiRead_ok
    | (with_reducible refine ok_ite (fun h' => ?_) ?_)
    | split

theorem busRun_ok (q : List Instr) (i : Instr) (s : State) (hok : Ok q (kept s)) : Ok q (kept (busRun i s)) := by
  unfold busRun
  repeat' first
    | with_reducible assumption
    | simp -proj only [↓mk_kept, kept_eta, ↓ite_kept]
    | with_reducible apply busDo_ok
    | (with_reducible refine ok_ite (fun h' => ?_) ?_)
    | split

theorem collidedEnd_kept (b : Burst) (resp : BitVec 2) (s : State) : kept (collidedEnd b resp s) = kept s := by
  simp -proj only [collidedEnd, emit_kept, hostNote_kept, endSequence_kept]

theorem pcieUp_kept (speed : BitVec 4) (width : BitVec 3) (s : State) : kept (pcieUp speed width s) = kept s := by
  simp -proj only [pcieUp, ↓mk_kept, kept_eta, ↓ite_kept, ite_self]

theorem busPerform_ok (q : List Instr) (b : Burst) (s : State) (hok : Ok q (kept s)) : Ok q (kept (busPerform b s)) := by
  unfold busPerform
  repeat' first
    | with_reducible assumption
    | simp -proj only [↓mk_kept, kept_eta, ↓ite_kept, ite_fst, ite_snd, fst_mk, snd_mk, ite_ans, ans_mk, ite_run, run_mk, ite_slice, slice_mk, ite_ovr, ovr_mk, id_eq, ite_self]
    | with_reducible apply busServe_ok

theorem fabTimeout_ok (q : List Instr) (b : Burst) (s : State) (hok : Ok q (kept s)) : Ok q (kept (fabTimeout b s)) := by
  unfold fabTimeout
  repeat' first
    | with_reducible assumption
    | simp -proj only [↓mk_kept, kept_eta, ↓ite_kept, granted_kept, detect_kept, fabCapture_kept, orReg_kept, endSequence_kept, emit_kept, hostNote_kept]
    | with_reducible apply targetServe_ok
    | (with_reducible refine ok_ite (fun h' => ?_) ?_)
    | split

theorem waitPass_ok (q : List Instr) (s : State) (hok : Ok q (kept s)) : Ok q (kept (waitPass s)) := by
  unfold waitPass
  repeat' first
    | with_reducible assumption
    | simp -proj only [↓mk_kept, kept_eta]
    | with_reducible apply busDo_ok
    | (with_reducible refine ok_ite (fun h' => ?_) ?_)
    | split

theorem spiStatus_kept (s : State) : kept (spiStatus s) = kept s := by
  simp -proj only [spiStatus, ↓mk_kept, kept_eta, ↓ite_kept, ite_self, emit_kept]

theorem runWaiting_ok (q : List Instr) (s : State) (hok : Ok q (kept s)) : Ok q (kept (runWaiting s)) := by
  unfold runWaiting
  repeat' first
    | with_reducible assumption
    | simp -proj only [↓mk_kept, kept_eta, ↓ite_kept, ite_fst, ite_snd, fst_mk, snd_mk, ite_ans, ans_mk, ite_run, run_mk, ite_slice, slice_mk, ite_ovr, ovr_mk, id_eq, ite_self]
    | with_reducible apply waitPass_ok
    | (with_reducible refine ok_ite (fun h' => ?_) ?_)
    | split
    | (with_reducible refine foldl_ok _ _ _ ?_ ?_)
    | intro

theorem endpointPulse_ok (q : List Instr) (bits : Word) (prog : Option Burst) (s : State) (hok : Ok q (kept s)) : Ok q (kept (endpointPulse bits prog s)) := by
  unfold endpointPulse
  repeat' first
    | with_reducible assumption
    | simp -proj only [↓ite_kept]
    | with_reducible apply endpointReset_ok
    | with_reducible apply busPerform_ok
    | (with_reducible refine ok_ite (fun h' => ?_) ?_)
    | split

theorem fabLockTmo_kept (t : ℕ) (s : State) : kept (fabLockTmo t s) = kept s := by
  unfold fabLockTmo
  repeat' first
    | with_reducible rfl
    | simp -proj only [↓mk_kept, kept_eta, ↓ite_kept, ite_self, detect_kept, fabCapture_kept, orReg_kept, setReg_kept]
    | split

theorem collidedRetry_ok (q : List Instr) (still : Bool) (s : State) (hok : Ok q (kept s)) : Ok q (kept (collidedRetry still s)) := by
  unfold collidedRetry
  repeat' first
    | with_reducible assumption
    | simp -proj only [↓mk_kept, kept_eta, ↓ite_kept, ite_self, collidedEnd_kept, collideCheck_kept]
    | with_reducible apply writePerform_ok
    | (with_reducible refine ok_ite (fun h' => ?_) ?_)
    | split

theorem hostLockWrite_kept (v : Word) (s : State) : kept (hostLockWrite v s) = kept s := by
  simp -proj only [hostLockWrite, setReg_kept]

theorem pcieConfig_kept (power : Option (BitVec 2)) (s : State) : kept (pcieConfig power s) = kept s := by
  simp -proj only [pcieConfig, ↓mk_kept, kept_eta, ↓ite_kept, ite_self, emit_kept]

theorem spiReadFrame_ok (q : List Instr) (addr : BitVec 36) (len : ℕ) (s : State) (hok : Ok q (kept s)) : Ok q (kept (spiReadFrame addr len s)) := by
  unfold spiReadFrame
  repeat' first
    | with_reducible assumption
    | simp -proj only [↓ite_kept]
    | with_reducible apply busRun_ok
    | (with_reducible refine ok_ite (fun h' => ?_) ?_)
    | split

theorem spiWriteFrame_ok (q : List Instr) (addr : BitVec 36) (bytes : List Byte) (s : State) (hok : Ok q (kept s)) : Ok q (kept (spiWriteFrame addr bytes s)) := by
  unfold spiWriteFrame
  repeat' first
    | with_reducible assumption
    | simp -proj only [↓mk_kept, kept_eta, ↓ite_kept]
    | with_reducible apply busRun_ok
    | (with_reducible refine ok_ite (fun h' => ?_) ?_)
    | split

end Sys2Proof.Machine
end

