-- ==== Sys2Proof/Laws/KeptExec.lean ====
section
/-! SUPPORT. Every command leaves the queue alone and keeps the canonical form of the memories (Laws/Kept.lean). -/

namespace Sys2Proof.Machine

theorem execCatchStroke_ok (q : List Instr) (t : Time) (ratios : List (ℕ × Word)) (pdm : List (ℕ × PdmIn)) (s : State) (s' : State) (hok : Ok q (kept s)) (hx : execCatchStroke t ratios pdm s = .next s') : Ok q (kept s') := by
  refine done_ok q _ s' ?_ hx
  repeat' first
    | with_reducible assumption
    | simp -proj only []
    | with_reducible apply catchUp_ok

theorem execSliceDone_ok (q : List Instr)  (sl : SliceId) (cycles : ℕ) (s : State) (s' : State) (hok : Ok q (kept s)) (hx : execSliceDone sl cycles s = .next s') : Ok q (kept s') := by
  refine done_ok q _ s' ?_ hx
  repeat' first
    | with_reducible assumption
    | simp -proj only [↓mk_kept, kept_eta, ↓ite_kept, ite_fst, ite_snd, fst_mk, snd_mk, ite_ans, ans_mk, ite_run, run_mk, ite_slice, slice_mk, ite_ovr, ovr_mk, id_eq, ite_self]
    | with_reducible apply sliceDone_ok

theorem execOverrunSinkRecover_ok (q : List Instr)  (entry : ℕ) (s : State) (s' : State) (hok : Ok q (kept s)) (hx : execOverrunSinkRecover entry s = .next s') : Ok q (kept s') := by
  refine done_ok q _ s' ?_ hx
  repeat' first
    | with_reducible assumption
    | simp -proj only [sinkRecover_kept]

theorem execCallDb_ok (q : List Instr)  (_m : Master) (v : Word) (s : State) (s' : State) (hok : Ok q (kept s)) (hx : execCallDb _m v s = .next s') : Ok q (kept s') := by
  refine done_ok q _ s' ?_ hx
  repeat' first
    | with_reducible assumption
    | simp -proj only [callDbWrite_kept]

theorem execCallEnable_ok (q : List Instr)  (m : Master) (v : Word) (s : State) (s' : State) (hok : Ok q (kept s)) (hx : execCallEnable m v s = .next s') : Ok q (kept s') := by
  refine done_ok q _ s' ?_ hx
  repeat' first
    | with_reducible assumption
    | simp -proj only [callEnableWrite_kept]

theorem execCvtConvert_ok (q : List Instr)  (m : Master) (v : Word) (s : State) (s' : State) (hok : Ok q (kept s)) (hx : execCvtConvert m v s = .next s') : Ok q (kept s') := by
  refine done_ok q _ s' ?_ hx
  repeat' first
    | with_reducible assumption
    | simp -proj only [cvtConvert_kept]

theorem execNop_ok (q : List Instr)  (c : CoreId) (f : CSyl) (x : Word) (s : State) (s' : State) (hok : Ok q (kept s)) (hx : execNop c f x s = .next s') : Ok q (kept s') := by
  refine done_ok q _ s' ?_ hx
  repeat' first
    | with_reducible assumption
    | simp -proj only [↓mk_kept, kept_eta, ↓ite_kept, ite_fst, ite_snd, fst_mk, snd_mk, ite_ans, ans_mk, ite_run, run_mk, ite_slice, slice_mk, ite_ovr, ovr_mk, id_eq, ite_self]
    | with_reducible apply runBundle_ok

theorem execMov_ok (q : List Instr)  (c : CoreId) (f : CSyl) (x : Word) (s : State) (s' : State) (hok : Ok q (kept s)) (hx : execMov c f x s = .next s') : Ok q (kept s') := by
  refine done_ok q _ s' ?_ hx
  repeat' first
    | with_reducible assumption
    | simp -proj only [↓mk_kept, kept_eta, ↓ite_kept, ite_fst, ite_snd, fst_mk, snd_mk, ite_ans, ans_mk, ite_run, run_mk, ite_slice, slice_mk, ite_ovr, ovr_mk, id_eq, ite_self]
    | with_reducible apply runBundle_ok

theorem execAdd_ok (q : List Instr)  (c : CoreId) (f : CSyl) (x : Word) (s : State) (s' : State) (hok : Ok q (kept s)) (hx : execAdd c f x s = .next s') : Ok q (kept s') := by
  refine done_ok q _ s' ?_ hx
  repeat' first
    | with_reducible assumption
    | simp -proj only [↓mk_kept, kept_eta, ↓ite_kept, ite_fst, ite_snd, fst_mk, snd_mk, ite_ans, ans_mk, ite_run, run_mk, ite_slice, slice_mk, ite_ovr, ovr_mk, id_eq, ite_self]
    | with_reducible apply runBundle_ok

theorem execAdds_ok (q : List Instr)  (c : CoreId) (f : CSyl) (x : Word) (s : State) (s' : State) (hok : Ok q (kept s)) (hx : execAdds c f x s = .next s') : Ok q (kept s') := by
  refine done_ok q _ s' ?_ hx
  repeat' first
    | with_reducible assumption
    | simp -proj only [↓mk_kept, kept_eta, ↓ite_kept, ite_fst, ite_snd, fst_mk, snd_mk, ite_ans, ans_mk, ite_run, run_mk, ite_slice, slice_mk, ite_ovr, ovr_mk, id_eq, ite_self]
    | with_reducible apply runBundle_ok

theorem execSub_ok (q : List Instr)  (c : CoreId) (f : CSyl) (x : Word) (s : State) (s' : State) (hok : Ok q (kept s)) (hx : execSub c f x s = .next s') : Ok q (kept s') := by
  refine done_ok q _ s' ?_ hx
  repeat' first
    | with_reducible assumption
    | simp -proj only [↓mk_kept, kept_eta, ↓ite_kept, ite_fst, ite_snd, fst_mk, snd_mk, ite_ans, ans_mk, ite_run, run_mk, ite_slice, slice_mk, ite_ovr, ovr_mk, id_eq, ite_self]
    | with_reducible apply runBundle_ok

theorem execSubs_ok (q : List Instr)  (c : CoreId) (f : CSyl) (x : Word) (s : State) (s' : State) (hok : Ok q (kept s)) (hx : execSubs c f x s = .next s') : Ok q (kept s') := by
  refine done_ok q _ s' ?_ hx
  repeat' first
    | with_reducible assumption
    | simp -proj only [↓mk_kept, kept_eta, ↓ite_kept, ite_fst, ite_snd, fst_mk, snd_mk, ite_ans, ans_mk, ite_run, run_mk, ite_slice, slice_mk, ite_ovr, ovr_mk, id_eq, ite_self]
    | with_reducible apply runBundle_ok

theorem execAbss_ok (q : List Instr)  (c : CoreId) (f : CSyl) (x : Word) (s : State) (s' : State) (hok : Ok q (kept s)) (hx : execAbss c f x s = .next s') : Ok q (kept s') := by
  refine done_ok q _ s' ?_ hx
  repeat' first
    | with_reducible assumption
    | simp -proj only [↓mk_kept, kept_eta, ↓ite_kept, ite_fst, ite_snd, fst_mk, snd_mk, ite_ans, ans_mk, ite_run, run_mk, ite_slice, slice_mk, ite_ovr, ovr_mk, id_eq, ite_self]
    | with_reducible apply runBundle_ok

theorem execNegs_ok (q : List Instr)  (c : CoreId) (f : CSyl) (x : Word) (s : State) (s' : State) (hok : Ok q (kept s)) (hx : execNegs c f x s = .next s') : Ok q (kept s') := by
  refine done_ok q _ s' ?_ hx
  repeat' first
    | with_reducible assumption
    | simp -proj only [↓mk_kept, kept_eta, ↓ite_kept, ite_fst, ite_snd, fst_mk, snd_mk, ite_ans, ans_mk, ite_run, run_mk, ite_slice, slice_mk, ite_ovr, ovr_mk, id_eq, ite_self]
    | with_reducible apply runBundle_ok

theorem execAnd_ok (q : List Instr)  (c : CoreId) (f : CSyl) (x : Word) (s : State) (s' : State) (hok : Ok q (kept s)) (hx : execAnd c f x s = .next s') : Ok q (kept s') := by
  refine done_ok q _ s' ?_ hx
  repeat' first
    | with_reducible assumption
    | simp -proj only [↓mk_kept, kept_eta, ↓ite_kept, ite_fst, ite_snd, fst_mk, snd_mk, ite_ans, ans_mk, ite_run, run_mk, ite_slice, slice_mk, ite_ovr, ovr_mk, id_eq, ite_self]
    | with_reducible apply runBundle_ok

theorem execOr_ok (q : List Instr)  (c : CoreId) (f : CSyl) (x : Word) (s : State) (s' : State) (hok : Ok q (kept s)) (hx : execOr c f x s = .next s') : Ok q (kept s') := by
  refine done_ok q _ s' ?_ hx
  repeat' first
    | with_reducible assumption
    | simp -proj only [↓mk_kept, kept_eta, ↓ite_kept, ite_fst, ite_snd, fst_mk, snd_mk, ite_ans, ans_mk, ite_run, run_mk, ite_slice, slice_mk, ite_ovr, ovr_mk, id_eq, ite_self]
    | with_reducible apply runBundle_ok

theorem execXor_ok (q : List Instr)  (c : CoreId) (f : CSyl) (x : Word) (s : State) (s' : State) (hok : Ok q (kept s)) (hx : execXor c f x s = .next s') : Ok q (kept s') := by
  refine done_ok q _ s' ?_ hx
  repeat' first
    | with_reducible assumption
    | simp -proj only [↓mk_kept, kept_eta, ↓ite_kept, ite_fst, ite_snd, fst_mk, snd_mk, ite_ans, ans_mk, ite_run, run_mk, ite_slice, slice_mk, ite_ovr, ovr_mk, id_eq, ite_self]
    | with_reducible apply runBundle_ok

theorem execAndn_ok (q : List Instr)  (c : CoreId) (f : CSyl) (x : Word) (s : State) (s' : State) (hok : Ok q (kept s)) (hx : execAndn c f x s = .next s') : Ok q (kept s') := by
  refine done_ok q _ s' ?_ hx
  repeat' first
    | with_reducible assumption
    | simp -proj only [↓mk_kept, kept_eta, ↓ite_kept, ite_fst, ite_snd, fst_mk, snd_mk, ite_ans, ans_mk, ite_run, run_mk, ite_slice, slice_mk, ite_ovr, ovr_mk, id_eq, ite_self]
    | with_reducible apply runBundle_ok

theorem execShl_ok (q : List Instr)  (c : CoreId) (f : CSyl) (x : Word) (s : State) (s' : State) (hok : Ok q (kept s)) (hx : execShl c f x s = .next s') : Ok q (kept s') := by
  refine done_ok q _ s' ?_ hx
  repeat' first
    | with_reducible assumption
    | simp -proj only [↓mk_kept, kept_eta, ↓ite_kept, ite_fst, ite_snd, fst_mk, snd_mk, ite_ans, ans_mk, ite_run, run_mk, ite_slice, slice_mk, ite_ovr, ovr_mk, id_eq, ite_self]
    | with_reducible apply runBundle_ok

theorem execShr_ok (q : List Instr)  (c : CoreId) (f : CSyl) (x : Word) (s : State) (s' : State) (hok : Ok q (kept s)) (hx : execShr c f x s = .next s') : Ok q (kept s') := by
  refine done_ok q _ s' ?_ hx
  repeat' first
    | with_reducible assumption
    | simp -proj only [↓mk_kept, kept_eta, ↓ite_kept, ite_fst, ite_snd, fst_mk, snd_mk, ite_ans, ans_mk, ite_run, run_mk, ite_slice, slice_mk, ite_ovr, ovr_mk, id_eq, ite_self]
    | with_reducible apply runBundle_ok

theorem execSra_ok (q : List Instr)  (c : CoreId) (f : CSyl) (x : Word) (s : State) (s' : State) (hok : Ok q (kept s)) (hx : execSra c f x s = .next s') : Ok q (kept s') := by
  refine done_ok q _ s' ?_ hx
  repeat' first
    | with_reducible assumption
    | simp -proj only [↓mk_kept, kept_eta, ↓ite_kept, ite_fst, ite_snd, fst_mk, snd_mk, ite_ans, ans_mk, ite_run, run_mk, ite_slice, slice_mk, ite_ovr, ovr_mk, id_eq, ite_self]
    | with_reducible apply runBundle_ok

theorem execShls_ok (q : List Instr)  (c : CoreId) (f : CSyl) (x : Word) (s : State) (s' : State) (hok : Ok q (kept s)) (hx : execShls c f x s = .next s') : Ok q (kept s') := by
  refine done_ok q _ s' ?_ hx
  repeat' first
    | with_reducible assumption
    | simp -proj only [↓mk_kept, kept_eta, ↓ite_kept, ite_fst, ite_snd, fst_mk, snd_mk, ite_ans, ans_mk, ite_run, run_mk, ite_slice, slice_mk, ite_ovr, ovr_mk, id_eq, ite_self]
    | with_reducible apply runBundle_ok

theorem execMin_ok (q : List Instr)  (c : CoreId) (f : CSyl) (x : Word) (s : State) (s' : State) (hok : Ok q (kept s)) (hx : execMin c f x s = .next s') : Ok q (kept s') := by
  refine done_ok q _ s' ?_ hx
  repeat' first
    | with_reducible assumption
    | simp -proj only [↓mk_kept, kept_eta, ↓ite_kept, ite_fst, ite_snd, fst_mk, snd_mk, ite_ans, ans_mk, ite_run, run_mk, ite_slice, slice_mk, ite_ovr, ovr_mk, id_eq, ite_self]
    | with_reducible apply runBundle_ok

theorem execMax_ok (q : List Instr)  (c : CoreId) (f : CSyl) (x : Word) (s : State) (s' : State) (hok : Ok q (kept s)) (hx : execMax c f x s = .next s') : Ok q (kept s') := by
  refine done_ok q _ s' ?_ hx
  repeat' first
    | with_reducible assumption
    | simp -proj only [↓mk_kept, kept_eta, ↓ite_kept, ite_fst, ite_snd, fst_mk, snd_mk, ite_ans, ans_mk, ite_run, run_mk, ite_slice, slice_mk, ite_ovr, ovr_mk, id_eq, ite_self]
    | with_reducible apply runBundle_ok

theorem execSel_ok (q : List Instr)  (c : CoreId) (f : CSyl) (x : Word) (s : State) (s' : State) (hok : Ok q (kept s)) (hx : execSel c f x s = .next s') : Ok q (kept s') := by
  refine done_ok q _ s' ?_ hx
  repeat' first
    | with_reducible assumption
    | simp -proj only [↓mk_kept, kept_eta, ↓ite_kept, ite_fst, ite_snd, fst_mk, snd_mk, ite_ans, ans_mk, ite_run, run_mk, ite_slice, slice_mk, ite_ovr, ovr_mk, id_eq, ite_self]
    | with_reducible apply runBundle_ok

theorem execCmp_ok (q : List Instr)  (c : CoreId) (f : CSyl) (x : Word) (s : State) (s' : State) (hok : Ok q (kept s)) (hx : execCmp c f x s = .next s') : Ok q (kept s') := by
  refine done_ok q _ s' ?_ hx
  repeat' first
    | with_reducible assumption
    | simp -proj only [↓mk_kept, kept_eta, ↓ite_kept, ite_fst, ite_snd, fst_mk, snd_mk, ite_ans, ans_mk, ite_run, run_mk, ite_slice, slice_mk, ite_ovr, ovr_mk, id_eq, ite_self]
    | with_reducible apply runBundle_ok

theorem execCls_ok (q : List Instr)  (c : CoreId) (f : CSyl) (x : Word) (s : State) (s' : State) (hok : Ok q (kept s)) (hx : execCls c f x s = .next s') : Ok q (kept s') := by
  refine done_ok q _ s' ?_ hx
  repeat' first
    | with_reducible assumption
    | simp -proj only [↓mk_kept, kept_eta, ↓ite_kept, ite_fst, ite_snd, fst_mk, snd_mk, ite_ans, ans_mk, ite_run, run_mk, ite_slice, slice_mk, ite_ovr, ovr_mk, id_eq, ite_self]
    | with_reducible apply runBundle_ok

theorem execPlog_ok (q : List Instr)  (c : CoreId) (f : CSyl) (x : Word) (s : State) (s' : State) (hok : Ok q (kept s)) (hx : execPlog c f x s = .next s') : Ok q (kept s') := by
  refine done_ok q _ s' ?_ hx
  repeat' first
    | with_reducible assumption
    | simp -proj only [↓mk_kept, kept_eta, ↓ite_kept, ite_fst, ite_snd, fst_mk, snd_mk, ite_ans, ans_mk, ite_run, run_mk, ite_slice, slice_mk, ite_ovr, ovr_mk, id_eq, ite_self]
    | with_reducible apply runBundle_ok

theorem execMpy_ok (q : List Instr)  (c : CoreId) (f : CSyl) (x : Word) (s : State) (s' : State) (hok : Ok q (kept s)) (hx : execMpy c f x s = .next s') : Ok q (kept s') := by
  refine done_ok q _ s' ?_ hx
  repeat' first
    | with_reducible assumption
    | simp -proj only [↓mk_kept, kept_eta, ↓ite_kept, ite_fst, ite_snd, fst_mk, snd_mk, ite_ans, ans_mk, ite_run, run_mk, ite_slice, slice_mk, ite_ovr, ovr_mk, id_eq, ite_self]
    | with_reducible apply runBundle_ok

theorem execMpyi_ok (q : List Instr)  (c : CoreId) (f : CSyl) (x : Word) (s : State) (s' : State) (hok : Ok q (kept s)) (hx : execMpyi c f x s = .next s') : Ok q (kept s') := by
  refine done_ok q _ s' ?_ hx
  repeat' first
    | with_reducible assumption
    | simp -proj only [↓mk_kept, kept_eta, ↓ite_kept, ite_fst, ite_snd, fst_mk, snd_mk, ite_ans, ans_mk, ite_run, run_mk, ite_slice, slice_mk, ite_ovr, ovr_mk, id_eq, ite_self]
    | with_reducible apply runBundle_ok

theorem execMpa_ok (q : List Instr)  (c : CoreId) (f : CSyl) (x : Word) (s : State) (s' : State) (hok : Ok q (kept s)) (hx : execMpa c f x s = .next s') : Ok q (kept s') := by
  refine done_ok q _ s' ?_ hx
  repeat' first
    | with_reducible assumption
    | simp -proj only [↓mk_kept, kept_eta, ↓ite_kept, ite_fst, ite_snd, fst_mk, snd_mk, ite_ans, ans_mk, ite_run, run_mk, ite_slice, slice_mk, ite_ovr, ovr_mk, id_eq, ite_self]
    | with_reducible apply runBundle_ok

theorem execMac_ok (q : List Instr)  (c : CoreId) (f : CSyl) (x : Word) (s : State) (s' : State) (hok : Ok q (kept s)) (hx : execMac c f x s = .next s') : Ok q (kept s') := by
  refine done_ok q _ s' ?_ hx
  repeat' first
    | with_reducible assumption
    | simp -proj only [↓mk_kept, kept_eta, ↓ite_kept, ite_fst, ite_snd, fst_mk, snd_mk, ite_ans, ans_mk, ite_run, run_mk, ite_slice, slice_mk, ite_ovr, ovr_mk, id_eq, ite_self]
    | with_reducible apply runBundle_ok

theorem execMsu_ok (q : List Instr)  (c : CoreId) (f : CSyl) (x : Word) (s : State) (s' : State) (hok : Ok q (kept s)) (hx : execMsu c f x s = .next s') : Ok q (kept s') := by
  refine done_ok q _ s' ?_ hx
  repeat' first
    | with_reducible assumption
    | simp -proj only [↓mk_kept, kept_eta, ↓ite_kept, ite_fst, ite_snd, fst_mk, snd_mk, ite_ans, ans_mk, ite_run, run_mk, ite_slice, slice_mk, ite_ovr, ovr_mk, id_eq, ite_self]
    | with_reducible apply runBundle_ok

theorem execMacsu_ok (q : List Instr)  (c : CoreId) (f : CSyl) (x : Word) (s : State) (s' : State) (hok : Ok q (kept s)) (hx : execMacsu c f x s = .next s') : Ok q (kept s') := by
  refine done_ok q _ s' ?_ hx
  repeat' first
    | with_reducible assumption
    | simp -proj only [↓mk_kept, kept_eta, ↓ite_kept, ite_fst, ite_snd, fst_mk, snd_mk, ite_ans, ans_mk, ite_run, run_mk, ite_slice, slice_mk, ite_ovr, ovr_mk, id_eq, ite_self]
    | with_reducible apply runBundle_ok

theorem execMva_ok (q : List Instr)  (c : CoreId) (f : CSyl) (x : Word) (s : State) (s' : State) (hok : Ok q (kept s)) (hx : execMva c f x s = .next s') : Ok q (kept s') := by
  refine done_ok q _ s' ?_ hx
  repeat' first
    | with_reducible assumption
    | simp -proj only [↓mk_kept, kept_eta, ↓ite_kept, ite_fst, ite_snd, fst_mk, snd_mk, ite_ans, ans_mk, ite_run, run_mk, ite_slice, slice_mk, ite_ovr, ovr_mk, id_eq, ite_self]
    | with_reducible apply runBundle_ok

theorem execMva4_ok (q : List Instr)  (c : CoreId) (f : CSyl) (x : Word) (s : State) (s' : State) (hok : Ok q (kept s)) (hx : execMva4 c f x s = .next s') : Ok q (kept s') := by
  refine done_ok q _ s' ?_ hx
  repeat' first
    | with_reducible assumption
    | simp -proj only [↓mk_kept, kept_eta, ↓ite_kept, ite_fst, ite_snd, fst_mk, snd_mk, ite_ans, ans_mk, ite_run, run_mk, ite_slice, slice_mk, ite_ovr, ovr_mk, id_eq, ite_self]
    | with_reducible apply runBundle_ok

theorem execClra_ok (q : List Instr)  (c : CoreId) (f : CSyl) (x : Word) (s : State) (s' : State) (hok : Ok q (kept s)) (hx : execClra c f x s = .next s') : Ok q (kept s') := by
  refine done_ok q _ s' ?_ hx
  repeat' first
    | with_reducible assumption
    | simp -proj only [↓mk_kept, kept_eta, ↓ite_kept, ite_fst, ite_snd, fst_mk, snd_mk, ite_ans, ans_mk, ite_run, run_mk, ite_slice, slice_mk, ite_ovr, ovr_mk, id_eq, ite_self]
    | with_reducible apply runBundle_ok

theorem execLda_ok (q : List Instr)  (c : CoreId) (f : CSyl) (x : Word) (s : State) (s' : State) (hok : Ok q (kept s)) (hx : execLda c f x s = .next s') : Ok q (kept s') := by
  refine done_ok q _ s' ?_ hx
  repeat' first
    | with_reducible assumption
    | simp -proj only [↓mk_kept, kept_eta, ↓ite_kept, ite_fst, ite_snd, fst_mk, snd_mk, ite_ans, ans_mk, ite_run, run_mk, ite_slice, slice_mk, ite_ovr, ovr_mk, id_eq, ite_self]
    | with_reducible apply runBundle_ok

theorem execAcmb_ok (q : List Instr)  (c : CoreId) (f : CSyl) (x : Word) (s : State) (s' : State) (hok : Ok q (kept s)) (hx : execAcmb c f x s = .next s') : Ok q (kept s') := by
  refine done_ok q _ s' ?_ hx
  repeat' first
    | with_reducible assumption
    | simp -proj only [↓mk_kept, kept_eta, ↓ite_kept, ite_fst, ite_snd, fst_mk, snd_mk, ite_ans, ans_mk, ite_run, run_mk, ite_slice, slice_mk, ite_ovr, ovr_mk, id_eq, ite_self]
    | with_reducible apply runBundle_ok

theorem execSha_ok (q : List Instr)  (c : CoreId) (f : CSyl) (x : Word) (s : State) (s' : State) (hok : Ok q (kept s)) (hx : execSha c f x s = .next s') : Ok q (kept s') := by
  refine done_ok q _ s' ?_ hx
  repeat' first
    | with_reducible assumption
    | simp -proj only [↓mk_kept, kept_eta, ↓ite_kept, ite_fst, ite_snd, fst_mk, snd_mk, ite_ans, ans_mk, ite_run, run_mk, ite_slice, slice_mk, ite_ovr, ovr_mk, id_eq, ite_self]
    | with_reducible apply runBundle_ok

theorem execMvar_ok (q : List Instr)  (c : CoreId) (f : CSyl) (x : Word) (s : State) (s' : State) (hok : Ok q (kept s)) (hx : execMvar c f x s = .next s') : Ok q (kept s') := by
  refine done_ok q _ s' ?_ hx
  repeat' first
    | with_reducible assumption
    | simp -proj only [↓mk_kept, kept_eta, ↓ite_kept, ite_fst, ite_snd, fst_mk, snd_mk, ite_ans, ans_mk, ite_run, run_mk, ite_slice, slice_mk, ite_ovr, ovr_mk, id_eq, ite_self]
    | with_reducible apply runBundle_ok

theorem execSetar_ok (q : List Instr)  (c : CoreId) (f : CSyl) (x : Word) (s : State) (s' : State) (hok : Ok q (kept s)) (hx : execSetar c f x s = .next s') : Ok q (kept s') := by
  refine done_ok q _ s' ?_ hx
  repeat' first
    | with_reducible assumption
    | simp -proj only [↓mk_kept, kept_eta, ↓ite_kept, ite_fst, ite_snd, fst_mk, snd_mk, ite_ans, ans_mk, ite_run, run_mk, ite_slice, slice_mk, ite_ovr, ovr_mk, id_eq, ite_self]
    | with_reducible apply runBundle_ok

theorem execBexp_ok (q : List Instr)  (c : CoreId) (f : CSyl) (x : Word) (s : State) (s' : State) (hok : Ok q (kept s)) (hx : execBexp c f x s = .next s') : Ok q (kept s') := by
  refine done_ok q _ s' ?_ hx
  repeat' first
    | with_reducible assumption
    | simp -proj only [↓mk_kept, kept_eta, ↓ite_kept, ite_fst, ite_snd, fst_mk, snd_mk, ite_ans, ans_mk, ite_run, run_mk, ite_slice, slice_mk, ite_ovr, ovr_mk, id_eq, ite_self]
    | with_reducible apply runBundle_ok

theorem execZxarm_ok (q : List Instr)  (c : CoreId) (f : CSyl) (x : Word) (s : State) (s' : State) (hok : Ok q (kept s)) (hx : execZxarm c f x s = .next s') : Ok q (kept s') := by
  refine done_ok q _ s' ?_ hx
  repeat' first
    | with_reducible assumption
    | simp -proj only [↓mk_kept, kept_eta, ↓ite_kept, ite_fst, ite_snd, fst_mk, snd_mk, ite_ans, ans_mk, ite_run, run_mk, ite_slice, slice_mk, ite_ovr, ovr_mk, id_eq, ite_self]
    | with_reducible apply runBundle_ok

theorem execZxstep_ok (q : List Instr)  (c : CoreId) (f : CSyl) (x : Word) (s : State) (s' : State) (hok : Ok q (kept s)) (hx : execZxstep c f x s = .next s') : Ok q (kept s') := by
  refine done_ok q _ s' ?_ hx
  repeat' first
    | with_reducible assumption
    | simp -proj only [↓mk_kept, kept_eta, ↓ite_kept, ite_fst, ite_snd, fst_mk, snd_mk, ite_ans, ans_mk, ite_run, run_mk, ite_slice, slice_mk, ite_ovr, ovr_mk, id_eq, ite_self]
    | with_reducible apply runBundle_ok

theorem execCsrr_ok (q : List Instr)  (c : CoreId) (f : CSyl) (x : Word) (s : State) (s' : State) (hok : Ok q (kept s)) (hx : execCsrr c f x s = .next s') : Ok q (kept s') := by
  refine done_ok q _ s' ?_ hx
  repeat' first
    | with_reducible assumption
    | simp -proj only [↓mk_kept, kept_eta, ↓ite_kept, ite_fst, ite_snd, fst_mk, snd_mk, ite_ans, ans_mk, ite_run, run_mk, ite_slice, slice_mk, ite_ovr, ovr_mk, id_eq, ite_self]
    | with_reducible apply runBundle_ok

theorem execCsrw_ok (q : List Instr)  (c : CoreId) (f : CSyl) (x : Word) (s : State) (s' : State) (hok : Ok q (kept s)) (hx : execCsrw c f x s = .next s') : Ok q (kept s') := by
  refine done_ok q _ s' ?_ hx
  repeat' first
    | with_reducible assumption
    | simp -proj only [↓mk_kept, kept_eta, ↓ite_kept, ite_fst, ite_snd, fst_mk, snd_mk, ite_ans, ans_mk, ite_run, run_mk, ite_slice, slice_mk, ite_ovr, ovr_mk, id_eq, ite_self]
    | with_reducible apply runBundle_ok

theorem execBr_ok (q : List Instr)  (c : CoreId) (f : CSyl) (x : Word) (s : State) (s' : State) (hok : Ok q (kept s)) (hx : execBr c f x s = .next s') : Ok q (kept s') := by
  refine done_ok q _ s' ?_ hx
  repeat' first
    | with_reducible assumption
    | simp -proj only [↓mk_kept, kept_eta, ↓ite_kept, ite_fst, ite_snd, fst_mk, snd_mk, ite_ans, ans_mk, ite_run, run_mk, ite_slice, slice_mk, ite_ovr, ovr_mk, id_eq, ite_self]
    | with_reducible apply runBundle_ok

theorem execJmp_ok (q : List Instr)  (c : CoreId) (f : CSyl) (x : Word) (s : State) (s' : State) (hok : Ok q (kept s)) (hx : execJmp c f x s = .next s') : Ok q (kept s') := by
  refine done_ok q _ s' ?_ hx
  repeat' first
    | with_reducible assumption
    | simp -proj only [↓mk_kept, kept_eta, ↓ite_kept, ite_fst, ite_snd, fst_mk, snd_mk, ite_ans, ans_mk, ite_run, run_mk, ite_slice, slice_mk, ite_ovr, ovr_mk, id_eq, ite_self]
    | with_reducible apply runBundle_ok

theorem execCall_ok (q : List Instr)  (c : CoreId) (f : CSyl) (x : Word) (s : State) (s' : State) (hok : Ok q (kept s)) (hx : execCall c f x s = .next s') : Ok q (kept s') := by
  refine done_ok q _ s' ?_ hx
  repeat' first
    | with_reducible assumption
    | simp -proj only [↓mk_kept, kept_eta, ↓ite_kept, ite_fst, ite_snd, fst_mk, snd_mk, ite_ans, ans_mk, ite_run, run_mk, ite_slice, slice_mk, ite_ovr, ovr_mk, id_eq, ite_self]
    | with_reducible apply runBundle_ok

theorem execRet_ok (q : List Instr)  (c : CoreId) (f : CSyl) (x : Word) (s : State) (s' : State) (hok : Ok q (kept s)) (hx : execRet c f x s = .next s') : Ok q (kept s') := by
  refine done_ok q _ s' ?_ hx
  repeat' first
    | with_reducible assumption
    | simp -proj only [↓mk_kept, kept_eta, ↓ite_kept, ite_fst, ite_snd, fst_mk, snd_mk, ite_ans, ans_mk, ite_run, run_mk, ite_slice, slice_mk, ite_ovr, ovr_mk, id_eq, ite_self]
    | with_reducible apply runBundle_ok

theorem execLoop_ok (q : List Instr)  (c : CoreId) (f : CSyl) (x : Word) (s : State) (s' : State) (hok : Ok q (kept s)) (hx : execLoop c f x s = .next s') : Ok q (kept s') := by
  refine done_ok q _ s' ?_ hx
  repeat' first
    | with_reducible assumption
    | simp -proj only [↓mk_kept, kept_eta, ↓ite_kept, ite_fst, ite_snd, fst_mk, snd_mk, ite_ans, ans_mk, ite_run, run_mk, ite_slice, slice_mk, ite_ovr, ovr_mk, id_eq, ite_self]
    | with_reducible apply runBundle_ok

theorem execBarrier_ok (q : List Instr)  (c : CoreId) (f : CSyl) (x : Word) (s : State) (s' : State) (hok : Ok q (kept s)) (hx : execBarrier c f x s = .next s') : Ok q (kept s') := by
  refine done_ok q _ s' ?_ hx
  repeat' first
    | with_reducible assumption
    | simp -proj only [↓mk_kept, kept_eta, ↓ite_kept, ite_fst, ite_snd, fst_mk, snd_mk, ite_ans, ans_mk, ite_run, run_mk, ite_slice, slice_mk, ite_ovr, ovr_mk, id_eq, ite_self]
    | with_reducible apply runBundle_ok

theorem execBarrierRelease_ok (q : List Instr)  (crew : CrewId) (k : Fin 8) (s : State) (s' : State) (hok : Ok q (kept s)) (hx : execBarrierRelease crew k s = .next s') : Ok q (kept s') := by
  refine done_ok q _ s' ?_ hx
  repeat' first
    | with_reducible assumption
    | simp -proj only [↓mk_kept, kept_eta, ↓ite_kept, ite_fst, ite_snd, fst_mk, snd_mk, ite_ans, ans_mk, ite_run, run_mk, ite_slice, slice_mk, ite_ovr, ovr_mk, id_eq, ite_self]
    | with_reducible apply barrierRelease_ok

theorem execWaitstroke_ok (q : List Instr)  (c : CoreId) (f : CSyl) (x : Word) (s : State) (s' : State) (hok : Ok q (kept s)) (hx : execWaitstroke c f x s = .next s') : Ok q (kept s') := by
  refine done_ok q _ s' ?_ hx
  repeat' first
    | with_reducible assumption
    | simp -proj only [↓mk_kept, kept_eta, ↓ite_kept, ite_fst, ite_snd, fst_mk, snd_mk, ite_ans, ans_mk, ite_run, run_mk, ite_slice, slice_mk, ite_ovr, ovr_mk, id_eq, ite_self]
    | with_reducible apply runBundle_ok

theorem execCoreSleep_ok (q : List Instr)  (c : CoreId) (cycles : ℕ) (s : State) (s' : State) (hok : Ok q (kept s)) (hx : execCoreSleep c cycles s = .next s') : Ok q (kept s') := by
  refine done_ok q _ s' ?_ hx
  repeat' first
    | with_reducible assumption
    | simp -proj only [coreAsleep_kept]

theorem execTnop_ok (q : List Instr)  (c : CoreId) (f : TSyl) (w : Word) (s : State) (s' : State) (hok : Ok q (kept s)) (hx : execTnop c f w s = .next s') : Ok q (kept s') := by
  refine done_ok q _ s' ?_ hx
  repeat' first
    | with_reducible assumption
    | simp -proj only [↓mk_kept, kept_eta, ↓ite_kept, ite_fst, ite_snd, fst_mk, snd_mk, ite_ans, ans_mk, ite_run, run_mk, ite_slice, slice_mk, ite_ovr, ovr_mk, id_eq, ite_self]
    | with_reducible apply runBundle_ok

theorem execLdP_ok (q : List Instr)  (c : CoreId) (f : TSyl) (w : Word) (s : State) (s' : State) (hok : Ok q (kept s)) (hx : execLdP c f w s = .next s') : Ok q (kept s') := by
  refine done_ok q _ s' ?_ hx
  repeat' first
    | with_reducible assumption
    | simp -proj only [↓mk_kept, kept_eta, ↓ite_kept, ite_fst, ite_snd, fst_mk, snd_mk, ite_ans, ans_mk, ite_run, run_mk, ite_slice, slice_mk, ite_ovr, ovr_mk, id_eq, ite_self]
    | with_reducible apply runBundle_ok

theorem execLdO_ok (q : List Instr)  (c : CoreId) (f : TSyl) (w : Word) (s : State) (s' : State) (hok : Ok q (kept s)) (hx : execLdO c f w s = .next s') : Ok q (kept s') := by
  refine done_ok q _ s' ?_ hx
  repeat' first
    | with_reducible assumption
    | simp -proj only [↓mk_kept, kept_eta, ↓ite_kept, ite_fst, ite_snd, fst_mk, snd_mk, ite_ans, ans_mk, ite_run, run_mk, ite_slice, slice_mk, ite_ovr, ovr_mk, id_eq, ite_self]
    | with_reducible apply runBundle_ok

theorem execLdPo_ok (q : List Instr)  (c : CoreId) (f : TSyl) (w : Word) (s : State) (s' : State) (hok : Ok q (kept s)) (hx : execLdPo c f w s = .next s') : Ok q (kept s') := by
  refine done_ok q _ s' ?_ hx
  repeat' first
    | with_reducible assumption
    | simp -proj only [↓mk_kept, kept_eta, ↓ite_kept, ite_fst, ite_snd, fst_mk, snd_mk, ite_ans, ans_mk, ite_run, run_mk, ite_slice, slice_mk, ite_ovr, ovr_mk, id_eq, ite_self]
    | with_reducible apply runBundle_ok

theorem execLd2P_ok (q : List Instr)  (c : CoreId) (f : TSyl) (w : Word) (s : State) (s' : State) (hok : Ok q (kept s)) (hx : execLd2P c f w s = .next s') : Ok q (kept s') := by
  refine done_ok q _ s' ?_ hx
  repeat' first
    | with_reducible assumption
    | simp -proj only [↓mk_kept, kept_eta, ↓ite_kept, ite_fst, ite_snd, fst_mk, snd_mk, ite_ans, ans_mk, ite_run, run_mk, ite_slice, slice_mk, ite_ovr, ovr_mk, id_eq, ite_self]
    | with_reducible apply runBundle_ok

theorem execLd2O_ok (q : List Instr)  (c : CoreId) (f : TSyl) (w : Word) (s : State) (s' : State) (hok : Ok q (kept s)) (hx : execLd2O c f w s = .next s') : Ok q (kept s') := by
  refine done_ok q _ s' ?_ hx
  repeat' first
    | with_reducible assumption
    | simp -proj only [↓mk_kept, kept_eta, ↓ite_kept, ite_fst, ite_snd, fst_mk, snd_mk, ite_ans, ans_mk, ite_run, run_mk, ite_slice, slice_mk, ite_ovr, ovr_mk, id_eq, ite_self]
    | with_reducible apply runBundle_ok

theorem execLd2Po_ok (q : List Instr)  (c : CoreId) (f : TSyl) (w : Word) (s : State) (s' : State) (hok : Ok q (kept s)) (hx : execLd2Po c f w s = .next s') : Ok q (kept s') := by
  refine done_ok q _ s' ?_ hx
  repeat' first
    | with_reducible assumption
    | simp -proj only [↓mk_kept, kept_eta, ↓ite_kept, ite_fst, ite_snd, fst_mk, snd_mk, ite_ans, ans_mk, ite_run, run_mk, ite_slice, slice_mk, ite_ovr, ovr_mk, id_eq, ite_self]
    | with_reducible apply runBundle_ok

theorem execLd4P_ok (q : List Instr)  (c : CoreId) (f : TSyl) (w : Word) (s : State) (s' : State) (hok : Ok q (kept s)) (hx : execLd4P c f w s = .next s') : Ok q (kept s') := by
  refine done_ok q _ s' ?_ hx
  repeat' first
    | with_reducible assumption
    | simp -proj only [↓mk_kept, kept_eta, ↓ite_kept, ite_fst, ite_snd, fst_mk, snd_mk, ite_ans, ans_mk, ite_run, run_mk, ite_slice, slice_mk, ite_ovr, ovr_mk, id_eq, ite_self]
    | with_reducible apply runBundle_ok

theorem execLd4O_ok (q : List Instr)  (c : CoreId) (f : TSyl) (w : Word) (s : State) (s' : State) (hok : Ok q (kept s)) (hx : execLd4O c f w s = .next s') : Ok q (kept s') := by
  refine done_ok q _ s' ?_ hx
  repeat' first
    | with_reducible assumption
    | simp -proj only [↓mk_kept, kept_eta, ↓ite_kept, ite_fst, ite_snd, fst_mk, snd_mk, ite_ans, ans_mk, ite_run, run_mk, ite_slice, slice_mk, ite_ovr, ovr_mk, id_eq, ite_self]
    | with_reducible apply runBundle_ok

theorem execLd4Po_ok (q : List Instr)  (c : CoreId) (f : TSyl) (w : Word) (s : State) (s' : State) (hok : Ok q (kept s)) (hx : execLd4Po c f w s = .next s') : Ok q (kept s') := by
  refine done_ok q _ s' ?_ hx
  repeat' first
    | with_reducible assumption
    | simp -proj only [↓mk_kept, kept_eta, ↓ite_kept, ite_fst, ite_snd, fst_mk, snd_mk, ite_ans, ans_mk, ite_run, run_mk, ite_slice, slice_mk, ite_ovr, ovr_mk, id_eq, ite_self]
    | with_reducible apply runBundle_ok

theorem execStP_ok (q : List Instr)  (c : CoreId) (f : TSyl) (w : Word) (s : State) (s' : State) (hok : Ok q (kept s)) (hx : execStP c f w s = .next s') : Ok q (kept s') := by
  refine done_ok q _ s' ?_ hx
  repeat' first
    | with_reducible assumption
    | simp -proj only [↓mk_kept, kept_eta, ↓ite_kept, ite_fst, ite_snd, fst_mk, snd_mk, ite_ans, ans_mk, ite_run, run_mk, ite_slice, slice_mk, ite_ovr, ovr_mk, id_eq, ite_self]
    | with_reducible apply runBundle_ok

theorem execStO_ok (q : List Instr)  (c : CoreId) (f : TSyl) (w : Word) (s : State) (s' : State) (hok : Ok q (kept s)) (hx : execStO c f w s = .next s') : Ok q (kept s') := by
  refine done_ok q _ s' ?_ hx
  repeat' first
    | with_reducible assumption
    | simp -proj only [↓mk_kept, kept_eta, ↓ite_kept, ite_fst, ite_snd, fst_mk, snd_mk, ite_ans, ans_mk, ite_run, run_mk, ite_slice, slice_mk, ite_ovr, ovr_mk, id_eq, ite_self]
    | with_reducible apply runBundle_ok

theorem execStPo_ok (q : List Instr)  (c : CoreId) (f : TSyl) (w : Word) (s : State) (s' : State) (hok : Ok q (kept s)) (hx : execStPo c f w s = .next s') : Ok q (kept s') := by
  refine done_ok q _ s' ?_ hx
  repeat' first
    | with_reducible assumption
    | simp -proj only [↓mk_kept, kept_eta, ↓ite_kept, ite_fst, ite_snd, fst_mk, snd_mk, ite_ans, ans_mk, ite_run, run_mk, ite_slice, slice_mk, ite_ovr, ovr_mk, id_eq, ite_self]
    | with_reducible apply runBundle_ok

theorem execSt2P_ok (q : List Instr)  (c : CoreId) (f : TSyl) (w : Word) (s : State) (s' : State) (hok : Ok q (kept s)) (hx : execSt2P c f w s = .next s') : Ok q (kept s') := by
  refine done_ok q _ s' ?_ hx
  repeat' first
    | with_reducible assumption
    | simp -proj only [↓mk_kept, kept_eta, ↓ite_kept, ite_fst, ite_snd, fst_mk, snd_mk, ite_ans, ans_mk, ite_run, run_mk, ite_slice, slice_mk, ite_ovr, ovr_mk, id_eq, ite_self]
    | with_reducible apply runBundle_ok

theorem execSt2O_ok (q : List Instr)  (c : CoreId) (f : TSyl) (w : Word) (s : State) (s' : State) (hok : Ok q (kept s)) (hx : execSt2O c f w s = .next s') : Ok q (kept s') := by
  refine done_ok q _ s' ?_ hx
  repeat' first
    | with_reducible assumption
    | simp -proj only [↓mk_kept, kept_eta, ↓ite_kept, ite_fst, ite_snd, fst_mk, snd_mk, ite_ans, ans_mk, ite_run, run_mk, ite_slice, slice_mk, ite_ovr, ovr_mk, id_eq, ite_self]
    | with_reducible apply runBundle_ok

theorem execSt2Po_ok (q : List Instr)  (c : CoreId) (f : TSyl) (w : Word) (s : State) (s' : State) (hok : Ok q (kept s)) (hx : execSt2Po c f w s = .next s') : Ok q (kept s') := by
  refine done_ok q _ s' ?_ hx
  repeat' first
    | with_reducible assumption
    | simp -proj only [↓mk_kept, kept_eta, ↓ite_kept, ite_fst, ite_snd, fst_mk, snd_mk, ite_ans, ans_mk, ite_run, run_mk, ite_slice, slice_mk, ite_ovr, ovr_mk, id_eq, ite_self]
    | with_reducible apply runBundle_ok

theorem execSt4P_ok (q : List Instr)  (c : CoreId) (f : TSyl) (w : Word) (s : State) (s' : State) (hok : Ok q (kept s)) (hx : execSt4P c f w s = .next s') : Ok q (kept s') := by
  refine done_ok q _ s' ?_ hx
  repeat' first
    | with_reducible assumption
    | simp -proj only [↓mk_kept, kept_eta, ↓ite_kept, ite_fst, ite_snd, fst_mk, snd_mk, ite_ans, ans_mk, ite_run, run_mk, ite_slice, slice_mk, ite_ovr, ovr_mk, id_eq, ite_self]
    | with_reducible apply runBundle_ok

theorem execSt4O_ok (q : List Instr)  (c : CoreId) (f : TSyl) (w : Word) (s : State) (s' : State) (hok : Ok q (kept s)) (hx : execSt4O c f w s = .next s') : Ok q (kept s') := by
  refine done_ok q _ s' ?_ hx
  repeat' first
    | with_reducible assumption
    | simp -proj only [↓mk_kept, kept_eta, ↓ite_kept, ite_fst, ite_snd, fst_mk, snd_mk, ite_ans, ans_mk, ite_run, run_mk, ite_slice, slice_mk, ite_ovr, ovr_mk, id_eq, ite_self]
    | with_reducible apply runBundle_ok

theorem execSt4Po_ok (q : List Instr)  (c : CoreId) (f : TSyl) (w : Word) (s : State) (s' : State) (hok : Ok q (kept s)) (hx : execSt4Po c f w s = .next s') : Ok q (kept s') := by
  refine done_ok q _ s' ?_ hx
  repeat' first
    | with_reducible assumption
    | simp -proj only [↓mk_kept, kept_eta, ↓ite_kept, ite_fst, ite_snd, fst_mk, snd_mk, ite_ans, ans_mk, ite_run, run_mk, ite_slice, slice_mk, ite_ovr, ovr_mk, id_eq, ite_self]
    | with_reducible apply runBundle_ok

theorem execAmodm_ok (q : List Instr)  (c : CoreId) (f : TSyl) (w : Word) (s : State) (s' : State) (hok : Ok q (kept s)) (hx : execAmodm c f w s = .next s') : Ok q (kept s') := by
  refine done_ok q _ s' ?_ hx
  repeat' first
    | with_reducible assumption
    | simp -proj only [↓mk_kept, kept_eta, ↓ite_kept, ite_fst, ite_snd, fst_mk, snd_mk, ite_ans, ans_mk, ite_run, run_mk, ite_slice, slice_mk, ite_ovr, ovr_mk, id_eq, ite_self]
    | with_reducible apply runBundle_ok

theorem execAmodi_ok (q : List Instr)  (c : CoreId) (f : TSyl) (w : Word) (s : State) (s' : State) (hok : Ok q (kept s)) (hx : execAmodi c f w s = .next s') : Ok q (kept s') := by
  refine done_ok q _ s' ?_ hx
  repeat' first
    | with_reducible assumption
    | simp -proj only [↓mk_kept, kept_eta, ↓ite_kept, ite_fst, ite_snd, fst_mk, snd_mk, ite_ans, ans_mk, ite_run, run_mk, ite_slice, slice_mk, ite_ovr, ovr_mk, id_eq, ite_self]
    | with_reducible apply runBundle_ok

theorem execSetr_ok (q : List Instr)  (c : CoreId) (f : TSyl) (w : Word) (s : State) (s' : State) (hok : Ok q (kept s)) (hx : execSetr c f w s = .next s') : Ok q (kept s') := by
  refine done_ok q _ s' ?_ hx
  repeat' first
    | with_reducible assumption
    | simp -proj only [↓mk_kept, kept_eta, ↓ite_kept, ite_fst, ite_snd, fst_mk, snd_mk, ite_ans, ans_mk, ite_run, run_mk, ite_slice, slice_mk, ite_ovr, ovr_mk, id_eq, ite_self]
    | with_reducible apply runBundle_ok

theorem execMvr_ok (q : List Instr)  (c : CoreId) (f : TSyl) (w : Word) (s : State) (s' : State) (hok : Ok q (kept s)) (hx : execMvr c f w s = .next s') : Ok q (kept s') := by
  refine done_ok q _ s' ?_ hx
  repeat' first
    | with_reducible assumption
    | simp -proj only [↓mk_kept, kept_eta, ↓ite_kept, ite_fst, ite_snd, fst_mk, snd_mk, ite_ans, ans_mk, ite_run, run_mk, ite_slice, slice_mk, ite_ovr, ovr_mk, id_eq, ite_self]
    | with_reducible apply runBundle_ok

theorem execMrv_ok (q : List Instr)  (c : CoreId) (f : TSyl) (w : Word) (s : State) (s' : State) (hok : Ok q (kept s)) (hx : execMrv c f w s = .next s') : Ok q (kept s') := by
  refine done_ok q _ s' ?_ hx
  repeat' first
    | with_reducible assumption
    | simp -proj only [↓mk_kept, kept_eta, ↓ite_kept, ite_fst, ite_snd, fst_mk, snd_mk, ite_ans, ans_mk, ite_run, run_mk, ite_slice, slice_mk, ite_ovr, ovr_mk, id_eq, ite_self]
    | with_reducible apply runBundle_ok

theorem execMbput_ok (q : List Instr)  (c : CoreId) (f : TSyl) (w : Word) (s : State) (s' : State) (hok : Ok q (kept s)) (hx : execMbput c f w s = .next s') : Ok q (kept s') := by
  refine done_ok q _ s' ?_ hx
  repeat' first
    | with_reducible assumption
    | simp -proj only [↓mk_kept, kept_eta, ↓ite_kept, ite_fst, ite_snd, fst_mk, snd_mk, ite_ans, ans_mk, ite_run, run_mk, ite_slice, slice_mk, ite_ovr, ovr_mk, id_eq, ite_self]
    | with_reducible apply runBundle_ok

theorem execMbget_ok (q : List Instr)  (c : CoreId) (f : TSyl) (w : Word) (s : State) (s' : State) (hok : Ok q (kept s)) (hx : execMbget c f w s = .next s') : Ok q (kept s') := by
  refine done_ok q _ s' ?_ hx
  repeat' first
    | with_reducible assumption
    | simp -proj only [↓mk_kept, kept_eta, ↓ite_kept, ite_fst, ite_snd, fst_mk, snd_mk, ite_ans, ans_mk, ite_run, run_mk, ite_slice, slice_mk, ite_ovr, ovr_mk, id_eq, ite_self]
    | with_reducible apply runBundle_ok

theorem execMbcnt_ok (q : List Instr)  (c : CoreId) (f : TSyl) (w : Word) (s : State) (s' : State) (hok : Ok q (kept s)) (hx : execMbcnt c f w s = .next s') : Ok q (kept s') := by
  refine done_ok q _ s' ?_ hx
  repeat' first
    | with_reducible assumption
    | simp -proj only [↓mk_kept, kept_eta, ↓ite_kept, ite_fst, ite_snd, fst_mk, snd_mk, ite_ans, ans_mk, ite_run, run_mk, ite_slice, slice_mk, ite_ovr, ovr_mk, id_eq, ite_self]
    | with_reducible apply runBundle_ok

theorem execMailboxPutRelease_ok (q : List Instr)  (c : CoreId) (s : State) (s' : State) (hok : Ok q (kept s)) (hx : execMailboxPutRelease c s = .next s') : Ok q (kept s') := by
  refine done_ok q _ s' ?_ hx
  repeat' first
    | with_reducible assumption
    | simp -proj only [↓mk_kept, kept_eta, ↓ite_kept, ite_fst, ite_snd, fst_mk, snd_mk, ite_ans, ans_mk, ite_run, run_mk, ite_slice, slice_mk, ite_ovr, ovr_mk, id_eq, ite_self]
    | with_reducible apply retryHeld_ok

theorem execMailboxGetRelease_ok (q : List Instr)  (c : CoreId) (s : State) (s' : State) (hok : Ok q (kept s)) (hx : execMailboxGetRelease c s = .next s') : Ok q (kept s') := by
  refine done_ok q _ s' ?_ hx
  repeat' first
    | with_reducible assumption
    | simp -proj only [↓mk_kept, kept_eta, ↓ite_kept, ite_fst, ite_snd, fst_mk, snd_mk, ite_ans, ans_mk, ite_run, run_mk, ite_slice, slice_mk, ite_ovr, ovr_mk, id_eq, ite_self]
    | with_reducible apply retryHeld_ok

theorem execCrewBankGrant_ok (q : List Instr)  (crew : CrewId) (bank : Fin 16) (waiting : BitVec 9) (s : State) (s' : State) (hok : Ok q (kept s)) (hx : execCrewBankGrant crew bank waiting s = .next s') : Ok q (kept s') := by
  refine done_ok q _ s' ?_ hx
  repeat' first
    | with_reducible assumption
    | simp -proj only [bankGrant_kept]

theorem execMoverBankTake_ok (q : List Instr)  (c : CoreId) (bank : Fin 4) (waited : ℕ) (coreWants : Bool) (s : State) (s' : State) (hok : Ok q (kept s)) (hx : execMoverBankTake c bank waited coreWants s = .next s') : Ok q (kept s') := by
  refine done_ok q _ s' ?_ hx
  repeat' first
    | with_reducible assumption
    | simp -proj only [moverTake_kept]

theorem execStoreQueueDrain_ok (q : List Instr) (c : CoreId) (window : Bool) (collides : BitVec 4) (s : State) (s' : State) (hok : Ok q (kept s)) (hx : execStoreQueueDrain c window collides s = .next s') : Ok q (kept s') := by
  refine done_ok q _ s' ?_ hx
  repeat' first
    | with_reducible assumption
    | simp -proj only []
    | with_reducible apply queueDrain_ok

theorem execRouteFillDone_ok (q : List Instr)  (sink : Fin 8192) (s : State) (s' : State) (hok : Ok q (kept s)) (hx : execRouteFillDone sink s = .next s') : Ok q (kept s') := by
  refine done_ok q _ s' ?_ hx
  repeat' first
    | with_reducible assumption
    | simp -proj only [fillDone_kept]

theorem execRouteFadeDone_ok (q : List Instr)  (sink : Fin 8192) (s : State) (s' : State) (hok : Ok q (kept s)) (hx : execRouteFadeDone sink s = .next s') : Ok q (kept s') := by
  refine done_ok q _ s' ?_ hx
  repeat' first
    | with_reducible assumption
    | simp -proj only [fadeDone_kept]

theorem execRouteTapmoveDone_ok (q : List Instr)  (sink : Fin 8192) (s : State) (s' : State) (hok : Ok q (kept s)) (hx : execRouteTapmoveDone sink s = .next s') : Ok q (kept s') := by
  refine done_ok q _ s' ?_ hx
  repeat' first
    | with_reducible assumption
    | simp -proj only [tapDone_kept]

theorem execPortRst_ok (q : List Instr)  (_m : Master) (hi : Bool) (v : Word) (s : State) (s' : State) (hok : Ok q (kept s)) (hx : execPortRst _m hi v s = .next s') : Ok q (kept s') := by
  refine done_ok q _ s' ?_ hx
  repeat' first
    | with_reducible assumption
    | simp -proj only [portRstWrite_kept]

theorem execPortResetRelease_ok (q : List Instr)  (u : Fin 52) (s : State) (s' : State) (hok : Ok q (kept s)) (hx : execPortResetRelease u s = .next s') : Ok q (kept s') := by
  refine done_ok q _ s' ?_ hx
  repeat' first
    | with_reducible assumption
    | simp -proj only [↓ite_kept, ite_self, unitRelease_kept]

theorem execGrpGo_ok (q : List Instr)  (_m : Master) (v : Word) (s : State) (s' : State) (hok : Ok q (kept s)) (hx : execGrpGo _m v s = .next s') : Ok q (kept s') := by
  refine done_ok q _ s' ?_ hx
  repeat' first
    | with_reducible assumption
    | simp -proj only [grpWrite_kept]

theorem execGrpStop_ok (q : List Instr)  (_m : Master) (v : Word) (s : State) (s' : State) (hok : Ok q (kept s)) (hx : execGrpStop _m v s = .next s') : Ok q (kept s') := by
  refine done_ok q _ s' ?_ hx
  repeat' first
    | with_reducible assumption
    | simp -proj only [grpWrite_kept]

theorem execRunRampEnd_ok (q : List Instr)  (p : Fin 48) (s : State) (s' : State) (hok : Ok q (kept s)) (hx : execRunRampEnd p s = .next s') : Ok q (kept s') := by
  refine done_ok q _ s' ?_ hx
  repeat' first
    | with_reducible assumption
    | simp -proj only [putPort_kept]

theorem execSlipSilenceEnd_ok (q : List Instr)  (p : Fin 48) (s : State) (s' : State) (hok : Ok q (kept s)) (hx : execSlipSilenceEnd p s = .next s') : Ok q (kept s') := by
  refine done_ok q _ s' ?_ hx
  repeat' first
    | with_reducible assumption
    | simp -proj only [↓ite_kept, ite_self, putPort_kept]

theorem execSlipRampEnd_ok (q : List Instr)  (p : Fin 48) (s : State) (s' : State) (hok : Ok q (kept s)) (hx : execSlipRampEnd p s = .next s') : Ok q (kept s') := by
  refine done_ok q _ s' ?_ hx
  repeat' first
    | with_reducible assumption
    | simp -proj only [↓ite_kept, ite_self, putPort_kept]

theorem execPortStopped_ok (q : List Instr)  (p : Fin 48) (s : State) (s' : State) (hok : Ok q (kept s)) (hx : execPortStopped p s = .next s') : Ok q (kept s') := by
  refine done_ok q _ s' ?_ hx
  repeat' first
    | with_reducible assumption
    | simp -proj only [portStop_kept]

theorem execPortRatePublish_ok (q : List Instr)  (p : Fin 48) (windowEnd : Time) (s : State) (s' : State) (hok : Ok q (kept s)) (hx : execPortRatePublish p windowEnd s = .next s') : Ok q (kept s') := by
  refine done_ok q _ s' ?_ hx
  repeat' first
    | with_reducible assumption
    | simp -proj only [ratePublish_kept]

theorem execPdmEn_ok (q : List Instr)  (_m : Master) (v : Word) (s : State) (s' : State) (hok : Ok q (kept s)) (hx : execPdmEn _m v s = .next s') : Ok q (kept s') := by
  refine done_ok q _ s' ?_ hx
  repeat' first
    | with_reducible assumption
    | simp -proj only [pdmEnWrite_kept]

theorem execPdmSettleEnd_ok (q : List Instr)  (k : Fin 32) (s : State) (s' : State) (hok : Ok q (kept s)) (hx : execPdmSettleEnd k s = .next s') : Ok q (kept s') := by
  refine done_ok q _ s' ?_ hx
  repeat' first
    | with_reducible assumption
    | simp -proj only [pdmSettled_kept]

theorem execMediaPacket_ok (q : List Instr)  (pk : MediaPacket) (s : State) (s' : State) (hok : Ok q (kept s)) (hx : execMediaPacket pk s = .next s') : Ok q (kept s') := by
  refine done_ok q _ s' ?_ hx
  repeat' first
    | with_reducible assumption
    | simp -proj only [↓mk_kept, kept_eta, ↓ite_kept, ite_fst, ite_snd, fst_mk, snd_mk, ite_ans, ans_mk, ite_run, run_mk, ite_slice, slice_mk, ite_ovr, ovr_mk, id_eq, ite_self]
    | with_reducible apply mediaPacket_ok

theorem execPtpMessage_ok (q : List Instr)  (i : Fin 2) (msg : PtpMessage) (s : State) (s' : State) (hok : Ok q (kept s)) (hx : execPtpMessage i msg s = .next s') : Ok q (kept s') := by
  refine done_ok q _ s' ?_ hx
  repeat' first
    | with_reducible assumption
    | simp -proj only [ptpMessage_kept]

theorem execPtpLost_ok (q : List Instr)  (i : Fin 2) (s : State) (s' : State) (hok : Ok q (kept s)) (hx : execPtpLost i s = .next s') : Ok q (kept s') := by
  refine done_ok q _ s' ?_ hx
  repeat' first
    | with_reducible assumption
    | simp -proj only [ptpLost_kept]

theorem execPtpCfg_ok (q : List Instr)  (m : Master) (v : Word) (s : State) (s' : State) (hok : Ok q (kept s)) (hx : execPtpCfg m v s = .next s') : Ok q (kept s') := by
  refine done_ok q _ s' ?_ hx
  repeat' first
    | with_reducible assumption
    | simp -proj only [ptpCfgWrite_kept]

theorem execArpRequest_ok (q : List Instr) (fr : RxFrame) (s : State) (s' : State) (hok : Ok q (kept s)) (hx : execArpRequest fr s = .next s') : Ok q (kept s') := by
  refine done_ok q _ s' ?_ hx
  repeat' first
    | with_reducible assumption
    | simp -proj only []
    | with_reducible apply reply_ok

theorem execIgmpQuery_ok (q : List Instr)  (fr : RxFrame) (s : State) (s' : State) (hok : Ok q (kept s)) (hx : execIgmpQuery fr s = .next s') : Ok q (kept s') := by
  refine done_ok q _ s' ?_ hx
  repeat' first
    | with_reducible assumption
    | simp -proj only [igmpQuery_kept]

theorem execIcmpEcho_ok (q : List Instr) (fr : RxFrame) (s : State) (s' : State) (hok : Ok q (kept s)) (hx : execIcmpEcho fr s = .next s') : Ok q (kept s') := by
  refine done_ok q _ s' ?_ hx
  repeat' first
    | with_reducible assumption
    | simp -proj only []
    | with_reducible apply reply_ok

theorem execHostQueueRx_ok (q : List Instr)  (fr : RxFrame) (s : State) (s' : State) (hok : Ok q (kept s)) (hx : execHostQueueRx fr s = .next s') : Ok q (kept s') := by
  refine done_ok q _ s' ?_ hx
  repeat' first
    | with_reducible assumption
    | simp -proj only [↓mk_kept, kept_eta, ↓ite_kept, ite_fst, ite_snd, fst_mk, snd_mk, ite_ans, ans_mk, ite_run, run_mk, ite_slice, slice_mk, ite_ovr, ovr_mk, id_eq, ite_self]
    | with_reducible apply hostQueueRx_ok

theorem execNetHqTxdb_ok (q : List Instr)  (_m : Master) (v : Word) (s : State) (s' : State) (hok : Ok q (kept s)) (hx : execNetHqTxdb _m v s = .next s') : Ok q (kept s') := by
  refine done_ok q _ s' ?_ hx
  repeat' first
    | with_reducible assumption
    | simp -proj only [hqTxdb_kept]

theorem execNetCfg_ok (q : List Instr)  (_m : Master) (p : Fin 2) (v : Word) (prog : Option Burst) (s : State) (s' : State) (hok : Ok q (kept s)) (hx : execNetCfg _m p v prog s = .next s') : Ok q (kept s') := by
  refine done_ok q _ s' ?_ hx
  repeat' first
    | with_reducible assumption
    | simp -proj only [↓mk_kept, kept_eta, ↓ite_kept, ite_fst, ite_snd, fst_mk, snd_mk, ite_ans, ans_mk, ite_run, run_mk, ite_slice, slice_mk, ite_ovr, ovr_mk, id_eq, ite_self]
    | with_reducible apply netCfgWrite_ok

theorem execNetLinkDown_ok (q : List Instr)  (p : Fin 2) (s : State) (s' : State) (hok : Ok q (kept s)) (hx : execNetLinkDown p s = .next s') : Ok q (kept s') := by
  refine done_ok q _ s' ?_ hx
  repeat' first
    | with_reducible assumption
    | simp -proj only [linkDown_kept]

theorem execNetLinkUp_ok (q : List Instr)  (p : Fin 2) (s : State) (s' : State) (hok : Ok q (kept s)) (hx : execNetLinkUp p s = .next s') : Ok q (kept s') := by
  refine done_ok q _ s' ?_ hx
  repeat' first
    | with_reducible assumption
    | simp -proj only [linkRaise_kept]

theorem execTimeForce_ok (q : List Instr)  (_m : Master) (s : State) (s' : State) (hok : Ok q (kept s)) (hx : execTimeForce _m s = .next s') : Ok q (kept s') := by
  refine done_ok q _ s' ?_ hx
  repeat' first
    | with_reducible assumption
    | simp -proj only [timeForce_kept]

theorem execTimeStep_ok (q : List Instr)  (_m : Master) (s : State) (s' : State) (hok : Ok q (kept s)) (hx : execTimeStep _m s = .next s') : Ok q (kept s') := by
  refine done_ok q _ s' ?_ hx
  repeat' first
    | with_reducible assumption
    | simp -proj only [timeStep_kept]

theorem execTimeLatch_ok (q : List Instr)  (m : Master) (t : Time) (s : State) (s' : State) (hok : Ok q (kept s)) (hx : execTimeLatch m t s = .next s') : Ok q (kept s') := by
  refine done_ok q _ s' ?_ hx
  repeat' first
    | with_reducible assumption
    | simp -proj only [timeLatch_kept]

theorem execRefWindowEnd_ok (q : List Instr)  (meas : Vector RefMeas 4) (phaseErr : ℤ) (freqErr : ℤ) (s : State) (s' : State) (hok : Ok q (kept s)) (hx : execRefWindowEnd meas phaseErr freqErr s = .next s') : Ok q (kept s') := by
  refine done_ok q _ s' ?_ hx
  repeat' first
    | with_reducible assumption
    | simp -proj only [windowEnd_kept]

theorem execDpllLostLock_ok (q : List Instr)  (phaseErr : ℤ) (s : State) (s' : State) (hok : Ok q (kept s)) (hx : execDpllLostLock phaseErr s = .next s') : Ok q (kept s') := by
  refine done_ok q _ s' ?_ hx
  repeat' first
    | with_reducible assumption
    | simp -proj only [lostLock_kept]

theorem execRefLos_ok (q : List Instr)  (r : Fin 4) (s : State) (s' : State) (hok : Ok q (kept s)) (hx : execRefLos r s = .next s') : Ok q (kept s') := by
  refine done_ok q _ s' ?_ hx
  repeat' first
    | with_reducible assumption
    | simp -proj only [losEvent_kept]

theorem execRefqlWord_ok (q : List Instr)  (r : Fin 2) (word : BitVec 16) (stopOk : Bool) (s : State) (s' : State) (hok : Ok q (kept s)) (hx : execRefqlWord r word stopOk s = .next s') : Ok q (kept s') := by
  refine done_ok q _ s' ?_ hx
  repeat' first
    | with_reducible assumption
    | simp -proj only [↓ite_kept, ite_self, qlWord_kept]

theorem execQlLost_ok (q : List Instr)  (r : Fin 2) (s : State) (s' : State) (hok : Ok q (kept s)) (hx : execQlLost r s = .next s') : Ok q (kept s') := by
  refine done_ok q _ s' ?_ hx
  repeat' first
    | with_reducible assumption
    | simp -proj only [qlLose_kept]

theorem execRefCfg_ok (q : List Instr)  (m : Master) (v : Word) (s : State) (s' : State) (hok : Ok q (kept s)) (hx : execRefCfg m v s = .next s') : Ok q (kept s') := by
  refine done_ok q _ s' ?_ hx
  repeat' first
    | with_reducible assumption
    | simp -proj only [refCfgWrite_kept]

theorem execRefCtrl_ok (q : List Instr)  (_m : Master) (v : Word) (s : State) (s' : State) (hok : Ok q (kept s)) (hx : execRefCtrl _m v s = .next s') : Ok q (kept s') := by
  refine done_ok q _ s' ?_ hx
  repeat' first
    | with_reducible assumption
    | simp -proj only [refCtrlWrite_kept]

theorem execMarker_ok (q : List Instr)  (h : TwinHdr) (imageId : BitVec 64) (s : State) (s' : State) (hok : Ok q (kept s)) (hx : execMarker h imageId s = .next s') : Ok q (kept s') := by
  refine done_ok q _ s' ?_ hx
  repeat' first
    | with_reducible assumption
    | simp -proj only [marker_kept]

theorem execLeasePinWord_ok (q : List Instr)  (bits : BitVec 8) (stopOk : Bool) (s : State) (s' : State) (hok : Ok q (kept s)) (hx : execLeasePinWord bits stopOk s = .next s') : Ok q (kept s') := by
  refine done_ok q _ s' ?_ hx
  repeat' first
    | with_reducible assumption
    | simp -proj only [leasePin_kept]

theorem execBeacon_ok (q : List Instr)  (b : Beacon) (s : State) (s' : State) (hok : Ok q (kept s)) (hx : execBeacon b s = .next s') : Ok q (kept s') := by
  refine done_ok q _ s' ?_ hx
  repeat' first
    | with_reducible assumption
    | simp -proj only [beacon_kept]

theorem execOffer_ok (q : List Instr)  (h : TwinHdr) (target : BitVec 64) (s : State) (s' : State) (hok : Ok q (kept s)) (hx : execOffer h target s = .next s') : Ok q (kept s') := by
  refine done_ok q _ s' ?_ hx
  repeat' first
    | with_reducible assumption
    | simp -proj only [offerFrame_kept]

theorem execHello_ok (q : List Instr)  (h : TwinHdr) (imageId : BitVec 64) (nonce : List Byte) (s : State) (s' : State) (hok : Ok q (kept s)) (hx : execHello h imageId nonce s = .next s') : Ok q (kept s') := by
  refine done_ok q _ s' ?_ hx
  repeat' first
    | with_reducible assumption
    | simp -proj only [hello_kept]

theorem execInput_ok (q : List Instr)  (h : TwinHdr) (blk : InputBlock) (s : State) (s' : State) (hok : Ok q (kept s)) (hx : execInput h blk s = .next s') : Ok q (kept s') := by
  refine done_ok q _ s' ?_ hx
  repeat' first
    | with_reducible assumption
    | simp -proj only [inputFrame_kept]

theorem execFreeze_ok (q : List Instr)  (h : TwinHdr) (blocks : List (ℕ × BitVec 2 × BitVec 8)) (ratios : List (ℕ × Word)) (treats : List SrcTreat) (sectionOk : Bool) (s : State) (s' : State) (hok : Ok q (kept s)) (hx : execFreeze h blocks ratios treats sectionOk s = .next s') : Ok q (kept s') := by
  refine done_ok q _ s' ?_ hx
  repeat' first
    | with_reducible assumption
    | simp -proj only [freezeFrame_kept]

theorem execCalls_ok (q : List Instr)  (h : TwinHdr) (cs : List (CallRec × BitVec 64)) (rd : BitVec 17) (s : State) (s' : State) (hok : Ok q (kept s)) (hx : execCalls h cs rd s = .next s') : Ok q (kept s') := by
  refine done_ok q _ s' ?_ hx
  repeat' first
    | with_reducible assumption
    | simp -proj only [callsFrame_kept]

theorem execCarry_ok (q : List Instr)  (h : TwinHdr) (strip : ℕ) (offset : ℕ) (words : List Word) (s : State) (s' : State) (hok : Ok q (kept s)) (hx : execCarry h strip offset words s = .next s') : Ok q (kept s') := by
  refine done_ok q _ s' ?_ hx
  repeat' first
    | with_reducible assumption
    | simp -proj only [carryFrame_kept]

theorem execClose_ok (q : List Instr)  (h : TwinHdr) (digest : BitVec 64) (sectionOk : Bool) (s : State) (s' : State) (hok : Ok q (kept s)) (hx : execClose h digest sectionOk s = .next s') : Ok q (kept s') := by
  refine done_ok q _ s' ?_ hx
  repeat' first
    | with_reducible assumption
    | simp -proj only [closeFrame_kept]

theorem execRsctl_ok (q : List Instr)  (h : TwinHdr) (ctl : RsCtl) (s : State) (s' : State) (hok : Ok q (kept s)) (hx : execRsctl h ctl s = .next s') : Ok q (kept s') := by
  refine done_ok q _ s' ?_ hx
  repeat' first
    | with_reducible assumption
    | simp -proj only [↓mk_kept, kept_eta, ↓ite_kept, ite_fst, ite_snd, fst_mk, snd_mk, ite_ans, ans_mk, ite_run, run_mk, ite_slice, slice_mk, ite_ovr, ovr_mk, id_eq, ite_self]
    | with_reducible apply resyncCtl_ok

theorem execResync_ok (q : List Instr)  (h : TwinHdr) (item : RsItem) (s : State) (s' : State) (hok : Ok q (kept s)) (hx : execResync h item s = .next s') : Ok q (kept s') := by
  refine done_ok q _ s' ?_ hx
  repeat' first
    | with_reducible assumption
    | simp -proj only [↓mk_kept, kept_eta, ↓ite_kept, ite_fst, ite_snd, fst_mk, snd_mk, ite_ans, ans_mk, ite_run, run_mk, ite_slice, slice_mk, ite_ovr, ovr_mk, id_eq, ite_self]
    | with_reducible apply resyncFrame_ok

theorem execResyncRequest_ok (q : List Instr)  (_m : Master) (s : State) (s' : State) (hok : Ok q (kept s)) (hx : execResyncRequest _m s = .next s') : Ok q (kept s') := by
  refine done_ok q _ s' ?_ hx
  repeat' first
    | with_reducible assumption
    | simp -proj only [resyncAsk_kept]

theorem execTwinLinkDown_ok (q : List Instr) (l : LinkLoss) (s : State) (s' : State) (hok : Ok q (kept s)) (hx : execTwinLinkDown l s = .next s') : Ok q (kept s') := by
  refine done_ok q _ s' ?_ hx
  repeat' first
    | with_reducible assumption
    | simp -proj only []
    | with_reducible apply twinDown_ok

theorem execTwinPathLost_ok (q : List Instr)  (p : TwinPath) (s : State) (s' : State) (hok : Ok q (kept s)) (hx : execTwinPathLost p s = .next s') : Ok q (kept s') := by
  refine done_ok q _ s' ?_ hx
  repeat' first
    | with_reducible assumption
    | simp -proj only [pathLost_kept]

theorem execLinkRestart_ok (q : List Instr)  (_m : Master) (s : State) (s' : State) (hok : Ok q (kept s)) (hx : execLinkRestart _m s = .next s') : Ok q (kept s') := by
  refine done_ok q _ s' ?_ hx
  repeat' first
    | with_reducible assumption
    | simp -proj only [↓mk_kept, kept_eta, ↓ite_kept, ite_fst, ite_snd, fst_mk, snd_mk, ite_ans, ans_mk, ite_run, run_mk, ite_slice, slice_mk, ite_ovr, ovr_mk, id_eq, ite_self]
    | with_reducible apply twinDown_ok

theorem execDiagClr_ok (q : List Instr)  (_m : Master) (s : State) (s' : State) (hok : Ok q (kept s)) (hx : execDiagClr _m s = .next s') : Ok q (kept s') := by
  refine done_ok q _ s' ?_ hx
  repeat' first
    | with_reducible assumption
    | simp -proj only [diagClr_kept]

theorem busDone_ok (q : List Instr) (s : State) (s' : State) (hok : Ok q (kept s)) (hx : busDone s = .next s') : Ok q (kept s') := by
  refine done_ok q _ s' ?_ hx
  repeat' first
    | with_reducible assumption
    | simp -proj only []
    | with_reducible apply runWaiting_ok

theorem execFabricBurst_ok (q : List Instr)  (b : Burst) (s : State) (s' : State) (hok : Ok q (kept s)) (hx : execFabricBurst b s = .next s') : Ok q (kept s') := by
  refine done_ok q _ s' ?_ hx
  repeat' first
    | with_reducible assumption
    | simp -proj only [↓mk_kept, kept_eta, ↓ite_kept, ite_fst, ite_snd, fst_mk, snd_mk, ite_ans, ans_mk, ite_run, run_mk, ite_slice, slice_mk, ite_ovr, ovr_mk, id_eq, ite_self]
    | with_reducible apply busRun_ok
    | with_reducible apply runWaiting_ok

theorem execCollidedRetry_ok (q : List Instr)  (stillCollides : Bool) (s : State) (s' : State) (hok : Ok q (kept s)) (hx : execCollidedRetry stillCollides s = .next s') : Ok q (kept s') := by
  refine done_ok q _ s' ?_ hx
  repeat' first
    | with_reducible assumption
    | simp -proj only [↓mk_kept, kept_eta, ↓ite_kept, ite_fst, ite_snd, fst_mk, snd_mk, ite_ans, ans_mk, ite_run, run_mk, ite_slice, slice_mk, ite_ovr, ovr_mk, id_eq, ite_self]
    | with_reducible apply collidedRetry_ok
    | with_reducible apply runWaiting_ok

theorem execFabTimeout_ok (q : List Instr)  (b : Burst) (s : State) (s' : State) (hok : Ok q (kept s)) (hx : execFabTimeout b s = .next s') : Ok q (kept s') := by
  refine done_ok q _ s' ?_ hx
  repeat' first
    | with_reducible assumption
    | simp -proj only [↓mk_kept, kept_eta, ↓ite_kept, ite_fst, ite_snd, fst_mk, snd_mk, ite_ans, ans_mk, ite_run, run_mk, ite_slice, slice_mk, ite_ovr, ovr_mk, id_eq, ite_self]
    | with_reducible apply fabTimeout_ok
    | with_reducible apply runWaiting_ok

theorem execFabLockTmo_ok (q : List Instr)  (tgt : Fin 3) (s : State) (s' : State) (hok : Ok q (kept s)) (hx : execFabLockTmo tgt s = .next s') : Ok q (kept s') := by
  refine done_ok q _ s' ?_ hx
  repeat' first
    | with_reducible assumption
    | simp -proj only [fabLockTmo_kept]
    | with_reducible apply runWaiting_ok

theorem execHostLock_ok (q : List Instr)  (_m : Master) (v : Word) (s : State) (s' : State) (hok : Ok q (kept s)) (hx : execHostLock _m v s = .next s') : Ok q (kept s') := by
  refine done_ok q _ s' ?_ hx
  repeat' first
    | with_reducible assumption
    | simp -proj only [hostLockWrite_kept]

theorem execAssayPass_ok (q : List Instr)  (e : Fin 8) (s : State) (s' : State) (hok : Ok q (kept s)) (hx : execAssayPass e s = .next s') : Ok q (kept s') := by
  refine done_ok q _ s' ?_ hx
  repeat' first
    | with_reducible assumption
    | simp -proj only [↓ite_kept, ite_self, assayStart_kept]

theorem execAssayRow_ok (q : List Instr)  (e : Fin 8) (kind : MemKind) (inst : ℕ) (bank : ℕ) (row : ℕ) (s : State) (s' : State) (hok : Ok q (kept s)) (hx : execAssayRow e kind inst bank row s = .next s') : Ok q (kept s') := by
  refine done_ok q _ s' ?_ hx
  repeat' first
    | with_reducible assumption
    | simp -proj only [↓mk_kept, kept_eta, ↓ite_kept, ite_fst, ite_snd, fst_mk, snd_mk, ite_ans, ans_mk, ite_run, run_mk, ite_slice, slice_mk, ite_ovr, ovr_mk, id_eq, ite_self]
    | with_reducible apply assayRow_ok

theorem execAssayRowDone_ok (q : List Instr)  (e : Fin 8) (faulty : Bool) (passEnds : Bool) (ms : ℕ) (s : State) (s' : State) (hok : Ok q (kept s)) (hx : execAssayRowDone e faulty passEnds ms s = .next s') : Ok q (kept s') := by
  refine done_ok q _ s' ?_ hx
  repeat' first
    | with_reducible assumption
    | simp -proj only [assayRowDone_kept]

theorem execMemClearDone_ok (q : List Instr)  (k : MemKind) (s : State) (s' : State) (hok : Ok q (kept s)) (hx : execMemClearDone k s = .next s') : Ok q (kept s') := by
  refine done_ok q _ s' ?_ hx
  repeat' first
    | with_reducible assumption
    | simp -proj only [↓mk_kept, kept_eta, ↓ite_kept, ite_fst, ite_snd, fst_mk, snd_mk, ite_ans, ans_mk, ite_run, run_mk, ite_slice, slice_mk, ite_ovr, ovr_mk, id_eq, ite_self]
    | with_reducible apply memClearDone_ok

theorem execStoreSettings_ok (q : List Instr)  (_m : Master) (s : State) (s' : State) (hok : Ok q (kept s)) (hx : execStoreSettings _m s = .next s') : Ok q (kept s') := by
  refine done_ok q _ s' ?_ hx
  repeat' first
    | with_reducible assumption
    | simp -proj only [storeSettings_kept]

theorem execStoreBoot_ok (q : List Instr)  (_m : Master) (s : State) (s' : State) (hok : Ok q (kept s)) (hx : execStoreBoot _m s = .next s') : Ok q (kept s') := by
  refine done_ok q _ s' ?_ hx
  repeat' first
    | with_reducible assumption
    | simp -proj only [storeBoot_kept]

theorem execStoreRepair_ok (q : List Instr)  (_m : Master) (s : State) (s' : State) (hok : Ok q (kept s)) (hx : execStoreRepair _m s = .next s') : Ok q (kept s') := by
  refine done_ok q _ s' ?_ hx
  repeat' first
    | with_reducible assumption
    | simp -proj only [storeRepair_kept]

theorem execStoreLog_ok (q : List Instr)  (_m : Master) (s : State) (s' : State) (hok : Ok q (kept s)) (hx : execStoreLog _m s = .next s') : Ok q (kept s') := by
  refine done_ok q _ s' ?_ hx
  repeat' first
    | with_reducible assumption
    | simp -proj only [storeLog_kept]

theorem execStoreTrim_ok (q : List Instr)  (_m : Master) (s : State) (s' : State) (hok : Ok q (kept s)) (hx : execStoreTrim _m s = .next s') : Ok q (kept s') := by
  refine done_ok q _ s' ?_ hx
  repeat' first
    | with_reducible assumption
    | simp -proj only [storeTrim_kept]

theorem execInstall_ok (q : List Instr)  (_m : Master) (slot : BitVec 2) (s : State) (s' : State) (hok : Ok q (kept s)) (hx : execInstall _m slot s = .next s') : Ok q (kept s') := by
  refine done_ok q _ s' ?_ hx
  repeat' first
    | with_reducible assumption
    | simp -proj only [↓mk_kept, kept_eta, ↓ite_kept, ite_fst, ite_snd, fst_mk, snd_mk, ite_ans, ans_mk, ite_run, run_mk, ite_slice, slice_mk, ite_ovr, ovr_mk, id_eq, ite_self]
    | with_reducible apply geodeInstall_ok

theorem execClear_ok (q : List Instr)  (_m : Master) (slot : BitVec 2) (s : State) (s' : State) (hok : Ok q (kept s)) (hx : execClear _m slot s = .next s') : Ok q (kept s') := by
  refine done_ok q _ s' ?_ hx
  repeat' first
    | with_reducible assumption
    | simp -proj only [geodeClear_kept]

theorem execProvisionRoot_ok (q : List Instr)  (_m : Master) (s : State) (s' : State) (hok : Ok q (kept s)) (hx : execProvisionRoot _m s = .next s') : Ok q (kept s') := by
  refine done_ok q _ s' ?_ hx
  repeat' first
    | with_reducible assumption
    | simp -proj only [↓mk_kept, kept_eta, ↓ite_kept, ite_fst, ite_snd, fst_mk, snd_mk, ite_ans, ans_mk, ite_run, run_mk, ite_slice, slice_mk, ite_ovr, ovr_mk, id_eq, ite_self]
    | with_reducible apply geodeProvision_ok

theorem execGeodeLcreq_ok (q : List Instr)  (m : Master) (v : Word) (s : State) (s' : State) (hok : Ok q (kept s)) (hx : execGeodeLcreq m v s = .next s') : Ok q (kept s') := by
  refine done_ok q _ s' ?_ hx
  repeat' first
    | with_reducible assumption
    | simp -proj only [↓mk_kept, kept_eta, ↓ite_kept, ite_fst, ite_snd, fst_mk, snd_mk, ite_ans, ans_mk, ite_run, run_mk, ite_slice, slice_mk, ite_ovr, ovr_mk, id_eq, ite_self]
    | with_reducible apply lcReqWrite_ok

theorem execDramDriftTrack_ok (q : List Instr)  (failStep : BitVec 4) (s : State) (s' : State) (hok : Ok q (kept s)) (hx : execDramDriftTrack failStep s = .next s') : Ok q (kept s') := by
  refine done_ok q _ s' ?_ hx
  repeat' first
    | with_reducible assumption
    | simp -proj only [dramDriftTrack_kept]

theorem execDmaStart_ok (q : List Instr)  (m : Master) (s : State) (s' : State) (hok : Ok q (kept s)) (hx : execDmaStart m s = .next s') : Ok q (kept s') := by
  refine done_ok q _ s' ?_ hx
  repeat' first
    | with_reducible assumption
    | simp -proj only [dmaStart_kept]

theorem execDmaAbort_ok (q : List Instr)  (m : Master) (s : State) (s' : State) (hok : Ok q (kept s)) (hx : execDmaAbort m s = .next s') : Ok q (kept s') := by
  refine done_ok q _ s' ?_ hx
  repeat' first
    | with_reducible assumption
    | simp -proj only [dmaAbort_kept]

theorem execDmaAborted_ok (q : List Instr)  (ch : Fin 16) (issued : ℕ) (s : State) (s' : State) (hok : Ok q (kept s)) (hx : execDmaAborted ch issued s = .next s') : Ok q (kept s') := by
  refine done_ok q _ s' ?_ hx
  repeat' first
    | with_reducible assumption
    | simp -proj only [↓mk_kept, kept_eta, ↓ite_kept, ite_fst, ite_snd, fst_mk, snd_mk, ite_ans, ans_mk, ite_run, run_mk, ite_slice, slice_mk, ite_ovr, ovr_mk, id_eq, ite_self]
    | with_reducible apply dmaAborted_ok

theorem execDmaDescFetched_ok (q : List Instr)  (ch : Fin 16) (s : State) (s' : State) (hok : Ok q (kept s)) (hx : execDmaDescFetched ch s = .next s') : Ok q (kept s') := by
  refine done_ok q _ s' ?_ hx
  repeat' first
    | with_reducible assumption
    | simp -proj only [↓mk_kept, kept_eta, ↓ite_kept, ite_fst, ite_snd, fst_mk, snd_mk, ite_ans, ans_mk, ite_run, run_mk, ite_slice, slice_mk, ite_ovr, ovr_mk, id_eq, ite_self]
    | with_reducible apply dmaDescFetched_ok

theorem execDmaDescDone_ok (q : List Instr)  (ch : Fin 16) (s : State) (s' : State) (hok : Ok q (kept s)) (hx : execDmaDescDone ch s = .next s') : Ok q (kept s') := by
  refine done_ok q _ s' ?_ hx
  repeat' first
    | with_reducible assumption
    | simp -proj only [↓mk_kept, kept_eta, ↓ite_kept, ite_fst, ite_snd, fst_mk, snd_mk, ite_ans, ans_mk, ite_run, run_mk, ite_slice, slice_mk, ite_ovr, ovr_mk, id_eq, ite_self]
    | with_reducible apply dmaDescDone_ok

theorem execDmaHalt_ok (q : List Instr)  (ch : Fin 16) (addr : BitVec 36) (resp : BitVec 2) (lastWrite : Bool) (issued : Vector ℕ 16) (s : State) (s' : State) (hok : Ok q (kept s)) (hx : execDmaHalt ch addr resp lastWrite issued s = .next s') : Ok q (kept s') := by
  refine done_ok q _ s' ?_ hx
  repeat' first
    | with_reducible assumption
    | simp -proj only [↓mk_kept, kept_eta, ↓ite_kept, ite_fst, ite_snd, fst_mk, snd_mk, ite_ans, ans_mk, ite_run, run_mk, ite_slice, slice_mk, ite_ovr, ovr_mk, id_eq, ite_self]
    | with_reducible apply dmaHaltEvent_ok

theorem execResetRelease_ok (q : List Instr)  (inp : ReleaseIn) (s : State) (s' : State) (hok : Ok q (kept s)) (hx : execResetRelease inp s = .next s') : Ok q (kept s') := by
  refine done_ok q _ s' ?_ hx
  repeat' first
    | with_reducible assumption
    | simp -proj only [↓mk_kept, kept_eta, ↓ite_kept, ite_fst, ite_snd, fst_mk, snd_mk, ite_ans, ans_mk, ite_run, run_mk, ite_slice, slice_mk, ite_ovr, ovr_mk, id_eq, ite_self]
    | with_reducible apply resetRelease_ok

theorem execFirmwareLoad_ok (q : List Instr)  (src : Fetch) (s : State) (s' : State) (hok : Ok q (kept s)) (hx : execFirmwareLoad src s = .next s') : Ok q (kept s') := by
  refine done_ok q _ s' ?_ hx
  repeat' first
    | with_reducible assumption
    | simp -proj only [↓mk_kept, kept_eta, ↓ite_kept, ite_fst, ite_snd, fst_mk, snd_mk, ite_ans, ans_mk, ite_run, run_mk, ite_slice, slice_mk, ite_ovr, ovr_mk, id_eq, ite_self]
    | with_reducible apply firmwareLoad_ok

theorem execEngineImageLoad_ok (q : List Instr)  (src : Fetch) (s : State) (s' : State) (hok : Ok q (kept s)) (hx : execEngineImageLoad src s = .next s') : Ok q (kept s') := by
  refine done_ok q _ s' ?_ hx
  repeat' first
    | with_reducible assumption
    | simp -proj only [↓mk_kept, kept_eta, ↓ite_kept, ite_fst, ite_snd, fst_mk, snd_mk, ite_ans, ans_mk, ite_run, run_mk, ite_slice, slice_mk, ite_ovr, ovr_mk, id_eq, ite_self]
    | with_reducible apply engineImageLoad_ok

theorem execEngineRelease_ok (q : List Instr)  (t : Time) (s : State) (s' : State) (hok : Ok q (kept s)) (hx : execEngineRelease t s = .next s') : Ok q (kept s') := by
  refine done_ok q _ s' ?_ hx
  repeat' first
    | with_reducible assumption
    | simp -proj only [↓mk_kept, kept_eta, ↓ite_kept, ite_fst, ite_snd, fst_mk, snd_mk, ite_ans, ans_mk, ite_run, run_mk, ite_slice, slice_mk, ite_ovr, ovr_mk, id_eq, ite_self]
    | with_reducible apply engineRelease_ok

theorem execRstBootGo_ok (q : List Instr)  (_m : Master) (v : Word) (s : State) (s' : State) (hok : Ok q (kept s)) (hx : execRstBootGo _m v s = .next s') : Ok q (kept s') := by
  refine done_ok q _ s' ?_ hx
  repeat' first
    | with_reducible assumption
    | simp -proj only [bootGoWrite_kept]

theorem execResetN_ok (q : List Instr)  (ns : ℕ) (low : Bool) (s : State) (s' : State) (hok : Ok q (kept s)) (hx : execResetN ns low s = .next s') : Ok q (kept s') := by
  refine done_ok q _ s' ?_ hx
  repeat' first
    | with_reducible assumption
    | simp -proj only [↓mk_kept, kept_eta, ↓ite_kept, ite_fst, ite_snd, fst_mk, snd_mk, ite_ans, ans_mk, ite_run, run_mk, ite_slice, slice_mk, ite_ovr, ovr_mk, id_eq, ite_self]
    | with_reducible apply resetPulse_ok

theorem execTamperN_ok (q : List Instr)  (ns : ℕ) (low : Bool) (s : State) (s' : State) (hok : Ok q (kept s)) (hx : execTamperN ns low s = .next s') : Ok q (kept s') := by
  refine done_ok q _ s' ?_ hx
  repeat' first
    | with_reducible assumption
    | simp -proj only [↓mk_kept, kept_eta, ↓ite_kept, ite_fst, ite_snd, fst_mk, snd_mk, ite_ans, ans_mk, ite_run, run_mk, ite_slice, slice_mk, ite_ovr, ovr_mk, id_eq, ite_self]
    | with_reducible apply tamperPulse_ok

theorem execRstCtrl_ok (q : List Instr)  (m : Master) (v : Word) (s : State) (s' : State) (hok : Ok q (kept s)) (hx : execRstCtrl m v s = .next s') : Ok q (kept s') := by
  refine done_ok q _ s' ?_ hx
  repeat' first
    | with_reducible assumption
    | simp -proj only [↓mk_kept, kept_eta, ↓ite_kept, ite_fst, ite_snd, fst_mk, snd_mk, ite_ans, ans_mk, ite_run, run_mk, ite_slice, slice_mk, ite_ovr, ovr_mk, id_eq, ite_self]
    | with_reducible apply rstCtrlWrite_ok

theorem execRstEng_ok (q : List Instr)  (_m : Master) (v : Word) (prog : Option Burst) (s : State) (s' : State) (hok : Ok q (kept s)) (hx : execRstEng _m v prog s = .next s') : Ok q (kept s') := by
  refine done_ok q _ s' ?_ hx
  repeat' first
    | with_reducible assumption
    | simp -proj only [↓mk_kept, kept_eta, ↓ite_kept, ite_fst, ite_snd, fst_mk, snd_mk, ite_ans, ans_mk, ite_run, run_mk, ite_slice, slice_mk, ite_ovr, ovr_mk, id_eq, ite_self]
    | with_reducible apply rstEngWrite_ok

theorem execTrstN_ok (q : List Instr)  (prog : Option Burst) (s : State) (s' : State) (hok : Ok q (kept s)) (hx : execTrstN prog s = .next s') : Ok q (kept s') := by
  refine done_ok q _ s' ?_ hx
  repeat' first
    | with_reducible assumption
    | simp -proj only [↓mk_kept, kept_eta, ↓ite_kept, ite_fst, ite_snd, fst_mk, snd_mk, ite_ans, ans_mk, ite_run, run_mk, ite_slice, slice_mk, ite_ovr, ovr_mk, id_eq, ite_self]
    | with_reducible apply masterReset_ok
    | with_reducible apply busPerform_ok
    | with_reducible apply runWaiting_ok

theorem execDebugIntrusion_ok (q : List Instr)  (act : DebugAct) (s : State) (s' : State) (hok : Ok q (kept s)) (hx : execDebugIntrusion act s = .next s') : Ok q (kept s') := by
  refine done_ok q _ s' ?_ hx
  repeat' first
    | with_reducible assumption
    | simp -proj only [↓mk_kept, kept_eta, ↓ite_kept, ite_fst, ite_snd, fst_mk, snd_mk, ite_ans, ans_mk, ite_run, run_mk, ite_slice, slice_mk, ite_ovr, ovr_mk, id_eq, ite_self]
    | with_reducible apply debugAct_ok

theorem execRstWdtCfg_ok (q : List Instr)  (_m : Master) (v : Word) (s : State) (s' : State) (hok : Ok q (kept s)) (hx : execRstWdtCfg _m v s = .next s') : Ok q (kept s') := by
  refine done_ok q _ s' ?_ hx
  repeat' first
    | with_reducible assumption
    | simp -proj only [wdtCfgWrite_kept]

theorem execRstWdtKick_ok (q : List Instr)  (_m : Master) (v : Word) (s : State) (s' : State) (hok : Ok q (kept s)) (hx : execRstWdtKick _m v s = .next s') : Ok q (kept s') := by
  refine done_ok q _ s' ?_ hx
  repeat' first
    | with_reducible assumption
    | simp -proj only [↓mk_kept, kept_eta, ↓ite_kept, ite_fst, ite_snd, fst_mk, snd_mk, ite_ans, ans_mk, ite_run, run_mk, ite_slice, slice_mk, ite_ovr, ovr_mk, id_eq, ite_self]
    | with_reducible apply wdtKick_ok

theorem execSysBootOk_ok (q : List Instr)  (m : Master) (v : Word) (msSinceRelease : ℕ) (s : State) (s' : State) (hok : Ok q (kept s)) (hx : execSysBootOk m v msSinceRelease s = .next s') : Ok q (kept s') := by
  refine done_ok q _ s' ?_ hx
  repeat' first
    | with_reducible assumption
    | simp -proj only [bootOk_kept]

theorem execAuxOverload_ok (q : List Instr)  (is18 : Bool) (s : State) (s' : State) (hok : Ok q (kept s)) (hx : execAuxOverload is18 s = .next s') : Ok q (kept s') := by
  refine done_ok q _ s' ?_ hx
  repeat' first
    | with_reducible assumption
    | simp -proj only [auxOverload_kept]

theorem execPwrAux_ok (q : List Instr)  (_m : Master) (v : Word) (s : State) (s' : State) (hok : Ok q (kept s)) (hx : execPwrAux _m v s = .next s') : Ok q (kept s') := by
  refine done_ok q _ s' ?_ hx
  repeat' first
    | with_reducible assumption
    | simp -proj only [pwrAuxWrite_kept]

theorem execVioLow_ok (q : List Instr)  (bank : Fin 6) (s : State) (s' : State) (hok : Ok q (kept s)) (hx : execVioLow bank s = .next s') : Ok q (kept s') := by
  refine done_ok q _ s' ?_ hx
  repeat' first
    | with_reducible assumption
    | simp -proj only [↓mk_kept, kept_eta, ↓ite_kept, ite_fst, ite_snd, fst_mk, snd_mk, ite_ans, ans_mk, ite_run, run_mk, ite_slice, slice_mk, ite_ovr, ovr_mk, id_eq, ite_self]
    | with_reducible apply vioLow_ok

theorem execVioRestore_ok (q : List Instr)  (bank : Fin 6) (cls : BitVec 2) (s : State) (s' : State) (hok : Ok q (kept s)) (hx : execVioRestore bank cls s = .next s') : Ok q (kept s') := by
  refine done_ok q _ s' ?_ hx
  repeat' first
    | with_reducible assumption
    | simp -proj only [vioRestore_kept]

theorem execReqRun_ok (q : List Instr)  (_m : Master) (s : State) (s' : State) (hok : Ok q (kept s)) (hx : execReqRun _m s = .next s') : Ok q (kept s') := by
  refine done_ok q _ s' ?_ hx
  repeat' first
    | with_reducible assumption
    | simp -proj only [reqRun_kept]

theorem execReqRetain_ok (q : List Instr)  (_m : Master) (s : State) (s' : State) (hok : Ok q (kept s)) (hx : execReqRetain _m s = .next s') : Ok q (kept s') := by
  refine done_ok q _ s' ?_ hx
  repeat' first
    | with_reducible assumption
    | simp -proj only [↓mk_kept, kept_eta, ↓ite_kept, ite_fst, ite_snd, fst_mk, snd_mk, ite_ans, ans_mk, ite_run, run_mk, ite_slice, slice_mk, ite_ovr, ovr_mk, id_eq, ite_self]
    | with_reducible apply reqRetain_ok

theorem execReqDormant_ok (q : List Instr)  (_m : Master) (s : State) (s' : State) (hok : Ok q (kept s)) (hx : execReqDormant _m s = .next s') : Ok q (kept s') := by
  refine done_ok q _ s' ?_ hx
  repeat' first
    | with_reducible assumption
    | simp -proj only [↓mk_kept, kept_eta, ↓ite_kept, ite_fst, ite_snd, fst_mk, snd_mk, ite_ans, ans_mk, ite_run, run_mk, ite_slice, slice_mk, ite_ovr, ovr_mk, id_eq, ite_self]
    | with_reducible apply reqDormant_ok

theorem execReqRecovery_ok (q : List Instr)  (_m : Master) (s : State) (s' : State) (hok : Ok q (kept s)) (hx : execReqRecovery _m s = .next s') : Ok q (kept s') := by
  refine done_ok q _ s' ?_ hx
  repeat' first
    | with_reducible assumption
    | simp -proj only [↓mk_kept, kept_eta, ↓ite_kept, ite_fst, ite_snd, fst_mk, snd_mk, ite_ans, ans_mk, ite_run, run_mk, ite_slice, slice_mk, ite_ovr, ovr_mk, id_eq, ite_self]
    | with_reducible apply reqRecovery_ok

theorem execReqService_ok (q : List Instr)  (_m : Master) (s : State) (s' : State) (hok : Ok q (kept s)) (hx : execReqService _m s = .next s') : Ok q (kept s') := by
  refine done_ok q _ s' ?_ hx
  repeat' first
    | with_reducible assumption
    | simp -proj only [↓mk_kept, kept_eta, ↓ite_kept, ite_fst, ite_snd, fst_mk, snd_mk, ite_ans, ans_mk, ite_run, run_mk, ite_slice, slice_mk, ite_ovr, ovr_mk, id_eq, ite_self]
    | with_reducible apply reqService_ok

theorem execCollectReport_ok (q : List Instr)  (r : Report) (s : State) (s' : State) (hok : Ok q (kept s)) (hx : execCollectReport r s = .next s') : Ok q (kept s') := by
  refine done_ok q _ s' ?_ hx
  repeat' first
    | with_reducible assumption
    | simp -proj only [collectReport_kept]

theorem execCoalesceWindow_ok (q : List Instr)  (index : ℕ) (s : State) (s' : State) (hok : Ok q (kept s)) (hx : execCoalesceWindow index s = .next s') : Ok q (kept s') := by
  refine done_ok q _ s' ?_ hx
  repeat' first
    | with_reducible assumption
    | simp -proj only [coalesceWindow_kept]

theorem execErrPop_ok (q : List Instr)  (_m : Master) (v : Word) (s : State) (s' : State) (hok : Ok q (kept s)) (hx : execErrPop _m v s = .next s') : Ok q (kept s') := by
  refine done_ok q _ s' ?_ hx
  repeat' first
    | with_reducible assumption
    | simp -proj only [errPopWrite_kept]

theorem execClrLost_ok (q : List Instr)  (_m : Master) (v : Word) (s : State) (s' : State) (hok : Ok q (kept s)) (hx : execClrLost _m v s = .next s') : Ok q (kept s') := by
  refine done_ok q _ s' ?_ hx
  repeat' first
    | with_reducible assumption
    | simp -proj only [errPopWrite_kept]

theorem execInjArm_ok (q : List Instr)  (m : Master) (v : Word) (s : State) (s' : State) (hok : Ok q (kept s)) (hx : execInjArm m v s = .next s') : Ok q (kept s') := by
  refine done_ok q _ s' ?_ hx
  repeat' first
    | with_reducible assumption
    | simp -proj only [injCtrlWrite_kept]

theorem execInjDisarm_ok (q : List Instr)  (m : Master) (v : Word) (s : State) (s' : State) (hok : Ok q (kept s)) (hx : execInjDisarm m v s = .next s') : Ok q (kept s') := by
  refine done_ok q _ s' ?_ hx
  repeat' first
    | with_reducible assumption
    | simp -proj only [injCtrlWrite_kept]

theorem execAssayNow_ok (q : List Instr)  (_m : Master) (s : State) (s' : State) (hok : Ok q (kept s)) (hx : execAssayNow _m s = .next s') : Ok q (kept s') := by
  refine done_ok q _ s' ?_ hx
  repeat' first
    | with_reducible assumption
    | simp -proj only [↓mk_kept, kept_eta, ↓ite_kept, ite_fst, ite_snd, fst_mk, snd_mk, ite_ans, ans_mk, ite_run, run_mk, ite_slice, slice_mk, ite_ovr, ovr_mk, id_eq, ite_self]
    | with_reducible apply testRequest_ok

theorem execSerdesAdapt_ok (q : List Instr)  (_m : Master) (s : State) (s' : State) (hok : Ok q (kept s)) (hx : execSerdesAdapt _m s = .next s') : Ok q (kept s') := by
  refine done_ok q _ s' ?_ hx
  repeat' first
    | with_reducible assumption
    | simp -proj only [↓mk_kept, kept_eta, ↓ite_kept, ite_fst, ite_snd, fst_mk, snd_mk, ite_ans, ans_mk, ite_run, run_mk, ite_slice, slice_mk, ite_ovr, ovr_mk, id_eq, ite_self]
    | with_reducible apply testRequest_ok

theorem execDramTrack_ok (q : List Instr)  (_m : Master) (s : State) (s' : State) (hok : Ok q (kept s)) (hx : execDramTrack _m s = .next s') : Ok q (kept s') := by
  refine done_ok q _ s' ?_ hx
  repeat' first
    | with_reducible assumption
    | simp -proj only [↓mk_kept, kept_eta, ↓ite_kept, ite_fst, ite_snd, fst_mk, snd_mk, ite_ans, ans_mk, ite_run, run_mk, ite_slice, slice_mk, ite_ovr, ovr_mk, id_eq, ite_self]
    | with_reducible apply testRequest_ok

theorem execMemBist_ok (q : List Instr)  (_m : Master) (s : State) (s' : State) (hok : Ok q (kept s)) (hx : execMemBist _m s = .next s') : Ok q (kept s') := by
  refine done_ok q _ s' ?_ hx
  repeat' first
    | with_reducible assumption
    | simp -proj only [↓mk_kept, kept_eta, ↓ite_kept, ite_fst, ite_snd, fst_mk, snd_mk, ite_ans, ans_mk, ite_run, run_mk, ite_slice, slice_mk, ite_ovr, ovr_mk, id_eq, ite_self]
    | with_reducible apply testRequest_ok

theorem execCoreBist_ok (q : List Instr)  (_m : Master) (s : State) (s' : State) (hok : Ok q (kept s)) (hx : execCoreBist _m s = .next s') : Ok q (kept s') := by
  refine done_ok q _ s' ?_ hx
  repeat' first
    | with_reducible assumption
    | simp -proj only [↓mk_kept, kept_eta, ↓ite_kept, ite_fst, ite_snd, fst_mk, snd_mk, ite_ans, ans_mk, ite_run, run_mk, ite_slice, slice_mk, ite_ovr, ovr_mk, id_eq, ite_self]
    | with_reducible apply testRequest_ok

theorem execSliceTest_ok (q : List Instr)  (_m : Master) (s : State) (s' : State) (hok : Ok q (kept s)) (hx : execSliceTest _m s = .next s') : Ok q (kept s') := by
  refine done_ok q _ s' ?_ hx
  repeat' first
    | with_reducible assumption
    | simp -proj only [↓mk_kept, kept_eta, ↓ite_kept, ite_fst, ite_snd, fst_mk, snd_mk, ite_ans, ans_mk, ite_run, run_mk, ite_slice, slice_mk, ite_ovr, ovr_mk, id_eq, ite_self]
    | with_reducible apply testRequest_ok

theorem execSapLoop_ok (q : List Instr)  (_m : Master) (s : State) (s' : State) (hok : Ok q (kept s)) (hx : execSapLoop _m s = .next s') : Ok q (kept s') := by
  refine done_ok q _ s' ?_ hx
  repeat' first
    | with_reducible assumption
    | simp -proj only [↓mk_kept, kept_eta, ↓ite_kept, ite_fst, ite_snd, fst_mk, snd_mk, ite_ans, ans_mk, ite_run, run_mk, ite_slice, slice_mk, ite_ovr, ovr_mk, id_eq, ite_self]
    | with_reducible apply testRequest_ok

theorem execSerdesLoop_ok (q : List Instr)  (_m : Master) (s : State) (s' : State) (hok : Ok q (kept s)) (hx : execSerdesLoop _m s = .next s') : Ok q (kept s') := by
  refine done_ok q _ s' ?_ hx
  repeat' first
    | with_reducible assumption
    | simp -proj only [↓mk_kept, kept_eta, ↓ite_kept, ite_fst, ite_snd, fst_mk, snd_mk, ite_ans, ans_mk, ite_run, run_mk, ite_slice, slice_mk, ite_ovr, ovr_mk, id_eq, ite_self]
    | with_reducible apply testRequest_ok
    | with_reducible apply runWaiting_ok

theorem execDramTrain_ok (q : List Instr)  (_m : Master) (s : State) (s' : State) (hok : Ok q (kept s)) (hx : execDramTrain _m s = .next s') : Ok q (kept s') := by
  refine done_ok q _ s' ?_ hx
  repeat' first
    | with_reducible assumption
    | simp -proj only [↓mk_kept, kept_eta, ↓ite_kept, ite_fst, ite_snd, fst_mk, snd_mk, ite_ans, ans_mk, ite_run, run_mk, ite_slice, slice_mk, ite_ovr, ovr_mk, id_eq, ite_self]
    | with_reducible apply testRequest_ok

theorem execTsenseCal_ok (q : List Instr)  (_m : Master) (s : State) (s' : State) (hok : Ok q (kept s)) (hx : execTsenseCal _m s = .next s') : Ok q (kept s') := by
  refine done_ok q _ s' ?_ hx
  repeat' first
    | with_reducible assumption
    | simp -proj only [↓mk_kept, kept_eta, ↓ite_kept, ite_fst, ite_snd, fst_mk, snd_mk, ite_ans, ans_mk, ite_run, run_mk, ite_slice, slice_mk, ite_ovr, ovr_mk, id_eq, ite_self]
    | with_reducible apply testRequest_ok

theorem execTestComplete_ok (q : List Instr)  (pass : Bool) (calFail : Bool) (failures : Word) (first : Word) (us : Word) (rows : List (ℕ × ℕ)) (s : State) (s' : State) (hok : Ok q (kept s)) (hx : execTestComplete pass calFail failures first us rows s = .next s') : Ok q (kept s') := by
  refine done_ok q _ s' ?_ hx
  repeat' first
    | with_reducible assumption
    | simp -proj only [↓mk_kept, kept_eta, ↓ite_kept, ite_fst, ite_snd, fst_mk, snd_mk, ite_ans, ans_mk, ite_run, run_mk, ite_slice, slice_mk, ite_ovr, ovr_mk, id_eq, ite_self]
    | with_reducible apply testComplete_ok

theorem execResultSnapshotRead_ok (q : List Instr)  (m : Master) (addr : ℕ) (s : State) (s' : State) (hok : Ok q (kept s)) (hx : execResultSnapshotRead m addr s = .next s') : Ok q (kept s') := by
  refine done_ok q _ s' ?_ hx
  repeat' first
    | with_reducible assumption
    | simp -proj only [↓mk_kept, kept_eta, ↓ite_kept, ite_fst, ite_snd, fst_mk, snd_mk, ite_ans, ans_mk, ite_run, run_mk, ite_slice, slice_mk, ite_ovr, ovr_mk, id_eq, ite_self]
    | with_reducible apply busRun_ok
    | with_reducible apply runWaiting_ok

theorem execXpSel_ok (q : List Instr)  (m : Master) (v : Word) (s : State) (s' : State) (hok : Ok q (kept s)) (hx : execXpSel m v s = .next s') : Ok q (kept s') := by
  refine done_ok q _ s' ?_ hx
  repeat' first
    | with_reducible assumption
    | simp -proj only [xpSelWrite_kept]

theorem execXpShd_ok (q : List Instr)  (m : Master) (v : Word) (s : State) (s' : State) (hok : Ok q (kept s)) (hx : execXpShd m v s = .next s') : Ok q (kept s') := by
  refine done_ok q _ s' ?_ hx
  repeat' first
    | with_reducible assumption
    | simp -proj only [↓mk_kept, kept_eta, ↓ite_kept, ite_fst, ite_snd, fst_mk, snd_mk, ite_ans, ans_mk, ite_run, run_mk, ite_slice, slice_mk, ite_ovr, ovr_mk, id_eq, ite_self]
    | with_reducible apply xpShdWrite_ok

theorem execSinkSel_ok (q : List Instr)  (m : Master) (v : Word) (s : State) (s' : State) (hok : Ok q (kept s)) (hx : execSinkSel m v s = .next s') : Ok q (kept s') := by
  refine done_ok q _ s' ?_ hx
  repeat' first
    | with_reducible assumption
    | simp -proj only [sinkSelWrite_kept]

theorem execLatSel_ok (q : List Instr)  (m : Master) (v : Word) (s : State) (s' : State) (hok : Ok q (kept s)) (hx : execLatSel m v s = .next s') : Ok q (kept s') := by
  refine done_ok q _ s' ?_ hx
  repeat' first
    | with_reducible assumption
    | simp -proj only [latSelWrite_kept]

theorem execCoreSel_ok (q : List Instr)  (m : Master) (v : Word) (s : State) (s' : State) (hok : Ok q (kept s)) (hx : execCoreSel m v s = .next s') : Ok q (kept s') := by
  refine done_ok q _ s' ?_ hx
  repeat' first
    | with_reducible assumption
    | simp -proj only [coreSelWrite_kept]

theorem execPcieMemoryWrite_ok (q : List Instr)  (bar2 : Bool) (off : ℕ) (bytes : List (Option Byte)) (s : State) (s' : State) (hok : Ok q (kept s)) (hx : execPcieMemoryWrite bar2 off bytes s = .next s') : Ok q (kept s') := by
  refine done_ok q _ s' ?_ hx
  repeat' first
    | with_reducible assumption
    | simp -proj only [↓mk_kept, kept_eta, ↓ite_kept, ite_fst, ite_snd, fst_mk, snd_mk, ite_ans, ans_mk, ite_run, run_mk, ite_slice, slice_mk, ite_ovr, ovr_mk, id_eq, ite_self]
    | with_reducible apply busRun_ok
    | with_reducible apply runWaiting_ok

theorem execPcieMemoryRead_ok (q : List Instr)  (bar2 : Bool) (off : ℕ) (len : ℕ) (s : State) (s' : State) (hok : Ok q (kept s)) (hx : execPcieMemoryRead bar2 off len s = .next s') : Ok q (kept s') := by
  refine done_ok q _ s' ?_ hx
  repeat' first
    | with_reducible assumption
    | simp -proj only [↓mk_kept, kept_eta, ↓ite_kept, ite_fst, ite_snd, fst_mk, snd_mk, ite_ans, ans_mk, ite_run, run_mk, ite_slice, slice_mk, ite_ovr, ovr_mk, id_eq, ite_self]
    | with_reducible apply busRun_ok
    | with_reducible apply runWaiting_ok

theorem execPcieConfigRequest_ok (q : List Instr)  (_off : ℕ) (power : Option (BitVec 2)) (s : State) (s' : State) (hok : Ok q (kept s)) (hx : execPcieConfigRequest _off power s = .next s') : Ok q (kept s') := by
  refine done_ok q _ s' ?_ hx
  repeat' first
    | with_reducible assumption
    | simp -proj only [pcieConfig_kept]

theorem execPcieLinkDown_ok (q : List Instr)  (prog : Option Burst) (s : State) (s' : State) (hok : Ok q (kept s)) (hx : execPcieLinkDown prog s = .next s') : Ok q (kept s') := by
  refine done_ok q _ s' ?_ hx
  repeat' first
    | with_reducible assumption
    | simp -proj only [↓mk_kept, kept_eta, ↓ite_kept, ite_fst, ite_snd, fst_mk, snd_mk, ite_ans, ans_mk, ite_run, run_mk, ite_slice, slice_mk, ite_ovr, ovr_mk, id_eq, ite_self]
    | with_reducible apply pcieDown_ok
    | with_reducible apply busPerform_ok
    | with_reducible apply runWaiting_ok

theorem execPcieHotReset_ok (q : List Instr)  (prog : Option Burst) (s : State) (s' : State) (hok : Ok q (kept s)) (hx : execPcieHotReset prog s = .next s') : Ok q (kept s') := by
  refine done_ok q _ s' ?_ hx
  repeat' first
    | with_reducible assumption
    | simp -proj only [↓mk_kept, kept_eta, ↓ite_kept, ite_fst, ite_snd, fst_mk, snd_mk, ite_ans, ans_mk, ite_run, run_mk, ite_slice, slice_mk, ite_ovr, ovr_mk, id_eq, ite_self]
    | with_reducible apply endpointPulse_ok
    | with_reducible apply runWaiting_ok

theorem execFunctionLevelReset_ok (q : List Instr)  (prog : Option Burst) (s : State) (s' : State) (hok : Ok q (kept s)) (hx : execFunctionLevelReset prog s = .next s') : Ok q (kept s') := by
  refine done_ok q _ s' ?_ hx
  repeat' first
    | with_reducible assumption
    | simp -proj only [↓mk_kept, kept_eta, ↓ite_kept, ite_fst, ite_snd, fst_mk, snd_mk, ite_ans, ans_mk, ite_run, run_mk, ite_slice, slice_mk, ite_ovr, ovr_mk, id_eq, ite_self]
    | with_reducible apply endpointPulse_ok
    | with_reducible apply runWaiting_ok

theorem execSpiWrite_ok (q : List Instr)  (addr : BitVec 36) (bytes : List Byte) (s : State) (s' : State) (hok : Ok q (kept s)) (hx : execSpiWrite addr bytes s = .next s') : Ok q (kept s') := by
  refine done_ok q _ s' ?_ hx
  repeat' first
    | with_reducible assumption
    | simp -proj only [↓mk_kept, kept_eta, ↓ite_kept, ite_fst, ite_snd, fst_mk, snd_mk, ite_ans, ans_mk, ite_run, run_mk, ite_slice, slice_mk, ite_ovr, ovr_mk, id_eq, ite_self]
    | with_reducible apply spiWriteFrame_ok
    | with_reducible apply runWaiting_ok

theorem execSpiRead_ok (q : List Instr)  (addr : BitVec 36) (len : ℕ) (s : State) (s' : State) (hok : Ok q (kept s)) (hx : execSpiRead addr len s = .next s') : Ok q (kept s') := by
  refine done_ok q _ s' ?_ hx
  repeat' first
    | with_reducible assumption
    | simp -proj only [↓mk_kept, kept_eta, ↓ite_kept, ite_fst, ite_snd, fst_mk, snd_mk, ite_ans, ans_mk, ite_run, run_mk, ite_slice, slice_mk, ite_ovr, ovr_mk, id_eq, ite_self]
    | with_reducible apply spiReadFrame_ok
    | with_reducible apply runWaiting_ok

theorem execQspiCmd_ok (q : List Instr)  (m : Master) (v : Word) (s : State) (s' : State) (hok : Ok q (kept s)) (hx : execQspiCmd m v s = .next s') : Ok q (kept s') := by
  refine done_ok q _ s' ?_ hx
  repeat' first
    | with_reducible assumption
    | simp -proj only [qspiCmdWrite_kept]

theorem execQspiDone_ok (q : List Instr)  (data : List Byte) (s : State) (s' : State) (hok : Ok q (kept s)) (hx : execQspiDone data s = .next s') : Ok q (kept s') := by
  refine done_ok q _ s' ?_ hx
  repeat' first
    | with_reducible assumption
    | simp -proj only [qspiDone_kept]

theorem execSysIrqAck_ok (q : List Instr)  (_m : Master) (v : Word) (s : State) (s' : State) (hok : Ok q (kept s)) (hx : execSysIrqAck _m v s = .next s') : Ok q (kept s') := by
  refine done_ok q _ s' ?_ hx
  repeat' first
    | with_reducible assumption
    | simp -proj only [irqAck_kept]

theorem execMsixUnmask_ok (q : List Instr)  (vec : Fin 64) (s : State) (s' : State) (hok : Ok q (kept s)) (hx : execMsixUnmask vec s = .next s') : Ok q (kept s') := by
  refine done_ok q _ s' ?_ hx
  repeat' first
    | with_reducible assumption
    | simp -proj only [msixUnmask_kept]

theorem execRegisterWrite_ok (q : List Instr)  (m : Master) (off : ℕ) (v : Word) (s : State) (s' : State) (hok : Ok q (kept s)) (hx : execRegisterWrite m off v s = .next s') : Ok q (kept s') := by
  refine done_ok q _ s' ?_ hx
  repeat' first
    | with_reducible assumption
    | simp -proj only [↓mk_kept, kept_eta, ↓ite_kept, ite_fst, ite_snd, fst_mk, snd_mk, ite_ans, ans_mk, ite_run, run_mk, ite_slice, slice_mk, ite_ovr, ovr_mk, id_eq, ite_self]
    | with_reducible apply busRun_ok
    | with_reducible apply runWaiting_ok

theorem execFsEdge_ok (q : List Instr) (p : Fin 48) (t : Time) (rising : Bool) (f : DiFrame) (s : State) (s' : State) (hok : Ok q (kept s)) (hx : execFsEdge p t rising f s = .next s') : Ok q (kept s') := by
  refine done_ok q _ s' ?_ hx
  repeat' first
    | with_reducible assumption
    | simp -proj only [fsEdge_kept]

theorem execRefFirstEdge_ok (q : List Instr) (r : Fin 2) (s : State) (s' : State) (hok : Ok q (kept s)) (hx : execRefFirstEdge r s = .next s') : Ok q (kept s') := by
  refine done_ok q _ s' ?_ hx
  repeat' first
    | with_reducible assumption
    | simp -proj only [↓ite_kept, ite_self, refSelect_kept, alignJoin_kept, refGain_kept]

theorem execPwrMonPublish_ok (q : List Instr)  (mv : Word) (tj : Word) (mw : Word) (s : State) (s' : State) (hok : Ok q (kept s)) (hx : execPwrMonPublish mv tj mw s = .next s') : Ok q (kept s') := by
  refine done_ok q _ s' ?_ hx
  repeat' first
    | with_reducible assumption
    | simp -proj only [↓mk_kept, kept_eta]

theorem execPcieLinkUp_ok (q : List Instr)  (speed : BitVec 4) (width : BitVec 3) (s : State) (s' : State) (hok : Ok q (kept s)) (hx : execPcieLinkUp speed width s = .next s') : Ok q (kept s') := by
  refine done_ok q _ s' ?_ hx
  repeat' first
    | with_reducible assumption
    | simp -proj only [pcieUp_kept]

theorem execFinish_ok (q : List Instr)  (s : State) (s' : State) (hok : Ok q (kept s)) (hx : execFinish s = .next s') : Ok q (kept s') := by
  refine done_ok q _ s' ?_ hx
  repeat' first
    | with_reducible assumption
    | simp -proj only [↓mk_kept, kept_eta, ↓ite_kept, ite_fst, ite_snd, fst_mk, snd_mk, ite_ans, ans_mk, ite_run, run_mk, ite_slice, slice_mk, ite_ovr, ovr_mk, id_eq, ite_self]
    | with_reducible apply finishStroke_ok

theorem execCallAccept_ok (q : List Instr)  (s : State) (s' : State) (hok : Ok q (kept s)) (hx : execCallAccept s = .next s') : Ok q (kept s') := by
  refine done_ok q _ s' ?_ hx
  repeat' first
    | with_reducible assumption
    | simp -proj only [↓mk_kept, kept_eta, ↓ite_kept, ite_fst, ite_snd, fst_mk, snd_mk, ite_ans, ans_mk, ite_run, run_mk, ite_slice, slice_mk, ite_ovr, ovr_mk, id_eq, ite_self]
    | with_reducible apply callAccept_ok

theorem execSetParam_ok (q : List Instr)  (s : State) (s' : State) (hok : Ok q (kept s)) (hx : execSetParam s = .next s') : Ok q (kept s') := by
  refine done_ok q _ s' ?_ hx
  repeat' first
    | with_reducible assumption
    | simp -proj only [↓mk_kept, kept_eta, ↓ite_kept, ite_fst, ite_snd, fst_mk, snd_mk, ite_ans, ans_mk, ite_run, run_mk, ite_slice, slice_mk, ite_ovr, ovr_mk, id_eq, ite_self]
    | with_reducible apply setParam_ok
    | with_reducible apply applyCall_ok

theorem execSwapBank_ok (q : List Instr)  (s : State) (s' : State) (hok : Ok q (kept s)) (hx : execSwapBank s = .next s') : Ok q (kept s') := by
  refine done_ok q _ s' ?_ hx
  repeat' first
    | with_reducible assumption
    | simp -proj only [↓mk_kept, kept_eta, ↓ite_kept, ite_fst, ite_snd, fst_mk, snd_mk, ite_ans, ans_mk, ite_run, run_mk, ite_slice, slice_mk, ite_ovr, ovr_mk, id_eq, ite_self]
    | with_reducible apply swapBank_ok
    | with_reducible apply applyCall_ok

theorem execRoute_ok (q : List Instr)  (s : State) (s' : State) (hok : Ok q (kept s)) (hx : execRoute s = .next s') : Ok q (kept s') := by
  refine done_ok q _ s' ?_ hx
  repeat' first
    | with_reducible assumption
    | simp -proj only [routeCall_kept]
    | with_reducible apply applyCall_ok
    | split
    | intro

theorem execXpGain_ok (q : List Instr)  (s : State) (s' : State) (hok : Ok q (kept s)) (hx : execXpGain s = .next s') : Ok q (kept s') := by
  refine done_ok q _ s' ?_ hx
  repeat' first
    | with_reducible assumption
    | simp -proj only [fst_mk]
    | with_reducible apply xpGain_ok
    | with_reducible apply applyCall_ok
    | split
    | intro

theorem execXpSwap_ok (q : List Instr)  (s : State) (s' : State) (hok : Ok q (kept s)) (hx : execXpSwap s = .next s') : Ok q (kept s') := by
  refine done_ok q _ s' ?_ hx
  repeat' first
    | with_reducible assumption
    | simp -proj only [fst_mk, xpSwap_kept]
    | with_reducible apply applyCall_ok
    | split
    | intro

theorem execSceneArm_ok (q : List Instr)  (s : State) (s' : State) (hok : Ok q (kept s)) (hx : execSceneArm s = .next s') : Ok q (kept s') := by
  refine done_ok q _ s' ?_ hx
  repeat' first
    | with_reducible assumption
    | simp -proj only [↓mk_kept, kept_eta, ↓ite_kept, ite_fst, ite_snd, fst_mk, snd_mk, ite_ans, ans_mk, ite_run, run_mk, ite_slice, slice_mk, ite_ovr, ovr_mk, id_eq, ite_self]
    | with_reducible apply sceneArm_ok
    | with_reducible apply applyCall_ok

theorem execSceneRecall_ok (q : List Instr)  (s : State) (s' : State) (hok : Ok q (kept s)) (hx : execSceneRecall s = .next s') : Ok q (kept s') := by
  refine done_ok q _ s' ?_ hx
  repeat' first
    | with_reducible assumption
    | simp -proj only [↓mk_kept, kept_eta, ↓ite_kept, ite_fst, ite_snd, fst_mk, snd_mk, ite_ans, ans_mk, ite_run, run_mk, ite_slice, slice_mk, ite_ovr, ovr_mk, id_eq, ite_self]
    | with_reducible apply sceneRecall_ok
    | with_reducible apply applyCall_ok

theorem execSceneXpAlignSwap_ok (q : List Instr)  (s : State) (s' : State) (hok : Ok q (kept s)) (hx : execSceneXpAlignSwap s = .next s') : Ok q (kept s') := by
  refine done_ok q _ s' ?_ hx
  repeat' first
    | with_reducible assumption
    | simp -proj only [alignSwap_kept]

theorem execSceneDone_ok (q : List Instr)  (s : State) (s' : State) (hok : Ok q (kept s)) (hx : execSceneDone s = .next s') : Ok q (kept s') := by
  refine done_ok q _ s' ?_ hx
  repeat' first
    | with_reducible assumption
    | simp -proj only [↓mk_kept, kept_eta, ↓ite_kept, ite_fst, ite_snd, fst_mk, snd_mk, ite_ans, ans_mk, ite_run, run_mk, ite_slice, slice_mk, ite_ovr, ovr_mk, id_eq, ite_self]
    | with_reducible apply sceneDone_ok

theorem execSceneCancel_ok (q : List Instr)  (s : State) (s' : State) (hok : Ok q (kept s)) (hx : execSceneCancel s = .next s') : Ok q (kept s') := by
  refine done_ok q _ s' ?_ hx
  repeat' first
    | with_reducible assumption
    | simp -proj only [↓mk_kept, kept_eta, ↓ite_kept, ite_fst, ite_snd, fst_mk, snd_mk, ite_ans, ans_mk, ite_run, run_mk, ite_slice, slice_mk, ite_ovr, ovr_mk, id_eq, ite_self]
    | with_reducible apply sceneCancel_ok
    | with_reducible apply applyCall_ok

theorem execMute_ok (q : List Instr)  (s : State) (s' : State) (hok : Ok q (kept s)) (hx : execMute s = .next s') : Ok q (kept s') := by
  refine done_ok q _ s' ?_ hx
  repeat' first
    | with_reducible assumption
    | simp -proj only [↓mk_kept, kept_eta, ↓ite_kept, ite_fst, ite_snd, fst_mk, snd_mk, ite_ans, ans_mk, ite_run, run_mk, ite_slice, slice_mk, ite_ovr, ovr_mk, id_eq, ite_self]
    | with_reducible apply muteCall_ok
    | with_reducible apply applyCall_ok

theorem execPortMask_ok (q : List Instr)  (s : State) (s' : State) (hok : Ok q (kept s)) (hx : execPortMask s = .next s') : Ok q (kept s') := by
  refine done_ok q _ s' ?_ hx
  repeat' first
    | with_reducible assumption
    | simp -proj only [fst_mk, portMask_kept]
    | with_reducible apply applyCall_ok
    | split
    | intro

theorem execPortRamp_ok (q : List Instr)  (s : State) (s' : State) (hok : Ok q (kept s)) (hx : execPortRamp s = .next s') : Ok q (kept s') := by
  refine done_ok q _ s' ?_ hx
  repeat' first
    | with_reducible assumption
    | simp -proj only [fst_mk, portRamp_kept]
    | with_reducible apply applyCall_ok
    | split
    | intro

theorem execMark_ok (q : List Instr)  (s : State) (s' : State) (hok : Ok q (kept s)) (hx : execMark s = .next s') : Ok q (kept s') := by
  refine done_ok q _ s' ?_ hx
  repeat' first
    | with_reducible assumption
    | simp -proj only [fst_mk]
    | with_reducible apply applyCall_ok
    | split
    | intro

theorem execTwinHandover_ok (q : List Instr)  (s : State) (s' : State) (hok : Ok q (kept s)) (hx : execTwinHandover s = .next s') : Ok q (kept s') := by
  refine done_ok q _ s' ?_ hx
  repeat' first
    | with_reducible assumption
    | simp -proj only [handoverCall_kept]
    | with_reducible apply applyCall_ok
    | split
    | intro

theorem execPortGroupAction_ok (q : List Instr)  (s : State) (s' : State) (hok : Ok q (kept s)) (hx : execPortGroupAction s = .next s') : Ok q (kept s') := by
  refine done_ok q _ s' ?_ hx
  repeat' first
    | with_reducible assumption
    | simp -proj only [grpDue_kept]

theorem execHqTxSend_ok (q : List Instr)  (s : State) (s' : State) (hok : Ok q (kept s)) (hx : execHqTxSend s = .next s') : Ok q (kept s') := by
  refine done_ok q _ s' ?_ hx
  repeat' first
    | with_reducible assumption
    | simp -proj only [↓mk_kept, kept_eta, ↓ite_kept, ite_fst, ite_snd, fst_mk, snd_mk, ite_ans, ans_mk, ite_run, run_mk, ite_slice, slice_mk, ite_ovr, ovr_mk, id_eq, ite_self]
    | with_reducible apply hqTxSend_ok

theorem execStrCntPublish_ok (q : List Instr)  (s : State) (s' : State) (hok : Ok q (kept s)) (hx : execStrCntPublish s = .next s') : Ok q (kept s') := by
  refine done_ok q _ s' ?_ hx
  repeat' first
    | with_reducible assumption
    | simp -proj only [strPublish_kept]

theorem execHoldSlewDone_ok (q : List Instr) (s : State) (s' : State) (hok : Ok q (kept s)) (hx : execHoldSlewDone s = .next s') : Ok q (kept s') := by
  refine done_ok q _ s' ?_ hx
  repeat' first
    | with_reducible assumption
    | simp -proj only [holdEnd_kept]

theorem execFreqSlewDone_ok (q : List Instr)  (s : State) (s' : State) (hok : Ok q (kept s)) (hx : execFreqSlewDone s = .next s') : Ok q (kept s') := by
  refine done_ok q _ s' ?_ hx
  repeat' first
    | with_reducible assumption
    | simp -proj only [freqDone_kept]

theorem execBuildoutDone_ok (q : List Instr)  (s : State) (s' : State) (hok : Ok q (kept s)) (hx : execBuildoutDone s = .next s') : Ok q (kept s') := by
  refine done_ok q _ s' ?_ hx
  repeat' first
    | with_reducible assumption
    | simp -proj only [buildoutEnd_kept]

theorem execLoFault_ok (q : List Instr)  (s : State) (s' : State) (hok : Ok q (kept s)) (hx : execLoFault s = .next s') : Ok q (kept s') := by
  refine done_ok q _ s' ?_ hx
  repeat' first
    | with_reducible assumption
    | simp -proj only [loFaultEvent_kept]

theorem execYieldComplete_ok (q : List Instr)  (s : State) (s' : State) (hok : Ok q (kept s)) (hx : execYieldComplete s = .next s') : Ok q (kept s') := by
  refine done_ok q _ s' ?_ hx
  repeat' first
    | with_reducible assumption
    | simp -proj only [yieldComplete_kept]

theorem execLeaseExpired_ok (q : List Instr)  (s : State) (s' : State) (hok : Ok q (kept s)) (hx : execLeaseExpired s = .next s') : Ok q (kept s') := by
  refine done_ok q _ s' ?_ hx
  repeat' first
    | with_reducible assumption
    | simp -proj only [leaseExpired_kept]

theorem execAcquireCox_ok (q : List Instr)  (s : State) (s' : State) (hok : Ok q (kept s)) (hx : execAcquireCox s = .next s') : Ok q (kept s') := by
  refine done_ok q _ s' ?_ hx
  repeat' first
    | with_reducible assumption
    | simp -proj only [acquireCox_kept]

theorem execHandoverRelease_ok (q : List Instr)  (s : State) (s' : State) (hok : Ok q (kept s)) (hx : execHandoverRelease s = .next s') : Ok q (kept s') := by
  refine done_ok q _ s' ?_ hx
  repeat' first
    | with_reducible assumption
    | simp -proj only [handoverRelease_kept]

theorem execResyncCutover_ok (q : List Instr)  (s : State) (s' : State) (hok : Ok q (kept s)) (hx : execResyncCutover s = .next s') : Ok q (kept s') := by
  refine done_ok q _ s' ?_ hx
  repeat' first
    | with_reducible assumption
    | with_reducible apply resyncCutover_ok

theorem execTwinLinkUp_ok (q : List Instr)  (s : State) (s' : State) (hok : Ok q (kept s)) (hx : execTwinLinkUp s = .next s') : Ok q (kept s') := by
  refine done_ok q _ s' ?_ hx
  repeat' first
    | with_reducible assumption
    | simp -proj only [twinUp_kept]

theorem execSlateStoreDone_ok (q : List Instr)  (s : State) (s' : State) (hok : Ok q (kept s)) (hx : execSlateStoreDone s = .next s') : Ok q (kept s') := by
  refine done_ok q _ s' ?_ hx
  repeat' first
    | with_reducible assumption
    | simp -proj only [↓mk_kept, kept_eta, ↓ite_kept, ite_fst, ite_snd, fst_mk, snd_mk, ite_ans, ans_mk, ite_run, run_mk, ite_slice, slice_mk, ite_ovr, ovr_mk, id_eq, ite_self]
    | with_reducible apply slateStoreDone_ok

theorem execVglitch_ok (q : List Instr)  (s : State) (s' : State) (hok : Ok q (kept s)) (hx : execVglitch s = .next s') : Ok q (kept s') := by
  refine done_ok q _ s' ?_ hx
  repeat' first
    | with_reducible assumption
    | simp -proj only [↓mk_kept, kept_eta, ↓ite_kept, ite_fst, ite_snd, fst_mk, snd_mk, ite_ans, ans_mk, ite_run, run_mk, ite_slice, slice_mk, ite_ovr, ovr_mk, id_eq, ite_self]
    | with_reducible apply geodeWipe_ok

theorem execTglitch_ok (q : List Instr)  (s : State) (s' : State) (hok : Ok q (kept s)) (hx : execTglitch s = .next s') : Ok q (kept s') := by
  refine done_ok q _ s' ?_ hx
  repeat' first
    | with_reducible assumption
    | simp -proj only [↓mk_kept, kept_eta, ↓ite_kept, ite_fst, ite_snd, fst_mk, snd_mk, ite_ans, ans_mk, ite_run, run_mk, ite_slice, slice_mk, ite_ovr, ovr_mk, id_eq, ite_self]
    | with_reducible apply geodeWipe_ok

theorem execVsysPowerOn_ok (q : List Instr)  (s : State) (s' : State) (hok : Ok q (kept s)) (hx : execVsysPowerOn s = .next s') : Ok q (kept s') := by
  refine done_ok q _ s' ?_ hx
  repeat' first
    | with_reducible assumption
    | simp -proj only [↓mk_kept, kept_eta, ↓ite_kept, ite_fst, ite_snd, fst_mk, snd_mk, ite_ans, ans_mk, ite_run, run_mk, ite_slice, slice_mk, ite_ovr, ovr_mk, id_eq, ite_self]
    | with_reducible apply sysAssert_ok

theorem execBrownout_ok (q : List Instr)  (s : State) (s' : State) (hok : Ok q (kept s)) (hx : execBrownout s = .next s') : Ok q (kept s') := by
  refine done_ok q _ s' ?_ hx
  repeat' first
    | with_reducible assumption
    | simp -proj only [↓mk_kept, kept_eta, ↓ite_kept, ite_fst, ite_snd, fst_mk, snd_mk, ite_ans, ans_mk, ite_run, run_mk, ite_slice, slice_mk, ite_ovr, ovr_mk, id_eq, ite_self]
    | with_reducible apply sysAssert_ok

theorem execBootHostTimeout_ok (q : List Instr)  (s : State) (s' : State) (hok : Ok q (kept s)) (hx : execBootHostTimeout s = .next s') : Ok q (kept s') := by
  refine done_ok q _ s' ?_ hx
  repeat' first
    | with_reducible assumption
    | simp -proj only [hostTimeout_kept]

theorem execWake_ok (q : List Instr)  (s : State) (s' : State) (hok : Ok q (kept s)) (hx : execWake s = .next s') : Ok q (kept s') := by
  refine done_ok q _ s' ?_ hx
  repeat' first
    | with_reducible assumption
    | simp -proj only [↓mk_kept, kept_eta, ↓ite_kept, ite_fst, ite_snd, fst_mk, snd_mk, ite_ans, ans_mk, ite_run, run_mk, ite_slice, slice_mk, ite_ovr, ovr_mk, id_eq, ite_self]
    | with_reducible apply wakeUp_ok

theorem execDebugReset_ok (q : List Instr)  (s : State) (s' : State) (hok : Ok q (kept s)) (hx : execDebugReset s = .next s') : Ok q (kept s') := by
  refine done_ok q _ s' ?_ hx
  repeat' first
    | with_reducible assumption
    | simp -proj only [↓ite_kept]
    | with_reducible apply sysAssert_ok
    | split

theorem execWdtExpiry_ok (q : List Instr)  (s : State) (s' : State) (hok : Ok q (kept s)) (hx : execWdtExpiry s = .next s') : Ok q (kept s') := by
  refine done_ok q _ s' ?_ hx
  repeat' first
    | with_reducible assumption
    | simp -proj only [↓ite_kept]
    | with_reducible apply wdtFire_ok
    | split

theorem execVsysLow_ok (q : List Instr)  (s : State) (s' : State) (hok : Ok q (kept s)) (hx : execVsysLow s = .next s') : Ok q (kept s') := by
  refine done_ok q _ s' ?_ hx
  repeat' first
    | with_reducible assumption
    | simp -proj only [supplyEvent_kept]

theorem execVsysHigh_ok (q : List Instr)  (s : State) (s' : State) (hok : Ok q (kept s)) (hx : execVsysHigh s = .next s') : Ok q (kept s') := by
  refine done_ok q _ s' ?_ hx
  repeat' first
    | with_reducible assumption
    | simp -proj only [supplyEvent_kept]

theorem execRailFault_ok (q : List Instr)  (s : State) (s' : State) (hok : Ok q (kept s)) (hx : execRailFault s = .next s') : Ok q (kept s') := by
  refine done_ok q _ s' ?_ hx
  repeat' first
    | with_reducible assumption
    | simp -proj only [supplyEvent_kept]

theorem execThermWarn_ok (q : List Instr)  (s : State) (s' : State) (hok : Ok q (kept s)) (hx : execThermWarn s = .next s') : Ok q (kept s') := by
  refine done_ok q _ s' ?_ hx
  repeat' first
    | with_reducible assumption
    | simp -proj only [supplyEvent_kept]

theorem execThermFault_ok (q : List Instr)  (s : State) (s' : State) (hok : Ok q (kept s)) (hx : execThermFault s = .next s') : Ok q (kept s') := by
  refine done_ok q _ s' ?_ hx
  repeat' first
    | with_reducible assumption
    | simp -proj only [supplyEvent_kept]

theorem execThermTrip_ok (q : List Instr)  (s : State) (s' : State) (hok : Ok q (kept s)) (hx : execThermTrip s = .next s') : Ok q (kept s') := by
  refine done_ok q _ s' ?_ hx
  repeat' first
    | with_reducible assumption
    | simp -proj only [↓mk_kept, kept_eta, ↓ite_kept, ite_fst, ite_snd, fst_mk, snd_mk, ite_ans, ans_mk, ite_run, run_mk, ite_slice, slice_mk, ite_ovr, ovr_mk, id_eq, ite_self]
    | with_reducible apply thermTrip_ok

theorem execRetainEnter_ok (q : List Instr)  (s : State) (s' : State) (hok : Ok q (kept s)) (hx : execRetainEnter s = .next s') : Ok q (kept s') := by
  refine done_ok q _ s' ?_ hx
  repeat' first
    | with_reducible assumption
    | simp -proj only [↓mk_kept, kept_eta, ↓ite_kept, ite_fst, ite_snd, fst_mk, snd_mk, ite_ans, ans_mk, ite_run, run_mk, ite_slice, slice_mk, ite_ovr, ovr_mk, id_eq, ite_self]
    | with_reducible apply retainEnter_ok

theorem execSpiStatus_ok (q : List Instr)  (s : State) (s' : State) (hok : Ok q (kept s)) (hx : execSpiStatus s = .next s') : Ok q (kept s') := by
  refine done_ok q _ s' ?_ hx
  repeat' first
    | with_reducible assumption
    | simp -proj only [spiStatus_kept]

theorem execXinReturn_ok (q : List Instr)  (s : State) (s' : State) (hok : Ok q (kept s)) (hx : execXinReturn s = .next s') : Ok q (kept s') := by
  refine done_ok q _ s' ?_ hx
  repeat' first
    | with_reducible assumption
    | simp -proj only [↓mk_kept, kept_eta, loCheck_kept]

theorem exec_ok (q : List Instr) (i : Instr) (s s' : State) (hok : Ok q (kept s)) (hx : exec i s = .next s') : Ok q (kept s') := by
  cases i with
  | catchStroke t ratios pdm => exact execCatchStroke_ok q t ratios pdm s s' hok hx
  | sliceDone sl cycles => exact execSliceDone_ok q sl cycles s s' hok hx
  | overrunSinkRecover entry => exact execOverrunSinkRecover_ok q entry s s' hok hx
  | callDb m v => exact execCallDb_ok q m v s s' hok hx
  | callEnable m v => exact execCallEnable_ok q m v s s' hok hx
  | cvtConvert m v => exact execCvtConvert_ok q m v s s' hok hx
  | nop c f x => exact execNop_ok q c f x s s' hok hx
  | mov c f x => exact execMov_ok q c f x s s' hok hx
  | add c f x => exact execAdd_ok q c f x s s' hok hx
  | adds c f x => exact execAdds_ok q c f x s s' hok hx
  | sub c f x => exact execSub_ok q c f x s s' hok hx
  | subs c f x => exact execSubs_ok q c f x s s' hok hx
  | abss c f x => exact execAbss_ok q c f x s s' hok hx
  | negs c f x => exact execNegs_ok q c f x s s' hok hx
  | and c f x => exact execAnd_ok q c f x s s' hok hx
  | or c f x => exact execOr_ok q c f x s s' hok hx
  | xor c f x => exact execXor_ok q c f x s s' hok hx
  | andn c f x => exact execAndn_ok q c f x s s' hok hx
  | shl c f x => exact execShl_ok q c f x s s' hok hx
  | shr c f x => exact execShr_ok q c f x s s' hok hx
  | sra c f x => exact execSra_ok q c f x s s' hok hx
  | shls c f x => exact execShls_ok q c f x s s' hok hx
  | min c f x => exact execMin_ok q c f x s s' hok hx
  | max c f x => exact execMax_ok q c f x s s' hok hx
  | sel c f x => exact execSel_ok q c f x s s' hok hx
  | cmp c f x => exact execCmp_ok q c f x s s' hok hx
  | cls c f x => exact execCls_ok q c f x s s' hok hx
  | plog c f x => exact execPlog_ok q c f x s s' hok hx
  | mpy c f x => exact execMpy_ok q c f x s s' hok hx
  | mpyi c f x => exact execMpyi_ok q c f x s s' hok hx
  | mpa c f x => exact execMpa_ok q c f x s s' hok hx
  | mac c f x => exact execMac_ok q c f x s s' hok hx
  | msu c f x => exact execMsu_ok q c f x s s' hok hx
  | macsu c f x => exact execMacsu_ok q c f x s s' hok hx
  | mva c f x => exact execMva_ok q c f x s s' hok hx
  | mva4 c f x => exact execMva4_ok q c f x s s' hok hx
  | clra c f x => exact execClra_ok q c f x s s' hok hx
  | lda c f x => exact execLda_ok q c f x s s' hok hx
  | acmb c f x => exact execAcmb_ok q c f x s s' hok hx
  | sha c f x => exact execSha_ok q c f x s s' hok hx
  | mvar c f x => exact execMvar_ok q c f x s s' hok hx
  | setar c f x => exact execSetar_ok q c f x s s' hok hx
  | bexp c f x => exact execBexp_ok q c f x s s' hok hx
  | zxarm c f x => exact execZxarm_ok q c f x s s' hok hx
  | zxstep c f x => exact execZxstep_ok q c f x s s' hok hx
  | csrr c f x => exact execCsrr_ok q c f x s s' hok hx
  | csrw c f x => exact execCsrw_ok q c f x s s' hok hx
  | br c f x => exact execBr_ok q c f x s s' hok hx
  | jmp c f x => exact execJmp_ok q c f x s s' hok hx
  | call c f x => exact execCall_ok q c f x s s' hok hx
  | ret c f x => exact execRet_ok q c f x s s' hok hx
  | loop c f x => exact execLoop_ok q c f x s s' hok hx
  | barrier c f x => exact execBarrier_ok q c f x s s' hok hx
  | barrierRelease crew k => exact execBarrierRelease_ok q crew k s s' hok hx
  | waitstroke c f x => exact execWaitstroke_ok q c f x s s' hok hx
  | coreSleep c cycles => exact execCoreSleep_ok q c cycles s s' hok hx
  | tnop c f w => exact execTnop_ok q c f w s s' hok hx
  | ldP c f w => exact execLdP_ok q c f w s s' hok hx
  | ldO c f w => exact execLdO_ok q c f w s s' hok hx
  | ldPo c f w => exact execLdPo_ok q c f w s s' hok hx
  | ld2P c f w => exact execLd2P_ok q c f w s s' hok hx
  | ld2O c f w => exact execLd2O_ok q c f w s s' hok hx
  | ld2Po c f w => exact execLd2Po_ok q c f w s s' hok hx
  | ld4P c f w => exact execLd4P_ok q c f w s s' hok hx
  | ld4O c f w => exact execLd4O_ok q c f w s s' hok hx
  | ld4Po c f w => exact execLd4Po_ok q c f w s s' hok hx
  | stP c f w => exact execStP_ok q c f w s s' hok hx
  | stO c f w => exact execStO_ok q c f w s s' hok hx
  | stPo c f w => exact execStPo_ok q c f w s s' hok hx
  | st2P c f w => exact execSt2P_ok q c f w s s' hok hx
  | st2O c f w => exact execSt2O_ok q c f w s s' hok hx
  | st2Po c f w => exact execSt2Po_ok q c f w s s' hok hx
  | st4P c f w => exact execSt4P_ok q c f w s s' hok hx
  | st4O c f w => exact execSt4O_ok q c f w s s' hok hx
  | st4Po c f w => exact execSt4Po_ok q c f w s s' hok hx
  | amodm c f w => exact execAmodm_ok q c f w s s' hok hx
  | amodi c f w => exact execAmodi_ok q c f w s s' hok hx
  | setr c f w => exact execSetr_ok q c f w s s' hok hx
  | mvr c f w => exact execMvr_ok q c f w s s' hok hx
  | mrv c f w => exact execMrv_ok q c f w s s' hok hx
  | mbput c f w => exact execMbput_ok q c f w s s' hok hx
  | mbget c f w => exact execMbget_ok q c f w s s' hok hx
  | mbcnt c f w => exact execMbcnt_ok q c f w s s' hok hx
  | mailboxPutRelease c => exact execMailboxPutRelease_ok q c s s' hok hx
  | mailboxGetRelease c => exact execMailboxGetRelease_ok q c s s' hok hx
  | crewBankGrant crew bank waiting => exact execCrewBankGrant_ok q crew bank waiting s s' hok hx
  | moverBankTake c bank waited coreWants => exact execMoverBankTake_ok q c bank waited coreWants s s' hok hx
  | storeQueueDrain c window collides => exact execStoreQueueDrain_ok q c window collides s s' hok hx
  | routeFillDone sink => exact execRouteFillDone_ok q sink s s' hok hx
  | routeFadeDone sink => exact execRouteFadeDone_ok q sink s s' hok hx
  | routeTapmoveDone sink => exact execRouteTapmoveDone_ok q sink s s' hok hx
  | portRst m hi v => exact execPortRst_ok q m hi v s s' hok hx
  | portResetRelease u => exact execPortResetRelease_ok q u s s' hok hx
  | grpGo m v => exact execGrpGo_ok q m v s s' hok hx
  | grpStop m v => exact execGrpStop_ok q m v s s' hok hx
  | runRampEnd p => exact execRunRampEnd_ok q p s s' hok hx
  | slipSilenceEnd p => exact execSlipSilenceEnd_ok q p s s' hok hx
  | slipRampEnd p => exact execSlipRampEnd_ok q p s s' hok hx
  | portStopped p => exact execPortStopped_ok q p s s' hok hx
  | portRatePublish p windowEnd => exact execPortRatePublish_ok q p windowEnd s s' hok hx
  | pdmEn m v => exact execPdmEn_ok q m v s s' hok hx
  | pdmSettleEnd k => exact execPdmSettleEnd_ok q k s s' hok hx
  | mediaPacket pk => exact execMediaPacket_ok q pk s s' hok hx
  | ptpMessage inst msg => exact execPtpMessage_ok q inst msg s s' hok hx
  | ptpLost inst => exact execPtpLost_ok q inst s s' hok hx
  | ptpCfg m v => exact execPtpCfg_ok q m v s s' hok hx
  | arpRequest fr => exact execArpRequest_ok q fr s s' hok hx
  | igmpQuery fr => exact execIgmpQuery_ok q fr s s' hok hx
  | icmpEcho fr => exact execIcmpEcho_ok q fr s s' hok hx
  | hostQueueRx fr => exact execHostQueueRx_ok q fr s s' hok hx
  | netHqTxdb m v => exact execNetHqTxdb_ok q m v s s' hok hx
  | netCfg m p v prog => exact execNetCfg_ok q m p v prog s s' hok hx
  | netLinkDown p => exact execNetLinkDown_ok q p s s' hok hx
  | netLinkUp p => exact execNetLinkUp_ok q p s s' hok hx
  | timeForce m => exact execTimeForce_ok q m s s' hok hx
  | timeStep m => exact execTimeStep_ok q m s s' hok hx
  | timeLatch m t => exact execTimeLatch_ok q m t s s' hok hx
  | refWindowEnd meas phaseErr freqErr => exact execRefWindowEnd_ok q meas phaseErr freqErr s s' hok hx
  | dpllLostLock phaseErr => exact execDpllLostLock_ok q phaseErr s s' hok hx
  | refLos r => exact execRefLos_ok q r s s' hok hx
  | refqlWord r word stopOk => exact execRefqlWord_ok q r word stopOk s s' hok hx
  | qlLost r => exact execQlLost_ok q r s s' hok hx
  | refCfg m v => exact execRefCfg_ok q m v s s' hok hx
  | refCtrl m v => exact execRefCtrl_ok q m v s s' hok hx
  | marker h imageId => exact execMarker_ok q h imageId s s' hok hx
  | leasePinWord bits stopOk => exact execLeasePinWord_ok q bits stopOk s s' hok hx
  | beacon b => exact execBeacon_ok q b s s' hok hx
  | offer h target => exact execOffer_ok q h target s s' hok hx
  | hello h imageId nonce => exact execHello_ok q h imageId nonce s s' hok hx
  | input h blk => exact execInput_ok q h blk s s' hok hx
  | freeze h blocks ratios treats sectionOk => exact execFreeze_ok q h blocks ratios treats sectionOk s s' hok hx
  | calls h cs rd => exact execCalls_ok q h cs rd s s' hok hx
  | carry h strip offset words => exact execCarry_ok q h strip offset words s s' hok hx
  | close h digest sectionOk => exact execClose_ok q h digest sectionOk s s' hok hx
  | rsctl h ctl => exact execRsctl_ok q h ctl s s' hok hx
  | resync h item => exact execResync_ok q h item s s' hok hx
  | resyncRequest m => exact execResyncRequest_ok q m s s' hok hx
  | twinLinkDown l => exact execTwinLinkDown_ok q l s s' hok hx
  | twinPathLost p => exact execTwinPathLost_ok q p s s' hok hx
  | linkRestart m => exact execLinkRestart_ok q m s s' hok hx
  | diagClr m => exact execDiagClr_ok q m s s' hok hx
  | fabricBurst b => exact execFabricBurst_ok q b s s' hok hx
  | collidedRetry stillCollides => exact execCollidedRetry_ok q stillCollides s s' hok hx
  | fabTimeout b => exact execFabTimeout_ok q b s s' hok hx
  | fabLockTmo tgt => exact execFabLockTmo_ok q tgt s s' hok hx
  | hostLock m v => exact execHostLock_ok q m v s s' hok hx
  | assayPass e => exact execAssayPass_ok q e s s' hok hx
  | assayRow e kind inst bank row => exact execAssayRow_ok q e kind inst bank row s s' hok hx
  | assayRowDone e faulty passEnds ms => exact execAssayRowDone_ok q e faulty passEnds ms s s' hok hx
  | memClearDone k => exact execMemClearDone_ok q k s s' hok hx
  | storeSettings m => exact execStoreSettings_ok q m s s' hok hx
  | storeBoot m => exact execStoreBoot_ok q m s s' hok hx
  | storeRepair m => exact execStoreRepair_ok q m s s' hok hx
  | storeLog m => exact execStoreLog_ok q m s s' hok hx
  | storeTrim m => exact execStoreTrim_ok q m s s' hok hx
  | install m slot => exact execInstall_ok q m slot s s' hok hx
  | clear m slot => exact execClear_ok q m slot s s' hok hx
  | provisionRoot m => exact execProvisionRoot_ok q m s s' hok hx
  | geodeLcreq m v => exact execGeodeLcreq_ok q m v s s' hok hx
  | dramDriftTrack failStep => exact execDramDriftTrack_ok q failStep s s' hok hx
  | dmaStart m => exact execDmaStart_ok q m s s' hok hx
  | dmaAbort m => exact execDmaAbort_ok q m s s' hok hx
  | dmaAborted ch issued => exact execDmaAborted_ok q ch issued s s' hok hx
  | dmaDescFetched ch => exact execDmaDescFetched_ok q ch s s' hok hx
  | dmaDescDone ch => exact execDmaDescDone_ok q ch s s' hok hx
  | dmaHalt ch addr resp lastWrite issued => exact execDmaHalt_ok q ch addr resp lastWrite issued s s' hok hx
  | resetRelease inp => exact execResetRelease_ok q inp s s' hok hx
  | firmwareLoad src => exact execFirmwareLoad_ok q src s s' hok hx
  | engineImageLoad src => exact execEngineImageLoad_ok q src s s' hok hx
  | engineRelease t => exact execEngineRelease_ok q t s s' hok hx
  | rstBootGo m v => exact execRstBootGo_ok q m v s s' hok hx
  | resetN ns low => exact execResetN_ok q ns low s s' hok hx
  | tamperN ns low => exact execTamperN_ok q ns low s s' hok hx
  | rstCtrl m v => exact execRstCtrl_ok q m v s s' hok hx
  | rstEng m v prog => exact execRstEng_ok q m v prog s s' hok hx
  | trstN prog => exact execTrstN_ok q prog s s' hok hx
  | debugIntrusion act => exact execDebugIntrusion_ok q act s s' hok hx
  | rstWdtCfg m v => exact execRstWdtCfg_ok q m v s s' hok hx
  | rstWdtKick m v => exact execRstWdtKick_ok q m v s s' hok hx
  | sysBootOk m v msSinceRelease => exact execSysBootOk_ok q m v msSinceRelease s s' hok hx
  | auxOverload is18 => exact execAuxOverload_ok q is18 s s' hok hx
  | pwrAux m v => exact execPwrAux_ok q m v s s' hok hx
  | vioLow bank => exact execVioLow_ok q bank s s' hok hx
  | vioRestore bank cls => exact execVioRestore_ok q bank cls s s' hok hx
  | reqRun m => exact execReqRun_ok q m s s' hok hx
  | reqRetain m => exact execReqRetain_ok q m s s' hok hx
  | reqDormant m => exact execReqDormant_ok q m s s' hok hx
  | reqRecovery m => exact execReqRecovery_ok q m s s' hok hx
  | reqService m => exact execReqService_ok q m s s' hok hx
  | collectReport r => exact execCollectReport_ok q r s s' hok hx
  | coalesceWindow index => exact execCoalesceWindow_ok q index s s' hok hx
  | errPop m v => exact execErrPop_ok q m v s s' hok hx
  | clrLost m v => exact execClrLost_ok q m v s s' hok hx
  | injArm m v => exact execInjArm_ok q m v s s' hok hx
  | injDisarm m v => exact execInjDisarm_ok q m v s s' hok hx
  | assayNow m => exact execAssayNow_ok q m s s' hok hx
  | serdesAdapt m => exact execSerdesAdapt_ok q m s s' hok hx
  | dramTrack m => exact execDramTrack_ok q m s s' hok hx
  | memBist m => exact execMemBist_ok q m s s' hok hx
  | coreBist m => exact execCoreBist_ok q m s s' hok hx
  | sliceTest m => exact execSliceTest_ok q m s s' hok hx
  | sapLoop m => exact execSapLoop_ok q m s s' hok hx
  | serdesLoop m => exact execSerdesLoop_ok q m s s' hok hx
  | dramTrain m => exact execDramTrain_ok q m s s' hok hx
  | tsenseCal m => exact execTsenseCal_ok q m s s' hok hx
  | testComplete pass calFail failures first us rows => exact execTestComplete_ok q pass calFail failures first us rows s s' hok hx
  | resultSnapshotRead m addr => exact execResultSnapshotRead_ok q m addr s s' hok hx
  | xpSel m v => exact execXpSel_ok q m v s s' hok hx
  | xpShd m v => exact execXpShd_ok q m v s s' hok hx
  | sinkSel m v => exact execSinkSel_ok q m v s s' hok hx
  | latSel m v => exact execLatSel_ok q m v s s' hok hx
  | coreSel m v => exact execCoreSel_ok q m v s s' hok hx
  | pcieMemoryWrite bar2 off bytes => exact execPcieMemoryWrite_ok q bar2 off bytes s s' hok hx
  | pcieMemoryRead bar2 off len => exact execPcieMemoryRead_ok q bar2 off len s s' hok hx
  | pcieConfigRequest off power => exact execPcieConfigRequest_ok q off power s s' hok hx
  | pcieLinkDown prog => exact execPcieLinkDown_ok q prog s s' hok hx
  | pcieHotReset prog => exact execPcieHotReset_ok q prog s s' hok hx
  | functionLevelReset prog => exact execFunctionLevelReset_ok q prog s s' hok hx
  | spiWrite addr bytes => exact execSpiWrite_ok q addr bytes s s' hok hx
  | spiRead addr len => exact execSpiRead_ok q addr len s s' hok hx
  | qspiCmd m v => exact execQspiCmd_ok q m v s s' hok hx
  | qspiDone data => exact execQspiDone_ok q data s s' hok hx
  | sysIrqAck m v => exact execSysIrqAck_ok q m v s s' hok hx
  | msixUnmask vec => exact execMsixUnmask_ok q vec s s' hok hx
  | registerWrite m off v => exact execRegisterWrite_ok q m off v s s' hok hx
  | fsEdge p t rising f => exact execFsEdge_ok q p t rising f s s' hok hx
  | refFirstEdge r => exact execRefFirstEdge_ok q r s s' hok hx
  | pwrMonPublish mv tj mw => exact execPwrMonPublish_ok q mv tj mw s s' hok hx
  | pcieLinkUp speed width => exact execPcieLinkUp_ok q speed width s s' hok hx
  | finish => exact execFinish_ok q  s s' hok hx
  | callAccept => exact execCallAccept_ok q  s s' hok hx
  | setParam => exact execSetParam_ok q  s s' hok hx
  | swapBank => exact execSwapBank_ok q  s s' hok hx
  | route => exact execRoute_ok q  s s' hok hx
  | xpGain => exact execXpGain_ok q  s s' hok hx
  | xpSwap => exact execXpSwap_ok q  s s' hok hx
  | sceneArm => exact execSceneArm_ok q  s s' hok hx
  | sceneRecall => exact execSceneRecall_ok q  s s' hok hx
  | sceneXpAlignSwap => exact execSceneXpAlignSwap_ok q  s s' hok hx
  | sceneDone => exact execSceneDone_ok q  s s' hok hx
  | sceneCancel => exact execSceneCancel_ok q  s s' hok hx
  | mute => exact execMute_ok q  s s' hok hx
  | portMask => exact execPortMask_ok q  s s' hok hx
  | portRamp => exact execPortRamp_ok q  s s' hok hx
  | mark => exact execMark_ok q  s s' hok hx
  | twinHandover => exact execTwinHandover_ok q  s s' hok hx
  | portGroupAction => exact execPortGroupAction_ok q  s s' hok hx
  | hqTxSend => exact execHqTxSend_ok q  s s' hok hx
  | strCntPublish => exact execStrCntPublish_ok q  s s' hok hx
  | holdSlewDone => exact execHoldSlewDone_ok q  s s' hok hx
  | freqSlewDone => exact execFreqSlewDone_ok q  s s' hok hx
  | buildoutDone => exact execBuildoutDone_ok q  s s' hok hx
  | loFault => exact execLoFault_ok q  s s' hok hx
  | yieldComplete => exact execYieldComplete_ok q  s s' hok hx
  | leaseExpired => exact execLeaseExpired_ok q  s s' hok hx
  | acquireCox => exact execAcquireCox_ok q  s s' hok hx
  | handoverRelease => exact execHandoverRelease_ok q  s s' hok hx
  | resyncCutover => exact execResyncCutover_ok q  s s' hok hx
  | twinLinkUp => exact execTwinLinkUp_ok q  s s' hok hx
  | slateStoreDone => exact execSlateStoreDone_ok q  s s' hok hx
  | vglitch => exact execVglitch_ok q  s s' hok hx
  | tglitch => exact execTglitch_ok q  s s' hok hx
  | vsysPowerOn => exact execVsysPowerOn_ok q  s s' hok hx
  | brownout => exact execBrownout_ok q  s s' hok hx
  | bootHostTimeout => exact execBootHostTimeout_ok q  s s' hok hx
  | wake => exact execWake_ok q  s s' hok hx
  | debugReset => exact execDebugReset_ok q  s s' hok hx
  | wdtExpiry => exact execWdtExpiry_ok q  s s' hok hx
  | vsysLow => exact execVsysLow_ok q  s s' hok hx
  | vsysHigh => exact execVsysHigh_ok q  s s' hok hx
  | railFault => exact execRailFault_ok q  s s' hok hx
  | thermWarn => exact execThermWarn_ok q  s s' hok hx
  | thermFault => exact execThermFault_ok q  s s' hok hx
  | thermTrip => exact execThermTrip_ok q  s s' hok hx
  | retainEnter => exact execRetainEnter_ok q  s s' hok hx
  | spiStatus => exact execSpiStatus_ok q  s s' hok hx
  | xinReturn => exact execXinReturn_ok q  s s' hok hx

end Sys2Proof.Machine
end

