-- ==== Sys2Proof/WellFormed.lean ====
section
/-! DEFINITION. Well-formed commands: the operands that the spec lets a sender give. `exec` is total and does not rest on it. -/

namespace Sys2Proof

/-- A master with a path to the register bridge (R403). -/
def Master.regPath : Master → Bool
  | .sc | .host | .dbg => true
  | .dma | .twin | .net | .eng => false

/-- The form of a burst (R405). -/
def Burst.wf (b : Burst) : Bool := decide (0 < b.beats.length) && decide (b.beats.length ≤ 16) && b.addr.toNat % 16 == 0

/-- The master that sends a command which is an access of a register of its own (R5); none for every other command. -/
def Instr.sender : Instr → Option Master
  | .callDb m _ => some m
  | .callEnable m _ => some m
  | .cvtConvert m _ => some m
  | .portRst m _ _ => some m
  | .grpGo m _ => some m
  | .grpStop m _ => some m
  | .pdmEn m _ => some m
  | .ptpCfg m _ => some m
  | .netHqTxdb m _ => some m
  | .netCfg m _ _ _ => some m
  | .timeForce m => some m
  | .timeStep m => some m
  | .timeLatch m _ => some m
  | .refCfg m _ => some m
  | .refCtrl m _ => some m
  | .resyncRequest m => some m
  | .linkRestart m => some m
  | .diagClr m => some m
  | .hostLock m _ => some m
  | .storeSettings m => some m
  | .storeBoot m => some m
  | .storeRepair m => some m
  | .storeLog m => some m
  | .storeTrim m => some m
  | .install m _ => some m
  | .clear m _ => some m
  | .provisionRoot m => some m
  | .geodeLcreq m _ => some m
  | .dmaStart m => some m
  | .dmaAbort m => some m
  | .rstBootGo m _ => some m
  | .rstCtrl m _ => some m
  | .rstEng m _ _ => some m
  | .rstWdtCfg m _ => some m
  | .rstWdtKick m _ => some m
  | .sysBootOk m _ _ => some m
  | .pwrAux m _ => some m
  | .reqRun m => some m
  | .reqRetain m => some m
  | .reqDormant m => some m
  | .reqRecovery m => some m
  | .reqService m => some m
  | .errPop m _ => some m
  | .clrLost m _ => some m
  | .injArm m _ => some m
  | .injDisarm m _ => some m
  | .assayNow m => some m
  | .serdesAdapt m => some m
  | .dramTrack m => some m
  | .memBist m => some m
  | .coreBist m => some m
  | .sliceTest m => some m
  | .sapLoop m => some m
  | .serdesLoop m => some m
  | .dramTrain m => some m
  | .tsenseCal m => some m
  | .xpSel m _ => some m
  | .xpShd m _ => some m
  | .sinkSel m _ => some m
  | .latSel m _ => some m
  | .coreSel m _ => some m
  | .qspiCmd m _ => some m
  | .sysIrqAck m _ => some m
  | .registerWrite m _ _ => some m
  | _ => none

/-- The operands of a command lie in the ranges of the spec: bursts (R405), register offsets (R481), PCI Express requests (R474, R476)
and SPI frames (R478). -/
def Instr.operandsOk : Instr → Bool
  | .fabricBurst b => b.wf
  | .fabTimeout b => b.wf
  | .registerWrite _ off _ => decide (off < 0x1000000)
  | .resultSnapshotRead _ a => decide (a < 0x1000000000) && a % 4 == 0
  | .pcieMemoryWrite bar2 off bs =>
    decide (0 < bs.length) && decide (bs.length ≤ 256) && decide (off + bs.length ≤ if bar2 then 0x10000000 else 0x1000000)
  | .pcieMemoryRead bar2 off n => decide (0 < n) && decide (n ≤ 4096) && decide (off + n ≤ if bar2 then 0x10000000 else 0x1000000)
  | .spiWrite a bs => a.toNat % 4 == 0 && decide (4 ≤ bs.length) && decide (bs.length ≤ 256)
  | .spiRead a n => a.toNat % 4 == 0 && decide (n ≤ 256)
  | _ => true

/-- A well-formed command: register commands come from a master that reaches the register bridge. -/
def Instr.wf (i : Instr) : Bool :=
  (match i.sender with
    | some m => m.regPath
    | none => true) && i.operandsOk

end Sys2Proof
end

