-- ==== Sys2Proof/Laws/PerInstr.lean ====
section
/-! SUPPORT. The statements made of every command, one lemma per constructor. -/

namespace Sys2Proof.Laws

/-- R403: a well-formed access of a register of its own comes from a master with a path to the register bridge: SC, HOST or DBG. -/
def SenderPath.Statement (i : Instr) : Prop := i.wf = true → ∀ m, i.sender = some m → m = .sc ∨ m = .host ∨ m = .dbg

theorem Master.regPath_cases (m : Master) (h : m.regPath = true) : m = .sc ∨ m = .host ∨ m = .dbg := by
  cases m <;> simp_all [Master.regPath]

theorem SenderPath.all (i : Instr) : SenderPath.Statement i := by
  intro h m hm
  simp only [Instr.wf, hm, Bool.and_eq_true] at h
  exact Master.regPath_cases m h.1

theorem SenderPath.catchStroke (t : Time) (ratios : List (Nat × Word)) (pdm : List (Nat × PdmIn)) : SenderPath.Statement (.catchStroke t ratios pdm) := SenderPath.all _
theorem SenderPath.sliceDone (sl : SliceId) (cycles : Nat) : SenderPath.Statement (.sliceDone sl cycles) := SenderPath.all _
theorem SenderPath.overrunSinkRecover (entry : Nat) : SenderPath.Statement (.overrunSinkRecover entry) := SenderPath.all _
theorem SenderPath.callDb (m : Master) (v : Word) : SenderPath.Statement (.callDb m v) := SenderPath.all _
theorem SenderPath.callEnable (m : Master) (v : Word) : SenderPath.Statement (.callEnable m v) := SenderPath.all _
theorem SenderPath.cvtConvert (m : Master) (v : Word) : SenderPath.Statement (.cvtConvert m v) := SenderPath.all _
theorem SenderPath.nop (c : CoreId) (f : CSyl) (x : Word) : SenderPath.Statement (.nop c f x) := SenderPath.all _
theorem SenderPath.mov (c : CoreId) (f : CSyl) (x : Word) : SenderPath.Statement (.mov c f x) := SenderPath.all _
theorem SenderPath.add (c : CoreId) (f : CSyl) (x : Word) : SenderPath.Statement (.add c f x) := SenderPath.all _
theorem SenderPath.adds (c : CoreId) (f : CSyl) (x : Word) : SenderPath.Statement (.adds c f x) := SenderPath.all _
theorem SenderPath.sub (c : CoreId) (f : CSyl) (x : Word) : SenderPath.Statement (.sub c f x) := SenderPath.all _
theorem SenderPath.subs (c : CoreId) (f : CSyl) (x : Word) : SenderPath.Statement (.subs c f x) := SenderPath.all _
theorem SenderPath.abss (c : CoreId) (f : CSyl) (x : Word) : SenderPath.Statement (.abss c f x) := SenderPath.all _
theorem SenderPath.negs (c : CoreId) (f : CSyl) (x : Word) : SenderPath.Statement (.negs c f x) := SenderPath.all _
theorem SenderPath.and (c : CoreId) (f : CSyl) (x : Word) : SenderPath.Statement (.and c f x) := SenderPath.all _
theorem SenderPath.or (c : CoreId) (f : CSyl) (x : Word) : SenderPath.Statement (.or c f x) := SenderPath.all _
theorem SenderPath.xor (c : CoreId) (f : CSyl) (x : Word) : SenderPath.Statement (.xor c f x) := SenderPath.all _
theorem SenderPath.andn (c : CoreId) (f : CSyl) (x : Word) : SenderPath.Statement (.andn c f x) := SenderPath.all _
theorem SenderPath.shl (c : CoreId) (f : CSyl) (x : Word) : SenderPath.Statement (.shl c f x) := SenderPath.all _
theorem SenderPath.shr (c : CoreId) (f : CSyl) (x : Word) : SenderPath.Statement (.shr c f x) := SenderPath.all _
theorem SenderPath.sra (c : CoreId) (f : CSyl) (x : Word) : SenderPath.Statement (.sra c f x) := SenderPath.all _
theorem SenderPath.shls (c : CoreId) (f : CSyl) (x : Word) : SenderPath.Statement (.shls c f x) := SenderPath.all _
theorem SenderPath.min (c : CoreId) (f : CSyl) (x : Word) : SenderPath.Statement (.min c f x) := SenderPath.all _
theorem SenderPath.max (c : CoreId) (f : CSyl) (x : Word) : SenderPath.Statement (.max c f x) := SenderPath.all _
theorem SenderPath.sel (c : CoreId) (f : CSyl) (x : Word) : SenderPath.Statement (.sel c f x) := SenderPath.all _
theorem SenderPath.cmp (c : CoreId) (f : CSyl) (x : Word) : SenderPath.Statement (.cmp c f x) := SenderPath.all _
theorem SenderPath.cls (c : CoreId) (f : CSyl) (x : Word) : SenderPath.Statement (.cls c f x) := SenderPath.all _
theorem SenderPath.plog (c : CoreId) (f : CSyl) (x : Word) : SenderPath.Statement (.plog c f x) := SenderPath.all _
theorem SenderPath.mpy (c : CoreId) (f : CSyl) (x : Word) : SenderPath.Statement (.mpy c f x) := SenderPath.all _
theorem SenderPath.mpyi (c : CoreId) (f : CSyl) (x : Word) : SenderPath.Statement (.mpyi c f x) := SenderPath.all _
theorem SenderPath.mpa (c : CoreId) (f : CSyl) (x : Word) : SenderPath.Statement (.mpa c f x) := SenderPath.all _
theorem SenderPath.mac (c : CoreId) (f : CSyl) (x : Word) : SenderPath.Statement (.mac c f x) := SenderPath.all _
theorem SenderPath.msu (c : CoreId) (f : CSyl) (x : Word) : SenderPath.Statement (.msu c f x) := SenderPath.all _
theorem SenderPath.macsu (c : CoreId) (f : CSyl) (x : Word) : SenderPath.Statement (.macsu c f x) := SenderPath.all _
theorem SenderPath.mva (c : CoreId) (f : CSyl) (x : Word) : SenderPath.Statement (.mva c f x) := SenderPath.all _
theorem SenderPath.mva4 (c : CoreId) (f : CSyl) (x : Word) : SenderPath.Statement (.mva4 c f x) := SenderPath.all _
theorem SenderPath.clra (c : CoreId) (f : CSyl) (x : Word) : SenderPath.Statement (.clra c f x) := SenderPath.all _
theorem SenderPath.lda (c : CoreId) (f : CSyl) (x : Word) : SenderPath.Statement (.lda c f x) := SenderPath.all _
theorem SenderPath.acmb (c : CoreId) (f : CSyl) (x : Word) : SenderPath.Statement (.acmb c f x) := SenderPath.all _
theorem SenderPath.sha (c : CoreId) (f : CSyl) (x : Word) : SenderPath.Statement (.sha c f x) := SenderPath.all _
theorem SenderPath.mvar (c : CoreId) (f : CSyl) (x : Word) : SenderPath.Statement (.mvar c f x) := SenderPath.all _
theorem SenderPath.setar (c : CoreId) (f : CSyl) (x : Word) : SenderPath.Statement (.setar c f x) := SenderPath.all _
theorem SenderPath.bexp (c : CoreId) (f : CSyl) (x : Word) : SenderPath.Statement (.bexp c f x) := SenderPath.all _
theorem SenderPath.zxarm (c : CoreId) (f : CSyl) (x : Word) : SenderPath.Statement (.zxarm c f x) := SenderPath.all _
theorem SenderPath.zxstep (c : CoreId) (f : CSyl) (x : Word) : SenderPath.Statement (.zxstep c f x) := SenderPath.all _
theorem SenderPath.csrr (c : CoreId) (f : CSyl) (x : Word) : SenderPath.Statement (.csrr c f x) := SenderPath.all _
theorem SenderPath.csrw (c : CoreId) (f : CSyl) (x : Word) : SenderPath.Statement (.csrw c f x) := SenderPath.all _
theorem SenderPath.br (c : CoreId) (f : CSyl) (x : Word) : SenderPath.Statement (.br c f x) := SenderPath.all _
theorem SenderPath.jmp (c : CoreId) (f : CSyl) (x : Word) : SenderPath.Statement (.jmp c f x) := SenderPath.all _
theorem SenderPath.call (c : CoreId) (f : CSyl) (x : Word) : SenderPath.Statement (.call c f x) := SenderPath.all _
theorem SenderPath.ret (c : CoreId) (f : CSyl) (x : Word) : SenderPath.Statement (.ret c f x) := SenderPath.all _
theorem SenderPath.loop (c : CoreId) (f : CSyl) (x : Word) : SenderPath.Statement (.loop c f x) := SenderPath.all _
theorem SenderPath.barrier (c : CoreId) (f : CSyl) (x : Word) : SenderPath.Statement (.barrier c f x) := SenderPath.all _
theorem SenderPath.barrierRelease (crew : CrewId) (k : Fin 8) : SenderPath.Statement (.barrierRelease crew k) := SenderPath.all _
theorem SenderPath.waitstroke (c : CoreId) (f : CSyl) (x : Word) : SenderPath.Statement (.waitstroke c f x) := SenderPath.all _
theorem SenderPath.coreSleep (c : CoreId) (cycles : Nat) : SenderPath.Statement (.coreSleep c cycles) := SenderPath.all _
theorem SenderPath.tnop (c : CoreId) (f : TSyl) (w : Word) : SenderPath.Statement (.tnop c f w) := SenderPath.all _
theorem SenderPath.ldP (c : CoreId) (f : TSyl) (w : Word) : SenderPath.Statement (.ldP c f w) := SenderPath.all _
theorem SenderPath.ldO (c : CoreId) (f : TSyl) (w : Word) : SenderPath.Statement (.ldO c f w) := SenderPath.all _
theorem SenderPath.ldPo (c : CoreId) (f : TSyl) (w : Word) : SenderPath.Statement (.ldPo c f w) := SenderPath.all _
theorem SenderPath.ld2P (c : CoreId) (f : TSyl) (w : Word) : SenderPath.Statement (.ld2P c f w) := SenderPath.all _
theorem SenderPath.ld2O (c : CoreId) (f : TSyl) (w : Word) : SenderPath.Statement (.ld2O c f w) := SenderPath.all _
theorem SenderPath.ld2Po (c : CoreId) (f : TSyl) (w : Word) : SenderPath.Statement (.ld2Po c f w) := SenderPath.all _
theorem SenderPath.ld4P (c : CoreId) (f : TSyl) (w : Word) : SenderPath.Statement (.ld4P c f w) := SenderPath.all _
theorem SenderPath.ld4O (c : CoreId) (f : TSyl) (w : Word) : SenderPath.Statement (.ld4O c f w) := SenderPath.all _
theorem SenderPath.ld4Po (c : CoreId) (f : TSyl) (w : Word) : SenderPath.Statement (.ld4Po c f w) := SenderPath.all _
theorem SenderPath.stP (c : CoreId) (f : TSyl) (w : Word) : SenderPath.Statement (.stP c f w) := SenderPath.all _
theorem SenderPath.stO (c : CoreId) (f : TSyl) (w : Word) : SenderPath.Statement (.stO c f w) := SenderPath.all _
theorem SenderPath.stPo (c : CoreId) (f : TSyl) (w : Word) : SenderPath.Statement (.stPo c f w) := SenderPath.all _
theorem SenderPath.st2P (c : CoreId) (f : TSyl) (w : Word) : SenderPath.Statement (.st2P c f w) := SenderPath.all _
theorem SenderPath.st2O (c : CoreId) (f : TSyl) (w : Word) : SenderPath.Statement (.st2O c f w) := SenderPath.all _
theorem SenderPath.st2Po (c : CoreId) (f : TSyl) (w : Word) : SenderPath.Statement (.st2Po c f w) := SenderPath.all _
theorem SenderPath.st4P (c : CoreId) (f : TSyl) (w : Word) : SenderPath.Statement (.st4P c f w) := SenderPath.all _
theorem SenderPath.st4O (c : CoreId) (f : TSyl) (w : Word) : SenderPath.Statement (.st4O c f w) := SenderPath.all _
theorem SenderPath.st4Po (c : CoreId) (f : TSyl) (w : Word) : SenderPath.Statement (.st4Po c f w) := SenderPath.all _
theorem SenderPath.amodm (c : CoreId) (f : TSyl) (w : Word) : SenderPath.Statement (.amodm c f w) := SenderPath.all _
theorem SenderPath.amodi (c : CoreId) (f : TSyl) (w : Word) : SenderPath.Statement (.amodi c f w) := SenderPath.all _
theorem SenderPath.setr (c : CoreId) (f : TSyl) (w : Word) : SenderPath.Statement (.setr c f w) := SenderPath.all _
theorem SenderPath.mvr (c : CoreId) (f : TSyl) (w : Word) : SenderPath.Statement (.mvr c f w) := SenderPath.all _
theorem SenderPath.mrv (c : CoreId) (f : TSyl) (w : Word) : SenderPath.Statement (.mrv c f w) := SenderPath.all _
theorem SenderPath.mbput (c : CoreId) (f : TSyl) (w : Word) : SenderPath.Statement (.mbput c f w) := SenderPath.all _
theorem SenderPath.mbget (c : CoreId) (f : TSyl) (w : Word) : SenderPath.Statement (.mbget c f w) := SenderPath.all _
theorem SenderPath.mbcnt (c : CoreId) (f : TSyl) (w : Word) : SenderPath.Statement (.mbcnt c f w) := SenderPath.all _
theorem SenderPath.mailboxPutRelease (c : CoreId) : SenderPath.Statement (.mailboxPutRelease c) := SenderPath.all _
theorem SenderPath.mailboxGetRelease (c : CoreId) : SenderPath.Statement (.mailboxGetRelease c) := SenderPath.all _
theorem SenderPath.crewBankGrant (crew : CrewId) (bank : Fin 16) (waiting : BitVec 9) : SenderPath.Statement (.crewBankGrant crew bank waiting) := SenderPath.all _
theorem SenderPath.moverBankTake (c : CoreId) (bank : Fin 4) (waited : Nat) (coreWants : Bool) : SenderPath.Statement (.moverBankTake c bank waited coreWants) := SenderPath.all _
theorem SenderPath.storeQueueDrain (c : CoreId) (window : Bool) (collides : BitVec 4) : SenderPath.Statement (.storeQueueDrain c window collides) := SenderPath.all _
theorem SenderPath.routeFillDone (sink : Fin 8192) : SenderPath.Statement (.routeFillDone sink) := SenderPath.all _
theorem SenderPath.routeFadeDone (sink : Fin 8192) : SenderPath.Statement (.routeFadeDone sink) := SenderPath.all _
theorem SenderPath.routeTapmoveDone (sink : Fin 8192) : SenderPath.Statement (.routeTapmoveDone sink) := SenderPath.all _
theorem SenderPath.portRst (m : Master) (hi : Bool) (v : Word) : SenderPath.Statement (.portRst m hi v) := SenderPath.all _
theorem SenderPath.portResetRelease (u : Fin 52) : SenderPath.Statement (.portResetRelease u) := SenderPath.all _
theorem SenderPath.grpGo (m : Master) (v : Word) : SenderPath.Statement (.grpGo m v) := SenderPath.all _
theorem SenderPath.grpStop (m : Master) (v : Word) : SenderPath.Statement (.grpStop m v) := SenderPath.all _
theorem SenderPath.runRampEnd (p : Fin 48) : SenderPath.Statement (.runRampEnd p) := SenderPath.all _
theorem SenderPath.slipSilenceEnd (p : Fin 48) : SenderPath.Statement (.slipSilenceEnd p) := SenderPath.all _
theorem SenderPath.slipRampEnd (p : Fin 48) : SenderPath.Statement (.slipRampEnd p) := SenderPath.all _
theorem SenderPath.portStopped (p : Fin 48) : SenderPath.Statement (.portStopped p) := SenderPath.all _
theorem SenderPath.portRatePublish (p : Fin 48) (windowEnd : Time) : SenderPath.Statement (.portRatePublish p windowEnd) := SenderPath.all _
theorem SenderPath.pdmEn (m : Master) (v : Word) : SenderPath.Statement (.pdmEn m v) := SenderPath.all _
theorem SenderPath.pdmSettleEnd (k : Fin 32) : SenderPath.Statement (.pdmSettleEnd k) := SenderPath.all _
theorem SenderPath.mediaPacket (pk : MediaPacket) : SenderPath.Statement (.mediaPacket pk) := SenderPath.all _
theorem SenderPath.ptpMessage (i : Fin 2) (msg : PtpMessage) : SenderPath.Statement (.ptpMessage i msg) := SenderPath.all _
theorem SenderPath.ptpLost (i : Fin 2) : SenderPath.Statement (.ptpLost i) := SenderPath.all _
theorem SenderPath.ptpCfg (m : Master) (v : Word) : SenderPath.Statement (.ptpCfg m v) := SenderPath.all _
theorem SenderPath.arpRequest (fr : RxFrame) : SenderPath.Statement (.arpRequest fr) := SenderPath.all _
theorem SenderPath.igmpQuery (fr : RxFrame) : SenderPath.Statement (.igmpQuery fr) := SenderPath.all _
theorem SenderPath.icmpEcho (fr : RxFrame) : SenderPath.Statement (.icmpEcho fr) := SenderPath.all _
theorem SenderPath.hostQueueRx (fr : RxFrame) : SenderPath.Statement (.hostQueueRx fr) := SenderPath.all _
theorem SenderPath.netHqTxdb (m : Master) (v : Word) : SenderPath.Statement (.netHqTxdb m v) := SenderPath.all _
theorem SenderPath.netCfg (m : Master) (p : Fin 2) (v : Word) (prog : Option Burst) : SenderPath.Statement (.netCfg m p v prog) := SenderPath.all _
theorem SenderPath.netLinkDown (p : Fin 2) : SenderPath.Statement (.netLinkDown p) := SenderPath.all _
theorem SenderPath.netLinkUp (p : Fin 2) : SenderPath.Statement (.netLinkUp p) := SenderPath.all _
theorem SenderPath.timeForce (m : Master) : SenderPath.Statement (.timeForce m) := SenderPath.all _
theorem SenderPath.timeStep (m : Master) : SenderPath.Statement (.timeStep m) := SenderPath.all _
theorem SenderPath.timeLatch (m : Master) (t : Time) : SenderPath.Statement (.timeLatch m t) := SenderPath.all _
theorem SenderPath.refWindowEnd (meas : Vector RefMeas 4) (phaseErr : Int) (freqErr : Int) : SenderPath.Statement (.refWindowEnd meas phaseErr freqErr) := SenderPath.all _
theorem SenderPath.dpllLostLock (phaseErr : Int) : SenderPath.Statement (.dpllLostLock phaseErr) := SenderPath.all _
theorem SenderPath.refLos (r : Fin 4) : SenderPath.Statement (.refLos r) := SenderPath.all _
theorem SenderPath.refqlWord (r : Fin 2) (word : BitVec 16) (stopOk : Bool) : SenderPath.Statement (.refqlWord r word stopOk) := SenderPath.all _
theorem SenderPath.qlLost (r : Fin 2) : SenderPath.Statement (.qlLost r) := SenderPath.all _
theorem SenderPath.refCfg (m : Master) (v : Word) : SenderPath.Statement (.refCfg m v) := SenderPath.all _
theorem SenderPath.refCtrl (m : Master) (v : Word) : SenderPath.Statement (.refCtrl m v) := SenderPath.all _
theorem SenderPath.marker (h : TwinHdr) (imageId : BitVec 64) : SenderPath.Statement (.marker h imageId) := SenderPath.all _
theorem SenderPath.leasePinWord (bits : BitVec 8) (stopOk : Bool) : SenderPath.Statement (.leasePinWord bits stopOk) := SenderPath.all _
theorem SenderPath.beacon (b : Beacon) : SenderPath.Statement (.beacon b) := SenderPath.all _
theorem SenderPath.offer (h : TwinHdr) (target : BitVec 64) : SenderPath.Statement (.offer h target) := SenderPath.all _
theorem SenderPath.hello (h : TwinHdr) (imageId : BitVec 64) (nonce : List Byte) : SenderPath.Statement (.hello h imageId nonce) := SenderPath.all _
theorem SenderPath.input (h : TwinHdr) (blk : InputBlock) : SenderPath.Statement (.input h blk) := SenderPath.all _
theorem SenderPath.freeze (h : TwinHdr) (blocks : List (Nat × BitVec 2 × BitVec 8)) (ratios : List (Nat × Word)) (treats : List SrcTreat) (sectionOk : Bool) : SenderPath.Statement (.freeze h blocks ratios treats sectionOk) := SenderPath.all _
theorem SenderPath.calls (h : TwinHdr) (cs : List (CallRec × BitVec 64)) (rd : BitVec 17) : SenderPath.Statement (.calls h cs rd) := SenderPath.all _
theorem SenderPath.carry (h : TwinHdr) (strip : Nat) (offset : Nat) (words : List Word) : SenderPath.Statement (.carry h strip offset words) := SenderPath.all _
theorem SenderPath.close (h : TwinHdr) (digest : BitVec 64) (sectionOk : Bool) : SenderPath.Statement (.close h digest sectionOk) := SenderPath.all _
theorem SenderPath.rsctl (h : TwinHdr) (ctl : RsCtl) : SenderPath.Statement (.rsctl h ctl) := SenderPath.all _
theorem SenderPath.resync (h : TwinHdr) (item : RsItem) : SenderPath.Statement (.resync h item) := SenderPath.all _
theorem SenderPath.resyncRequest (m : Master) : SenderPath.Statement (.resyncRequest m) := SenderPath.all _
theorem SenderPath.twinLinkDown (l : LinkLoss) : SenderPath.Statement (.twinLinkDown l) := SenderPath.all _
theorem SenderPath.twinPathLost (p : TwinPath) : SenderPath.Statement (.twinPathLost p) := SenderPath.all _
theorem SenderPath.linkRestart (m : Master) : SenderPath.Statement (.linkRestart m) := SenderPath.all _
theorem SenderPath.diagClr (m : Master) : SenderPath.Statement (.diagClr m) := SenderPath.all _
theorem SenderPath.fabricBurst (b : Burst) : SenderPath.Statement (.fabricBurst b) := SenderPath.all _
theorem SenderPath.collidedRetry (stillCollides : Bool) : SenderPath.Statement (.collidedRetry stillCollides) := SenderPath.all _
theorem SenderPath.fabTimeout (b : Burst) : SenderPath.Statement (.fabTimeout b) := SenderPath.all _
theorem SenderPath.fabLockTmo (tgt : Fin 3) : SenderPath.Statement (.fabLockTmo tgt) := SenderPath.all _
theorem SenderPath.hostLock (m : Master) (v : Word) : SenderPath.Statement (.hostLock m v) := SenderPath.all _
theorem SenderPath.assayPass (e : Fin 8) : SenderPath.Statement (.assayPass e) := SenderPath.all _
theorem SenderPath.assayRow (e : Fin 8) (kind : MemKind) (inst : Nat) (bank : Nat) (row : Nat) : SenderPath.Statement (.assayRow e kind inst bank row) := SenderPath.all _
theorem SenderPath.assayRowDone (e : Fin 8) (faulty : Bool) (passEnds : Bool) (ms : Nat) : SenderPath.Statement (.assayRowDone e faulty passEnds ms) := SenderPath.all _
theorem SenderPath.memClearDone (k : MemKind) : SenderPath.Statement (.memClearDone k) := SenderPath.all _
theorem SenderPath.storeSettings (m : Master) : SenderPath.Statement (.storeSettings m) := SenderPath.all _
theorem SenderPath.storeBoot (m : Master) : SenderPath.Statement (.storeBoot m) := SenderPath.all _
theorem SenderPath.storeRepair (m : Master) : SenderPath.Statement (.storeRepair m) := SenderPath.all _
theorem SenderPath.storeLog (m : Master) : SenderPath.Statement (.storeLog m) := SenderPath.all _
theorem SenderPath.storeTrim (m : Master) : SenderPath.Statement (.storeTrim m) := SenderPath.all _
theorem SenderPath.install (m : Master) (slot : BitVec 2) : SenderPath.Statement (.install m slot) := SenderPath.all _
theorem SenderPath.clear (m : Master) (slot : BitVec 2) : SenderPath.Statement (.clear m slot) := SenderPath.all _
theorem SenderPath.provisionRoot (m : Master) : SenderPath.Statement (.provisionRoot m) := SenderPath.all _
theorem SenderPath.geodeLcreq (m : Master) (v : Word) : SenderPath.Statement (.geodeLcreq m v) := SenderPath.all _
theorem SenderPath.dramDriftTrack (failStep : BitVec 4) : SenderPath.Statement (.dramDriftTrack failStep) := SenderPath.all _
theorem SenderPath.dmaStart (m : Master) : SenderPath.Statement (.dmaStart m) := SenderPath.all _
theorem SenderPath.dmaAbort (m : Master) : SenderPath.Statement (.dmaAbort m) := SenderPath.all _
theorem SenderPath.dmaAborted (ch : Fin 16) (issued : Nat) : SenderPath.Statement (.dmaAborted ch issued) := SenderPath.all _
theorem SenderPath.dmaDescFetched (ch : Fin 16) : SenderPath.Statement (.dmaDescFetched ch) := SenderPath.all _
theorem SenderPath.dmaDescDone (ch : Fin 16) : SenderPath.Statement (.dmaDescDone ch) := SenderPath.all _
theorem SenderPath.dmaHalt (ch : Fin 16) (addr : BitVec 36) (resp : BitVec 2) (lastWrite : Bool) (issued : Vector Nat 16) : SenderPath.Statement (.dmaHalt ch addr resp lastWrite issued) := SenderPath.all _
theorem SenderPath.resetRelease (inp : ReleaseIn) : SenderPath.Statement (.resetRelease inp) := SenderPath.all _
theorem SenderPath.firmwareLoad (src : Fetch) : SenderPath.Statement (.firmwareLoad src) := SenderPath.all _
theorem SenderPath.engineImageLoad (src : Fetch) : SenderPath.Statement (.engineImageLoad src) := SenderPath.all _
theorem SenderPath.engineRelease (t : Time) : SenderPath.Statement (.engineRelease t) := SenderPath.all _
theorem SenderPath.rstBootGo (m : Master) (v : Word) : SenderPath.Statement (.rstBootGo m v) := SenderPath.all _
theorem SenderPath.resetN (ns : Nat) (low : Bool) : SenderPath.Statement (.resetN ns low) := SenderPath.all _
theorem SenderPath.tamperN (ns : Nat) (low : Bool) : SenderPath.Statement (.tamperN ns low) := SenderPath.all _
theorem SenderPath.rstCtrl (m : Master) (v : Word) : SenderPath.Statement (.rstCtrl m v) := SenderPath.all _
theorem SenderPath.rstEng (m : Master) (v : Word) (prog : Option Burst) : SenderPath.Statement (.rstEng m v prog) := SenderPath.all _
theorem SenderPath.trstN (prog : Option Burst) : SenderPath.Statement (.trstN prog) := SenderPath.all _
theorem SenderPath.debugIntrusion (act : DebugAct) : SenderPath.Statement (.debugIntrusion act) := SenderPath.all _
theorem SenderPath.rstWdtCfg (m : Master) (v : Word) : SenderPath.Statement (.rstWdtCfg m v) := SenderPath.all _
theorem SenderPath.rstWdtKick (m : Master) (v : Word) : SenderPath.Statement (.rstWdtKick m v) := SenderPath.all _
theorem SenderPath.sysBootOk (m : Master) (v : Word) (msSinceRelease : Nat) : SenderPath.Statement (.sysBootOk m v msSinceRelease) := SenderPath.all _
theorem SenderPath.auxOverload (is18 : Bool) : SenderPath.Statement (.auxOverload is18) := SenderPath.all _
theorem SenderPath.pwrAux (m : Master) (v : Word) : SenderPath.Statement (.pwrAux m v) := SenderPath.all _
theorem SenderPath.vioLow (bank : Fin 6) : SenderPath.Statement (.vioLow bank) := SenderPath.all _
theorem SenderPath.vioRestore (bank : Fin 6) (cls : BitVec 2) : SenderPath.Statement (.vioRestore bank cls) := SenderPath.all _
theorem SenderPath.reqRun (m : Master) : SenderPath.Statement (.reqRun m) := SenderPath.all _
theorem SenderPath.reqRetain (m : Master) : SenderPath.Statement (.reqRetain m) := SenderPath.all _
theorem SenderPath.reqDormant (m : Master) : SenderPath.Statement (.reqDormant m) := SenderPath.all _
theorem SenderPath.reqRecovery (m : Master) : SenderPath.Statement (.reqRecovery m) := SenderPath.all _
theorem SenderPath.reqService (m : Master) : SenderPath.Statement (.reqService m) := SenderPath.all _
theorem SenderPath.collectReport (r : Report) : SenderPath.Statement (.collectReport r) := SenderPath.all _
theorem SenderPath.coalesceWindow (index : Nat) : SenderPath.Statement (.coalesceWindow index) := SenderPath.all _
theorem SenderPath.errPop (m : Master) (v : Word) : SenderPath.Statement (.errPop m v) := SenderPath.all _
theorem SenderPath.clrLost (m : Master) (v : Word) : SenderPath.Statement (.clrLost m v) := SenderPath.all _
theorem SenderPath.injArm (m : Master) (v : Word) : SenderPath.Statement (.injArm m v) := SenderPath.all _
theorem SenderPath.injDisarm (m : Master) (v : Word) : SenderPath.Statement (.injDisarm m v) := SenderPath.all _
theorem SenderPath.assayNow (m : Master) : SenderPath.Statement (.assayNow m) := SenderPath.all _
theorem SenderPath.serdesAdapt (m : Master) : SenderPath.Statement (.serdesAdapt m) := SenderPath.all _
theorem SenderPath.dramTrack (m : Master) : SenderPath.Statement (.dramTrack m) := SenderPath.all _
theorem SenderPath.memBist (m : Master) : SenderPath.Statement (.memBist m) := SenderPath.all _
theorem SenderPath.coreBist (m : Master) : SenderPath.Statement (.coreBist m) := SenderPath.all _
theorem SenderPath.sliceTest (m : Master) : SenderPath.Statement (.sliceTest m) := SenderPath.all _
theorem SenderPath.sapLoop (m : Master) : SenderPath.Statement (.sapLoop m) := SenderPath.all _
theorem SenderPath.serdesLoop (m : Master) : SenderPath.Statement (.serdesLoop m) := SenderPath.all _
theorem SenderPath.dramTrain (m : Master) : SenderPath.Statement (.dramTrain m) := SenderPath.all _
theorem SenderPath.tsenseCal (m : Master) : SenderPath.Statement (.tsenseCal m) := SenderPath.all _
theorem SenderPath.testComplete (pass : Bool) (calFail : Bool) (failures : Word) (first : Word) (us : Word) (rows : List (Nat × Nat)) : SenderPath.Statement (.testComplete pass calFail failures first us rows) := SenderPath.all _
theorem SenderPath.resultSnapshotRead (m : Master) (addr : Nat) : SenderPath.Statement (.resultSnapshotRead m addr) := SenderPath.all _
theorem SenderPath.xpSel (m : Master) (v : Word) : SenderPath.Statement (.xpSel m v) := SenderPath.all _
theorem SenderPath.xpShd (m : Master) (v : Word) : SenderPath.Statement (.xpShd m v) := SenderPath.all _
theorem SenderPath.sinkSel (m : Master) (v : Word) : SenderPath.Statement (.sinkSel m v) := SenderPath.all _
theorem SenderPath.latSel (m : Master) (v : Word) : SenderPath.Statement (.latSel m v) := SenderPath.all _
theorem SenderPath.coreSel (m : Master) (v : Word) : SenderPath.Statement (.coreSel m v) := SenderPath.all _
theorem SenderPath.pcieMemoryWrite (bar2 : Bool) (off : Nat) (bytes : List (Option Byte)) : SenderPath.Statement (.pcieMemoryWrite bar2 off bytes) := SenderPath.all _
theorem SenderPath.pcieMemoryRead (bar2 : Bool) (off : Nat) (len : Nat) : SenderPath.Statement (.pcieMemoryRead bar2 off len) := SenderPath.all _
theorem SenderPath.pcieConfigRequest (off : Nat) (power : Option (BitVec 2)) : SenderPath.Statement (.pcieConfigRequest off power) := SenderPath.all _
theorem SenderPath.pcieLinkDown (prog : Option Burst) : SenderPath.Statement (.pcieLinkDown prog) := SenderPath.all _
theorem SenderPath.pcieHotReset (prog : Option Burst) : SenderPath.Statement (.pcieHotReset prog) := SenderPath.all _
theorem SenderPath.functionLevelReset (prog : Option Burst) : SenderPath.Statement (.functionLevelReset prog) := SenderPath.all _
theorem SenderPath.spiWrite (addr : BitVec 36) (bytes : List Byte) : SenderPath.Statement (.spiWrite addr bytes) := SenderPath.all _
theorem SenderPath.spiRead (addr : BitVec 36) (len : Nat) : SenderPath.Statement (.spiRead addr len) := SenderPath.all _
theorem SenderPath.qspiCmd (m : Master) (v : Word) : SenderPath.Statement (.qspiCmd m v) := SenderPath.all _
theorem SenderPath.qspiDone (data : List Byte) : SenderPath.Statement (.qspiDone data) := SenderPath.all _
theorem SenderPath.sysIrqAck (m : Master) (v : Word) : SenderPath.Statement (.sysIrqAck m v) := SenderPath.all _
theorem SenderPath.msixUnmask (vec : Fin 64) : SenderPath.Statement (.msixUnmask vec) := SenderPath.all _
theorem SenderPath.registerWrite (m : Master) (off : Nat) (v : Word) : SenderPath.Statement (.registerWrite m off v) := SenderPath.all _
theorem SenderPath.fsEdge (p : Fin 48) (t : Time) (rising : Bool) (f : DiFrame) : SenderPath.Statement (.fsEdge p t rising f) := SenderPath.all _
theorem SenderPath.refFirstEdge (r : Fin 2) : SenderPath.Statement (.refFirstEdge r) := SenderPath.all _
theorem SenderPath.pwrMonPublish (mv : Word) (tj : Word) (mw : Word) : SenderPath.Statement (.pwrMonPublish mv tj mw) := SenderPath.all _
theorem SenderPath.pcieLinkUp (speed : BitVec 4) (width : BitVec 3) : SenderPath.Statement (.pcieLinkUp speed width) := SenderPath.all _
theorem SenderPath.finish : SenderPath.Statement .finish := SenderPath.all _
theorem SenderPath.callAccept : SenderPath.Statement .callAccept := SenderPath.all _
theorem SenderPath.setParam : SenderPath.Statement .setParam := SenderPath.all _
theorem SenderPath.swapBank : SenderPath.Statement .swapBank := SenderPath.all _
theorem SenderPath.route : SenderPath.Statement .route := SenderPath.all _
theorem SenderPath.xpGain : SenderPath.Statement .xpGain := SenderPath.all _
theorem SenderPath.xpSwap : SenderPath.Statement .xpSwap := SenderPath.all _
theorem SenderPath.sceneArm : SenderPath.Statement .sceneArm := SenderPath.all _
theorem SenderPath.sceneRecall : SenderPath.Statement .sceneRecall := SenderPath.all _
theorem SenderPath.sceneXpAlignSwap : SenderPath.Statement .sceneXpAlignSwap := SenderPath.all _
theorem SenderPath.sceneDone : SenderPath.Statement .sceneDone := SenderPath.all _
theorem SenderPath.sceneCancel : SenderPath.Statement .sceneCancel := SenderPath.all _
theorem SenderPath.mute : SenderPath.Statement .mute := SenderPath.all _
theorem SenderPath.portMask : SenderPath.Statement .portMask := SenderPath.all _
theorem SenderPath.portRamp : SenderPath.Statement .portRamp := SenderPath.all _
theorem SenderPath.mark : SenderPath.Statement .mark := SenderPath.all _
theorem SenderPath.twinHandover : SenderPath.Statement .twinHandover := SenderPath.all _
theorem SenderPath.portGroupAction : SenderPath.Statement .portGroupAction := SenderPath.all _
theorem SenderPath.hqTxSend : SenderPath.Statement .hqTxSend := SenderPath.all _
theorem SenderPath.strCntPublish : SenderPath.Statement .strCntPublish := SenderPath.all _
theorem SenderPath.holdSlewDone : SenderPath.Statement .holdSlewDone := SenderPath.all _
theorem SenderPath.freqSlewDone : SenderPath.Statement .freqSlewDone := SenderPath.all _
theorem SenderPath.buildoutDone : SenderPath.Statement .buildoutDone := SenderPath.all _
theorem SenderPath.loFault : SenderPath.Statement .loFault := SenderPath.all _
theorem SenderPath.yieldComplete : SenderPath.Statement .yieldComplete := SenderPath.all _
theorem SenderPath.leaseExpired : SenderPath.Statement .leaseExpired := SenderPath.all _
theorem SenderPath.acquireCox : SenderPath.Statement .acquireCox := SenderPath.all _
theorem SenderPath.handoverRelease : SenderPath.Statement .handoverRelease := SenderPath.all _
theorem SenderPath.resyncCutover : SenderPath.Statement .resyncCutover := SenderPath.all _
theorem SenderPath.twinLinkUp : SenderPath.Statement .twinLinkUp := SenderPath.all _
theorem SenderPath.slateStoreDone : SenderPath.Statement .slateStoreDone := SenderPath.all _
theorem SenderPath.vglitch : SenderPath.Statement .vglitch := SenderPath.all _
theorem SenderPath.tglitch : SenderPath.Statement .tglitch := SenderPath.all _
theorem SenderPath.vsysPowerOn : SenderPath.Statement .vsysPowerOn := SenderPath.all _
theorem SenderPath.brownout : SenderPath.Statement .brownout := SenderPath.all _
theorem SenderPath.bootHostTimeout : SenderPath.Statement .bootHostTimeout := SenderPath.all _
theorem SenderPath.wake : SenderPath.Statement .wake := SenderPath.all _
theorem SenderPath.debugReset : SenderPath.Statement .debugReset := SenderPath.all _
theorem SenderPath.wdtExpiry : SenderPath.Statement .wdtExpiry := SenderPath.all _
theorem SenderPath.vsysLow : SenderPath.Statement .vsysLow := SenderPath.all _
theorem SenderPath.vsysHigh : SenderPath.Statement .vsysHigh := SenderPath.all _
theorem SenderPath.railFault : SenderPath.Statement .railFault := SenderPath.all _
theorem SenderPath.thermWarn : SenderPath.Statement .thermWarn := SenderPath.all _
theorem SenderPath.thermFault : SenderPath.Statement .thermFault := SenderPath.all _
theorem SenderPath.thermTrip : SenderPath.Statement .thermTrip := SenderPath.all _
theorem SenderPath.retainEnter : SenderPath.Statement .retainEnter := SenderPath.all _
theorem SenderPath.spiStatus : SenderPath.Statement .spiStatus := SenderPath.all _
theorem SenderPath.xinReturn : SenderPath.Statement .xinReturn := SenderPath.all _

end Sys2Proof.Laws
end

