-- ==== Sys2Proof/Tests/Slice0.lean ====
section
/-! SUPPORT. Tests: ill-formed commands are refused, a few single steps, and for every statement with hypotheses a state and operands that
meet them. -/

open Sys2Proof Sys2Proof.Machine

section

-- The kernel evaluates many of these facts: one after another, so that few threads wait at once.
set_option Elab.async false

/-! ### Well-formed commands -/

def Tests.beat : Beat := { en := 0xFFFF#16, data := 0#128 }
def Tests.burst (a : BitVec 36) (n : Nat) : Burst := { master := .sc, addr := a, write := false, lock := false, beats := List.replicate n Tests.beat }

theorem test_wf_burst : (Instr.fabricBurst (Tests.burst 0x2000000#36 16)).wf = true := by decide
theorem test_ill_burst_empty : (Instr.fabricBurst (Tests.burst 0x2000000#36 0)).wf = false := by decide
theorem test_ill_burst_long : (Instr.fabricBurst (Tests.burst 0x2000000#36 17)).wf = false := by decide
theorem test_ill_burst_start : (Instr.fabTimeout (Tests.burst 0x2000004#36 1)).wf = false := by decide
theorem test_ill_register_offset : (Instr.registerWrite .host 0x1000000 0#32).wf = false := by decide
theorem test_ill_register_master : (Instr.registerWrite .dma 0 0#32).wf = false := by decide
theorem test_ill_sender : (Instr.callDb .eng 0#32).wf = false := by decide
theorem test_ill_read_address : (Instr.resultSnapshotRead .host 2).wf = false := by decide
theorem test_ill_read_range : (Instr.resultSnapshotRead .host 0x1000000000).wf = false := by decide
theorem test_ill_pcie_write_empty : (Instr.pcieMemoryWrite false 0 []).wf = false := by decide
theorem test_ill_pcie_write_end : (Instr.pcieMemoryWrite false 0xFFFFFF [none, none]).wf = false := by decide
theorem test_ill_pcie_read_long : (Instr.pcieMemoryRead true 0 4097).wf = false := by decide
theorem test_ill_spi_write_short : (Instr.spiWrite 0#36 [0#8]).wf = false := by decide
theorem test_ill_spi_write_address : (Instr.spiWrite 2#36 (List.replicate 4 0#8)).wf = false := by decide
theorem test_ill_spi_read_long : (Instr.spiRead 0#36 257).wf = false := by decide

/-! ### States for the tests -/

/-- The machine after power-on with nothing stored. -/
def Tests.bare : State := { State.reset with mem := [], regs := [], act := [] }

/-- `bare` with core 0 as given. -/
def Tests.withCore (k : Core) : State := { Tests.bare with cores := vput Tests.bare.cores 0 k }

def Tests.runs : Core := { run := .running }

theorem Tests.noInj (s : State) (h : s.err.inj = Vector.replicate 8 {}) : NoInjection s := by
  intro src code
  unfold injArmed
  rw [h]
  rfl

theorem Tests.issues (k : Core) (hr : k.run = .running) (hp : k.pc < 4096) : Issues (Tests.withCore k) 0 :=
  ⟨hr, hp, rfl, Tests.noInj _ rfl⟩

theorem Tests.computes (k : Core) (f : CSyl) (hr : k.run = .running) (hp : k.pc < 4096) (hq : rP k f.prd.toNat = true) :
    Computes (Tests.withCore k) 0 f 0#32 := ⟨Tests.issues k hr hp, .inr (by decide), hq⟩

theorem Tests.controls (k : Core) (f : CSyl) (hr : k.run = .running) (hp : k.pc < 4096) : Controls (Tests.withCore k) 0 f 0#32 :=
  ⟨Tests.issues k hr hp, .inr (by decide)⟩

theorem Tests.transfers (k : Core) (f : TSyl) (hr : k.run = .running) (hp : k.pc < 4096) (hq : rP k f.tprd.toNat = true) :
    Transfers (Tests.withCore k) 0 f 0#32 := ⟨Tests.issues k hr hp, ⟨by decide, by decide⟩, hq⟩

/-! ### Witnesses: the Apion core -/

/-- An image that loads nothing, with barrier 0 of crew 0 for core 0. -/
def Tests.image : Image :=
  { family := false, format := 1, id := 0#64, entry := [], barriers := [1], own := [], lat := [], tgt := [], cycles := [], fork := [], chain := []
    plane := 0, slices := [], patch := [], kern := [], akern := [], carry := 0 }

theorem witness_AluResults :
    (Computes (Tests.withCore Tests.runs) 0 { dst := 31 } 0#32 ∧ ({ dst := 31 } : CSyl).shr = 0#3 ∧ ({ dst := 31 } : CSyl).md = 0#4) ∧
    ({ dst := 31 } : CSyl).sb = 0#5 ∧ ({ dst := 31 } : CSyl).li = false :=
  ⟨⟨Tests.computes _ _ rfl (by decide) (by decide), rfl, rfl⟩, rfl, rfl⟩

theorem witness_PredicateResults :
    let f : CSyl := { dst := 7, sa := 7, sb := 7, md := 6 }
    Computes (Tests.withCore Tests.runs) 0 f 0#32 ∧ f.shr = 0#3 ∧ f.md.getLsbD 3 = false ∧ f.dst.toNat < 8 ∧ f.sa.toNat < 8 ∧ f.sb.toNat < 8 ∧
      f.li = false ∧ f.md.toNat ≠ 7 :=
  ⟨Tests.computes _ _ rfl (by decide) (by decide), by decide⟩

theorem witness_MultiplyResults :
    let f : CSyl := { dst := 31, md := 15, shr := 3 }
    Computes (Tests.withCore Tests.runs) 0 f 0#32 ∧ f.shr.toNat < 4 ∧ f.li = false :=
  ⟨Tests.computes _ _ rfl (by decide) (by decide), by decide⟩

theorem witness_AccumulateResults :
    let f : CSyl := { md := 15, shr := 4 }
    let g : CSyl := { md := 15, shr := 3 }
    let h : CSyl := { md := 15 }
    (Computes (Tests.withCore Tests.runs) 0 f 0#32 ∧ f.li = false ∧ f.dst = 0#5 ∧ f.shr.toNat < 5) ∧
    (Computes (Tests.withCore Tests.runs) 0 g 0#32 ∧ g.li = false ∧ g.dst = 0#5 ∧ g.shr.toNat < 4) ∧
    (Computes (Tests.withCore Tests.runs) 0 h 0#32 ∧ h.li = false ∧ h.dst = 0#5 ∧ h.shr = 0#3 ∧ h.sa = 0#5 ∧ h.sb = 0#5) :=
  ⟨⟨Tests.computes _ _ rfl (by decide) (by decide), by decide⟩, ⟨Tests.computes _ _ rfl (by decide) (by decide), by decide⟩,
    Tests.computes _ _ rfl (by decide) (by decide), by decide⟩

theorem witness_AccumulatorMoves :
    let f : CSyl := { dst := 31 }
    let g : CSyl := { dst := 3, sa := 3, sb := 3, md := 1 }
    let h : CSyl := { dst := 31, md := 11 }
    let e : CSyl := { sa := 31, md := 3 }
    let l : CSyl := { sb := 31, md := 3 }
    (Computes (Tests.withCore Tests.runs) 0 f 0#32 ∧ f.li = false ∧ f.shr = 0#3 ∧ f.sb = 0#5 ∧ f.md.toNat % 4 = 0 ∧ f.sa = 0#5 ∧ f.md = 0#4) ∧
    (Computes (Tests.withCore Tests.runs) 0 g 0#32 ∧ g.shr = 0#3 ∧ g.li = false ∧ g.dst.toNat < 4 ∧ g.sa.toNat < 4 ∧ g.sb.toNat < 4 ∧ g.md.toNat < 2) ∧
    (Computes (Tests.withCore Tests.runs) 0 h 0#32 ∧ h.shr = 0#3 ∧ h.li = false ∧ h.sa = 0#5 ∧ h.sb = 0#5 ∧ h.md.toNat < 12) ∧
    (Computes (Tests.withCore Tests.runs) 0 e 0#32 ∧ e.shr = 0#3 ∧ e.li = false ∧ e.dst = 0#5 ∧ e.sb = 0#5 ∧ e.md.toNat < 4 ∧ e.md.toNat < 12) ∧
    (Computes (Tests.withCore Tests.runs) 0 l 0#32 ∧ l.shr = 0#3 ∧ l.dst = 0#5 ∧ l.sa = 0#5 ∧ l.md.toNat < 4) :=
  ⟨⟨Tests.computes _ _ rfl (by decide) (by decide), by decide⟩, ⟨Tests.computes _ _ rfl (by decide) (by decide), by decide⟩,
    ⟨Tests.computes _ _ rfl (by decide) (by decide), by decide⟩, ⟨Tests.computes _ _ rfl (by decide) (by decide), by decide⟩,
    Tests.computes _ _ rfl (by decide) (by decide), by decide⟩

theorem witness_GainGroup :
    let f : CSyl := { dst := 29, sa := 31 }
    Computes (Tests.withCore Tests.runs) 0 f 0#32 ∧ f.shr = 0#3 ∧ f.md = 0#4 ∧ f.li = false ∧ f.sb = 0#5 :=
  ⟨Tests.computes _ _ rfl (by decide) (by decide), by decide⟩

theorem witness_CsrAccess : ∀ d ∈ [0#5, 1#5, 2#5, 3#5, 4#5, 5#5, 6#5, 31#5],
    let f : CSyl := { dst := d }
    Computes (Tests.withCore Tests.runs) 0 f 0#32 ∧ f.shr = 0#3 ∧ f.md = 0#4 ∧ f.li = false ∧ f.sb = 0#5 ∧ f.sa = 0#5 :=
  fun _ _ => ⟨Tests.computes _ _ rfl (by decide) rfl, rfl, rfl, rfl, rfl, rfl⟩

theorem witness_ControlFlow :
    let k : Core := { run := .running, pc := 10, rets := [5] }
    let f : CSyl := {}
    let g : CSyl := { md := 4 }
    let h : CSyl := { dst := 1, li := true }
    let o : LoopLv := ⟨8, 10, 1, 1⟩
    (Controls (Tests.withCore k) 0 f 0#32 ∧ f.shr = 0#3 ∧ f.sb.toNat % 8 = 0 ∧ f.md.toNat % 4 = 0 ∧ rP k f.prd.toNat ≠ f.md.getLsbD 2 ∧
      f.prd = 0#3 ∧ f.md = 0#4 ∧ f.dst = 0#5 ∧ f.sa = 0#5 ∧ f.sb = 0#5 ∧ f.li = false ∧ k.rets.length < 4 ∧ k.rets = 5 :: []) ∧
    (Controls (Tests.withCore k) 0 g 0#32 ∧ g.shr = 0#3 ∧ g.md.toNat % 4 = 0 ∧ rP k g.prd.toNat = g.md.getLsbD 2) ∧
    (Controls (Tests.withCore k) 0 h 0#32 ∧ h.shr = 0#3 ∧ h.prd = 0#3 ∧ h.md = 0#4 ∧ h.sb = 0#5 ∧ k.loops.length < 2 ∧ k.pc + 1 + 32 ≤ 4095) ∧
    (∃ k : Core, 0 < o.cnt ∧ k.loops = [o, o]) :=
  ⟨⟨Tests.controls _ _ rfl (by decide), by decide⟩, ⟨Tests.controls _ _ rfl (by decide), by decide⟩,
    ⟨Tests.controls _ _ rfl (by decide), by decide⟩, { loops := [⟨8, 10, 1, 1⟩, ⟨8, 10, 1, 1⟩] }, by decide⟩

/-- Core 0 runs under the image of the tests. -/
def Tests.imaged (k : Core) : State := { Tests.withCore k with eng := { img := some Tests.image } }

theorem witness_StrokeWaits :
    let f : CSyl := {}
    let s := Tests.imaged Tests.runs
    let t : State := { Tests.imaged { run := .atBarrier 0 } with crews := vput Tests.bare.crews 0 { arrived := vput (Vector.replicate 8 0#8) 0 1#8 } }
    (Controls s 0 f 0#32 ∧ f.shr = 0#3 ∧ f.md.toNat < 8 ∧ (barMask s 0 0).testBit 0 = true ∧ (coreAt s 0).crewQ.length ≤ 4 ∧
      (coreAt s 0).winQ.length ≤ 2) ∧
    (coreAt (Tests.withCore { run := .draining }) 0).run = .draining ∧
    (∀ k ∈ [({ run := .atBarrier 0 } : Core), { run := .halted, paused := .atBarrier 0 }],
      let u : State := { t with cores := vput t.cores 0 k }
      barMask u 0 0 = barMask t 0 0 ∧ crewAt u 0 = crewAt t 0 ∧ coreAt u 0 = k) ∧
    (barMask t 0 0 ≠ 0 ∧ chainBar t 0 ≠ some 0 ∧
      ∀ i, (barMask t 0 0).testBit i = true → i < 8 ∧ (vget 0#8 (crewAt t 0).arrived 0).getLsbD i = true) := by
  refine ⟨⟨⟨⟨rfl, by decide, rfl, Tests.noInj _ rfl⟩, .inr (by decide)⟩, by decide⟩, rfl, by decide, by decide, by decide, fun i h => ?_⟩
  obtain rfl : i = 0 := by
    have h1 : (1 : Nat).testBit i = true := h
    cases i with
    | zero => rfl
    | succ n => simp [Nat.testBit_succ] at h1
  decide

theorem witness_PredicatedOff :
    Issues (Tests.withCore Tests.runs) 0 ∧ XferIdle { prd := 1 } 0#32 ∧ CompIdle 0#32 ∧ rP Tests.runs 1 = false :=
  ⟨Tests.issues _ rfl (by decide), .inr (by decide), ⟨by decide, by decide⟩, by decide⟩

theorem witness_CoreFaults :
    let k : Core := { run := .running, rets := [1, 2, 3, 4], loops := [⟨0, 9, 2, 2⟩, ⟨0, 8, 2, 2⟩] }
    let f : CSyl := { shr := 4 }
    let g : TSyl := { ofs := 0x400 }
    let j : Core := { run := .running, a := vput (Vector.replicate 16 0#24) 0 0x4000#24 }
    (Computes (Tests.withCore k) 0 f 0#32 ∧ f.shr ≠ 0#3 ∧ 4 ≤ f.shr.toNat) ∧
    (Controls (Tests.withCore k) 0 {} 0#32 ∧ 4 ≤ k.rets.length ∧ 2 ≤ k.loops.length ∧ (barMask (Tests.withCore k) 0 0).testBit 0 = false) ∧
    (Controls (Tests.withCore Tests.runs) 0 {} 0#32 ∧ Tests.runs.rets = []) ∧
    (Transfers (Tests.withCore j) 0 {} 0#32 ∧ xopOk (.ld 4 .p) {} = true ∧ ∃ w ∈ accAddrs j (.ld 4 .p) {}, mapWord 0 j w = none) ∧
    (Transfers (Tests.withCore Tests.runs) 0 g 0#32 ∧ xopOk (.st 1 .o) g = true ∧ ∃ w ∈ accAddrs Tests.runs (.st 1 .o) g, mapWord 0 Tests.runs w = none) :=
  ⟨⟨Tests.computes _ _ rfl (by decide) (by decide), by decide⟩, ⟨Tests.controls _ _ rfl (by decide), by decide⟩,
    ⟨Tests.controls _ _ rfl (by decide), rfl⟩, ⟨Tests.transfers _ _ rfl (by decide) (by decide), by decide, by decide⟩,
    Tests.transfers _ _ rfl (by decide) (by decide), by decide, by decide⟩

theorem witness_Loads :
    let f : TSyl := {}
    let s := Tests.withCore Tests.runs
    Transfers s 0 f 0#32 ∧ f.ofs = 0#11 ∧ f.mr = 0#4 ∧ (∀ y ∈ accAddrs Tests.runs (.ld 4 .p) f, (mapWord 0 Tests.runs y).isSome = true) ∧
      (∀ y ∈ wordsAt 0 Tests.runs (.ld 4 .p) f, inputDue s y = false ∧ Good s y ∧ firmwareArea y = false) :=
  ⟨Tests.transfers _ _ rfl (by decide) (by decide), by unfold Good; decide⟩

/-- A core whose A0 points at `a`, with one entry in each queue. -/
def Tests.at_ (a : BitVec 24) : Core :=
  { run := .running, a := vput (Vector.replicate 16 0#24) 0 a, crewQ := List.replicate 4 [], winQ := List.replicate 2 [] }

theorem witness_Stores :
    let f : TSyl := {}
    let k := { Tests.at_ 0x80000#24 with crewQ := [] }
    let w := { Tests.at_ 0x100000#24 with winQ := [] }
    (Transfers (Tests.withCore Tests.runs) 0 f 0#32 ∧ MemoryOk (Tests.withCore Tests.runs) ∧ f.ofs = 0#11 ∧ f.mr = 0#4 ∧
      AllIn .data 0 Tests.runs (.st 4 .p) f) ∧
    (Transfers (Tests.withCore k) 0 f 0#32 ∧ MemoryOk (Tests.withCore k) ∧ AllIn .crew 0 k (.st 4 .p) f ∧ k.crewQ.length < 4) ∧
    (Transfers (Tests.withCore w) 0 f 0#32 ∧ MemoryOk (Tests.withCore w) ∧ AllIn .window 0 w (.st 4 .p) f ∧ w.winQ.length < 2) ∧
    (Transfers (Tests.withCore (Tests.at_ 0x80000#24)) 0 f 0#32 ∧ MemoryOk (Tests.withCore (Tests.at_ 0x80000#24)) ∧
      AllIn .crew 0 (Tests.at_ 0x80000#24) (.st 4 .p) f ∧ ∃ e q, (Tests.at_ 0x80000#24).crewQ = e :: q ∧ q.length = 3) ∧
    (Transfers (Tests.withCore (Tests.at_ 0x100000#24)) 0 f 0#32 ∧ MemoryOk (Tests.withCore (Tests.at_ 0x100000#24)) ∧
      AllIn .window 0 (Tests.at_ 0x100000#24) (.st 4 .p) f ∧ ∃ e q, (Tests.at_ 0x100000#24).winQ = e :: q ∧ q.length = 1) := by
  have go (r : Region) (k : Core) (h : (accAddrs k (.st 4 .p) {}).all (fun w => (mapWord 0 k w).any fun p => p.1 == r) = true) : AllIn r 0 k (.st 4 .p) {} := by
    intro w hw
    have hb := List.all_eq_true.1 h w hw
    cases hm : mapWord 0 k w with
    | none => simp [hm] at hb
    | some p => refine ⟨p.2, ?_⟩; simp [hm] at hb; rw [← hb]
  exact ⟨⟨Tests.transfers _ _ rfl (by decide) (by decide), ⟨rfl, rfl⟩, rfl, rfl, go _ _ (by decide)⟩,
    ⟨Tests.transfers _ _ rfl (by decide) (by decide), ⟨rfl, rfl⟩, go _ _ (by decide), by decide⟩,
    ⟨Tests.transfers _ _ rfl (by decide) (by decide), ⟨rfl, rfl⟩, go _ _ (by decide), by decide⟩,
    ⟨Tests.transfers _ _ rfl (by decide) (by decide), ⟨rfl, rfl⟩, go _ _ (by decide), [], _, rfl, rfl⟩,
    Tests.transfers _ _ rfl (by decide) (by decide), ⟨rfl, rfl⟩, go _ _ (by decide), [], _, rfl, rfl⟩

theorem witness_AddressUnit :
    let f : TSyl := { ar := 15, mr := 4 }
    let g : TSyl := { ar := 7, mr := 12 }
    (Transfers (Tests.withCore Tests.runs) 0 {} 0#32 ∧ Transfers (Tests.withCore Tests.runs) 0 f 0#32 ∧ Transfers (Tests.withCore Tests.runs) 0 g 0#32) ∧
    (f.mr.toNat % 4 = 0 ∧ f.mr.toNat / 4 < 2 ∧ f.dr = 0#5 ∧ f.ofs = 0#11) ∧ (g.mr.toNat % 4 = 0 ∧ g.ar.toNat < 8 ∧ g.dr = 0#5 ∧ g.ofs = 0#11) :=
  ⟨⟨Tests.transfers _ _ rfl (by decide) (by decide), Tests.transfers _ _ rfl (by decide) (by decide), Tests.transfers _ _ rfl (by decide) (by decide)⟩,
    by decide, by decide⟩

theorem witness_NextAddress :
    let k : Core := { stat := 0x10000#32, l := vput (Vector.replicate 8 0#24) 0 8#24 }
    (brv k 0 = true ∧ (rL k 0).toNat = 8) ∧ (brv {} 7 = false ∧ (rL { l := vput (Vector.replicate 8 0#24) 7 5#24 } 7).toNat ≠ 0) ∧
      (brv {} 0 = false ∧ (rL {} 0).toNat = 0) := by decide

theorem witness_Mailboxes :
    let f : TSyl := {}
    let full : State := { Tests.withCore { run := .running, mbox := List.replicate 4 0#32 } with freeCtr := 0 }
    let b (o : BitVec 5) : Core := { run := if o = 0x18#5 then .putHeld else .getHeld, mbox := [1#32], held := some (mkT o f 0#32) }
    (Transfers (Tests.withCore Tests.runs) 0 f 0#32 ∧ (coreAt (Tests.withCore Tests.runs) 0).mbox.length < 4 ∧ (coreAt (Tests.withCore Tests.runs) 0).mbox = []) ∧
    (Transfers full 0 f 0#32 ∧ 4 ≤ (coreAt full 0).mbox.length ∧ (coreAt full 0).mbox = 0#32 :: List.replicate 3 0#32) ∧
    (CompIdle 0#32 ∧ (b 0x18#5).run = .putHeld ∧ (b 0x18#5).held = some (mkT 0x18#5 f 0#32) ∧ (b 0x18#5).mbox.length < 4) ∧
    ((b 0x19#5).run = .getHeld ∧ (b 0x19#5).held = some (mkT 0x19#5 f 0#32) ∧ (b 0x19#5).mbox = 1#32 :: []) :=
  ⟨⟨Tests.transfers _ _ rfl (by decide) (by decide), by decide, rfl⟩,
    ⟨⟨⟨rfl, by decide, rfl, Tests.noInj _ rfl⟩, ⟨by decide, by decide⟩, by decide⟩, by decide, rfl⟩, ⟨⟨by decide, by decide⟩, rfl, rfl, by decide⟩,
    rfl, rfl, rfl⟩

/-! ### Witnesses: banks, calls and the patch -/

/-- Strip 0 with one carry word at crew word 0 of crew 0: the cells of its descriptor (R145, R146). -/
def Tests.carried : State :=
  { Tests.bare with mem := [(centralAddr 0x3C0003, 0x20#8), (centralAddr 0x3C000C, 1#8)], eng := { img := some Tests.image } }

theorem witness_carried : MemoryOk Tests.carried ∧ holdWord Tests.carried 0 0 = some 524287 ∧ tget false Tests.carried.msvc.hold (crewAddr 0 0) = false ∧
    (let s : State := { Tests.carried with msvc := { Tests.carried.msvc with hold := [(crewAddr 0 0, true)] } }
     tget false s.msvc.hold (crewAddr 0 0) = true) :=
  ⟨⟨by decide, by decide⟩, by decide +kernel, rfl, by decide⟩

theorem witness_BanksAndQueues :
    let d : StoreEnt := [(crewAddr 0 524287, 1#32), (crewAddr 0 0, 2#32)]
    let w : StoreEnt := [(centralAddr 0x77FFFC, 1#32), (centralAddr 0, 2#32)]
    let e : StoreEnt := [(centralAddr 0x3E0004, 1#32)]
    let f : StoreEnt := [(centralAddr 0x780000, 1#32)]
    let s (q : List StoreEnt) := Tests.withCore { winQ := q, crewQ := q }
    256#9 ≠ 0#9 ∧ (coreAt (s []) 0).winQ = [] ∧ (coreAt (s []) 0).crewQ = [] ∧ (∀ q, NoInjection (s q) ∧ MemoryOk (s q)) ∧
    ((coreAt (s [w]) 0).winQ = w :: [] ∧ ∀ p ∈ w, firmwareArea p.1 = false ∧ planeUnowned (s [w]) p.1 = false ∧ isMeter p.1 = false) ∧
    ((coreAt (s [e]) 0).winQ = e :: [] ∧ ∀ p ∈ e, firmwareArea p.1 = false ∧ planeUnowned (s [e]) p.1 = false ∧ isMeter p.1 = true) ∧
    ((coreAt (s [f]) 0).winQ = f :: [] ∧ ∀ p ∈ f, firmwareArea p.1 = true) ∧
    ((coreAt (s [d]) 0).crewQ = d :: [] ∧ hitWords 1#4 d = [(crewAddr 0 524287, 1#32)] ∧ freeWords 1#4 d = [(crewAddr 0 0, 2#32)] ∧
      ∀ p ∈ d, p.1 = crewAddr 0 ((p.1 - crewAddr 0 0) / 4) ∧ (p.1 - crewAddr 0 0) / 4 < 524288) := by
  refine ⟨by decide, by decide, by decide, fun q => ⟨Tests.noInj _ rfl, rfl, rfl⟩, ?_⟩
  decide +kernel

theorem witness_Receipts :
    let full : State := { Tests.bare with call := { rcptWr := 1#17 } }
    (NoInjection Tests.bare ∧ (⟨7#32, stOnTime, 0, 0#64, true⟩ : Receipt).status = stOnTime ∧ rcptFull Tests.bare = false) ∧
    (NoInjection full ∧ rcptFull full = true) := ⟨⟨Tests.noInj _ rfl, rfl, by decide⟩, Tests.noInj _ rfl, by decide⟩

/-- A MARK call for stroke 9 as the ring holds it at offset 0 (R50). -/
def Tests.ring (opcode : Byte) (target : Byte) (flags : Byte) : State :=
  { Tests.bare with
      mem := [(0x2000000, target), (0x2000008, opcode), (0x200000A, flags)], regs := [(Reg.CALL_CTRL, 1#32)]
      sys := { mode := .live }, eng := { phase := .drive, stroke := 5#64 }, call := { prod := 1#17 }, act := [(Reg.CALL_CFG, 2#32)] }

/-- What CALL_ACCEPT needs of `ring`, and what it decides. -/
def Tests.accepts (opcode target flags : Byte) : Prop :=
  let s := Tests.ring opcode target flags
  let c := callOf (memWords s.mem (centralAddr 0) 8)
  let u : State := { s with call := { s.call with rd := s.call.rd + 1, accepted := s.call.accepted + 1 } }
  let h := (s.call.prod - s.call.rd).toNat
  bitAt (reg s Reg.CALL_CTRL) 0 = true ∧ s.sys.mode ≠ .shadow ∧ s.eng.phase ≠ .held ∧ 0 < h ∧ h ≤ callSize s ∧ s.call.accepted < 2048 ∧
    s.call.pend.length < 16384 ∧ centralAddr (fld (reg s Reg.CALL_RING_BASE) 22 5 * 32 + s.call.rd.toNat % callSize s * 32) = centralAddr 0 ∧
    (∀ i, i < 8 → Good s (centralAddr 0 + 4 * i)) ∧ bulkOf c = none ∧ c.opcode ≠ 6#16 ∧ rejectReason u c [] = (if opcode = 13#8 then 2 else 0) ∧
    s.eng.stroke.toNat + callLead s = 7 ∧ c.target.toNat = target.toNat ∧ callRejects u c = decide (flags = 2#8)

theorem witness_CallUnit_accept :
    (∀ a b c, NoInjection (Tests.ring a b c)) ∧ Tests.accepts 11#8 7#8 0#8 ∧ Tests.accepts 11#8 6#8 0#8 ∧ Tests.accepts 11#8 6#8 2#8 ∧
      Tests.accepts 13#8 7#8 0#8 := by
  refine ⟨fun _ _ _ => Tests.noInj _ rfl, ?_, ?_, ?_, ?_⟩ <;> unfold Tests.accepts Good <;> decide +kernel

/-- The doorbell of a ring that is full, of one with room, and of one whose shipped CALL_RD has passed the producer index. -/
theorem witness_CallUnit_doorbell :
    let s := Tests.bare
    let t : State := { s with regs := [(Reg.CALL_RING_BASE, 0x7FFFE0#32), (Reg.CALL_RING_SIZE, 1#32)], eng := { fam := some false } }
    let h (prod rd : BitVec 17) := (prod - rd).toNat
    NoInjection s ∧ NoInjection t ∧ ((0#32).truncate 17 : BitVec 17) = s.call.prod ∧ h s.call.prod s.call.rd = 0 ∧
      (((1#32).truncate 17 : BitVec 17) - s.call.prod).toNat ≤ callSize s ∧ callSize s < (((2#32).truncate 17 : BitVec 17) - s.call.prod).toNat ∧
      callSize s < h 3#17 5#17 ∧ (h 3#17 5#17 : Int) - 2 ^ 17 = -2 ∧ bitAt 0#32 0 = false ∧ bitAt 0#32 17 = false ∧ bitAt 0x20000#32 17 = true ∧
      ¬ 0x800000 < fld (reg s Reg.CALL_RING_BASE) 22 5 * 32 + 32 * callSize s ∧ sps s = 0 ∧
      bitAt 1#32 0 = true ∧ 0x800000 < fld (reg t Reg.CALL_RING_BASE) 22 5 * 32 + 32 * callSize t ∧ sps t ≠ 0 :=
  ⟨Tests.noInj _ rfl, Tests.noInj _ rfl, by decide +kernel⟩

/-- A state before the CATCH of stroke 6 with one call of that stroke pending. -/
def Tests.due (p : Pend) : State := { Tests.bare with eng := { phase := .finished, stroke := 5#64 }, call := { pend := [p] } }

def Tests.pend (op : BitVec 16) (payload : List Byte) (armed : Bool) : Pend :=
  { call := { target := 6#64, opcode := op, flags := 0#16, id := 1#32, payload := payload }, acc := 0#64, due := 6#64, late := false, armed := armed }

theorem Tests.isDue (op : BitVec 16) (payload : List Byte) (armed : Bool) (h : callCost (Tests.pend op payload armed).call ≤ 4096) :
    Due (Tests.due (Tests.pend op payload armed)) (Tests.pend op payload armed) op armed where
  next := by simp [nextDue, callsOpen, Tests.due, Tests.pend, strokeDue]
  op := rfl
  armed := rfl
  align := rfl
  units := by
    show 0 + callCost _ ≤ 4096
    omega

theorem Tests.quiet (p : Pend) : NoInjection (Tests.due p) ∧ (Tests.due p).scene.arm = none ∧ (Tests.due p).scene.fades = [] ∧
    (Tests.due p).scene.align = [] := ⟨Tests.noInj _ rfl, rfl, rfl, rfl⟩

theorem witness_CallsApplied :
    (∀ op ∈ [2#16, 4#16, 5#16, 8#16, 9#16, 11#16], Due (Tests.due (Tests.pend op [0#8, 0#8, 1#8] false)) (Tests.pend op [0#8, 0#8, 1#8] false) op false) ∧
    pfield [0#8, 0#8, 1#8] 2 2 ≠ 0 ∧
    (let q : List Byte := [0#8, 0#8, 0#8, 2#8]
     Due (Tests.due (Tests.pend 1#16 q false)) (Tests.pend 1#16 q false) 1#16 false ∧ pbyte q 3 ≤ 2) ∧
    (let q : List Byte := [0#8, 0#8, 0#8, 255#8]
     Due (Tests.due (Tests.pend 1#16 q false)) (Tests.pend 1#16 q false) 1#16 false ∧ 2 < pbyte q 3 ∧ ptrOk (pfield q 8 4) (4 * 255) = true ∧
     Clean (Tests.due (Tests.pend 1#16 q false)) (centralAddr 0) 255) ∧
    (let q : List Byte := [0#8, 1#8, 1#8]
     Due (Tests.due (Tests.pend 10#16 q false)) (Tests.pend 10#16 q false) 10#16 false ∧ (portAt Tests.bare 0).mute.up = true) := by
  refine ⟨fun op hop => Tests.isDue _ _ _ ?_, by decide, ⟨Tests.isDue _ _ _ (by decide), by decide⟩,
    ⟨Tests.isDue _ _ _ (by decide), by decide, by decide +kernel, Tests.noInj _ rfl, fun _ _ => rfl⟩, Tests.isDue _ _ _ (by decide), by decide⟩
  simp only [List.mem_cons, List.not_mem_nil, or_false] at hop
  obtain rfl | rfl | rfl | rfl | rfl | rfl := hop <;> decide

theorem witness_CallsApplied_moved :
    let p := Tests.pend 3#16 [] false
    let s : State := { Tests.bare with eng := { phase := .finished, stroke := 5#64 }, call := { pend := [p], wu := 4096 } }
    nextDue s = some p ∧ s.scene.align = [] ∧ p.armed = false ∧ 4096 < s.call.wu + callCost p.call ∧ (∀ x ∈ s.call.pend, x.rej = false) ∧
      s.scene.arm = none := by decide +kernel

theorem witness_Routes :
    let p := Tests.pend 3#16 [0#8, 8#8, 0xFF#8, 0x1F#8] false
    let q := Tests.pend 3#16 [0#8, 8#8, 0#8, 8#8] false
    let bad := Tests.pend 3#16 [0#8, 8#8, 0#8, 8#8, 3#8] false
    let s := Tests.due p
    (NoInjection s ∧ Due s p 3#16 false ∧ tget none s.patch.same 0x800 = none ∧ routeFieldsOk s 0x800 0x1FFF 0 0 = true ∧
      routeDomOk s 0x1FFF 0x800 = true ∧ isForeignIn s 0x800 = false ∧ (sinkAt s 0x800).st = .settled ∧ (sinkAt s 0x800).src = 0x1FFF ∧
      (sinkAt s 0x800).lost = false) ∧
    (Due (Tests.due q) q 3#16 false ∧ routeFieldsOk (Tests.due q) 0x800 0x800 0 0 = true ∧ routeDomOk (Tests.due q) 0x800 0x800 = true ∧
      (sinkAt (Tests.due q) 0x800).src ≠ 0x800 ∧ brMissing (Tests.due q) 0x800 0x800 = []) ∧
    (Due (Tests.due bad) bad 3#16 false ∧ routeFieldsOk (Tests.due bad) 0x800 0x800 3 0 = false) ∧
    (let t := putSink 0x800 { st := .fade 0 } (Tests.due q)
     NoInjection t ∧ Due t q 3#16 false ∧ tget none t.patch.same 0x800 = none ∧ routeFieldsOk t 0x800 0x800 0 0 = true ∧ routeDomOk t 0x800 0x800 = true ∧
     isForeignIn t 0x800 = false ∧ (sinkAt t 0x800).st ≠ .settled) ∧
    (let t : State := putSink 0 { src := 0x800, st := .fade 4, chg := some ⟨0x800, 1, 0⟩ } (putSink 1 { st := .fill 0 } (putSink 2 { st := .tap 64 } Tests.bare))
     (sinkAt t 1).st = .fill 0 ∧ (sinkAt t 0).st = .fade 4 ∧ fadeLen t 0 ⟨0x800, 1, 0⟩ ≤ 4 ∧ hasLine t 0 = false ∧ (sinkAt t 0).held = none ∧
     (sinkAt t 0).dly = 0 ∧ (sinkAt t 2).st = .tap 64 ∧ (sinkAt t 0).st ≠ .settled) :=
  ⟨⟨Tests.noInj _ rfl, Tests.isDue _ _ _ (by decide +kernel), by decide +kernel⟩, ⟨Tests.isDue _ _ _ (by decide +kernel), by decide +kernel⟩, ⟨Tests.isDue _ _ _ (by decide +kernel), by decide +kernel⟩,
    ⟨Tests.noInj _ rfl, ⟨rfl, rfl, rfl, rfl, by decide +kernel⟩, by decide +kernel⟩, by decide +kernel⟩

/-- A recall of no strips at stroke 6. -/
def Tests.recall : Recall :=
  { id := 1#32, scene := 0#32, t := 6, f := 6, hand := 5, xf := 0, peff := 0, short := false, forked := []
    desc := { strips := [], xpMask := 0#16, xp := false, xpAlign := false, noFork := true, routes := [] } }

theorem witness_Scenes :
    (let p := Tests.pend 6#16 [] false
     NoInjection (Tests.due p) ∧ Due (Tests.due p) p 6#16 false ∧ (Tests.due p).scene.arm = none ∧
     readBulk p.call (charged (Tests.due p) p) = (charged (Tests.due p) p, memWords (Tests.due p).mem (centralAddr 0) 68)) ∧
    (let p := Tests.pend 6#16 [] true
     let s : State := { Tests.due p with scene := { arm := some Tests.recall } }
     Due s p 6#16 true ∧ s.scene.arm = some Tests.recall ∧ Tests.recall.forked = [] ∧ Tests.recall.desc.routes = [] ∧ s.scene.fades = [] ∧
     ∀ n ∈ Tests.recall.desc.strips, n < 1920) ∧
    (let p := Tests.pend 7#16 (List.replicate 4 0xFF#8) false
     let x := Tests.pend 6#16 [] false
     let s : State := { Tests.due p with call := { pend := [p, x] } }
     Due s p 7#16 false ∧ x ∈ s.call.pend ∧ x.call.opcode = 6#16 ∧ pfield p.call.payload 0 4 = 0xFFFFFFFF ∧ s.call.pend.Nodup ∧ x.armed = false ∧
     ∀ y ∈ s.call.pend, y.call.opcode = 6#16 → y = x) ∧
    (let s : State := { Tests.bare with eng := { phase := .finished, stroke := 5#64 }, scene := { fades := [Tests.recall], align := [(1#16, 6), (0#16, 6)] } }
     let t : State := { s with scene := { align := [(1#16, 6), (0#16, 7)] } }
     s.eng.phase = .finished ∧ s.scene.fades = [Tests.recall] ∧ Tests.recall.hand ≤ s.eng.stroke.toNat ∧ s.eng.stroke.toNat + 1 < 2 ^ 64 ∧
     (∀ m ∈ s.scene.align, m.2 ≤ s.eng.stroke.toNat + 1) ∧ t.eng.phase = .finished ∧ ∃ m ∈ t.scene.align, t.eng.stroke.toNat + 1 < m.2) :=
  ⟨⟨Tests.noInj _ rfl, Tests.isDue _ _ _ (by decide +kernel), rfl, by decide +kernel⟩, ⟨⟨rfl, rfl, rfl, rfl, by decide +kernel⟩, rfl, rfl, rfl, rfl, by decide +kernel⟩,
    ⟨⟨rfl, rfl, rfl, rfl, by decide +kernel⟩, by decide +kernel⟩, by decide +kernel⟩

/-! ### Witnesses: strokes, ports, network, time and references -/

theorem witness_CatchStarts :
    let s : State := { Tests.bare with eng := { fam := some false, img := some Tests.image, phase := .finished } }
    let h : State := { s with cores := vput s.cores 127 { run := .halted } }
    let f : State := { Tests.bare with eng := { fam := some true } }
    Tests.bare.eng.fam = none ∧ (f.eng.fam ≠ none ∧ f.eng.phase = .held ∧ f.sys.ramped = false) ∧
    (∀ u ∈ [s, h], u.eng.fam = some Tests.image.family ∧ u.eng.img = some Tests.image ∧ u.eng.phase = .finished ∧ u.sys.busy = none ∧ u.sys.ramped = false) ∧
      NoInjection s ∧ NoInjection h ∧ (coreAt s 127).run ≠ .halted ∧ (coreAt h 127).run = .halted :=
  ⟨rfl, by decide, by decide, Tests.noInj _ rfl, Tests.noInj _ rfl, by decide, by decide⟩

theorem witness_FinishCloses :
    let s (r : CoreRun) : State :=
      { Tests.bare with eng := { phase := .drive }, mix := { done := 0xFFFF#16 }, cores := Vector.replicate 128 { run := r } }
    ((s .asleep).eng.phase = .drive ∧ NoInjection (s .asleep) ∧ (∀ sl, sl < 16 → (s .asleep).mix.done.getLsbD sl = true) ∧
      ∀ n, n < 128 → (coreAt (s .asleep) n).run = .asleep) ∧
    (NoInjection (s .running) ∧ (∀ sl, sl < 16 → (s .running).mix.done.getLsbD sl = true) ∧ (coreAt (s .running) 127).run ≠ .asleep) ∧
    (let h : State := { s .asleep with cores := vput (s .asleep).cores 127 { run := .halted, paused := .running } }
     h.eng.phase = .drive ∧ NoInjection h ∧ h.mix.done = 0xFFFF#16 ∧ (coreAt h 127).run = .halted ∧ (coreAt h 127).paused ≠ .asleep) :=
  ⟨⟨rfl, Tests.noInj _ rfl, by decide +kernel, by decide +kernel⟩, ⟨Tests.noInj _ rfl, by decide +kernel, by decide⟩, rfl, Tests.noInj _ rfl, rfl,
    by decide, by decide⟩

theorem witness_SlicesAndRecovery :
    let s : State := { Tests.bare with eng := { phase := .drive, ovr := [(3, .silence 8), (9743, .ramp 1)] }, mix := { out := [(14, [1#32]), (15, [1#32])] } }
    Tests.bare.eng.phase ≠ .drive ∧
    (s.eng.phase = .drive ∧ ∀ sl ∈ [14, 15], s.mix.done.getLsbD sl = false ∧ tget [] s.mix.out sl ≠ []) ∧
      tget .none s.eng.ovr (9728 + 14) = .none ∧ tget .none s.eng.ovr (9728 + 15) = .ramp 1 ∧ tget .none s.eng.ovr 3 = .silence 8 ∧
      tget .none s.eng.ovr 4 ≠ .silence 8 ∧
      (List.replicate 16 0#32).length = 16 := by decide

/-- A port as given, in place of port 47. -/
def Tests.port (x : Port) : State := putPort 47 x Tests.bare

theorem witness_PortResets :
    let s : State := { Tests.bare with sys := { rel := 8 }, regs := [(Reg.PORT_CFG + 47 * 2 ^ 24, 0x80000000#32)] }
    (NoInjection Tests.bare ∧ Tests.bare.err.testBusy = false ∧ NoInjection s ∧ s.err.testBusy = false ∧ s.sys.rel = 8 ∧ (portAt s 47).held = true ∧
      s.port.pdmHeld.getLsbD 3 = true ∧ bitAt (regAt s Reg.PORT_CFG 0) 31 = false) ∧
    (let p : State := { Tests.bare with port := { pdm := vput (Vector.replicate 32 {}) 31 { on := true } } }
     (pdmAt p 31).on = true ∧ (pdmAt p 31).settle = 0) :=
  ⟨⟨Tests.noInj _ rfl, rfl, Tests.noInj _ rfl, rfl, rfl, by decide, by decide, by decide⟩, by decide⟩

theorem witness_PortResets_cfg : (bitAt 0x80000000#32 31 = true ∧ cfgBad 0x80000000#32 = true) ∧
    bitAt 0x80000002#32 31 = true ∧ cfgBad 0x80000002#32 = false := by decide

theorem witness_PortGroups :
    let a : GrpAct := ⟨6#64, 15, true⟩
    let s : State := { Tests.bare with port := { grp := [a] }, eng := { phase := .finished, stroke := 5#64 } }
    Tests.bare.port.grp = [] ∧ s.port.grp = [a] ∧ a.g.toNat ≤ (strokeDue s).toNat ∧
    (let t (x : Port) := Tests.port x
     (portAt (t { st := .starting, run := ⟨8, 8, true⟩ }) 47).st = .starting ∧ (portAt (t { st := .starting, run := ⟨8, 8, true⟩ }) 47).run = ⟨8, 8, true⟩ ∧
     (portAt (t { st := .stopping, run := ⟨0, 8, false⟩ }) 47).st = .stopping ∧ (portAt (t { st := .stopping, run := ⟨0, 8, false⟩ }) 47).run.p = 0 ∧
     (portAt (t { treat := .silence 8 }) 47).treat = .silence 8 ∧
     (portAt (t { treat := .ramp 32 }) 47).treat = .ramp (8 * portN (t { treat := .ramp 32 }) (portAt (t { treat := .ramp 32 }) 47))) := by decide +kernel

theorem witness_PortEdges :
    let x : Port := { st := .running, fmeas := true, ew := ⟨0, 2, 0, 6553600000000 / 4800⟩, rate := { valid := true, gen := 65535 }, cls := 3 }
    let s : State := { Tests.port x with eng := { fam := some false } }
    let m : State := { s with port := { s.port with ports := vput s.port.ports 47 { x with cfg := 0x40000000#32 } }, sys := { mode := .live } }
    (NoInjection s ∧ portVioLow s 47 = false ∧ x.ew.k = 6553599999999 / 6553600000000 ∧ x.st ≠ .off ∧ bitAt x.cfg 30 = false ∧ x.stopped = false ∧
      portDom x.cfg ≠ 3 ∧ portDom x.cfg < 3 ∧ x.speed = false ∧ x.ew.e ≠ 0 ∧ portAt s 47 = x ∧ sapPad s 47 ≠ .driven ∧ cfgFmt x.cfg = 0 ∧ bitAt x.cfg 19 = false) ∧
    (NoInjection m ∧ portVioLow m 47 = false ∧ sapPad m 47 = .driven ∧ gridEdge (sps m * portN m (portAt m 47)) m.eng.gridAt 700000000 / 6553600000000 = x.ew.k) ∧
    (portAt Tests.bare 47).st = .off ∧
    (let rate := 1024 * (x.ew.e - 1) * 65536000000000 / (x.ew.t2 - x.ew.t1)
     ((rate : Int) - 1024 * (sps s * domN (portDom x.cfg) : Nat)).natAbs * 1000000 ≤ 100 * (1024 * (sps s * domN (portDom x.cfg))) ∧ classOf rate = x.cls ∧
     fld (regAt s Reg.PORT_CTRL 47) 9 0 = 0 ∧ ¬ 49152000 < portSlots x.cfg * widthOf (cfgSlotw x.cfg) * classRate x.cls) :=
  ⟨⟨Tests.noInj _ rfl, by decide +kernel⟩, ⟨Tests.noInj _ rfl, by decide +kernel⟩, by decide +kernel⟩

/-- A state whose network ports are up, and the header of a good frame of the greatest length on port 1. -/
def Tests.net : State := { Tests.bare with net := { up := Vector.replicate 2 true }, eng := { fam := some false } }
def Tests.hdr (ok : Bool) (len : Nat) : RxHdr := { port := 1, len := len, fcsOk := ok, sfd := 65536000000000 }

theorem witness_NetworkReplies :
    let b : List Byte := List.replicate 60 7#8
    let t : State := { Tests.net with regs := [(Reg.NET_IP1, 0x07070707#32)] }
    linkUp Tests.bare 1 = false ∧ (linkUp Tests.net 1 = true ∧ (Tests.hdr false 64).fcsOk = false) ∧ ((Tests.hdr true 1523).fcsOk = true ∧ 1522 < (Tests.hdr true 1523).len) ∧
      ((Tests.hdr true 1522).fcsOk = true ∧ (Tests.hdr true 1522).len ≤ 1522) ∧ linkUp t 1 = true ∧ beField b 12 2 ≠ 0x8100 ∧
      (∀ at_ ∈ [16, 24], beField b (14 + at_) 4 = (reg t (Reg.NET_IP0 + 0x40)).toNat ∧ beField b (14 + at_) 4 ≠ (reg Tests.net (Reg.NET_IP0 + 0x40)).toNat) := by
  decide +kernel

/-- A frame that is kept, a PAUSE frame, one of IPv6 and an IP fragment; a host queue that is full both ways. -/
theorem witness_HostQueue :
    let full : State := { Tests.net with net := { Tests.net.net with rxWr := 16#11, txProd := 1#11 }, regs := [(Reg.NET_HQ_RXSIZE, 4#32), (Reg.NET_HQ_TXSIZE, 4#32)] }
    let of (t u f : Byte) : List Byte := List.replicate 12 0#8 ++ [t, u] ++ List.replicate 6 0#8 ++ [0#8, f] ++ List.replicate 38 0#8
    let kept (b : List Byte) : Prop := ¬ (beField b 12 2 = 0x8808 ∨ beField b 12 2 = 0x86DD ∨ (beField b 12 2 = 0x0800 ∧ beField b 20 2 % 16384 ≠ 0))
    linkUp full 1 = true ∧ hqSize full Reg.NET_HQ_RXSIZE ≤ (full.net.rxWr - (reg full Reg.NET_HQ_RXRD).truncate 11).toNat ∧
      (Tests.net.net.rxWr - (reg Tests.net Reg.NET_HQ_RXRD).truncate 11).toNat < hqSize Tests.net Reg.NET_HQ_RXSIZE ∧ full.net.txRd ≠ full.net.txProd ∧
      Tests.net.net.txRd = Tests.net.net.txProd ∧ kept (of 8#8 0#8 0#8) ∧ ¬ kept (of 8#8 0#8 1#8) ∧ ¬ kept (of 0x88#8 8#8 0#8) ∧ ¬ kept (of 0x86#8 0xDD#8 0#8) := by
  decide +kernel

/-- A packet with one L24 sample, and a state whose receive entry 0 of port 0 takes it. -/
def Tests.packet : MediaPacket :=
  { hdr := { port := 0, len := 100, fcsOk := true, sfd := 65536000000000 }, vlan := none, dstIp := 1#32, dstPort := 2#16, srcIp := 0#32, ssrc := 0#32, pt := 96#7
    seq := 0#16, ts := 0#32, epoch := none, payload := [1#8, 2#8, 3#8], bytes := [] }
def Tests.rx : State :=
  { Tests.net with
      net := { Tests.net.net with streams := [(0, { on := true, en := true, seq0 := some 0#16 })] }
      regs := [(Reg.STR_ADDR, 1#32), (Reg.STR_UDP, 0x20000#32), (Reg.STR_MAP, 0x10000#32)]
      act := [(Reg.STR_CFG, 0#32), (Reg.STR_ADDR, 1#32), (Reg.STR_UDP, 0x20000#32), (Reg.STR_MAP, 0x10000#32)] }

theorem witness_MediaPackets :
    let rx := (Tests.rx.net.streams.filter fun e => e.2.en && e.2.on && decide (e.1 < 512)).map (·.1)
    linkUp Tests.rx 0 = true ∧ Tests.packet.hdr.fcsOk = true ∧ Tests.packet.hdr.len ≤ 1522 ∧ sps Tests.rx ≠ 0 ∧ rx = [0] ∧
      takes Tests.rx 0 Tests.packet = true ∧ names Tests.rx 0 { Tests.packet with dstPort := 3#16 } = false ∧
      (names Tests.rx 0 { Tests.packet with payload := [1#8] } = true ∧ takes Tests.rx 0 { Tests.packet with payload := [1#8] } = false) ∧
      bitAt (strCfg Tests.rx 0) 23 = false ∧ bitAt (strCfg Tests.rx 0) 25 = false ∧ (strAt Tests.rx 0).seq0 = some Tests.packet.seq := by decide +kernel

/-- A sample before the stroke grid, one early, one late, and one whose place is taken. -/
theorem witness_MediaPackets_places :
    let m (ts : Word) (c : Nat) : Int := (domN (strDom Tests.rx 0) * c : Nat) + (ts - strWord Tests.rx Reg.STR_TSOFS 0 + wOf 0 - wOf (domN (strDom Tests.rx 0) * c)).toInt
    let u (v : Int) : Int := (v + strRxofs Tests.rx 0) / domN (strDom Tests.rx 0)
    let due (v : Int) : Int := (strokeStart (sps Tests.rx) (u v + 1).toNat : Int) - 2000 * 65536
    let t : State := { Tests.rx with eng := { fam := some false, stroke := 9#64 }, net := { Tests.rx.net with marks := [(0, some ⟨0, 0#32⟩)] } }
    m 0xFFFFFFFF#32 0 < 0 ∧ (0 ≤ m 40000#32 0 ∧ (0 : Int) ≤ due (m 40000#32 0) ∧ ((0 : Nat) : Int) + 1024 / domN (strDom Tests.rx 0) - 2 < u (m 40000#32 0)) ∧
      (0 ≤ m 8#32 0 ∧ due (m 8#32 0) < 65536000000000 ∧ u (m 8#32 0) < t.eng.stroke.toNat) ∧ tget none t.net.marks 0 = some ⟨0, 0#32⟩ := by decide +kernel

theorem witness_NetworkLinks :
    let s : State := { Tests.bare with regs := [(Reg.NET_CFG0 + 0x40, 0x80000000#32)] }
    NoInjection s ∧ NoInjection Tests.net ∧ vget false Tests.net.net.up 1 = true ∧ vget false s.net.up 1 = false ∧
      bitAt (reg s (Reg.NET_CFG0 + 0x40 * 1)) 31 = true ∧ s.err.testBusy = false :=
  ⟨Tests.noInj _ rfl, Tests.noInj _ rfl, by decide, by decide, by decide, rfl⟩

/-- A PTP message of sender `n` for instance 0, and a state whose instance 0 is as given. -/
def Tests.ptpMsg (n : Nat) (body : PtpBody) : PtpMessage :=
  { hdr := { port := 0, len := 90, fcsOk := true, sfd := 65536000000000 }, domain := 0#8, sender := BitVec.ofNat 80 n, seq := 5#16, correction := 0, body := body }
def Tests.ptpData (prio : Byte) : PtpData :=
  { prio1 := prio, cls := 6#8, acc := 0x21#8, variance := 0#16, prio2 := 128#8, gmid := 7#64, steps := 0#16, utc := 37#16 }
def Tests.ptp (x : Ptp) (cfg : Word) : State :=
  { Tests.net with net := { Tests.net.net with ptp := Vector.replicate 2 x }, regs := [(Reg.PTP_CFG, cfg)] }

/-- An instance in UNCALIBRATED after 15 good Syncs of sender 1, a two-step Sync waiting; the same peer to peer, and one that listens. -/
theorem witness_PtpInstances :
    let d := Tests.ptpData 128#8
    let x : Ptp := { st := 2, good := 15, known := true, gmid := 7#64, master := some ⟨1#80, d⟩, wait := some ⟨5#16, 0, 0⟩ }
    let s (v : Word) := Tests.ptp x v
    let l := Tests.ptp { st := 1 } 0#32
    let msg := Tests.ptpMsg 1 (.announce d)
    (∀ v, NoInjection (s v)) ∧ (s 0#32).net.isSplit = false ∧ linkUp (s 0#32) 0 = true ∧ msg.hdr.fcsOk = true ∧ msg.hdr.len ≤ 1522 ∧
      ptpAt (s 0#32) 0 = x ∧ x.st ≠ 0 ∧ 2 ≤ x.st ∧ (ptpAt l 0).st = 1 ∧
      regAt (s 0#32) Reg.PTP_CFG 0 = 0#32 ∧ regAt (s 0x40000000#32) Reg.PTP_CFG 0 = 0x40000000#32 ∧ msg.hdr.port = 0 ∧ msg.domain = 0#8 ∧
      (bitAt 0#32 28 || bitAt 0x40000000#32 28) = false ∧ fld 0#32 23 16 = 0 ∧ fld 0x40000000#32 23 16 = 0 ∧
      fld 0x40000000#32 30 29 = 2 ∧ fld 0#32 30 29 ≠ 2 ∧ (x.master.map fun m => m.sender) = some msg.sender ∧
      (x.master.map fun m => m.sender) ≠ some (Tests.ptpMsg 2 (.announce d)).sender ∧ ptpBetter ⟨2#80, { d with prio1 := 1#8, gmid := 8#64 }⟩ ⟨1#80, d⟩ = true ∧
      ptpBetter ⟨2#80, { d with prio1 := 255#8, gmid := 8#64 }⟩ ⟨1#80, d⟩ = false ∧ (x.wait.map fun w => w.seq) = some msg.seq ∧
      (s 0#32).net.waitHost = false ∧ fld 0x7F0000#32 23 16 < 128 ∧ (bank (s 0#32) .host).ptp = 0 ∧ 128 ≤ fld 0x800000#32 23 16 := by
  refine ⟨fun _ => Tests.noInj _ rfl, ?_⟩
  repeat' apply And.intro
  all_goals decide +kernel

/-- Domains split, both PTP references qualified, the selection as given. -/
def Tests.split (sel : Option Nat) : State :=
  { Tests.net with net := { Tests.net.net with isSplit := true }, ref := { refs := Vector.replicate 4 { st := 3, ql := 4 }, dpll := 2, sel := sel } }

theorem witness_SystemTime :
    (∀ sel, NoInjection (Tests.split sel)) ∧ (Tests.bare.net.isSplit = false ∧ NoInjection Tests.bare) ∧
    ((Tests.split (some 2)).net.isSplit = true ∧ ptpFirst (Tests.split (some 2)) = some 0 ∧ (Tests.split (some 2)).ref.sel ≠ some 0 ∧
      (Tests.split (some 2)).ref.dpll = 2) ∧
    (ptpFirst (Tests.split (some 0)) = some 0 ∧ (Tests.split (some 0)).ref.sel = some 0) ∧
    (let f : State := { Tests.split none with ref := { (Tests.split none).ref with dpll := 3, firstDone := true } }
     NoInjection f ∧ f.net.isSplit = true ∧ ptpFirst f = some 0 ∧ f.ref.sel ≠ some 0 ∧ f.ref.dpll = 3 ∧ f.ref.firstDone = true) :=
  ⟨fun _ => Tests.noInj _ rfl, ⟨rfl, Tests.noInj _ rfl⟩, by decide +kernel, by decide +kernel, Tests.noInj _ rfl, by decide +kernel⟩

/-- References measured: REF_CTRL enables, all four references as given. -/
def Tests.refs (st run : Nat) : State :=
  { Tests.bare with regs := [(Reg.REF_CTRL, 0x80000000#32)], ref := { refs := Vector.replicate 4 { st := st, run := run, ql := 4 } } }

theorem witness_Qualification :
    (∀ st run, NoInjection (Tests.refs st run)) ∧ Tests.bare.sys.vio.getLsbD 5 = false ∧ bitAt (reg (Tests.refs 0 0) Reg.REF_CTRL) 31 = true ∧
    (∀ st ∈ [0, 1, 2, 3], ∀ run ∈ [0, 3], (refAt (Tests.refs st run) 3).st = st ∧ (refAt (Tests.refs st run) 3).run = run) ∧
    ((0#32 : Word).toInt.natAbs : Int) ≤ fld (reg (Tests.refs 2 0) Reg.REF_LIMIT) 15 0 * 2560 ∧
    ¬ ((1#32 : Word).toInt.natAbs : Int) ≤ fld (reg (Tests.refs 2 0) Reg.REF_LIMIT) 15 0 * 2560 :=
  ⟨fun _ _ => Tests.noInj _ rfl, by decide, by decide +kernel, by decide +kernel, by decide +kernel, by decide +kernel⟩

theorem witness_Selection :
    let s : State := { Tests.refs 3 0 with ref := { (Tests.refs 3 0).ref with dpll := 2, sel := some 1 } }
    NoInjection s ∧ refCands s ≠ [] ∧ (∃ r, refChoice s (refCands s) = some r) ∧ refCands Tests.bare = [] ∧ s.ref.sel = some 1 ∧ tabWf 0#32 s.regs = true ∧
      fld (reg s Reg.REF_CTRL) 31 28 = fld 0x80000000#32 31 28 ∧ fld (reg s Reg.REF_CTRL) 31 28 ≠ fld 0x70000000#32 31 28 ∧ fld 0x70000000#32 31 30 = 1 ∧
      fld 0x70000000#32 29 28 = 3 ∧ (refAt s 3).st = 3 ∧ s.ref.sel ≠ some 3 ∧ s.ref.dpll = 2 ∧ (bank s .host).ref < 2 ∧
      bitAt 0#32 31 = bitAt (regAt s Reg.REF_CFG (bank s .host).ref) 31 ∧ bitAt (reg s Reg.REF_CTRL) 31 = true :=
  ⟨Tests.noInj _ rfl, by decide +kernel, ⟨(refChoice { Tests.refs 3 0 with ref := { (Tests.refs 3 0).ref with dpll := 2, sel := some 1 } } (refCands
    { Tests.refs 3 0 with ref := { (Tests.refs 3 0).ref with dpll := 2, sel := some 1 } })).getD 9, by decide +kernel⟩, by decide +kernel⟩

theorem witness_ReferenceEvents :
    NoInjection (Tests.refs 2 0) ∧ bitAt (reg (Tests.refs 2 0) Reg.REF_CTRL) 31 = true ∧ (∀ r, r < 2 → (ptpAt (Tests.refs 2 0) r).st ≠ 3) ∧
    (Tests.refs 2 0).sys.vio.getLsbD 5 = false ∧ reg (Tests.refs 2 0) Reg.LO_STAT &&& 1#32 = 0#32 ∧
    (let w := 0xA00A#16
     w.extractLsb' 12 4 = 0xA#4 ∧ w.extractLsb' 0 4 = w.extractLsb' 12 4 ^^^ w.extractLsb' 8 4 ^^^ w.extractLsb' 4 4) ∧ (0#16).extractLsb' 12 4 ≠ 0xA#4 ∧
    (let s : State := { Tests.bare with regs := [(Reg.REF_CTRL, 0x80000000#32), (Reg.LO_STAT, 1#32)] }
     NoInjection s ∧ reg s Reg.LO_STAT &&& 1#32 ≠ 0#32) :=
  ⟨Tests.noInj _ rfl, by decide +kernel, by decide +kernel, by decide, by decide +kernel, by decide, by decide, Tests.noInj _ rfl, by decide +kernel⟩

theorem witness_ReferenceEvents_quality :
    let s : State := { Tests.bare with regs := tset 0#32 [(Reg.REF_CTRL, 0x80000000#32)] (regKey Reg.REF_CFG 3) 0x8000000#32 }
    let low : State := { s with sys := { s.sys with vio := 0x20#6 } }
    let back : State := { s with ref := { s.ref with intOsc := true } }
    let slave : State := { s with net := { s.net with ptp := Vector.replicate 2 { st := 3 } } }
    NoInjection s ∧ bitAt (reg s Reg.REF_CTRL) 31 = true ∧ bitAt (regAt s Reg.REF_CFG 3) 27 = true ∧ bitAt (regAt s Reg.REF_CFG 2) 27 = false ∧
      tabWf 0#32 s.regs = true ∧ (NoInjection low ∧ low.sys.vio.getLsbD 5 = true) ∧ (NoInjection slave ∧ (ptpAt slave 1).st = 3) ∧
      (NoInjection back ∧ back.ref.intOsc = true ∧ reg back Reg.LO_STAT &&& 1#32 = 0#32) ∧ s.ref.intOsc = false :=
  ⟨Tests.noInj _ rfl, by decide +kernel, by decide +kernel, by decide +kernel, by decide +kernel, ⟨Tests.noInj _ rfl, by decide +kernel⟩,
    ⟨Tests.noInj _ rfl, by decide +kernel⟩, ⟨Tests.noInj _ rfl, by decide +kernel⟩, rfl⟩

theorem witness_DpllSteps :
    let s (d sl : Nat) : State := { Tests.bare with ref := { dpll := d, slew := sl, sel := some 2 } }
    ((s 2 1).ref.dpll = 2 ∧ 1000 < (1001 : Int).natAbs ∧ (-1000 : Int).natAbs ≤ 1000) ∧ (s 2 1).ref.slew = 1 ∧ (s 2 2).ref.slew = 2 ∧ (s 1 0).ref.slew ≠ 1 ∧
      (s 1 0).ref.slew ≠ 2 ∧ (s 1 0).ref.dpll ≠ 2 := by decide

/-! ### Witnesses: twin operation -/

/-- A unit of a twin in seat A with every path enabled; its twin record, mode and phase as given, at stroke 20. -/
def Tests.twin (x : TwinState) (mode : Mode) (phase : Phase) : State :=
  { Tests.bare with
      sys := { mode := mode, straps := { seat := false, twinEn := true, bootSrc := 0#2, hostif := false } }
      regs := [(Reg.TWIN_POL, 0x1F#32)], eng := { phase := phase, stroke := 20#64 }, twin := x }
def Tests.peer : TwinFlags := { hold := true, ready := true, inSync := true, handover := false, seat := true }
def Tests.frame (k : BitVec 64) (ok : Bool) : TwinHdr := { flags := Tests.peer, epoch := 1#32, stroke := k, crcOk := ok, tagOk := ok, typeOk := true }
/-- A peer that was heard on the link at stroke `k`, with the pins at stroke 16. -/
def Tests.heard (k : BitVec 64) : Vector PathSt 3 :=
  vput (vput (Vector.replicate 3 {}) 0 { seen := true, stroke := k, flags := Tests.peer }) 1 { seen := true, stroke := 16#64, flags := Tests.peer }

theorem witness_Heartbeats :
    let s := Tests.twin { up := true, hold := true } .live .drive
    let t := Tests.twin { up := true } .shadow .drive
    (NoInjection s ∧ NoInjection t) ∧ (∀ u ∈ [s, t], isTwin u = true ∧ running u = true ∧ u.twin.up = true ∧ Tests.peer.seat ≠ seatB u ∧ imageId u = 0#64 ∧
      twinPol u 0 = true ∧ twinPol u 1 = true ∧ twinPol u 2 = true ∧ u.sys.vio.getLsbD 5 = false ∧ u.eng.stroke.toNat ≤ (Tests.frame 19#64 true).stroke.toNat + 1) ∧
    (frameGood s (Tests.frame 19#64 true) = true ∧ frameGood t (Tests.frame 19#64 true) = true ∧ (Tests.frame 18#64 true).stroke.toNat + 1 < s.eng.stroke.toNat) ∧
    (let v : State := { t with regs := [] }
     NoInjection v ∧ isTwin v = true ∧ running v = true ∧ v.twin.up = true ∧ twinPol v 0 = false) :=
  ⟨⟨Tests.noInj _ rfl, Tests.noInj _ rfl⟩, by decide +kernel, by decide +kernel, Tests.noInj _ rfl, by decide +kernel⟩

theorem witness_Heartbeats_beacon :
    let b (tag : List Byte) : Beacon := { hdr := { port := 1, len := 64, fcsOk := true, sfd := 0 }, magic := 0x5457424E#32, version := 1#8, flags := Tests.peer
                                          epoch := 1#32, stroke := 19#64, image := 0#32, tag := tag }
    let s (r : List (Nat × Word)) : State := { Tests.twin {} .shadow .drive with regs := r, net := { up := Vector.replicate 2 true } }
    let plain := s (tset 0#32 [(Reg.TWIN_BCN_CFG, 0x10002#32)] Reg.TWIN_POL 0x1F#32)
    NoInjection plain ∧ linkUp plain 1 = true ∧ (b []).magic = 0x5457424E#32 ∧ (b []).flags.seat ≠ seatB plain ∧ (b []).image = (imageId plain).extractLsb' 0 32 ∧
      bitAt (reg plain Reg.TWIN_BCN_CFG) 1 = true ∧ fld (reg plain Reg.TWIN_BCN_CFG) 31 16 ≠ 0 ∧ bitAt (reg plain Reg.TWIN_CFG) 30 = false ∧
      twinPol plain 2 = true ∧ plain.eng.stroke.toNat ≤ (b []).stroke.toNat + 1 ∧
    (let auth := s (tset 0#32 (tset 0#32 [(Reg.TWIN_BCN_CFG, 0x10002#32)] Reg.TWIN_POL 0x1F#32) Reg.TWIN_CFG 0x40000000#32)
     NoInjection auth ∧ bitAt (reg auth Reg.TWIN_CFG) 30 = true ∧ linkUp auth 1 = true ∧
       ∃ tag, tag ≠ beaconTag auth Tests.peer.seat 19#64 (beaconBytes Tests.peer 1#32 19#64 0#32)) :=
  ⟨Tests.noInj _ rfl, by decide +kernel, by decide +kernel, by decide +kernel, by decide +kernel, by decide +kernel, by decide +kernel, by decide +kernel,
    by decide +kernel, by decide +kernel, Tests.noInj _ rfl, by decide +kernel, by decide +kernel, 0#8 :: _, List.cons_ne_self _ _⟩

theorem witness_CoxHolding :
    let s (x : TwinState) := Tests.twin x .shadow .finished
    let l (x : TwinState) := Tests.twin x .live .finished
    let late := s { last := 16#64, peerSeen := true }
    let early := s { last := 17#64, peerSeen := true }
    let lone := s { last := 16#64, expired := true }
    (NoInjection late ∧ isTwin late = true ∧ running late = true ∧ late.twin.hold = false ∧ late.eng.phase = .finished ∧
      late.twin.last.toNat + (if seatB late = true ∧ late.twin.peerSeen = false then 12 else 4) ≤ late.eng.stroke.toNat) ∧
    (NoInjection early ∧ early.eng.stroke.toNat < early.twin.last.toNat + (if seatB early = true ∧ early.twin.peerSeen = false then 12 else 4)) ∧
    (NoInjection (s { take := some 21#64 }) ∧ (s { take := some 21#64 }).twin.take = some (strokeDue (s { take := some 21#64 }))) ∧
    (NoInjection lone ∧ lone.twin.take ≠ some (strokeDue lone) ∧ lone.twin.diag = false ∧ bitAt (reg lone Reg.TWIN_STAT) 11 = false ∧ lone.twin.peerSeen = false) ∧
    (NoInjection (l { hold := true, yield := some 20#64 }) ∧ (20#64).toNat < (strokeDue (l { hold := true, yield := some 20#64 })).toNat) ∧
    (let r := l { hold := true, release := some 21#64, paths := Tests.heard 19#64 }
     NoInjection r ∧ (21#64).toNat ≤ (strokeDue r).toNat ∧ ∃ x, peerLatest r = some x ∧ x.flags.ready = true ∧ (strokeDue r).toNat ≤ x.stroke.toNat + 2) ∧
    (let r := l { hold := true, release := some 21#64, paths := Tests.heard 18#64 }
     NoInjection r ∧ ¬ ∃ x, peerLatest r = some x ∧ x.flags.ready = true ∧ (strokeDue r).toNat ≤ x.stroke.toNat + 2) ∧
    (let o := s { up := true, inSync := true }
     NoInjection o ∧ o.twin.up = true ∧ o.sys.mode = .shadow ∧ o.eng.stroke.toNat < (21#64).toNat ∧ frameGood o (Tests.frame 19#64 true) = true) ∧
    (let g : State := { lone with regs := tset 0#32 lone.regs Reg.DET_STAT 4#32 }
     NoInjection g ∧ bitAt (reg g Reg.DET_STAT) 2 = true ∧ bitAt (reg lone Reg.DET_STAT) 2 = false ∧ bitAt (reg lone Reg.ERR_STAT) 3 = false ∧
       bitAt (reg lone Reg.LO_STAT) 0 = false ∧ reg lone Reg.PWR_STAT &&& 0x47#32 = 0#32 ∧ reg lone Reg.PIN_STAT &&& 0x3F#32 = 0#32 ∧ sps lone = 0) :=
  ⟨⟨Tests.noInj _ rfl, by decide +kernel⟩, ⟨Tests.noInj _ rfl, by decide +kernel⟩, ⟨Tests.noInj _ rfl, by decide +kernel⟩, ⟨Tests.noInj _ rfl, by decide +kernel⟩,
    ⟨Tests.noInj _ rfl, by decide +kernel⟩,
    ⟨Tests.noInj _ rfl, by decide +kernel, { seen := true, stroke := 19#64, flags := Tests.peer }, by decide +kernel⟩,
    ⟨Tests.noInj _ rfl, fun ⟨x, hx, _, hk⟩ => by
      have h : peerLatest (Tests.twin { hold := true, release := some 21#64, paths := Tests.heard 18#64 } .live .finished) =
        some { seen := true, stroke := 18#64, flags := Tests.peer } := by decide +kernel
      rw [h] at hx
      cases hx
      exact absurd hk (by decide +kernel)⟩,
    ⟨Tests.noInj _ rfl, by decide +kernel⟩, Tests.noInj _ rfl, by decide +kernel⟩

/-- A due TWIN_HANDOVER at a unit whose twin record is as given. -/
def Tests.handover (x : TwinState) (request : Byte) : State :=
  { Tests.due (Tests.pend 12#16 [request] false) with
      sys := (Tests.twin x .shadow .finished).sys, regs := [(Reg.TWIN_POL, 0x1F#32)], twin := x }

theorem witness_CoxHolding_handover :
    let p := Tests.pend 12#16 [1#8] false
    let s := Tests.handover { hold := true, paths := Tests.heard 4#64 } 1#8
    let t := Tests.handover { inSync := true } 1#8
    (NoInjection s ∧ isTwin s = true ∧ running s = true ∧ s.twin.hold = true ∧ pbyte p.call.payload 0 ≠ 0 ∧ Due s p 12#16 false ∧
      ∃ x, peerLatest s = some x ∧ x.flags.ready = true) ∧
    (NoInjection t ∧ t.twin.hold = false ∧ t.twin.diag = false ∧ Due t p 12#16 false) ∧
    (let u := Tests.handover { hold := true } 1#8
     let v := Tests.handover { diag := true } 1#8
     NoInjection u ∧ NoInjection v ∧ Due u p 12#16 false ∧ Due v p 12#16 false ∧ u.twin.hold = true ∧ peerLatest u = none ∧ v.twin.hold = false ∧
       v.twin.diag = true) :=
  ⟨⟨Tests.noInj _ rfl, rfl, rfl, rfl, by decide,
      { next := by simp [nextDue, callsOpen, Tests.handover, Tests.due, Tests.pend, strokeDue], op := rfl, armed := rfl, align := rfl, units := by decide },
      { seen := true, stroke := 16#64, flags := Tests.peer }, by decide +kernel⟩,
    ⟨Tests.noInj _ rfl, rfl, rfl,
      { next := by simp [nextDue, callsOpen, Tests.handover, Tests.due, Tests.pend, strokeDue], op := rfl, armed := rfl, align := rfl, units := by decide }⟩,
    Tests.noInj _ rfl, Tests.noInj _ rfl,
    { next := by simp [nextDue, callsOpen, Tests.handover, Tests.due, Tests.pend, strokeDue], op := rfl, armed := rfl, align := rfl, units := by decide },
    { next := by simp [nextDue, callsOpen, Tests.handover, Tests.due, Tests.pend, strokeDue], op := rfl, armed := rfl, align := rfl, units := by decide },
    rfl, by decide +kernel, rfl, rfl⟩

theorem witness_Shipments :
    let s := Tests.twin { up := true, commit := 18#64 } .shadow .drive
    let f := Tests.frame 19#64 true
    (NoInjection s ∧ isTwin s = true ∧ s.twin.up = true ∧ s.sys.mode = .shadow) ∧ frameGood s (Tests.frame 19#64 false) = false ∧ frameGood s f = true ∧
    (s.eng.phase = .drive ∧ s.eng.stroke = f.stroke + 1#64 ∧ s.twin.commit.toNat < f.stroke.toNat ∧ s.twin.secBad = false ∧ s.twin.secOf = none) ∧
    ¬ (s.eng.stroke = (Tests.frame 18#64 true).stroke + 1#64) ∧ carryRead s (stripCrew s 0) (carryBase s 0) ≠ 1#32 ∧
    (let o := Tests.twin { up := true, secOf := some 17#64, secBad := true } .shadow .drive
     NoInjection o ∧ o.twin.secOf ≠ none ∧ o.twin.secOf ≠ some f.stroke ∧ o.twin.secBad = true) ∧
    (let e : State := { s with eng := { s.eng with digest := 5#64, digestOf := 19#64 } }
     NoInjection e ∧ isTwin e = true ∧ e.twin.up = true ∧ (5#64 = e.eng.digest ∧ e.eng.digestOf = f.stroke ∧ e.twin.carryBad = none) ∧ 6#64 ≠ e.eng.digest) :=
  ⟨⟨Tests.noInj _ rfl, by decide +kernel⟩, by decide +kernel, by decide +kernel, by decide +kernel, by decide, by decide +kernel,
    ⟨Tests.noInj _ rfl, by decide +kernel⟩, Tests.noInj _ rfl, by decide +kernel⟩

theorem witness_TwinLink :
    let s := Tests.twin { up := true, peerSeen := true } .shadow .drive
    let l := Tests.twin { up := true, hold := true } .live .drive
    let r := Tests.twin { up := true, resync := true, rsReset := true, rsCut := some 22#64 } .shadow .held
    let d := Tests.twin {} .shadow .drive
    let q := Tests.twin { paths := Tests.heard 17#64 } .shadow .drive
    (NoInjection s ∧ NoInjection l ∧ NoInjection r ∧ NoInjection d ∧ NoInjection q) ∧ (∀ u ∈ [s, l, r, d, q], isTwin u = true ∧ running u = true) ∧
    (s.twin.hold = false ∧ s.twin.inSync = false ∧ s.twin.up = true ∧ s.twin.peerSeen = true ∧ s.twin.imageDiff = false) ∧ (l.twin.up = true ∧ l.twin.hold = true) ∧
    (r.twin.up = true ∧ r.twin.hold = false ∧ r.twin.resync = true ∧ r.twin.rsReset = true ∧ r.sys.mode = .shadow ∧ r.twin.rsCut = some 22#64 ∧
      bitAt (reg r Reg.RST_ENG) 0 = false ∧ r.sys.modeHold = false ∧ r.call.owed = []) ∧
    (let r' : State := { r with sys := { r.sys with bootHold := false } }
     NoInjection r' ∧ isTwin r' = true ∧ r'.twin.rsCut = some 22#64 ∧ r'.twin.rsReset = true ∧ bitAt (reg r' Reg.RST_ENG) 0 = false ∧ r'.sys.bootHold = false ∧
       r'.sys.modeHold = false ∧ r'.call.owed = []) ∧
    (d.twin.up = false ∧ loopHolds d 2 = false ∧ ∀ u ∈ [s, l, r], frameGood u (Tests.frame 19#64 true) = true) ∧
    (twinPol q (pathBit .pins) = true ∧ (pathAt q .pins).seen = true ∧ (pathAt q .pins).lost = false ∧ (pathAt q .pins).stroke.toNat + 4 ≤ q.eng.stroke.toNat ∧
      ∃ p, p ≠ TwinPath.pins ∧ (pathAt q p).seen = true ∧ q.eng.stroke.toNat < (pathAt q p).stroke.toNat + 4 ∧ (pathAt q p).flags.hold = true) :=
  ⟨⟨Tests.noInj _ rfl, Tests.noInj _ rfl, Tests.noInj _ rfl, Tests.noInj _ rfl, Tests.noInj _ rfl⟩, by decide +kernel, by decide +kernel, by decide +kernel,
    by decide +kernel, ⟨Tests.noInj _ rfl, by decide +kernel⟩, by decide +kernel, by decide +kernel, by decide +kernel, by decide +kernel, by decide +kernel, .link,
    by decide +kernel⟩

/-! ### Witnesses: fabric, host, DMA and memory -/

theorem Tests.vget_none (i : Nat) : vget none (Vector.replicate 3 (none : Option Nat)) i = none := by
  unfold vget
  rcases Nat.lt_or_ge i 3 with h | h <;> simp [h]

theorem Tests.idle (s : State) (hf : s.fab = {}) (hc : s.msvc.collided = []) (hl : reg s Reg.HOST_LOCK = 0#32) (hi : s.err.inj = Vector.replicate 8 {}) :
    BusIdle s where
  wait := by rw [hf]
  collided := hc
  lock i := by unfold lockAt; rw [hf]; exact Tests.vget_none i
  broken i := by rw [hf]; exact Tests.vget_none i
  len := by unfold lockLen; rw [hl]; decide
  inj := Tests.noInj s hi

def Tests.central (m : Master) (a : BitVec 36) (w : Bool) : Burst := { master := m, addr := a, write := w, lock := false, beats := [Tests.beat] }

theorem witness_FabricBursts :
    BusIdle Tests.bare ∧ (ToCentral (Tests.central .sc 0x27FFFF0#36 false) ∧ (∀ w ∈ burstWords (Tests.central .sc 0x27FFFF0#36 false),
      clearingAt Tests.bare w.a = false ∧ closedAt Tests.bare .sc false w.a = false ∧ isMeterWord w.a = false ∧ Good Tests.bare w.a)) ∧
    (ToCentral (Tests.central .dma 0x2500000#36 true) ∧ (Tests.central .dma 0x2500000#36 true).collides = false ∧
      (∀ w ∈ burstWords (Tests.central .dma 0x2500000#36 true), clearingAt Tests.bare w.a = false ∧ closedAt Tests.bare .dma true w.a = false ∧ w.en = 15#4 ∧
        armedAt Tests.bare w.a = false ∧ ownedAt Tests.bare w.a = false)) ∧
    (ToCentral (Tests.central .dma 0x23C0000#36 true) ∧ guardedMaster .dma = true ∧ Tests.bare.sys.mode ≠ .service ∧
      ∃ w, (burstWords (Tests.central .dma 0x23C0000#36 true)).find? (fun w => ownedAt Tests.bare w.a) = some w) ∧
    burstOk (Tests.burst 0x2000004#36 1) = false ∧ burst4k (Tests.burst 0x2000FF0#36 2) = true ∧
    (noTarget Tests.bare (Tests.burst 0x1800000#36 1) = true ∧ burstOk (Tests.burst 0x1800000#36 1) = true ∧ burst4k (Tests.burst 0x1800000#36 1) = false) :=
  ⟨Tests.idle _ rfl rfl rfl rfl, ⟨⟨by decide, by decide, by decide, by decide, by decide, by decide +kernel⟩, by unfold Good; decide +kernel⟩,
    ⟨⟨by decide, by decide, by decide, by decide, by decide, by decide +kernel⟩, by decide, by decide +kernel⟩,
    ⟨⟨by decide, by decide, by decide, by decide, by decide, by decide +kernel⟩, by decide, by decide,
      ⟨_, by rfl⟩⟩, by decide, by decide, by decide +kernel⟩

theorem witness_LocksAndTimeouts :
    let b := Tests.central .dma 0x2500000#36 true
    let l : State := { Tests.bare with fab := { lock := vput (Vector.replicate 3 none) 0 (some 1) } }
    let c (n : Nat) : State := { Tests.bare with msvc := { collided := [⟨b, n⟩] } }
    (NoInjection l ∧ l.fab.wait = [] ∧ gateway b = false ∧ lockOf b = some 0 ∧ lockAt l 0 = some 1 ∧ 1 ≠ mNum b.master) ∧
    (NoInjection (c 14) ∧ NoInjection (c 15) ∧ (c 15).fab.wait = [] ∧ b.master ≠ .host ∧ ∀ w ∈ burstWords b, wholeWord (burstWords b) w = true) ∧
    (let r := Tests.central .sc 0x2000000#36 false
     NoInjection Tests.bare ∧ Tests.bare.msvc.collided = [] ∧ burstOk r = true ∧ burst4k r = false ∧ noTarget Tests.bare r = false ∧ portBusy Tests.bare r = false) ∧
    lockAt Tests.bare 2 = none :=
  ⟨⟨Tests.noInj _ rfl, by decide +kernel⟩, ⟨Tests.noInj _ rfl, Tests.noInj _ rfl, by decide +kernel⟩, ⟨Tests.noInj _ rfl, by decide +kernel⟩, by decide⟩

theorem witness_RegisterAccess : BusIdle Tests.bare ∧ Tests.bare.sys.straps.hostif = false ∧ tabWf 0#32 Tests.bare.regs = true ∧
    (let b := Tests.burst 0x40#36 2
     b.master ≠ .host ∧ b.lock = false ∧ burstOk b = true ∧ burst4k b = false ∧ b.addr.toNat < 0x150000 ∧ 1 < b.beats.length) :=
  ⟨Tests.idle _ rfl rfl rfl rfl, by decide⟩

theorem witness_Selects :
    NoInjection Tests.bare ∧ fld 0#32 19 0 < xpCount ∧ xpCount ≤ fld 0xFFFFF#32 19 0 ∧ sinkBad (fld 0#32 12 0) = false ∧ sinkBad (fld 0x1FFF#32 12 0) = true ∧
    (let x := (bank Tests.bare .host).xp
     let a := tgtAddr (xpSlice x) (shadowY Tests.bare (xpSlice x)) (xpLocal x)
     clearingAt Tests.bare a = false ∧ closedAt Tests.bare .host true a = false ∧ armedAt Tests.bare a = false ∧ ownedAt Tests.bare a = false) ∧
    (let s : State := { Tests.bare with call := { pend := [{ Tests.pend 2#16 [] true with arms := [⟨matrixBase, 0xA00000⟩] }] } }
     let x := (bank s .host).xp
     let a := tgtAddr (xpSlice x) (shadowY s (xpSlice x)) (xpLocal x)
     NoInjection s ∧ clearingAt s a = false ∧ closedAt s .host true a = false ∧ armedAt s a = true ∧ targetOf a = 3) :=
  ⟨Tests.noInj _ rfl, by decide, by decide, by decide, by decide, by decide +kernel, Tests.noInj _ rfl, by decide +kernel⟩

/-- The host interface as the strap gives it, with the PCIe link up after release step 5. -/
def Tests.hosted (spi : Bool) : State :=
  { Tests.bare with
      sys := { rel := 5, straps := { seat := false, twinEn := false, bootSrc := 0#2, hostif := spi } }
      host := { up := true, pba := 1#64 }, regs := tset 0#32 [(Reg.SYS_IRQ_CAUSE, 1#32)] Reg.SYS_IRQ_EN 1#32 }

theorem witness_HostPorts :
    BusIdle (Tests.hosted false) ∧ BusIdle (Tests.hosted true) ∧
    ((Tests.hosted false).sys.straps.hostif = false ∧ (Tests.hosted false).host.up = true ∧ (Tests.hosted false).host.d3 = false ∧
      tabWf 0#32 (Tests.hosted false).regs = true ∧ 5 ≤ (Tests.hosted false).sys.rel ∧ (Tests.hosted false).err.testBusy = false ∧
      (Tests.hosted false).sys.wait = .none ∧ (Tests.hosted false).host.qbusy = none) ∧
    ((Tests.hosted true).sys.straps.hostif = true ∧ tabWf 0#32 (Tests.hosted true).regs = true) ∧
    (let q : State := { Tests.hosted false with host := { up := true, qbusy := some 0x1000000#32 } }
     BusIdle q ∧ q.host.qbusy = some 0x1000000#32) ∧
    (let u : State := { Tests.hosted false with sys := { rel := 4, straps := (Tests.hosted false).sys.straps } }
     BusIdle u ∧ u.sys.rel < 5 ∧ 3 ≤ u.sys.rel) :=
  ⟨Tests.idle _ rfl rfl rfl rfl, Tests.idle _ rfl rfl rfl rfl, by decide +kernel, by decide +kernel, ⟨Tests.idle _ rfl rfl rfl rfl, rfl⟩,
    Tests.idle _ rfl rfl rfl rfl, by decide⟩

theorem witness_HostPorts_vectors :
    let s := Tests.hosted false
    let t (r : List (Nat × Word)) : State := { s with host := { s.host with vecs := 1#64 }, regs := r }
    (vecsPending s).getLsbD (fld 0#32 5 0) = true ∧ (vecsPending s).getLsbD (fld 63#32 5 0) = false ∧ (vecMasked s 0 = true ∨ vecMasked s 0 = false) ∧
    (BusIdle (t s.regs) ∧ tabWf 0#32 (t s.regs).regs = true ∧ vecsPending (t s.regs) = (t s.regs).host.vecs ∧ (t s.regs).host.pba.getLsbD 0 = true ∧
      (t s.regs).host.pba.getLsbD 63 = false) :=
  ⟨by decide +kernel, by decide +kernel, by decide +kernel, Tests.idle _ rfl rfl rfl rfl, by decide +kernel⟩

/-- A state whose DMA channel 15 is as given. -/
def Tests.dma (x : DmaCh) : State := { Tests.bare with dma := { ch := vput (Vector.replicate 16 {}) 15 x }, regs := [(Reg.DMA_CHAIN_MAX, 1#32)] }
def Tests.desc (next : Nat) : Desc := { src := 0x2400000, dst := 0x2500000, len := 16, circ := false, irq := true, mode := 0, sx := false, next := next, bad := false }

theorem witness_DmaChannels :
    let s := Tests.dma { busy := true, cur := 0x2400020 }
    let b := readBurst .dma 0x2400020 32
    (NoInjection s ∧ (dmaAt s 15).busy = true ∧ (dmaAt s 15).desc = none ∧ (dmaAt s 15).aborting = false ∧ (dmaAt s 15).cur % 32 = 0 ∧ (dmaAt s 15).cur < 2 ^ 36 ∧
      ToCentral b ∧ (∀ w ∈ burstWords b, clearingAt s w.a = false ∧ closedAt s .dma false w.a = false ∧ isMeterWord w.a = false ∧ Good s w.a) ∧
      (descOf (memWords s.mem 0x2400020 8)).bad = false ∧ descAligned 0x2400020 (descOf (memWords s.mem 0x2400020 8)) = false) ∧
    ((descOf [0x2400000#32, 0#32, 0x2500000#32, 0#32, 16#32, 0#32, 0#32, 0#32]).bad = false ∧
      descAligned 0x2400020 (descOf [0x2400000#32, 0#32, 0x2500000#32, 0#32, 16#32, 0#32, 0#32, 0#32]) = true ∧
      (descOf [0#32, 16#32, 0#32, 0#32, 0#32, 0#32, 0#32, 0#32]).bad = true) :=
  ⟨⟨Tests.noInj _ rfl, by decide, by decide, by decide, by decide, by decide, ⟨by decide, by decide, by decide, by decide, by decide, by decide +kernel⟩,
    by unfold Good; decide +kernel, by decide +kernel, by decide +kernel⟩, by decide +kernel⟩

theorem witness_DmaChannels_move :
    let s (next : Nat) (ab : Bool) := Tests.dma { busy := true, cur := 0x2400020, desc := some (Tests.desc next), aborting := ab }
    (∀ n ∈ [0, 0x2400020, 0x2400040],
      let u := dmaMove (Tests.desc n) 16 (fun _ => true) (s n false)
      u.2 = true ∧ u.1.regs = (s n false).regs ∧ u.1.err = (s n false).err ∧ u.1.dma = (s n false).dma ∧
        (dmaAt (s n false) 15).desc = some (Tests.desc n) ∧ (dmaAt (s n false) 15).aborting = false) ∧
    (let u := dmaMove (Tests.desc 0) (dmaGroup (Tests.desc 0) 17) (fun _ => true) (s 0 true)
     u.2 = true ∧ u.1.dma = (s 0 true).dma ∧ (dmaAt (s 0 true) 15).aborting = true) ∧
    (∀ n ab, NoInjection (s n ab)) ∧ (dmaAt (s 0 false) 15).fetched < (reg (s 0 false) Reg.DMA_CHAIN_MAX).toNat ∧ (∀ i, i < 16 → (dmaAt Tests.bare i).busy = false) ∧
    (bank (s 0 false) .host).dma = 0 ∧ bitAt (reg (s 0 false) Reg.DMA_GSTAT) 16 = false :=
  ⟨by decide +kernel, by decide +kernel, fun _ _ => Tests.noInj _ rfl, by decide +kernel, by decide +kernel, by decide, by decide⟩

theorem witness_MemoryService :
    let s : State := { Tests.bare with msvc := { clearing := [.central] } }
    let r : RowId := ⟨.geode, 0, 0, 0⟩
    let a (x : Assay) (reps : List Repair) : State :=
      { Tests.bare with msvc := { assay := vput (Vector.replicate 8 {}) 7 x, repairs := reps }, regs := [(Reg.MEM_ASSAY, 0x80000000#32)] }
    let p := a { pass := true } []
    let q := a { pass := true, borrowed := some r } []
    let full := a { pass := true, borrowed := some r } ((List.range 4).map fun n => ⟨r, n⟩)
    (NoInjection s ∧ MemKind.central ∈ s.msvc.clearing ∧ MemKind.geode ∉ s.msvc.clearing) ∧
    (NoInjection (a {} []) ∧ bitAt (reg (a {} []) Reg.MEM_ASSAY) 31 = true ∧ (assayAt (a {} []) 7).pass = false ∧ (a {} []).sys.mode ≠ .dormant ∧
      (a {} []).sys.mode ≠ .retain) ∧
    (NoInjection p ∧ (assayAt p 7).pass = true ∧ (assayAt p 7).borrowed = none ∧ assayOf .geode 0 = 7 ∧ rowOk p r = true ∧ (assayAt p 7).last = none ∧
      ∀ x ∈ rowAddrs (rowHome p r), Good p x) ∧
    (NoInjection q ∧ (assayAt q 7).borrowed = some r ∧ freeSpares q r.kind r.inst r.bank = 0 :: [1, 2, 3]) ∧
    (NoInjection full ∧ (assayAt full 7).borrowed = some r ∧ freeSpares full r.kind r.inst r.bank = []) ∧
    (let d : State := { Tests.bare with dram := { ready := true, cfg := 0x80000000#32 } }
     NoInjection d ∧ d.dram.ready = true ∧ bitAt d.dram.cfg 31 = true ∧ fld d.dram.cfg 27 24 < 6) ∧ (Tests.bare.dram.ready = false ∧ NoInjection Tests.bare) :=
  ⟨⟨Tests.noInj _ rfl, by decide +kernel⟩, ⟨Tests.noInj _ rfl, by decide +kernel⟩, ⟨Tests.noInj _ rfl, by unfold Good; decide +kernel⟩,
    ⟨Tests.noInj _ rfl, by decide +kernel⟩, ⟨Tests.noInj _ rfl, by decide +kernel⟩, ⟨Tests.noInj _ rfl, by decide +kernel⟩, rfl, Tests.noInj _ rfl⟩

theorem witness_SlateStores :
    let s (l : Word) (mode : Mode) : State := { Tests.bare with sys := { mode := mode }, regs := tset 0#32 [(Reg.SLATE_SRC, 0#32)] Reg.SLATE_LEN l }
    ((s 64#32 .live).slate.run = none ∧ 64 ≤ (reg (s 64#32 .live) Reg.SLATE_LEN).toNat ∧ (reg (s 64#32 .live) Reg.SLATE_LEN).toNat ≤ 1048512 ∧
      (reg (s 64#32 .live) Reg.SLATE_SRC).toNat + (reg (s 64#32 .live) Reg.SLATE_LEN).toNat ≤ 0x800000 ∧
      (reg (s 64#32 .live) Reg.SLATE_LEN).toNat % 64 = 0 ∧ (reg (s 96#32 .live) Reg.SLATE_LEN).toNat % 64 ≠ 0 ∧ ¬ 64 ≤ (reg (s 0#32 .live) Reg.SLATE_LEN).toNat ∧ (s 64#32 .dormant).sys.mode = .dormant) ∧
    ((s 4096#32 .service).slate.run = none ∧ (s 4096#32 .service).sys.mode = .service ∧ lcNow (s 4096#32 .service) = 0 ∧
      (reg (s 4096#32 .service) Reg.SLATE_LEN).toNat = 4096) ∧
    (let r : SlateRun := ⟨1, 0, 0x400000⟩
     let t : State := { Tests.bare with slate := { run := some r } }
     t.slate.run = some r ∧ r.item = 1 ∧ r.len ≤ 0x400000 ∧ r.src + r.len ≤ 0x800000 ∧ tabWf 0#32 t.regs = true) := by decide +kernel

theorem witness_GeodeAndKeys :
    let s (ph : Phase) : State := { Tests.bare with eng := { phase := ph } }
    let d : State := { Tests.bare with sys := { mode := .dormant } }
    let k : State := { Tests.bare with mem := [(0x1001000, 1#8), (0x1001001, 1#8), (0x1001002, 1#8)], geode := { root := [1#8] } }
    ((s .held).sys.mode ≠ .dormant ∧ (s .held).sys.mode ≠ .retain ∧ (s .held).eng.phase = .held ∧ (s .drive).eng.phase = .drive ∧ (s .finished).eng.phase = .finished) ∧
    ¬ (d.sys.mode ≠ .dormant ∧ d.sys.mode ≠ .retain) ∧ (s .held).geode.root = [] ∧ (k.geode.root ≠ [] ∧ lcNow k = 1) ∧
    (fld 0x4C430002#32 31 16 = 0x4C43 ∧ fld 0x4C430002#32 1 0 = lcNow k + 1 ∧ k.sys.mode = .recovery ∧ k.slate.run = none) := by decide +kernel

/-! ### Witnesses: reset, boot, supply, modes, errors and tests -/

theorem witness_ResetSources :
    let e : State := { Tests.bare with eng := { phase := .drive }, sys := { mode := .live, rel := 8 } }
    let d : State := { Tests.bare with sys := { mode := .dormant } }
    let w : State := { e with regs := [(Reg.RST_WDT_CFG, 0x80000000#32)] }
    (NoInjection e ∧ e.sys.mode ≠ .dormant ∧ e.sys.mode ≠ .retain ∧ e.sys.resetN = false ∧ e.sys.tamper = false ∧ e.slate.run = none ∧ e.eng.phase ≠ .held) ∧
    (NoInjection d ∧ d.sys.mode = .dormant) ∧ (NoInjection w ∧ bitAt (reg w Reg.RST_WDT_CFG) 31 = true) ∧ bitAt (reg e Reg.RST_WDT_CFG) 31 = false ∧
    (fld 0x52530001#32 31 16 = 0x5253 ∧ bitAt 0x52530001#32 0 = true) ∧ (bitAt (reg e Reg.RST_ENG) 0 = false ∧ tabWf 0#32 e.regs = true) :=
  ⟨⟨Tests.noInj _ rfl, by decide +kernel⟩, ⟨Tests.noInj _ rfl, rfl⟩, ⟨Tests.noInj _ rfl, by decide +kernel⟩, by decide +kernel, by decide, by decide +kernel⟩

theorem witness_BootSteps :
    let s (x : SysState) : State := { Tests.bare with sys := x }
    let free : State := { s { rel := 6, bootHold := false } with eng := { img := some Tests.image } }
    let boot (w : BootWait) (src : BitVec 2) : State := s { rel := 5, wait := w, straps := { seat := false, twinEn := false, bootSrc := src, hostif := false } }
    (∀ n ∈ [2, 3, 4, 5, 7], (s { rel := n }).sys.resetN = false ∧ (s { rel := n }).sys.tamper = false ∧ (s { rel := n }).sys.mode = .recovery ∧
      (s { rel := n }).sys.retained = false) ∧
    (NoInjection (s { rel := 1, resetN := true }) ∧ (s {}).sys.rel = 0 ∧ (∀ x, NoInjection (s x))) ∧
    (∀ w ∈ [BootWait.firmware, .engine], (boot w 1#2).sys.wait = w ∧ 5 ≤ (boot w 1#2).sys.rel ∧ (boot w 1#2).sys.straps.bootSrc = 1#2 ∧
      (boot w 2#2).sys.straps.bootSrc = 2#2 ∧ (boot w 2#2).sys.go = false ∧ (boot w 2#2).sys.wait ≠ .none) ∧
    (NoInjection free ∧ engineFree free = true) ∧ (NoInjection Tests.bare ∧ engineFree Tests.bare = false) :=
  ⟨by decide +kernel, ⟨Tests.noInj _ rfl, rfl, fun _ => Tests.noInj _ rfl⟩, by decide +kernel, ⟨Tests.noInj _ rfl, by decide +kernel⟩, Tests.noInj _ rfl,
    by decide +kernel⟩

theorem witness_SupplyAndBanks :
    let s : State := { Tests.bare with regs := [(Reg.PWR_AUX, 2#32)] }
    NoInjection s ∧ bitAt (reg s Reg.PWR_AUX) 0 = false ∧ bitAt (reg s Reg.PWR_AUX) 1 = true ∧ tabWf 0#32 s.regs = true ∧ s.sys.mode ≠ .dormant ∧
      s.sys.mode ≠ .retain ∧ (let d : State := { s with sys := { mode := .retain } }
       NoInjection d ∧ d.sys.mode = .retain) :=
  ⟨Tests.noInj _ rfl, by decide +kernel, by decide +kernel, by decide +kernel, by decide, by decide, Tests.noInj _ rfl, rfl⟩

theorem witness_ModesAndDebug :
    let s (x : SysState) : State := { Tests.bare with sys := x }
    let img (x : SysState) : State := { s x with eng := { img := some Tests.image, fam := some false } }
    (∀ x, NoInjection (s x) ∧ (s x).err.testBusy = false ∧ NoInjection (img x) ∧ (img x).err.testBusy = false) ∧
    (img { mode := .live }).sys.busy = none ∧ sps (img { mode := .live }) ≠ 0 ∧ (s { busy := some .retain, modeHold := true }).sys.busy = some .retain ∧
    (∀ i, i < 8 → (assayAt (s { busy := some .retain, modeHold := true }) i).borrowed = none) ∧
    (lcNow (img {}) ≤ 1 ∧ (img { fw := true }).sys.fw = true ∧ (img { fw := true }).eng.img ≠ none ∧ (img { fw := true }).eng.imgBad = false ∧
      (img {}).eng.phase = .held ∧ (img {}).sys.mode = .recovery) ∧
    ((s { mode := .retain }).sys.retCopy = none ∧ (s { mode := .retain, retCopy := some [] }).sys.retCopy ≠ none) ∧
    ((coreAt (Tests.withCore Tests.runs) 0).run ≠ .halted ∧ (coreAt (Tests.withCore { run := .halted, paused := .running }) 0).paused = .running ∧
      (coreAt (Tests.withCore Tests.runs) 0).run = .running ∧ (coreAt (Tests.withCore Tests.runs) 0).paused = .reset ∧
      (coreAt (Tests.withCore { run := .halted, paused := .asleep }) 0).paused ≠ .running) :=
  ⟨fun _ => ⟨Tests.noInj _ rfl, rfl, Tests.noInj _ rfl, rfl⟩, by decide +kernel⟩

theorem witness_ErrorLogs :
    let x : LogRec := ⟨0#16, 0xC10#12, .fault, false, true, 65535, 0, 0#64, 0, 0#32⟩
    let r : Report := { source := 0#16, code := 0xC10#12, sev := .fault, info := 0#32, lapse := 0#7 }
    let s (l : List LogRec) : State := { Tests.bare with err := { logs := vput (Vector.replicate 8 {}) 7 { recs := l } } }
    (vget {} (s [x]).err.logs 7).recs = [] ++ x :: [] ∧ sameRec x r.source r.code false (engHeld (s [x])) (s [x]).eng.stroke (s [x]).err.win = true ∧
    (vget {} (s []).err.logs 7).recs.length < 256 ∧ (vget {} (s (List.replicate 256 { x with code := 0#12 })).err.logs 7).recs.length = 256 ∧
    reg (s []) Reg.DET_STAT = 0#32 ∧ (s []).eng.phase = .held := by decide +kernel

theorem witness_InjectionAndTests :
    let slot : InjSlot := { tgt := sysSrc 6 0 ++ 0x800#12 ++ 0#4, mode := 1#2, act := true }
    let s : State := { Tests.bare with err := { inj := vput (Vector.replicate 8 {}) 7 slot } }
    let t (kind : Nat) (arg : Word) (mode : Mode) : State :=
      { Tests.bare with err := { testBusy := decide (0 < kind), testKind := kind }, sys := { mode := mode }, regs := tset 0#32 [] Reg.TEST_ARG arg }
    (slotNames slot (sysSrc 6 0) 0x800#12 = true ∧ (∀ i, i < 8 → i ≠ 7 → (vget {} s.err.inj i).mode = 0#2) ∧ vget {} s.err.inj 7 = slot ∧
      (slotNames { slot with tgt := sysSrc 6 0 ++ 0x806#12 ++ 0#4, act := false } (sysSrc 6 0) 0x806#12 = true) ∧
      tabWf 0#32 s.regs = true ∧ hasDetector (sysSrc 6 0) 0x800#12 = true ∧ hasDetector 0#16 0#12 = false) ∧
    ((bank s .host).inj < 8 ∧ fld 0x494A0001#32 31 16 = 0x494A ∧ fld 0x494A0001#32 1 0 = 1) ∧
    (∀ k ∈ [0, 1, 2, 0x11, 0x12, 0x14, 0x16], (t k 0#32 .service).fab.wait = [] ∧ (t k 0#32 .service).err.testKind = k) ∧
    (kindOf (fld (reg (t 0 1#32 .service) Reg.TEST_ARG) 3 0) = some .coreProg ∧ fld (reg (t 0 1#32 .service) Reg.TEST_ARG) 10 4 < kindInst .coreProg) ∧
    fld (reg (t 0 0x2F#32 .service) Reg.TEST_ARG) 5 0 < 48 := by decide +kernel

theorem witness_InjectionAndTests_complete (k : Nat) :
    let s : State := { Tests.bare with err := { testBusy := true, testKind := k } }
    NoInjection s ∧ s.err.testBusy = true ∧ s.err.testKind = k ∧ (bank s .host).inj < 8 := ⟨Tests.noInj _ rfl, rfl, rfl, by show 0 < 8; decide⟩

/-! ### Witnesses: the machine, and single steps -/

theorem witness_StepRunsFront : ({ Tests.bare with pending := [.wake] } : State).pending = .wake :: [] ∧ Tests.bare.pending = [] := ⟨rfl, rfl⟩

theorem witness_StepKeepsForm : MemoryOk State.reset ∧ MemoryOk Tests.bare := by
  unfold MemoryOk
  decide +kernel

/-- R423: HOST_LOCK keeps its low four bits; the step takes the command from the queue. -/
theorem test_step_register : (match step { Tests.bare with pending := [.hostLock .host 0x123#32, .wake] } with
    | .next t => reg t Reg.HOST_LOCK == 3#32 && t.pending == [.wake]
    | _ => false) = true := by decide +kernel

/-- R117: 5 - 7 in D1 of core 0. -/
theorem test_step_sub : (match step { Tests.withCore { run := .running, d := vput (vput (Vector.replicate 32 0#32) 2 5#32) 3 7#32 } with
      pending := [.sub 0 { dst := 1, sa := 2, sb := 3 } 0#32] } with
    | .next t => rD (coreAt t 0) 1 == 0xFFFFFFFE#32 && (coreAt t 0).pc == 1
    | _ => false) = true := by decide +kernel

end
end

section
/-! What a command gives, from the update that it runs. -/

namespace Sys2Proof.Machine

theorem gives_done {i : Instr} {s t u : State} (he : exec i s = done u) (h : u = t) : Gives i s t := by
  rw [Gives, he, h, done_eq]

theorem goes_done {i : Instr} {s t u : State} {p : State → Prop} (he : exec i s = done u) (h : u = t) (hp : p (settle t)) :
    Goes (exec i s) p :=
  ⟨settle t, gives_done he h, hp⟩

end Sys2Proof.Machine
end

section
/-! What a report leaves alone (R17, R461): the state beside the registers, the logs and the twin link, and every register but ERR_STAT. -/

namespace Sys2Proof.Machine

/-! ### The state beside the records -/

/-- `t` with the registers, the logs, DET_FIRST, the twin's part and the outputs of `s`: all that a record and its lapse can change. -/
def withRecordsOf (s t : State) : State :=
  { t with regs := s.regs, err := { t.err with logs := s.err.logs }, eng := { t.eng with detFirst := s.eng.detFirst }, twin := s.twin, out := s.out }

/-- `t` differs from `s` at most in what a record and its lapse can change. -/
def RecordsOnly (s t : State) : Prop := withRecordsOf s t = s

theorem RecordsOnly.refl (s : State) : RecordsOnly s s := rfl

theorem RecordsOnly.trans {s t u : State} (h : RecordsOnly s t) (h' : RecordsOnly t u) : RecordsOnly s u := by
  calc withRecordsOf s u = withRecordsOf s (withRecordsOf t u) := rfl
    _ = withRecordsOf s t := by rw [show withRecordsOf t u = t from h']
    _ = s := h

/-- What does not read the records is as before. -/
theorem RecordsOnly.field {α : Type} {s t : State} (f : State → α) (h : RecordsOnly s t) : f (withRecordsOf s t) = f s := congrArg f h

theorem RecordsOnly.mem {s t : State} (h : RecordsOnly s t) : t.mem = s.mem := h.field State.mem
theorem RecordsOnly.cores {s t : State} (h : RecordsOnly s t) : t.cores = s.cores := h.field State.cores
theorem RecordsOnly.stroke {s t : State} (h : RecordsOnly s t) : t.eng.stroke = s.eng.stroke := h.field fun u => u.eng.stroke
theorem RecordsOnly.phase {s t : State} (h : RecordsOnly s t) : t.eng.phase = s.eng.phase := h.field fun u => u.eng.phase
theorem RecordsOnly.win {s t : State} (h : RecordsOnly s t) : t.err.win = s.err.win := h.field fun u => u.err.win

theorem RecordsOnly.coreAt {s t : State} (h : RecordsOnly s t) (n : Nat) : coreAt t n = coreAt s n := by
  simp only [Machine.coreAt, h.cores]

theorem RecordsOnly.engHeld {s t : State} (h : RecordsOnly s t) : engHeld t = engHeld s := by
  simp only [Machine.engHeld, h.phase]

theorem collect_recordsOnly (i : Nat) (src : BitVec 16) (code : BitVec 12) (sev : Sev) (inj : Bool) (info : Word) (s : State) :
    RecordsOnly s (collect i src code sev inj info s) := by
  unfold collect
  dsimp only
  repeat' split
  all_goals rfl

theorem lapse_recordsOnly (bits : Word) (s : State) : RecordsOnly s (lapse bits s) := by
  unfold lapse lapseAt
  dsimp only
  repeat' split
  all_goals rfl

/-- What leaves on the twin link changes the twin's part and the outputs. -/
theorem linkSend_frame (type : Nat) (stroke : BitVec 64) (payload : List Byte) (s : State) :
    ∃ twin out, linkSend type stroke payload s = { s with twin, out } := by
  unfold linkSend
  split
  · exact ⟨_, _, rfl⟩
  · split
    · exact ⟨_, _, rfl⟩
    · refine List.foldlRecOn _ _ (motive := fun t : State => ∃ twin out, t = { s with twin, out }) ⟨_, _, rfl⟩ ?_
      rintro _ ⟨_, _, rfl⟩ _ _
      exact ⟨_, _, rfl⟩

theorem diagnose_frame (s : State) : ∃ twin out, diagnose s = { s with twin, out } := by
  unfold diagnose
  dsimp only
  split
  · exact ⟨_, _, rfl⟩
  · split
    · obtain ⟨twin, out, h⟩ := linkSend_frame 7 _ (natBytes 8 (BitVec.toNat _)) { s with twin := _ }
      exact ⟨twin, out, h⟩
    · exact ⟨_, _, rfl⟩

theorem diagnose_err (s : State) : (diagnose s).err = s.err := by
  obtain ⟨_, _, h⟩ := diagnose_frame s
  rw [h]

theorem diagnose_eng (s : State) : (diagnose s).eng = s.eng := by
  obtain ⟨_, _, h⟩ := diagnose_frame s
  rw [h]

theorem diagnose_regs (s : State) : (diagnose s).regs = s.regs := by
  obtain ⟨_, _, h⟩ := diagnose_frame s
  rw [h]

theorem diagnose_recordsOnly (s : State) : RecordsOnly s (diagnose s) := by
  obtain ⟨_, _, h⟩ := diagnose_frame s
  exact (congrArg (withRecordsOf s) h).trans rfl

/-- What the collectors and the self-diagnosis keep, a report keeps. -/
theorem reportI_keeps {P : State → Prop} {inj : Bool} {src : BitVec 16} {code : BitVec 12} {sev : Sev} {info : Word} {s : State}
    (hc : ∀ i t, P t → P (collect i src code sev inj info t)) (hd : ∀ t, P t → P (diagnose t)) (hs : P s) :
    P (reportI inj src code sev info s) := by
  have hregion : P (if src.extractLsb' 13 3 = 0#3 ∨ 6 < (src.extractLsb' 8 5).toNat then s
      else collect (src.extractLsb' 8 5).toNat src code sev inj info s) := by
    split
    · exact hs
    · exact hc _ s hs
  unfold reportI
  dsimp only
  split
  · exact hd _ (hc 7 _ hregion)
  · exact hc 7 _ hregion

theorem reportI_recordsOnly (inj : Bool) (src : BitVec 16) (code : BitVec 12) (sev : Sev) (info : Word) (s : State) :
    RecordsOnly s (reportI inj src code sev info s) :=
  reportI_keeps (fun _ _ h => h.trans (collect_recordsOnly ..)) (fun _ h => h.trans (diagnose_recordsOnly _)) (.refl s)

theorem collect_eng (i : Nat) (src : BitVec 16) (code : BitVec 12) (sev : Sev) (inj : Bool) (info : Word) (s : State) :
    (collect i src code sev inj info s).eng = s.eng := by
  unfold collect
  dsimp only
  repeat' split
  all_goals rfl

theorem report_eng (src : BitVec 16) (code : BitVec 12) (sev : Sev) (info : Word) (s : State) :
    (report src code sev info s).eng = s.eng :=
  reportI_keeps (P := fun t => t.eng = s.eng) (fun _ _ h => (collect_eng ..).trans h) (fun t h => (diagnose_eng t).trans h) rfl

theorem report_recordsOnly (src : BitVec 16) (code : BitVec 12) (sev : Sev) (info : Word) (s : State) :
    RecordsOnly s (report src code sev info s) :=
  reportI_recordsOnly ..

theorem detLapse_recordsOnly (bits : Word) (s : State) : RecordsOnly s (detLapse bits s) :=
  (lapse_recordsOnly bits s).trans (report_recordsOnly ..)

/-! ### The registers beside ERR_STAT -/

/-- Every register but ERR_STAT reads as before, and the table of registers keeps its canonical form. -/
structure KeepsRegs (s t : State) : Prop where
  table : tabWf 0#32 s.regs = true → tabWf 0#32 t.regs = true
  reads : tabWf 0#32 s.regs = true → ∀ off, off ≠ Reg.ERR_STAT → reg t off = reg s off

theorem KeepsRegs.of_eq {s t : State} (h : t.regs = s.regs) : KeepsRegs s t :=
  ⟨fun hw => h ▸ hw, fun _ off _ => by rw [reg, h, reg]⟩

theorem KeepsRegs.trans {s t u : State} (h : KeepsRegs s t) (h' : KeepsRegs t u) : KeepsRegs s u :=
  ⟨fun hw => h'.table (h.table hw), fun hw off ho => (h'.reads (h.table hw) off ho).trans (h.reads hw off ho)⟩

/-- A sticky register after bits of one are set. -/
theorem reg_orReg {s : State} (hw : tabWf 0#32 s.regs = true) (off j : Nat) (v : Word) :
    reg (orReg off v s) j = if j = off then reg s off ||| v else reg s j :=
  tget_tset hw

theorem bitAt_orReg {s : State} (hw : tabWf 0#32 s.regs = true) {off i : Nat} {v : Word} (hv : bitAt v i = true) :
    bitAt (reg (orReg off v s) off) i = true := by
  rw [reg_orReg hw, if_pos rfl]
  rw [bitAt] at hv
  simp [bitAt, hv]

theorem KeepsRegs.orReg {s t : State} (h : KeepsRegs s t) (v : Word) : KeepsRegs s (orReg Reg.ERR_STAT v t) :=
  h.trans ⟨tset_tabWf, fun hw off ho => by rw [reg_orReg hw, if_neg ho]⟩

theorem collect_keepsRegs (i : Nat) (src : BitVec 16) (code : BitVec 12) (sev : Sev) (inj : Bool) (info : Word) (s : State) :
    KeepsRegs s (collect i src code sev inj info s) := by
  unfold collect
  dsimp only
  split
  · exact .of_eq rfl
  · repeat' split
    · exact ((KeepsRegs.of_eq (by rfl)).orReg _).orReg _
    · exact (KeepsRegs.of_eq (by rfl)).orReg _
    · exact (KeepsRegs.of_eq (by rfl)).orReg _
    · exact .of_eq rfl

theorem reportI_keepsRegs (inj : Bool) (src : BitVec 16) (code : BitVec 12) (sev : Sev) (info : Word) (s : State) :
    KeepsRegs s (reportI inj src code sev info s) :=
  reportI_keeps (fun _ _ h => h.trans (collect_keepsRegs ..)) (fun t h => h.trans (.of_eq (diagnose_regs t))) (.of_eq rfl)

/-! ### Lapses -/

@[simp] theorem lapse_err (bits : Word) (s : State) : (lapse bits s).err = s.err := by
  unfold lapse lapseAt
  dsimp only
  repeat' split
  all_goals rfl

theorem lapse_regs (bits : Word) (s : State) :
    (lapse bits s).regs = if bits = 0#32 then s.regs else (orReg Reg.DET_STAT bits s).regs := by
  unfold lapse lapseAt
  dsimp only
  repeat' split
  all_goals rfl

/-- A lapse sets its bits of DET_STAT and no other (R34). -/
theorem reg_lapse_detStat {s : State} (hw : tabWf 0#32 s.regs = true) (bits : Word) :
    reg (lapse bits s) Reg.DET_STAT = reg s Reg.DET_STAT ||| bits := by
  by_cases h : bits = 0#32
  · simp [reg, lapse_regs, h]
  · have hor := reg_orReg hw Reg.DET_STAT Reg.DET_STAT bits
    rw [if_pos rfl] at hor
    rwa [reg, lapse_regs, if_neg h]

theorem lapse_tabWf {s : State} (hw : tabWf 0#32 s.regs = true) (bits : Word) : tabWf 0#32 (lapse bits s).regs = true := by
  rw [lapse_regs]
  split
  · exact hw
  · exact tset_tabWf hw

/-- DET_FIRST takes the stroke when DET_STAT leaves zero (R35). -/
theorem lapse_detFirst {s : State} {bits : Word} (h0 : reg s Reg.DET_STAT = 0#32) (hb : bits ≠ 0#32) :
    (lapse bits s).eng.detFirst = s.eng.stroke := by
  simp [lapse, lapseAt, h0, hb]

/-- A report leaves the bits of DET_STAT alone. -/
theorem reg_report_detStat {s : State} (hw : tabWf 0#32 s.regs = true) (src : BitVec 16) (code : BitVec 12) (sev : Sev) (info : Word) :
    reg (report src code sev info s) Reg.DET_STAT = reg s Reg.DET_STAT :=
  (reportI_keepsRegs ..).reads hw _ (by decide)

theorem reg_detLapse_detStat {s : State} (hw : tabWf 0#32 s.regs = true) (bits : Word) :
    reg (detLapse bits s) Reg.DET_STAT = reg s Reg.DET_STAT ||| bits := by
  rw [detLapse, reg_report_detStat (lapse_tabWf hw bits), reg_lapse_detStat hw]

end Sys2Proof.Machine
end

section
/-! What a report does to the logs (R461–R463). -/

namespace Sys2Proof.Machine

/-! ### One log -/

/-- A log whose records `p` picks out are those that the new record `r` belongs to takes `r` (R461–R463). -/
def logTaken (cap : Nat) (p : LogRec → Bool) (r : LogRec) (l : Log) : Log :=
  match coalesce p l.recs with
  | some rs => { l with recs := rs }
  | none => (logPush cap l r).1

theorem coalesce_eq_none {p : LogRec → Bool} {l : List LogRec} (h : ∀ x ∈ l, ¬ p x = true) : coalesce p l = none := by
  induction l with
  | nil => rfl
  | cons x xs ih =>
    rw [List.forall_mem_cons] at h
    simp [coalesce, h.1, ih h.2]

theorem coalesce_append {p : LogRec → Bool} {pre post : List LogRec} {x : LogRec} (hpre : ∀ y ∈ pre, ¬ p y = true) (hx : p x = true) :
    coalesce p (pre ++ x :: post) = some (pre ++ { x with count := satInc 65535 x.count } :: post) := by
  induction pre with
  | nil => simp [coalesce, hx]
  | cons y ys ih =>
    rw [List.forall_mem_cons] at hpre
    simp [coalesce, hpre.1, ih hpre.2]

theorem logTaken_insert {cap : Nat} {p : LogRec → Bool} (r : LogRec) {l : Log} (h : ∀ x ∈ l.recs, ¬ p x = true) (hc : l.recs.length < cap) :
    logTaken cap p r l = ⟨l.recs ++ [{ r with seq := l.seq }], l.lost, l.seq + 1⟩ := by
  simp [logTaken, coalesce_eq_none h, logPush, hc]

theorem logTaken_replace {cap : Nat} {p : LogRec → Bool} (r : LogRec) {l : Log} (h : ∀ x ∈ l.recs, ¬ p x = true) (hc : cap ≤ l.recs.length) :
    logTaken cap p r l = ⟨l.recs.dropLast ++ [{ r with seq := l.seq }], satInc 65535 l.lost, l.seq + 1⟩ := by
  simp [logTaken, coalesce_eq_none h, logPush, Nat.not_lt.mpr hc]

theorem logTaken_join {cap : Nat} {p : LogRec → Bool} (r : LogRec) {l : Log} {pre post : List LogRec} {x : LogRec}
    (hl : l.recs = pre ++ x :: post) (hpre : ∀ y ∈ pre, ¬ p y = true) (hx : p x = true) :
    logTaken cap p r l = ⟨pre ++ { x with count := satInc 65535 x.count } :: post, l.lost, l.seq⟩ := by
  simp [logTaken, hl, coalesce_append hpre hx]

/-! ### The logs of the machine -/

/-- Log `i` of the state. -/
def logAt (s : State) (i : Nat) : Log := vget {} s.err.logs i

/-- Log `i`, of `cap` entries, as the report of a real condition leaves it. -/
def logReported (s : State) (src : BitVec 16) (code : BitVec 12) (sev : Sev) (info : Word) (i cap : Nat) : Log :=
  logTaken cap (fun x => sameRec x src code false (engHeld s) s.eng.stroke s.err.win)
    ⟨src, code, sev, false, engHeld s, 1, 0#16, s.eng.stroke, s.err.win, info⟩ (logAt s i)

theorem collect_logs (i : Nat) (src : BitVec 16) (code : BitVec 12) (sev : Sev) (info : Word) (s : State) :
    (collect i src code sev false info s).err.logs = vput s.err.logs i (logReported s src code sev info i (logCap i)) := by
  unfold collect logReported logTaken logAt
  dsimp only
  cases coalesce (fun x => sameRec x src code false (engHeld s) s.eng.stroke s.err.win) (vget {} s.err.logs i).recs with
  | some rs => rfl
  | none =>
    dsimp only
    repeat' split
    all_goals rfl

theorem logAt_collect {i : Nat} (hi : i < 8) (src : BitVec 16) (code : BitVec 12) (sev : Sev) (info : Word) (s : State) :
    logAt (collect i src code sev false info s) i = logReported s src code sev info i (logCap i) := by
  simp [logAt, collect_logs, hi]

theorem logAt_collect_ne {i j : Nat} (h : i ≠ j) (src : BitVec 16) (code : BitVec 12) (sev : Sev) (info : Word) (s : State) :
    logAt (collect i src code sev false info s) j = logAt s j := by
  simp [logAt, collect_logs, vget_vput_ne _ _ _ h]

/-- Records coalesce by what no report changes: the stroke, the reset and its window (R462). -/
theorem logReported_congr {s t : State} (h : RecordsOnly s t) {i : Nat} (hl : logAt t i = logAt s i) (src : BitVec 16) (code : BitVec 12)
    (sev : Sev) (info : Word) (cap : Nat) : logReported t src code sev info i cap = logReported s src code sev info i cap := by
  simp only [logReported, h.engHeld, h.stroke, h.win, hl]

theorem logAt_ite_diagnose (p : Prop) [Decidable p] (s : State) (i : Nat) : logAt (if p then diagnose s else s) i = logAt s i := by
  split
  · simp only [logAt, diagnose_err]
  · rfl

/-- The report of a real condition reaches the chip log (R461). -/
theorem logAt_report_chip (src : BitVec 16) (code : BitVec 12) (sev : Sev) (info : Word) (s : State) :
    logAt (report src code sev info s) 7 = logReported s src code sev info 7 256 := by
  unfold report reportI
  dsimp only
  rw [logAt_ite_diagnose, logAt_collect (by omega)]
  split
  · rfl
  · exact logReported_congr (collect_recordsOnly ..) (logAt_collect_ne (by omega) ..) ..

/-- The log of a region after a report: that of the report's own region takes it, from a source below the chip level (R461). -/
theorem logAt_report_region {i : Nat} (hi : i < 7) (src : BitVec 16) (code : BitVec 12) (sev : Sev) (info : Word) (s : State) :
    logAt (report src code sev info s) i =
      if src.extractLsb' 13 3 ≠ 0#3 ∧ i = (src.extractLsb' 8 5).toNat then logReported s src code sev info i 32 else logAt s i := by
  unfold report reportI
  dsimp only
  rw [logAt_ite_diagnose, logAt_collect_ne (by omega)]
  by_cases hr : i = (src.extractLsb' 8 5).toNat
  · subst hr
    by_cases hl : src.extractLsb' 13 3 = 0#3
    · simp [hl]
    · rw [if_neg (not_or.mpr ⟨hl, by omega⟩), if_pos ⟨hl, rfl⟩, logAt_collect (by omega), logCap, if_neg (by omega)]
  · rw [if_neg (c := _ ∧ _) fun h => hr h.2]
    split
    · rfl
    · exact logAt_collect_ne (Ne.symm hr) ..

/-- A log that takes a report gets a new record, replaces its newest, or joins a record of its own (R462, R463). -/
theorem logReported_cases {s : State} {src : BitVec 16} {code : BitVec 12} {sev : Sev} {info : Word} {i cap : Nat} {l' : Log}
    (h : l' = logReported s src code sev info i cap) :
    let same (x : LogRec) : Prop := sameRec x src code false (engHeld s) s.eng.stroke s.err.win = true
    let l := logAt s i
    let new : LogRec := ⟨src, code, sev, false, engHeld s, 1, l.seq, s.eng.stroke, s.err.win, info⟩
    ((∀ x ∈ l.recs, ¬ same x) → l.recs.length < cap → l' = ⟨l.recs ++ [new], l.lost, l.seq + 1⟩) ∧
    ((∀ x ∈ l.recs, ¬ same x) → cap ≤ l.recs.length → l' = ⟨l.recs.dropLast ++ [new], satInc 65535 l.lost, l.seq + 1⟩) ∧
    (∀ pre x post, l.recs = pre ++ x :: post → (∀ y ∈ pre, ¬ same y) → same x →
      l' = ⟨pre ++ { x with count := satInc 65535 x.count } :: post, l.lost, l.seq⟩) :=
  ⟨fun hn hc => h.trans (logTaken_insert _ hn hc), fun hn hc => h.trans (logTaken_replace _ hn hc),
    fun _ _ _ hl hpre hx => h.trans (logTaken_join _ hl hpre hx)⟩

/-- Replaces log `i`. -/
def putLog (i : Nat) (l : Log) (s : State) : State := { s with err := { s.err with logs := vput s.err.logs i l } }

theorem errPopWrite_pop {v : Word} (hv : bitAt v 8 = false) (s : State) :
    errPopWrite v s = putLog (fld v 2 0) { logAt s (fld v 2 0) with recs := (logAt s (fld v 2 0)).recs.drop 1 } s := by
  simp [errPopWrite, putLog, logAt, hv]

theorem errPopWrite_clear {v : Word} (hv : bitAt v 8 = true) (s : State) :
    errPopWrite v s = putLog (fld v 2 0) { logAt s (fld v 2 0) with lost := 0 } s := by
  simp [errPopWrite, putLog, logAt, hv]

end Sys2Proof.Machine
end

section
/-! The error logs (R34, R461–R464). -/

open Sys2Proof Sys2Proof.Machine

/-- Settles O56: the lapse leaves the logs alone, so the chip log and the log of the report's region take the report as they stand. -/
theorem errorLogs : Obligations.ErrorLogs := by
  intro s
  refine ⟨fun r => goes_done rfl rfl ?_, fun m v => ⟨fun hv => ?_, fun hv => ?_⟩, fun i => ⟨fun hp => ?_, fun hp => ?_⟩⟩
  · have hlapse := lapse_recordsOnly (r.lapse.setWidth 32) s
    have hsame (i : Nat) : logAt (lapse (r.lapse.setWidth 32) s) i = logAt s i := by simp only [logAt, lapse_err]
    have htakes (i cap : Nat) := logReported_congr hlapse (hsame i) r.source r.code r.sev r.info cap
    have hregion {i : Nat} (hi : i < 7) := logAt_report_region hi r.source r.code r.sev r.info (lapse (r.lapse.setWidth 32) s)
    refine ⟨?_, fun hl hi => ?_, fun i hi ho => ?_, fun hw => ?_, fun h0 hb => ?_, ?_⟩
    · have hchip := (logAt_report_chip r.source r.code r.sev r.info (lapse (r.lapse.setWidth 32) s)).trans (htakes 7 256)
      exact logReported_cases hchip
    · have hown := ((hregion hi).trans (if_pos ⟨hl, rfl⟩)).trans (htakes _ 32)
      exact logReported_cases hown
    · exact ((hregion hi).trans (if_neg fun h => ho.elim (· h.2) h.1)).trans (hsame i)
    · exact (reg_report_detStat (lapse_tabWf hw _) ..).trans (reg_lapse_detStat hw _)
    · exact (congrArg EngState.detFirst (report_eng ..)).trans (lapse_detFirst h0 hb)
    · exact ((hlapse.trans (report_recordsOnly ..)).mem :)
  · exact gives_done rfl (errPopWrite_pop hv s)
  · exact gives_done rfl (errPopWrite_clear hv s)
  · exact gives_done rfl (if_pos (by simp [engHeld, hp]))
  · exact gives_done rfl (if_neg (by simp [engHeld, hp]))
end

section
/-! Mode requests, RETAIN and its wake (R432–R434). -/

namespace Sys2Proof.Machine

/-! ### Mode requests -/

theorem running_iff (s : State) : running s = true ↔ s.sys.mode = .live ∨ s.sys.mode = .shadow := by
  simp [running]

theorem testAbort_idle {s : State} (h : s.err.testBusy = false) : testAbort s = s := by
  simp [testAbort, h]

theorem modeRequest_busy {s : State} (h : s.sys.busy ≠ none) (m : Mode) (ok : Bool) : modeRequest m ok s = modeResult 3 s :=
  if_pos (Option.isSome_iff_ne_none.mpr h)

theorem modeRequest_refused {s : State} (h : s.sys.busy = none) (m : Mode) : modeRequest m false s = modeResult 2 s := by
  simp [modeRequest, h]

theorem modeRequest_running {s : State} (h : s.sys.busy = none) (ht : s.err.testBusy = false) (hr : running s = true) (hs : sps s ≠ 0)
    (m : Mode) : modeRequest m true s = { s with sys := { s.sys with busy := some m, ramped := false, modeRes := 0 } } := by
  simp [modeRequest, h, testAbort_idle ht, hr, hs]

theorem modeRequest_stopped {s : State} (h : s.sys.busy = none) (ht : s.err.testBusy = false) (hr : running s = false) (m : Mode) :
    modeRequest m true s = modeEnter m s := by
  simp [modeRequest, h, testAbort_idle ht, hr]

/-- The engine's reset is asserted once (R436). -/
theorem engReset_held {s : State} (h : s.eng.phase = .held) (prog : Option Burst) : engReset prog s = s :=
  if_pos (by simp [engHeld, h])

/-- SERVICE is entered at once from a mode with the engine held (R433). -/
theorem reqService_held {s : State} (hb : s.sys.busy = none) (ht : s.err.testBusy = false) (hm : s.sys.mode = .recovery) (hl : lcNow s ≠ 3)
    (hc : ¬ (s.sys.straps.twinEn = true ∧ s.twin.hold = true)) (hp : s.eng.phase = .held) :
    reqService s = { s with sys := { s.sys with mode := .service, modeHold := true, busy := none, ramped := false, modeRes := 1 } } := by
  have hr : running s = false := by simp [running, hm]
  have hok : ((running s || s.sys.mode == .recovery) && lcNow s != 3 && !(isTwin s && s.twin.hold)) = true := by
    simpa [hr, hm, hl, isTwin, imp_iff_not_or] using hc
  rw [reqService, hok, modeRequest_stopped hb ht hr]
  simp [modeEnter, engReset_held hp]

/-- What a request for mode `m` gives, allowed under `p` (R432, R433). -/
theorem modeRequest_gives {i : Instr} {s : State} {m : Mode} {ok : Bool} {p : Prop} (ht : s.err.testBusy = false)
    (he : exec i s = done (modeRequest m ok s)) (hp : ok = true ↔ p) :
    (s.sys.busy ≠ none → Gives i s (modeResult 3 s)) ∧ (s.sys.busy = none → ¬ p → Gives i s (modeResult 2 s)) ∧
    (s.sys.busy = none → p → (s.sys.mode = .live ∨ s.sys.mode = .shadow) → sps s ≠ 0 →
      Gives i s { s with sys := { s.sys with busy := some m, ramped := false, modeRes := 0 } }) := by
  refine ⟨fun hb => ?_, fun hb hn => ?_, fun hb hy hr hs => ?_⟩
  · exact gives_done he (modeRequest_busy hb m ok)
  · have hok : ok = false := Bool.eq_false_iff.mpr (mt hp.mp hn)
    exact gives_done he (hok ▸ modeRequest_refused hb m)
  · exact gives_done he (hp.mpr hy ▸ modeRequest_running hb ht ((running_iff s).mpr hr) hs m)

/-! ### REQ_RUN -/

theorem reqRun_busy {s : State} (h : s.sys.busy ≠ none) : reqRun s = modeResult 3 s :=
  if_pos (Option.isSome_iff_ne_none.mpr h)

theorem reqRun_refused {s : State} (h : s.sys.busy = none) (hm : s.sys.mode ≠ .recovery ∨ 1 < lcNow s) : reqRun s = modeResult 2 s := by
  simp [reqRun, h, hm]

theorem reqRun_booted {s : State} (h : s.sys.busy = none) (ht : s.err.testBusy = false) (hm : s.sys.mode = .recovery) (hl : lcNow s ≤ 1)
    (hf : s.sys.fw = true) (hi : s.eng.img ≠ none) (hb : s.eng.imgBad = false) :
    reqRun s = { s with sys := { s.sys with
      busy := some (runMode s), modeRes := 0, wait := .none, step := 4, modeHold := false, bootHold := false } } := by
  simp [reqRun, h, testAbort_idle ht, hm, Nat.not_lt.mpr hl, hf, Option.isSome_iff_ne_none.mpr hi, hb]

/-! ### RETAIN -/

/-- RETAIN is entered (R434): the copy is made where it fits, and the units lose their power. -/
theorem retainEnter_ready {s : State} (hb : s.sys.busy = some .retain) (hh : s.sys.modeHold = true)
    (ha : ∀ i, i < 8 → (assayAt s i).borrowed = none) :
    let u : State := { s with sys := { s.sys with retCopy := none } }
    let v := retOff (if retFits u then retCopyOut u else u)
    retainEnter s = { v with sys := { v.sys with mode := .retain, busy := none, modeRes := 1, ramped := false, rel := 2 } } := by
  have hassay : (s.msvc.assay.toList.any fun x => x.borrowed.isSome) = false := by
    rw [List.any_eq_false]
    intro x hx
    obtain ⟨i, hi, rfl⟩ := List.getElem_of_mem hx
    have hi8 : i < 8 := by simpa using hi
    have := ha i hi8
    simp only [assayAt, vget, hi8, dite_true] at this
    simpa using this
  simp [retainEnter, hb, hh, hassay]

@[simp] theorem retOff_eng (s : State) : (retOff s).eng = s.eng := rfl
@[simp] theorem retOff_geode (s : State) : (retOff s).geode = s.geode := rfl
@[simp] theorem retOff_sys (s : State) : (retOff s).sys = s.sys := rfl
@[simp] theorem retOff_dramReady (s : State) : (retOff s).dram.ready = (s.dram.ready && s.sys.retCopy.isSome) := rfl

@[simp] theorem retCopyOut_eng (s : State) : (retCopyOut s).eng = s.eng := rfl
@[simp] theorem retCopyOut_geode (s : State) : (retCopyOut s).geode = s.geode := rfl
@[simp] theorem retCopyOut_sys (s : State) : (retCopyOut s).sys = { s.sys with retCopy := some s.patch.sinks } := rfl

/-- What entering RETAIN keeps, and its copy (R434). -/
theorem retainEnter_effect {s : State} (hb : s.sys.busy = some .retain) (hh : s.sys.modeHold = true)
    (ha : ∀ i, i < 8 → (assayAt s i).borrowed = none) :
    let u : State := { s with sys := { s.sys with retCopy := none } }
    let t := retainEnter s
    t.sys.mode = .retain ∧ t.sys.busy = none ∧ t.sys.rel = 2 ∧ t.eng = s.eng ∧ t.geode = s.geode ∧ t.port = {} ∧
    (retFits u = false → t.sys.retCopy = none ∧ t.dram.ready = false) ∧ (retFits u = true → t.sys.retCopy = some s.patch.sinks) := by
  dsimp only
  rw [retainEnter_ready hb hh ha]
  refine ⟨rfl, rfl, rfl, ?_, ?_, rfl, fun hf => ?_, fun hf => ?_⟩
  · dsimp only
    split <;> simp
  · dsimp only
    split <;> simp
  · simp [hf]
  · simp [hf]

/-- Without a copy the wake loads the engine image again (R434). -/
theorem wakeRetain_cold {s : State} (h : s.sys.retCopy = none) :
    wakeRetain s = orReg Reg.PWR_STAT 0x80#32 { s with
      eng := { s.eng with img := none }
      sys := { s.sys with
        mode := .recovery, busy := some (runMode s), retained := true, modeHold := false, bootHold := true, wait := .engine, step := 4 } } := by
  have hcopy : s.sys.retCopy.isSome = false := by rw [h, Option.isSome_none]
  rw [wakeRetain, hcopy]
  rfl

theorem wakeRetain_warm {s : State} (h : s.sys.retCopy ≠ none) :
    wakeRetain s = { s with sys := { s.sys with
      mode := .recovery, busy := some (runMode s), retained := true, modeHold := false, bootHold := false, wait := .none } } := by
  simp [wakeRetain, Option.isSome_iff_ne_none.mpr h]

theorem wakeUp_retain {s : State} (h : s.sys.mode = .retain) : wakeUp s = wakeRetain s := by
  simp [wakeUp, h]

end Sys2Proof.Machine
end

section
/-! Debug access to a core (R34). -/

namespace Sys2Proof.Machine

@[simp] theorem coreAt_detLapse (bits : Word) (s : State) (n : Nat) : coreAt (detLapse bits s) n = coreAt s n :=
  (detLapse_recordsOnly bits s).coreAt n

@[simp] theorem detLapse_mem (bits : Word) (s : State) : (detLapse bits s).mem = s.mem :=
  (detLapse_recordsOnly bits s).mem

theorem putCore_coreAt {n : Nat} (hn : n < 128) (s : State) : putCore n (coreAt s n) s = s := by
  simp [putCore, coreAt, vget, vput, hn]

theorem coreHalt_active {s : State} {n : Nat} (hr : (coreAt s n).run ≠ .reset) (hh : (coreAt s n).run ≠ .halted) :
    coreHalt n s = putCore n { coreAt s n with run := .halted, paused := (coreAt s n).run } s := by
  simp [coreHalt, hr, hh]

theorem coreHalt_halted {s : State} {n : Nat} (h : (coreAt s n).run = .halted) : coreHalt n s = s := by
  simp [coreHalt, h]

/-- A running core is halted, issues its bundle and is halted again (R34). -/
theorem coreStep_running {s : State} {n : Nat} (hn : n < 128) (hr : (coreAt s n).run = .running) (hp : (coreAt s n).paused = .reset) :
    coreStep n s = coreHalt n (runBundle n (bundleAt s n) s) := by
  have hself : ({ coreAt s n with run := .running, paused := .reset } : Core) = coreAt s n := by
    rw [← hr, ← hp]
  have hbundle (k : Core) (hk : k.pc = (coreAt s n).pc) : bundleAt (putCore n k s) n = bundleAt s n := by
    simp [bundleAt, coreAt_putCore hn, hk, peek]
  rw [coreStep, coreHalt_active (by simp [hr]) (by simp [hr])]
  simp [coreAt_putCore hn, hr, hbundle, hself, putCore_coreAt hn]

theorem coreStep_waiting {s : State} {n : Nat} (hr : (coreAt s n).run = .halted) (hp : (coreAt s n).paused ≠ .running) : coreStep n s = s := by
  simp [coreStep, coreHalt_halted hr, hp]

/-- A debug access of core `n` is noted in DET_STAT, and every other core and every memory stays as it is (R34). -/
theorem debug_goes {i : Instr} {s u : State} {n : Nat} {k : Core} (hn : n < 128) (he : exec i s = done u)
    (h : u = putCore n k (detLapse detDebug s)) : Goes (exec i s) fun t =>
      ((tabWf 0#32 s.regs = true → bitAt (reg t Reg.DET_STAT) 6 = true) ∧ t.mem = s.mem ∧ ∀ j, j ≠ n → coreAt t j = coreAt s j) ∧
      coreAt t n = k := by
  refine goes_done he h ⟨⟨fun hw => ?_, by simp, fun j hj => ?_⟩, by rw [settle_coreAt, coreAt_putCore hn]⟩
  · rw [settle_reg, putCore_reg, reg_detLapse_detStat hw]
    simp [bitAt, detDebug]
  · rw [settle_coreAt, coreAt_putCore_ne (Ne.symm hj), coreAt_detLapse]

/-- A held bundle tries again only while its core waits. -/
theorem retryHeld_other {s : State} {n : Nat} {was : CoreRun} (h : (coreAt s n).run ≠ was) : retryHeld n was s = s := by
  unfold retryHeld
  dsimp only
  split
  · rfl
  · rw [if_pos h]

/-- A core that ran when it was halted runs on (R34). -/
theorem debugAct_resume {s : State} (c : CoreId) (hr : (coreAt s c.val).run = .halted) (hp : (coreAt s c.val).paused = .running) :
    debugAct (.resume c) s = putCore c.val { coreAt s c.val with run := .running, paused := .reset } s := by
  have htry (k : Core) (hk : k.run ≠ .loadHeld) : retryHeld c.val .loadHeld (putCore c.val k s) = putCore c.val k s :=
    retryHeld_other (by rwa [coreAt_putCore c.isLt])
  simp [debugAct, hr, hp, htry]

/-- A debug step of a running core issues the bundle at its bundle address (R34). -/
theorem debugAct_step_running {s : State} (c : CoreId) (hr : (coreAt s c.val).run = .running) (hp : (coreAt s c.val).paused = .reset) :
    debugAct (.step c) s = coreHalt c.val (runBundle c.val (bundleAt s c.val) (detLapse detDebug s)) := by
  have hbundle : bundleAt (detLapse detDebug s) c.val = bundleAt s c.val := by simp [bundleAt, peek]
  rw [debugAct, coreStep_running c.isLt (by simpa using hr) (by simpa using hp), hbundle]

end Sys2Proof.Machine
end

section
/-! Modes and debug (R23, R24, R34, R432–R434, R454). -/

open Sys2Proof Sys2Proof.Machine

/-- Settles O55, request by request and access by access: each command runs an update whose effect the lemmas above state. -/
theorem modesAndDebug : Obligations.ModesAndDebug := by
  intro s m _ ht
  refine ⟨?_, fun hb hm hl hc hp => ?_, fun hb => ?_, fun hb hr => ?_, fun hb hm hl hf hi hg => ?_, fun hb hh ha => ?_,
    fun hm => ⟨fun hc => ?_, fun hc => ?_⟩, fun c => ⟨fun hr hh => ?_, fun hr hp => ?_, fun hr hp => ?_, fun hr hp => ?_, fun r => ?_, fun i v => ?_⟩⟩
  · simp only [List.forall_mem_cons]
    refine ⟨modeRequest_gives ht rfl (running_iff s), modeRequest_gives ht rfl ?_, modeRequest_gives ht rfl ?_,
      modeRequest_gives ht rfl ?_, by simp⟩
    · simp [running_iff, or_assoc]
    · simp [running_iff, or_assoc]
    · simp [running_iff, isTwin, or_assoc, and_assoc, imp_iff_not_or]
  · exact gives_done rfl (reqService_held hb ht hm hl hc hp)
  · exact gives_done rfl (reqRun_busy hb)
  · exact gives_done rfl (reqRun_refused hb hr)
  · exact gives_done rfl (reqRun_booted hb ht hm hl hf hi hg)
  · exact goes_done rfl rfl (retainEnter_effect hb hh ha)
  · refine goes_done rfl ((wakeUp_retain hm).trans (wakeRetain_cold hc)) ⟨rfl, rfl, rfl, rfl, fun hw => ?_⟩
    exact bitAt_orReg hw (by decide)
  · exact goes_done rfl ((wakeUp_retain hm).trans (wakeRetain_warm hc)) ⟨rfl, rfl, rfl, rfl, rfl⟩
  · have hhalt : coreHalt c.val (detLapse detDebug s) = _ := coreHalt_active (by simpa using hr) (by simpa using hh)
    rw [coreAt_detLapse] at hhalt
    exact debug_goes c.isLt rfl hhalt
  · exact goes_done rfl (debugAct_resume c hr hp) ⟨coreAt_putCore c.isLt .., rfl⟩
  · exact gives_done rfl (debugAct_step_running c hr hp)
  · exact gives_done rfl (coreStep_waiting (by simpa using hr) (by simpa using hp))
  · exact debug_goes c.isLt rfl rfl
  · exact debug_goes c.isLt rfl rfl

end

section
/-! The state after power-on: its memory and its registers (R41, R438, R440, R443). -/

namespace Sys2Proof.Machine

theorem foldl_tset_tabWf {α β : Type} [DecidableEq β] {d : β} (key : α → Nat) (val : α → β) (l : List α) {t : Tab β} (h : tabWf d t = true) :
    tabWf d (l.foldl (fun t x => tset d t (key x) (val x)) t) = true :=
  List.foldlRecOn l _ (motive := fun t => tabWf d t = true) h fun _ ht _ _ => tset_tabWf ht

/-- An entry that a list of writes does not name keeps its value. -/
theorem tget_foldl_tset_other {α β : Type} [DecidableEq β] {d : β} (key : α → Nat) (val : α → β) (l : List α) {t : Tab β} {k : Nat}
    (h : tabWf d t = true) (hk : ∀ x ∈ l, key x ≠ k) : tget d (l.foldl (fun t x => tset d t (key x) (val x)) t) k = tget d t k := by
  induction l generalizing t with
  | nil => rfl
  | cons x xs ih =>
    rw [List.forall_mem_cons] at hk
    rw [List.foldl_cons, ih (tset_tabWf h) hk.2, tget_tset h, if_neg (Ne.symm hk.1)]

/-- A list of writes of one value, of which some name the entry. -/
theorem tget_foldl_tset_const {α β : Type} [DecidableEq β] {d : β} (key : α → Nat) (v : β) (l : List α) {t : Tab β} {k : Nat}
    (h : tabWf d t = true) :
    tget d (l.foldl (fun t x => tset d t (key x) v) t) k = if ∃ x ∈ l, key x = k then v else tget d t k := by
  induction l generalizing t with
  | nil => simp
  | cons x xs ih =>
    rw [List.foldl_cons, ih (tset_tabWf h), tget_tset h]
    by_cases hxs : ∃ y ∈ xs, key y = k
    · simp [hxs]
    · by_cases hx : key x = k
      · simp [hx]
      · simp [hx, hxs, Ne.symm hx]

/-- The reset values of a register's rows enter the table (R5). -/
def Reg.rowReset (t : Tab Word) (r : RegRow) : Tab Word := (List.range r.cnt).foldl (fun t i => tset 0#32 t (r.off + 4 * i) r.rst) t

theorem Reg.rowReset_tabWf {t : Tab Word} (h : tabWf 0#32 t = true) (r : RegRow) : tabWf 0#32 (Reg.rowReset t r) = true :=
  foldl_tset_tabWf (fun i => r.off + 4 * i) (fun _ => r.rst) _ h

/-- The row holds the register at offset `k`. -/
def Reg.holds (k : Nat) (r : RegRow) : Bool := decide (r.off ≤ k) && decide (k < r.off + 4 * r.cnt) && (k - r.off) % 4 == 0

theorem Reg.tget_rowReset {t : Tab Word} (h : tabWf 0#32 t = true) (r : RegRow) (k : Nat) :
    tget 0#32 (Reg.rowReset t r) k = if Reg.holds k r = true then r.rst else tget 0#32 t k := by
  have hholds : (∃ i ∈ List.range r.cnt, r.off + 4 * i = k) ↔ Reg.holds k r = true := by
    simp only [List.mem_range, Reg.holds, Bool.and_eq_true, decide_eq_true_eq, beq_iff_eq]
    constructor
    · rintro ⟨i, hi, rfl⟩
      omega
    · rintro ⟨⟨h1, h2⟩, h3⟩
      exact ⟨(k - r.off) / 4, by omega, by omega⟩
  rw [Reg.rowReset, tget_foldl_tset_const (fun i => r.off + 4 * i) r.rst _ h, if_congr hholds rfl rfl]

/-- The last row that holds a register gives its reset value. -/
theorem Reg.tget_foldl_rowReset (l : List RegRow) {t : Tab Word} (h : tabWf 0#32 t = true) (k : Nat) :
    tabWf 0#32 (l.foldl Reg.rowReset t) = true ∧
    tget 0#32 (l.foldl Reg.rowReset t) k = l.foldl (fun v r => if Reg.holds k r = true then r.rst else v) (tget 0#32 t k) := by
  induction l generalizing t with
  | nil => exact ⟨h, rfl⟩
  | cons r rs ih =>
    rw [List.foldl_cons, List.foldl_cons, ← Reg.tget_rowReset h]
    exact ih (Reg.rowReset_tabWf h r)

theorem Reg.resetTab_tabWf : tabWf 0#32 Reg.resetTab = true :=
  foldl_tset_tabWf (fun p : Word × Nat => Reg.REF_CCMAP + 4 * p.2) (·.1) _ (Reg.tget_foldl_rowReset Reg.rows rfl 0).1

theorem State.reset_regs : State.reset.regs = State.resetRegs := by
  simp only [State.reset]

theorem State.reset_tabWf : tabWf 0#32 State.reset.regs = true := by
  rw [State.reset_regs]
  exact foldl_tset_tabWf (fun v => Reg.MSIX_TBL + 16 * v + 12) (fun _ => 1#32) _ (tset_tabWf Reg.resetTab_tabWf)

/-- A register holds the Reset column of its row after power-on, but for the causes, the MSI-X masks and REF_CCMAP. -/
theorem State.reg_reset {k : Nat} (hc : k ≠ Reg.RST_CAUSE) (hm : ∀ v ∈ List.range 64, Reg.MSIX_TBL + 16 * v + 12 ≠ k)
    (hr : ∀ p ∈ Reg.ccmapReset.zipIdx, Reg.REF_CCMAP + 4 * p.2 ≠ k) :
    reg State.reset k = Reg.rows.foldl (fun v r => if Reg.holds k r = true then r.rst else v) 0#32 := by
  have hrows := Reg.tget_foldl_rowReset Reg.rows (t := []) rfl k
  have hccmap : tget 0#32 Reg.resetTab k = _ :=
    tget_foldl_tset_other (fun p : Word × Nat => Reg.REF_CCMAP + 4 * p.2) (·.1) _ hrows.1 hr
  have hmsix : tget 0#32 State.resetRegs k = _ :=
    tget_foldl_tset_other (fun v => Reg.MSIX_TBL + 16 * v + 12) (fun _ => 1#32) _ (tset_tabWf Reg.resetTab_tabWf) hm
  rw [reg, State.reset_regs, hmsix, tget_tset Reg.resetTab_tabWf, if_neg hc, hccmap]
  exact hrows.2

theorem State.resetMem_wf : Memory.wf State.resetMem = true := by decide

theorem tget_of_forall_ne {α : Type} {d : α} {t : Tab α} {i : Nat} (h : ∀ e ∈ t, e.1 ≠ i) : tget d t i = d := by
  induction t with
  | nil => rfl
  | cons e t ih =>
    rw [List.forall_mem_cons] at h
    simp [tget, Ne.symm h.1, ih h.2]

/-- Beside the row check and the life cycle, memory reads 0 (log entry 1). -/
theorem State.memGet_resetMem {a : Nat} (h : a < 0x1000FFC ∨ 0x1001003 ≤ a) : memGet State.resetMem a = 0#8 := by
  have hkeys : ∀ e ∈ State.resetMem, 0x1000FFC ≤ e.1 ∧ e.1 < 0x1001003 := by decide
  exact tget_of_forall_ne fun e he => by
    have := hkeys e he
    omega

@[simp] theorem vget_replicate {α : Type} {n i : Nat} (d x : α) (h : i < n) : vget d (Vector.replicate n x) i = x := by
  simp [vget, h]

theorem State.reset_cores : State.reset.cores = Vector.replicate 128 {} := by
  simp only [State.reset]

theorem coreAt_reset {n : Nat} (h : n < 128) : coreAt State.reset n = {} := by
  unfold coreAt
  rw [State.reset_cores, vget_replicate _ _ h]

end Sys2Proof.Machine
end

section
/-! The block after power-on (R41, R381, R438, R440, R443, R444, R455). -/

open Sys2Proof Sys2Proof.Machine

/-- Settles O60: the canonical forms by the laws of tables, the two registers by their rows, the rest by the reset state itself. -/
theorem afterReset : Obligations.AfterReset := by
  refine ⟨⟨State.resetMem_wf, rfl⟩, rfl, fun a => State.memGet_resetMem, by decide, rfl, rfl, rfl, rfl, rfl, rfl, fun n => coreAt_reset, ?_,
    State.reset_tabWf, ?_, ?_⟩
  · rw [coreAt_reset (by decide)]
  · exact (State.reg_reset (by decide) (by decide) (by decide)).trans (by decide +kernel)
  · exact (State.reg_reset (by decide) (by decide) (by decide)).trans (by decide +kernel)
end

section
/-! Detectors, words read and words written, where no injection slot is armed: one equation each. -/

namespace Sys2Proof.Machine

/-- A detector with no slot armed for it reports its real condition (R466). -/
theorem detect_found {alters : Bool} {src : BitVec 16} {code : BitVec 12} {sev : Sev} {info : Word} {cond : Bool} {s : State}
    (h : NoInjection s) (hc : cond = true) : detect alters src code sev info cond s = (report src code sev info s, true) := by
  simp [detect, h src code, hc]

theorem detect_clear {alters : Bool} {src : BitVec 16} {code : BitVec 12} {sev : Sev} {info : Word} {cond : Bool} {s : State}
    (h : NoInjection s) (hc : cond = false) : detect alters src code sev info cond s = (s, false) := by
  rw [hc, detect_none (h src code)]

theorem RecordsOnly.call {s t : State} (h : RecordsOnly s t) : t.call = s.call := h.field State.call

/-- Writes of words change the memory and its check bits. -/
theorem writeWords_frame (a : Nat) (ws : List Word) (s : State) :
    ∃ mem ecc, writeWords a ws s = { s with mem, msvc := { s.msvc with ecc } } := by
  induction ws generalizing a s with
  | nil => exact ⟨s.mem, s.msvc.ecc, rfl⟩
  | cons w ws ih =>
    obtain ⟨mem, ecc, h⟩ := ih (a + 4) (writeWord a w s)
    exact ⟨mem, ecc, h⟩

@[simp] theorem writeWords_regs (a : Nat) (ws : List Word) (s : State) : (writeWords a ws s).regs = s.regs := by
  obtain ⟨_, _, h⟩ := writeWords_frame a ws s
  rw [h]

@[simp] theorem writeWords_reg (a : Nat) (ws : List Word) (s : State) (off : Nat) : reg (writeWords a ws s) off = reg s off := by
  rw [reg, writeWords_regs, reg]

/-- A run of words with good check bits reads without a record. -/
theorem readSeq_clean {s : State} {a n : Nat} (h : Clean s a n) : readSeq a n s = (s, memWords s.mem a n) := by
  obtain ⟨hinj, hgood⟩ := h
  induction n generalizing a with
  | zero => rfl
  | succ n ih =>
    have hfirst : Good s a := by simpa using hgood 0 (by omega)
    have hrest := ih (a := a + 4) fun i hi => by
      have := hgood (i + 1) (by omega)
      rwa [show a + 4 * (i + 1) = a + 4 + 4 * i by omega] at this
    have hwords : memWords s.mem a (n + 1) = memWord s.mem a :: memWords s.mem (a + 4) n := by
      simp only [memWords, List.range_succ_eq_map, List.map_cons, List.map_map]
      refine congrArg₂ _ rfl (List.map_congr_left fun i _ => ?_)
      rw [Function.comp_apply, show a + 4 * (i + 1) = a + 4 + 4 * i by omega]
    simp only [readSeq, readWord_good hinj hfirst, hrest, hwords]

end Sys2Proof.Machine
end

section
/-! Receipts (R62, R63). -/

namespace Sys2Proof.Machine

/-- The state with a receipt's slot taken. -/
def rcptTaken (s : State) : State := { s with call := { s.call with rcptWr := s.call.rcptWr + 1 } }

/-- A receipt of a call applied on time goes to the next slot of a ring that has room (R62). -/
theorem writeReceipt_room {s : State} {r : Receipt} (hi : NoInjection s) (hs : r.status = stOnTime) (hf : rcptFull s = false) :
    writeReceipt r s = (if bitAt (reg s Reg.CALL_CTRL) 1 = true ∨ r.irq = true then irqLatch 0 else id)
      (writeWords (rcptSlot s) (rcptWords r) (rcptTaken s)) := by
  have hctrl : reg (writeWords (rcptSlot s) (rcptWords r) (rcptTaken s)) Reg.CALL_CTRL = reg s Reg.CALL_CTRL := writeWords_reg ..
  have hwrite : writeReceipt r s =
      let t := writeWords (rcptSlot s) (rcptWords r) (rcptTaken s)
      let c := reg t Reg.CALL_CTRL
      if bitAt c 1 || (bitAt c 2 && r.status != stOnTime) || r.irq then irqLatch 0 t else t := by
    unfold writeReceipt
    dsimp only
    rw [if_neg (show ¬ r.status = stLate by rw [hs]; decide), if_neg (show ¬ r.status = stRejected by rw [hs]; decide), detect_clear hi hf]
    rfl
  rw [hwrite]
  by_cases h : bitAt (reg s Reg.CALL_CTRL) 1 = true ∨ r.irq = true
  · simp [hctrl, hs, h]
  · simp [hctrl, hs, h]

/-- With the ring full a receipt is logged, counted and dropped (R63). -/
theorem writeReceipt_full {s : State} {r : Receipt} (hi : NoInjection s) (hs : r.status = stOnTime) (hf : rcptFull s = true) :
    let u := report callSrc 0x311#12 .note 0#32 s
    writeReceipt r s = callStat 1 { u with call := { u.call with rcptLost := satInc max32 u.call.rcptLost } } := by
  unfold writeReceipt
  dsimp only
  rw [if_neg (show ¬ r.status = stLate by rw [hs]; decide), if_neg (show ¬ r.status = stRejected by rw [hs]; decide), detect_found hi hf]
  rfl

end Sys2Proof.Machine
end

section
/-! The receipt ring (R62, R63). -/

open Sys2Proof Sys2Proof.Machine

/-- Settles O18: the detector of the full ring finds its real condition alone, and a report changes neither memory nor the call unit. -/
theorem receipts : Obligations.Receipts := by
  intro s r hi hs
  refine ⟨fun hf => writeReceipt_room hi hs hf, fun hf => ?_⟩
  have hlog : RecordsOnly s (report callSrc 0x311#12 .note 0#32 s) := report_recordsOnly ..
  dsimp only
  rw [writeReceipt_full hi hs hf]
  refine ⟨hlog.mem, ?_, report callSrc 0x311#12 .note 0#32 s, rfl, rfl, rfl⟩
  rw [← hlog.call]
  rfl
end

section
/-! The doorbell, the ring enable, acceptance and the converter of the call unit (R53–R57, R64, R66). -/

namespace Sys2Proof.Machine

/-! ### The doorbell -/

/-- A producer index that moves forward by no more than the ring holds (R53). -/
def doorbellOk (v : Word) (s : State) : Prop := callHeld s + ((v.truncate 17 : BitVec 17) - s.call.prod).toNat ≤ callSize s

theorem doorbell_refused_iff (v : Word) (s : State) :
    (v.truncate 17 != s.call.prod && decide ((callSize s : Int) < callHeld s + ((v.truncate 17 : BitVec 17) - s.call.prod).toNat)) = true ↔
      (v.truncate 17 : BitVec 17) ≠ s.call.prod ∧ ¬ doorbellOk v s := by
  simp only [Bool.and_eq_true, bne_iff_ne, decide_eq_true_eq, doorbellOk, Int.not_le]

theorem callDbWrite_taken {s : State} {v : Word} (hi : NoInjection s) (h : (v.truncate 17 : BitVec 17) = s.call.prod ∨ doorbellOk v s) :
    callDbWrite v s = { s with call := { s.call with prod := v.truncate 17 } } := by
  have hgood := mt (doorbell_refused_iff v s).mp fun ⟨hn, ho⟩ => h.elim hn ho
  unfold callDbWrite
  dsimp only
  rw [detect_clear hi (Bool.eq_false_iff.mpr hgood)]
  rfl

/-- A doorbell that moves back or overfills the ring is ignored and logged (R53). -/
theorem callDbWrite_refused {s : State} {v : Word} (hi : NoInjection s) (hn : (v.truncate 17 : BitVec 17) ≠ s.call.prod) (ho : ¬ doorbellOk v s) :
    callDbWrite v s = orReg Reg.CALL_STAT 4#32 (report callSrc 0x310#12 .note 0#32 s) := by
  unfold callDbWrite
  dsimp only
  rw [detect_found hi ((doorbell_refused_iff v s).mpr ⟨hn, ho⟩)]
  rfl

/-! ### The ring enable -/

theorem callEnableWrite_stored {s : State} {v : Word} (m : Master)
    (h : bitAt v 0 = false ∨ ¬ (0x800000 < fld (reg s Reg.CALL_RING_BASE) 22 5 * 32 + 32 * callSize s ∨
      0x800000 < fld (reg s Reg.RCPT_RING_BASE) 22 4 * 16 + 16 * rcptSize s)) :
    callEnableWrite m v s = setReg Reg.CALL_CTRL (v &&& 7#32) s := by
  unfold callEnableWrite
  dsimp only
  rw [if_neg]
  simpa [ringPast, imp_iff_not_or, -not_or, -not_lt] using h

theorem callEnableWrite_past {s : State} {v : Word} (m : Master) (hv : bitAt v 0 = true)
    (h : 0x800000 < fld (reg s Reg.CALL_RING_BASE) 22 5 * 32 + 32 * callSize s ∨
      0x800000 < fld (reg s Reg.RCPT_RING_BASE) 22 4 * 16 + 16 * rcptSize s) :
    callEnableWrite m v s = progError m Reg.CALL_CTRL (setReg Reg.CALL_CTRL (v &&& 6#32) s) := by
  have hmask : v &&& 7#32 &&& 6#32 = v &&& 6#32 := by
    rw [BitVec.and_assoc]
    rfl
  unfold callEnableWrite
  dsimp only
  rw [if_pos (by simpa [ringPast, hv] using h), hmask]

/-! ### Acceptance -/

/-- The call unit takes no call (R53–R55). -/
theorem callAccept_idle {s : State} (h : bitAt (reg s Reg.CALL_CTRL) 0 = false ∨ s.sys.mode = .shadow ∨ s.eng.phase = .held ∨ callHeld s ≤ 0 ∨
    2048 ≤ s.call.accepted) : callAccept s = s := by
  unfold callAccept
  rw [if_pos]
  simpa [engHeld, or_assoc] using h

/-- The state with the call at CALL_RD taken off the ring (R53). -/
def callTaken (s : State) : State := { s with call := { s.call with rd := s.call.rd + 1, accepted := s.call.accepted + 1 } }

/-- The slot of the ring that CALL_RD names (R50, R66). -/
def callSlot (s : State) : Nat := centralAddr (fld (reg s Reg.CALL_RING_BASE) 22 5 * 32 + s.call.rd.toNat % callSize s * 32)

theorem callAccept_next {s : State} (he : bitAt (reg s Reg.CALL_CTRL) 0 = true) (hm : s.sys.mode ≠ .shadow) (hp : s.eng.phase ≠ .held)
    (hh : 0 < callHeld s) (ha : s.call.accepted < 2048) (hl : s.call.pend.length < 16384) (hc : Clean s (callSlot s) 8) :
    callAccept s = acceptCall (callOf (memWords s.mem (callSlot s) 8)) (callTaken s) := by
  unfold callAccept
  rw [if_neg (by simp [he, hm, hp, engHeld, hh, ha])]
  dsimp only
  rw [detect_clear hc.1 (by simpa using hl)]
  dsimp only
  rw [if_neg (by simp), ← callSlot, readSeq_clean hc]
  rfl

/-- A call without a bulk area that fails a check is rejected (R51). -/
theorem acceptCall_rejected {s : State} {c : CallRec} (hb : bulkOf c = none) (h : rejectReason s c [] ≠ 0) :
    acceptCall c s = receiptEnd c stRejected (rejectReason s c []) s.eng.stroke s := by
  simp only [acceptCall, readBulk, hb, if_pos h]

/-- The entry of the pending table for a call accepted now, to be applied at stroke `due` (R53). -/
def pendOf (s : State) (c : CallRec) (due : BitVec 64) (late : Bool) : Pend :=
  { call := c, acc := s.eng.stroke, due, late, rej := callRejects s c, arms := armsOf s c [] }

/-- A call enters the pending table (R53). -/
def pendPut (p : Pend) (s : State) : State := { s with call := { s.call with pend := s.call.pend ++ [p] } }

/-- A good call without a bulk area and other than SCENE_ARM whose TARGET leaves CALL_LEAD is due at its TARGET (R56). -/
theorem acceptCall_onTime {s : State} {c : CallRec} (hb : bulkOf c = none) (hr : rejectReason s c [] = 0) (ho : c.opcode ≠ 6#16)
    (ht : s.eng.stroke.toNat + callLead s ≤ c.target.toNat) : acceptCall c s = pendPut (pendOf s c c.target false) s := by
  have hdue : dueOf s c = (c.target.toNat, false) := by simp [dueOf, ho, ht]
  simp only [acceptCall, readBulk, hb, hr, hdue]
  simp [pendPut, pendOf]

/-- A call that comes too late is rejected under REJECT (R57). -/
theorem acceptCall_late_rejected {s : State} {c : CallRec} (hb : bulkOf c = none) (hr : rejectReason s c [] = 0) (ho : c.opcode ≠ 6#16)
    (ht : c.target.toNat < s.eng.stroke.toNat + callLead s) (hp : callRejects s c = true) :
    acceptCall c s = receiptEnd c stRejected 1 s.eng.stroke s := by
  have hdue : dueOf s c = (s.eng.stroke.toNat + callLead s, true) := by simp [dueOf, ho, Nat.not_le.mpr ht]
  simp [acceptCall, readBulk, hb, hr, hdue, hp]

/-- A call that comes too late is due after CALL_LEAD strokes otherwise (R57). -/
theorem acceptCall_late {s : State} {c : CallRec} (hb : bulkOf c = none) (hr : rejectReason s c [] = 0) (ho : c.opcode ≠ 6#16)
    (ht : c.target.toNat < s.eng.stroke.toNat + callLead s) (hp : callRejects s c = false) :
    acceptCall c s = pendPut (pendOf s c (BitVec.ofNat 64 (s.eng.stroke.toNat + callLead s)) true) s := by
  have hdue : dueOf s c = (s.eng.stroke.toNat + callLead s, true) := by simp [dueOf, ho, Nat.not_le.mpr ht]
  simp [acceptCall, readBulk, hb, hr, hdue, hp, pendPut, pendOf]

/-! ### The converter -/

theorem cat64_toNat (hi lo : Word) : (cat64 hi lo).toNat = lo.toNat + 2 ^ 32 * hi.toNat := by
  rw [cat64, BitVec.toNat_append, ← Nat.shiftLeft_add_eq_or_of_lt lo.isLt, Nat.shiftLeft_eq]
  omega

/-- Bits of CVT_CTRL below its width are stored as written (R66). -/
theorem bitAt_cvtMask {i : Nat} (h : i < 18) (v : Word) : bitAt (v &&& 0x3FFFF#32) i = bitAt v i := by
  have : (0x3FFFF#32).getLsbD i = true := by
    interval_cases i <;> rfl
  simp [bitAt, this]

theorem fld_cvtMask (v : Word) : fld (v &&& 0x3FFFF#32) 15 0 = v.toNat % 65536 := by
  have : (v &&& 0x3FFFF#32).toNat = v.toNat % 2 ^ 18 := by
    rw [BitVec.toNat_and]
    exact Nat.and_two_pow_sub_one_eq_mod v.toNat 18
  simp only [fld, bitsOf, this]
  omega

theorem cvtConvert_toStroke {s : State} {v : Word} (m : Master) (hv : bitAt v 17 = false) :
    let b := bank s m
    let k := BitVec.ofNat 64 (cvtStroke (sps s) (bitAt v 16) (b.cvtSecLo.toNat + 2 ^ 32 * b.cvtSecHi.toNat) b.cvtNs.toNat (v.toNat % 65536))
    cvtConvert m v s = setBank m (fun b => { b with cvtCtrl := v &&& 0x3FFFF#32, cvtStrLo := lo64 k, cvtStrHi := hi64 k }) s := by
  have hdir : bitAt (v &&& 0x3FFFF#32) 17 = false := (bitAt_cvtMask (by omega) v).trans hv
  unfold cvtConvert
  dsimp only
  rw [if_pos (by rw [hdir]; rfl), bitAt_cvtMask (by omega), fld_cvtMask, cat64_toNat]

theorem cvtConvert_toTime {s : State} {v : Word} (m : Master) (hv : bitAt v 17 = true) (hr : sps s ≠ 0) :
    let b := bank s m
    let k := b.cvtStrLo.toNat + 2 ^ 32 * b.cvtStrHi.toNat
    let u := k % sps s * Time.second / sps s
    let sec := BitVec.ofNat 64 (k / sps s)
    cvtConvert m v s = setBank m (fun b => { b with
      cvtCtrl := (v &&& 0x3FFFF#32 &&& 0x30000#32) ||| wOf (u % 65536), cvtSecLo := lo64 sec, cvtSecHi := hi64 sec, cvtNs := wOf (u / 65536) }) s := by
  have hdir : bitAt (v &&& 0x3FFFF#32) 17 = true := (bitAt_cvtMask (by omega) v).trans hv
  unfold cvtConvert
  dsimp only
  rw [if_neg (by rw [hdir]; decide), if_neg hr, cat64_toNat]

/-- Without a rate family the time that a conversion gives is free (R64). -/
theorem cvtConvert_noFamily {s : State} {v : Word} (m : Master) (hv : bitAt v 17 = true) (hr : sps s = 0) :
    let f (i : Nat) : Word := Config.cvtNoFamily (s.freeCtr + i)
    cvtConvert m v s = setBank m (fun b => { b with
      cvtCtrl := (v &&& 0x3FFFF#32 &&& 0x30000#32) ||| wOf (fld (f 3) 15 0), cvtSecLo := f 0, cvtSecHi := f 1, cvtNs := f 2 })
      { s with freeCtr := s.freeCtr + 4 } := by
  have hdir : bitAt (v &&& 0x3FFFF#32) 17 = true := (bitAt_cvtMask (by omega) v).trans hv
  unfold cvtConvert
  dsimp only
  rw [if_neg (by rw [hdir]; decide), if_pos hr]

end Sys2Proof.Machine
end

section
/-! The call unit (R53–R57, R64, R66). -/

open Sys2Proof Sys2Proof.Machine

/-- Settles O19, command by command: each runs an update whose cases the lemmas above state. -/
theorem callUnit : Obligations.CallUnit := by
  intro s m v hi
  dsimp only
  refine ⟨fun hn => ?_, fun ho => ?_, fun hn ho => ?_, ⟨fun h => ?_, fun hv h => ?_⟩, fun h => ?_, fun c he hm hp hh ha hl hc hcall hb => ?_,
    fun hv => ?_, fun hv hr => ?_, fun hv hr => ?_⟩
  · refine gives_done rfl ((callDbWrite_taken hi (.inl hn)).trans ?_)
    rw [hn]
  · exact gives_done rfl (callDbWrite_taken hi (.inr ho))
  · exact gives_done rfl (callDbWrite_refused hi hn ho)
  · exact gives_done rfl (callEnableWrite_stored m h)
  · exact gives_done rfl (callEnableWrite_past m hv h)
  · exact gives_done rfl (callAccept_idle h)
  · have hnext : callAccept s = acceptCall c (callTaken s) := by rw [hcall]; exact callAccept_next he hm hp hh ha hl hc
    refine ⟨fun hr => ?_, fun hr ho ht => ?_, fun hr ho ht hj => ?_, fun hr ho ht hj => ?_⟩
    · exact gives_done rfl (hnext.trans (acceptCall_rejected hb hr))
    · exact gives_done rfl (hnext.trans (acceptCall_onTime hb hr ho ht))
    · exact gives_done rfl (hnext.trans (acceptCall_late_rejected hb hr ho ht hj))
    · refine gives_done rfl (hnext.trans ((acceptCall_late hb hr ho ht hj).trans ?_))
      rw [pendOf, hj]
      rfl
  · exact gives_done rfl (cvtConvert_toStroke m hv)
  · exact gives_done rfl (cvtConvert_toTime m hv hr)
  · exact ⟨_, _, _, _, gives_done rfl (cvtConvert_noFamily m hv hr)⟩
end

section
/-! The slices' output blocks and the treatment after an overrun (R48, R181, R185). -/

namespace Sys2Proof.Machine

/-! ### One block under treatment -/

/-- The fade after a slip (R48), sample by sample. -/
theorem treatBlock_slip (n : Nat) (t : Treat) (x : Word) (ws : List Word) :
    treatBlock true n t x ws = (.silence 0, (List.range n).map fun j : Nat => wInt (x.toInt * ((n : Int) - 1 - (j : Int)) / n)) := by
  have hfade : fadeOut n x = (List.range n).map fun j : Nat => wInt (x.toInt * ((n : Int) - 1 - (j : Int)) / n) := by
    refine List.map_congr_left fun j hj => ?_
    have hj : j < n := List.mem_range.mp hj
    rw [show ((n - 1 - j : Nat) : Int) = (n : Int) - 1 - j by omega]
  rw [← hfade]
  rfl

theorem treatBlock_untreated (n : Nat) (x : Word) (ws : List Word) : treatBlock false n .none x ws = (.none, ws) := rfl

/-- Silence lasts 8 clean strokes (R48). -/
theorem treatBlock_silence {n c : Nat} {ws : List Word} (x : Word) (hc : c < 8) (hl : ws.length = n) :
    treatBlock false n (.silence c) x ws = (.silence (c + 1), List.replicate n 0#32) := by
  simp [treatBlock, hc, ← hl]

/-- The ramp back goes on by the samples of the block (R48). -/
theorem treatBlock_ramp {n c : Nat} {ws : List Word} (x : Word) (hc : c < 8 * n) :
    treatBlock false n (.ramp c) x ws = (.ramp (c + n), ws.zipIdx.map fun e => rampSample n (c + e.2) e.1) := by
  simp [treatBlock, hc]

theorem getD_zipIdx_map (f : Word × Nat → Word) {ws : List Word} {j : Nat} (hj : j < ws.length) :
    (ws.zipIdx.map f).getD j 0#32 = f (ws.getD j 0#32, j) := by
  simp [List.getD_eq_getElem?_getD, hj]

/-! ### The treatment in force -/

/-- The bus outputs of a slice under the treatment in force (R48, R185). -/
theorem treatBuses_eq (sl : Nat) (ws : List Word) (s : State) :
    let t := treatOf s (9728 + sl)
    treatBuses sl ws s =
      ({ s with eng := { s.eng with ovr :=
          if t = .none then s.eng.ovr else tset .none s.eng.ovr (9728 + sl) (treatBlock false 8 t 0#32 (ws.take 8)).1 } },
        if t = .none then ws else (chunks 8 ws).flatMap fun b => (treatBlock false 8 t 0#32 b).2) := by
  unfold treatBuses
  dsimp only
  split
  · rfl
  · rfl

theorem sinkRecover_ready {s : State} {e : Nat} (h : treatOf s e = .silence 8) : sinkRecover e s = putTreat e (.ramp 0) s := if_pos h
theorem sinkRecover_other {s : State} {e : Nat} (h : treatOf s e ≠ .silence 8) : sinkRecover e s = s := if_neg h

/-! ### SLICE_DONE -/

/-- A slice that has nothing to write, or has signalled done, does nothing (R181). -/
theorem sliceDone_idle {s : State} {sl : Nat} (cycles : Nat)
    (h : s.eng.phase ≠ .drive ∨ s.mix.done.getLsbD sl = true ∨ tget [] s.mix.out sl = []) : sliceDone sl cycles s = s := by
  unfold sliceDone
  rcases h with hp | hd | ho
  · exact if_pos (by simp [hp])
  · exact if_pos (by simp [hd])
  · rw [ho]
    split <;> rfl

@[simp] theorem writeWords_mix (a : Nat) (ws : List Word) (s : State) : (writeWords a ws s).mix = s.mix := by
  obtain ⟨_, _, h⟩ := writeWords_frame a ws s
  rw [h]

theorem sliceDone_writes {s : State} {sl : Nat} (cycles : Nat) (hp : s.eng.phase = .drive) (hd : s.mix.done.getLsbD sl = false)
    (ho : tget [] s.mix.out sl ≠ []) :
    let r := treatBuses sl (tget [] s.mix.out sl) s
    sliceDone sl cycles s = { writeWords (crewAddr (sliceCrew r.1 sl) (sliceBase r.1 sl)) r.2 r.1 with mix := { r.1.mix with
      lastOut := tset [] r.1.mix.lastOut sl (lastWords sl r.1), out := tset [] r.1.mix.out sl []
      done := r.1.mix.done ||| BitVec.ofNat 16 (2 ^ sl), doneMax := max r.1.mix.doneMax (min cycles 65535) } } := by
  unfold sliceDone
  rw [if_neg (by simp [hp, hd])]
  split
  · next h => exact absurd h ho
  · simp only [writeWords_mix]

end Sys2Proof.Machine
end

section
/-! Slices and the recovery after an overrun (R48, R181, R185). -/

open Sys2Proof Sys2Proof.Machine

/-- Settles O25: SLICE_DONE by the treatment in force, the recovery by its test, and the treated block by the stage of its treatment. -/
theorem slicesAndRecovery : Obligations.SlicesAndRecovery := by
  intro s
  refine ⟨fun sl cycles => ⟨fun h => ?_, fun hp hd ho => ?_⟩, fun e h => ?_, fun e h => ?_,
    fun n c x ws t _ hl => ⟨?_, ?_, fun hc => ?_, fun hc => ?_⟩⟩
  · exact gives_done rfl (sliceDone_idle cycles h)
  · refine gives_done rfl ((sliceDone_writes cycles hp hd ho).trans ?_)
    rw [treatBuses_eq]
    rfl
  · exact gives_done rfl (sinkRecover_other h)
  · exact gives_done rfl (sinkRecover_ready h)
  · rw [treatBlock_slip, bind_pure_comp, List.map_eq_map, List.map_map]
    rfl
  · exact treatBlock_untreated n x ws
  · exact treatBlock_silence x hc hl
  · rw [treatBlock_ramp x hc]
    refine ⟨rfl, fun j hj => ?_⟩
    rw [getD_zipIdx_map _ (hl ▸ hj)]
    simp [rampSample]
end

section
/-! What the operations of a CATCH and of the engine's release leave alone: the stroke, its phase, the cores, the crews and the mode. -/

namespace Sys2Proof.Machine

/-! ### The steady part -/

/-- The part of a state that only the opening of a stroke, a FINISH, a reset or a release changes. -/
structure Steady where
  stroke : BitVec 64
  phase : Phase
  detBase : BitVec 64
  img : Option Image
  fam : Option Bool
  ovrCount : Nat
  now : Time
  accepted : Nat
  hold : Tab Bool
  cores : Vector Core 128
  crews : Vector Crew 16
  arm : Option Recall
  last : BitVec 64
  peerSeen : Bool
  inSync : Bool
  sys : SysState

/-- The system controller's state but the operating point and the cause that waits for its record. -/
def steadySys (x : SysState) : SysState := { x with op := Vector.replicate 4 0, opcfg := 0#32, newCause := 0#32 }

/-- The steady part of a state. -/
def steady (s : State) : Steady :=
  ⟨s.eng.stroke, s.eng.phase, s.eng.detBase, s.eng.img, s.eng.fam, s.eng.ovrCount, s.net.now, s.call.accepted, s.msvc.hold, s.cores, s.crews,
    s.scene.arm, s.twin.last, s.twin.peerSeen, s.twin.inSync, steadySys s.sys⟩

theorem steady_mk (a b c d e f g h i j k l m n o p q r s t u v w x y z a1 b1 c1) :
    steady (State.mk a b c d e f g h i j k l m n o p q r s t u v w x y z a1 b1 c1) =
    ⟨j.stroke, j.phase, j.detBase, j.img, j.fam, j.ovrCount, r.now, i.accepted, u.hold, k, l, o.arm, t.last, t.peerSeen, t.inSync, steadySys a1⟩ :=
  id rfl

@[simp] theorem steady_eta (s : State) :
    Steady.mk s.eng.stroke s.eng.phase s.eng.detBase s.eng.img s.eng.fam s.eng.ovrCount s.net.now s.call.accepted s.msvc.hold s.cores s.crews
      s.scene.arm s.twin.last s.twin.peerSeen s.twin.inSync (steadySys s.sys) = steady s :=
  id rfl

theorem steady_ite (c : Prop) [Decidable c] (a b : State) : steady (if c then a else b) = if c then steady a else steady b := by split <;> rfl

theorem steady_ite_fst {β : Type} (c : Prop) [Decidable c] (a b : State × β) :
    steady (if c then a else b).1 = if c then steady a.1 else steady b.1 := by split <;> rfl

theorem steady_ite_answer (c : Prop) [Decidable c] (a b : Answer) :
    steady (if c then a else b).s = if c then steady a.s else steady b.s := by split <;> rfl

theorem steady_ite_fst_answer {β : Type} (c : Prop) [Decidable c] (a b : Answer × β) :
    steady (if c then a else b).1.s = if c then steady a.1.s else steady b.1.s := by split <;> rfl

@[simp] theorem foldl_steady {α : Type} {f : State → α → State} {l : List α} {s : State} (h : ∀ s x, steady (f s x) = steady s) :
    steady (l.foldl f s) = steady s := by
  induction l generalizing s with
  | nil => rfl
  | cons x xs ih => exact ih.trans (h s x)

/-! ### Registers, records and lapses -/

@[simp] theorem setReg_steady (off : Nat) (v : Word) (s : State) : steady (setReg off v s) = steady s := by
  simp [setReg, ↓steady_mk]

@[simp] theorem orReg_steady (off : Nat) (v : Word) (s : State) : steady (orReg off v s) = steady s := by
  simp [orReg]

@[simp] theorem collect_steady (i : Nat) (src : BitVec 16) (code : BitVec 12) (sev : Sev) (inj : Bool) (info : Word) (s : State) :
    steady (collect i src code sev inj info s) = steady s := by
  unfold collect
  dsimp only
  split
  · simp [↓steady_mk]
  · simp [↓steady_mk, ↓steady_ite]

@[simp] theorem frameSend_steady (type : Nat) (stroke : BitVec 64) (payload : List Byte) (s : State) :
    steady (frameSend type stroke payload s) = steady s := by
  simp [frameSend, ↓steady_mk]

@[simp] theorem linkSend_steady (type : Nat) (stroke : BitVec 64) (payload : List Byte) (s : State) :
    steady (linkSend type stroke payload s) = steady s := by
  simp [linkSend, ↓steady_ite]

@[simp] theorem offerSend_steady (h : BitVec 64) (s : State) : steady (offerSend h s) = steady s := by
  simp [offerSend]

@[simp] theorem diagnose_steady (s : State) : steady (diagnose s) = steady s := by
  simp [diagnose, ↓steady_mk, ↓steady_ite]

@[simp] theorem reportI_steady (inj : Bool) (src : BitVec 16) (code : BitVec 12) (sev : Sev) (info : Word) (s : State) :
    steady (reportI inj src code sev info s) = steady s := by
  simp [reportI, ↓steady_ite]

@[simp] theorem report_steady (src : BitVec 16) (code : BitVec 12) (sev : Sev) (info : Word) (s : State) :
    steady (report src code sev info s) = steady s := by
  simp [report]

@[simp] theorem lapseAt_steady (k : BitVec 64) (bits : Word) (s : State) : steady (lapseAt k bits s) = steady s := by
  simp [lapseAt, ↓steady_mk, ↓steady_ite]

@[simp] theorem lapse_steady (bits : Word) (s : State) : steady (lapse bits s) = steady s := by
  simp [lapse]

@[simp] theorem injFire_steady (src : BitVec 16) (code : BitVec 12) (s : State) : steady (injFire src code s) = steady s := by
  simp [injFire, ↓steady_mk]

@[simp] theorem detect_steady (alters : Bool) (src : BitVec 16) (code : BitVec 12) (sev : Sev) (info : Word) (cond : Bool) (s : State) :
    steady (detect alters src code sev info cond s).1 = steady s := by
  simp [detect, ↓steady_ite, ↓steady_ite_fst]

@[simp] theorem irqLatch_steady (c : Nat) (s : State) : steady (irqLatch c s) = steady s := by
  simp [irqLatch]

@[simp] theorem setRegAt_steady (off inst : Nat) (v : Word) (s : State) : steady (setRegAt off inst v s) = steady s := by
  simp [setRegAt]

@[simp] theorem orRegAt_steady (off inst : Nat) (v : Word) (s : State) : steady (orRegAt off inst v s) = steady s := by
  simp [orRegAt]

@[simp] theorem emit_steady (o : Out) (s : State) : steady (emit o s) = steady s := by
  simp [emit, ↓steady_mk]

@[simp] theorem progError_steady (m : Master) (off : Nat) (s : State) : steady (progError m off s) = steady s := by
  simp [progError]

/-! ### Memory -/

@[simp] theorem noteCe_steady (a : Nat) (s : State) : steady (noteCe a s) = steady s := by
  simp [noteCe, ↓steady_mk, ↓steady_ite]

@[simp] theorem noteUe_steady (k : Reader) (a : Nat) (s : State) : steady (noteUe k a s) = steady s := by
  simp [noteUe, ↓steady_mk, ↓steady_ite]

@[simp] theorem eccCheck_steady (k : Reader) (a mark : Nat) (s : State) : steady (eccCheck k a mark s).1 = steady s := by
  simp [eccCheck, ↓steady_ite, ↓steady_ite_fst]

@[simp] theorem readWord_steady (k : Reader) (a : Nat) (s : State) : steady (readWord k a s).1 = steady s := by
  simp [readWord]

@[simp] theorem readSeq_steady (a : Nat) (n : Nat) (s : State) : steady (readSeq a n s).1 = steady s := by
  induction n generalizing a s with
  | zero => rfl
  | succ n ih => simp [readSeq, ih]

@[simp] theorem writeWord_steady (a : Nat) (w : Word) (s : State) : steady (writeWord a w s) = steady s := by
  simp [writeWord, ↓steady_mk]

@[simp] theorem writeWords_steady (a : Nat) (ws : List Word) (s : State) : steady (writeWords a ws s) = steady s := by
  induction ws generalizing a s with
  | nil => rfl
  | cons w ws ih => simp [writeWords, ih]

@[simp] theorem writeBytes_steady (a : Nat) (bs : List Byte) (s : State) : steady (writeBytes a bs s) = steady s := by
  simp [writeBytes, ↓steady_mk]

@[simp] theorem clearMem_steady (lo n : Nat) (s : State) : steady (clearMem lo n s) = steady s := by
  simp [clearMem, ↓steady_mk]

@[simp] theorem setBank_steady (m : Master) (f : Bank → Bank) (s : State) : steady (setBank m f s) = steady s := by
  simp [setBank, ↓steady_mk]

/-! ### The rows of the patch and the ports -/

@[simp] theorem putTreat_steady (e : Nat) (t : Treat) (s : State) : steady (putTreat e t s) = steady s := by
  simp [putTreat, ↓steady_mk]

@[simp] theorem putSink_steady (i : Nat) (x : Sink) (s : State) : steady (putSink i x s) = steady s := by
  simp [putSink, ↓steady_mk]

@[simp] theorem putAsrc_steady (a : Nat) (x : Asrc) (s : State) : steady (putAsrc a x s) = steady s := by
  simp [putAsrc, ↓steady_mk]

@[simp] theorem putPort_steady (p : Nat) (x : Port) (s : State) : steady (putPort p x s) = steady s := by
  simp [putPort, ↓steady_mk]

@[simp] theorem putPdm_steady (k : Nat) (x : PdmStream) (s : State) : steady (putPdm k x s) = steady s := by
  simp [putPdm, ↓steady_mk]

@[simp] theorem putStr_steady (k : Nat) (x : Stream) (s : State) : steady (putStr k x s) = steady s := by
  simp [putStr, ↓steady_mk]

@[simp] theorem putRxt_steady (ch : Nat) (x : RxTreat) (s : State) : steady (putRxt ch x s) = steady s := by
  simp [putRxt, ↓steady_mk]

@[simp] theorem putCk_steady (i : Nat) (x : Ckout) (s : State) : steady (putCk i x s) = steady s := by
  simp [putCk, ↓steady_mk]

@[simp] theorem readSrc_steady (h i : Nat) (s : State) : steady (readSrc h i s).1 = steady s := by
  simp [readSrc]

@[simp] theorem publishSrc_steady (h i : Nat) (s : State) : steady (publishSrc h i s) = steady s := by
  simp [publishSrc, ↓steady_mk]

/-! ### Routes and bridges -/

@[simp] theorem brGc_steady (s : State) : steady (brGc s) = steady s := by
  simp [brGc, ↓steady_mk]

@[simp] theorem patchStat_steady (b : Nat) (s : State) : steady (patchStat b s) = steady s := by
  simp [patchStat]

@[simp] theorem noBridge_steady (s : State) : steady (noBridge s) = steady s := by
  simp [noBridge]

@[simp] theorem alignCheck_steady (src sink : Nat) (s : State) : steady (alignCheck src sink s) = steady s := by
  simp [alignCheck, ↓steady_ite]

@[simp] theorem settleOn_steady (src i : Nat) (s : State) : steady (settleOn src i s) = steady s := by
  simp [settleOn]

@[simp] theorem brAlloc_steady (ks : List BrKey) (s : State) : steady (brAlloc ks s) = steady s := by
  induction ks generalizing s with
  | nil => rfl
  | cons k ks ih =>
    unfold brAlloc
    split <;> simp [ih, ↓steady_mk]

@[simp] theorem routeCut_steady (src i : Nat) (s : State) : steady (routeCut src i s).1 = steady s := by
  simp [routeCut, ↓steady_ite_fst]

@[simp] theorem routeStart_steady (r : RouteReq) (i : Nat) (s : State) : steady (routeStart r i s).1 = steady s := by
  simp [routeStart, ↓steady_ite_fst]

@[simp] theorem heldStart_steady (i : Nat) (s : State) : steady (heldStart i s) = steady s := by
  unfold heldStart
  dsimp only
  repeat' split
  all_goals simp

@[simp] theorem tapDone_steady (i : Nat) (s : State) : steady (tapDone i s) = steady s := by
  unfold tapDone
  dsimp only
  repeat' split
  all_goals simp

@[simp] theorem fadeDone_steady (i : Nat) (s : State) : steady (fadeDone i s) = steady s := by
  unfold fadeDone
  dsimp only
  repeat' split
  all_goals simp

@[simp] theorem fillDone_steady (i : Nat) (s : State) : steady (fillDone i s) = steady s := by
  simp [fillDone, ↓steady_ite]

@[simp] theorem sinkAdvance_steady (i : Nat) (s : State) : steady (sinkAdvance i s) = steady s := by
  simp [sinkAdvance]

@[simp] theorem sinkRun_steady (i : Nat) (s : State) : steady (sinkRun i s).1 = steady s := by
  simp [sinkRun, ↓steady_ite_fst]

@[simp] theorem brRunStage_steady (out second : Bool) (s : State) : steady (brRunStage out second s) = steady s := by
  simp [brRunStage, ↓steady_mk]

@[simp] theorem brRun_steady (out : Bool) (s : State) : steady (brRun out s) = steady s := by
  simp [brRun]

/-! ### Inputs and presence -/

@[simp] theorem treatWords_steady (e : Nat) (ws : List Word) (s : State) : steady (treatWords e ws s).1 = steady s := by
  simp [treatWords, ↓steady_ite_fst]

@[simp] theorem writeInput_steady (i : Nat) (b : Blk) (s : State) : steady (writeInput i b s) = steady s := by
  simp [writeInput]

@[simp] theorem deliverInput_steady (i : Nat) (s : State) : steady (deliverInput i s) = steady s := by
  simp [deliverInput]

@[simp] theorem deliverStrip_steady (i : Nat) (s : State) : steady (deliverStrip i s) = steady s := by
  simp [deliverStrip, ↓steady_mk, ↓steady_ite]

@[simp] theorem presNext_steady (i : Nat) (s : State) : steady (presNext i s) = steady s := by
  unfold presNext
  dsimp only
  repeat' split
  all_goals simp

@[simp] theorem presence_steady (i : Nat) (s : State) : steady (presence i s) = steady s := by
  unfold presence
  dsimp only
  repeat' split
  all_goals simp

@[simp] theorem patchDeliver_steady (s : State) : steady (patchDeliver s) = steady s := by
  simp [patchDeliver]

/-! ### The slices -/

@[simp] theorem readHalf_steady (a : Nat) (s : State) : steady (readHalf a s).1 = steady s := by
  simp [readHalf]

@[simp] theorem writeHalf_steady (a v : Nat) (s : State) : steady (writeHalf a v s) = steady s := by
  simp [writeHalf]

@[simp] theorem busSet_steady (b : Nat) (s : State) : steady (busSet b s).1 = steady s := by
  simp -proj only [busSet, ↓steady_ite_fst, fst_mk, ite_self, readWord_steady]

@[simp] theorem busSets_steady (sl : Nat) (s : State) : steady (busSets sl s).1 = steady s := by
  refine foldl_state (π := Prod.fst) (P := fun t => steady t = steady s) _ _ _ (fun r lb h => ?_) rfl
  simp -proj only [fst_mk, busSet_steady]
  exact h

@[simp] theorem evalTerm_steady (sl : Nat) (tmos : List Nat) (plane signs : List Word) (k lb : Nat) (r : SliceRun) :
    steady (evalTerm sl tmos plane signs k lb r).s = steady r.s := by
  simp -proj only [evalTerm, slice_mk, ↓steady_ite_fst, fst_mk, ite_self, writeHalf_steady, writeWord_steady, readHalf_steady, readWord_steady]

@[simp] theorem outStage_steady (sl : Nat) (sets : List BusSet) (r : SliceRun) : steady (outStage sl sets r) = steady r.s := by
  simp [outStage, ↓steady_mk, ↓steady_ite]

@[simp] theorem signStore_steady (sl : Nat) (plane : List Word) (s : State) : steady (signStore sl plane s) = steady s := by
  simp [signStore]

@[simp] theorem sliceEval_steady (plane : List Word) (sl : Nat) (s : State) : steady (sliceEval plane sl s) = steady s := by
  unfold sliceEval
  rw [outStage_steady, signStore_steady]
  refine foldl_state (π := SliceRun.s) (P := fun t => steady t = steady s) _ _ _ (fun r k hr => ?_)
    (by simp -proj only [slice_mk, readSeq_steady, busSets_steady])
  refine foldl_state (π := SliceRun.s) (P := fun t => steady t = steady s) _ _ _ (fun r lb h => ?_) hr
  rwa [evalTerm_steady]

@[simp] theorem slicesRun_steady (s : State) : steady (slicesRun s) = steady s := by
  unfold slicesRun
  simp only [↓steady_mk, ↓steady_ite, steady_eta, foldl_steady, writeWords_steady, sliceEval_steady, readSeq_steady, ite_self, implies_true]

/-! ### Streams -/

@[simp] theorem sendFrame_steady (p kind : Nat) (fields : List Nat) (payload : List Byte) (s : State) :
    steady (sendFrame p kind fields payload s) = steady s := by
  simp [sendFrame, ↓steady_ite]

@[simp] theorem groupFrame_steady (kind k : Nat) (s : State) : steady (groupFrame kind k s) = steady s := by
  simp [groupFrame, ↓steady_ite]

@[simp] theorem strDisable_steady (k : Nat) (s : State) : steady (strDisable k s) = steady s := by
  simp [strDisable, ↓steady_ite]

@[simp] theorem strStat_steady (k b : Nat) (s : State) : steady (strStat k b s) = steady s := by
  simp [strStat]

@[simp] theorem strRefuse_steady (k reason : Nat) (s : State) : steady (strRefuse k reason s) = steady s := by
  simp [strRefuse]

@[simp] theorem streamsLeave_steady (s : State) : steady (streamsLeave s) = steady s := by
  simp [streamsLeave, ↓steady_mk]

@[simp] theorem rxStart_steady (n ch : Nat) (s : State) : steady (rxStart n ch s) = steady s := by
  simp [rxStart, ↓steady_mk]

@[simp] theorem strStart_steady (k : Nat) (s : State) : steady (strStart k s) = steady s := by
  simp [strStart, ↓steady_mk, ↓steady_ite]

@[simp] theorem strEnable_steady (k : Nat) (s : State) : steady (strEnable k s) = steady s := by
  simp [strEnable, ↓steady_ite]

@[simp] theorem streamsLatch_steady (s : State) : steady (streamsLatch s) = steady s := by
  simp [streamsLatch]

/-! ### The fabric and its answers -/

@[simp] theorem fabCapture_steady (m : Master) (t : Nat) (resp : BitVec 2) (write : Bool) (a : Nat) (s : State) :
    steady (fabCapture m t resp write a s) = steady s := by
  simp [fabCapture, ↓steady_mk, ↓steady_ite]

@[simp] theorem noteUnmapped_steady (m : Master) (t : Nat) (write : Bool) (a : Nat) (s : State) :
    steady (noteUnmapped m t write a s) = steady s := by
  simp [noteUnmapped, ↓steady_mk]

@[simp] theorem decodeBurst_steady (b : Burst) (s : State) : steady (decodeBurst b s).1 = steady s := by
  simp [decodeBurst, ↓steady_ite_fst]

@[simp] theorem geodeDenied_steady (s : State) : steady (geodeDenied s) = steady s := by
  simp [geodeDenied]

@[simp] theorem readMeter_steady (m : Master) (a : Nat) (s : State) : steady (readMeter m a s).1 = steady s := by
  unfold readMeter
  simp -proj only [ite_fst, ↓steady_ite, fst_mk, setBank_steady, readWord_steady]
  split
  · with_reducible rfl
  · split <;> simp -proj only [fst_mk, readWord_steady]

@[simp] theorem readBeats_steady (m : Master) (ws : List BusWord) (s : State) : steady (readBeats m ws s).1 = steady s := by
  induction ws generalizing s with
  | nil => rfl
  | cons w ws ih => simp [readBeats, ih, ↓steady_ite_fst]

@[simp] theorem memRead_steady (b : Burst) (s : State) : steady (memRead b s).s = steady s := by
  simp [memRead, ↓steady_ite_answer]

@[simp] theorem granted_steady (b : Burst) (s : State) : steady (granted b s) = steady s := by
  simp [granted, ↓steady_mk, ↓steady_ite]

@[simp] theorem memServe_steady {b : Burst} (hb : b.write = false) (s : State) : steady (memServe b s).1.s = steady s := by
  unfold memServe
  split
  · rfl
  · split <;> simp [hb]

@[simp] theorem memBurst_steady {b : Burst} (hb : b.write = false) (s : State) : steady (memBurst b s).1.s = steady s := by
  simp [memBurst, hb, ↓steady_ite_fst_answer]

@[simp] theorem readRun_steady (m : Master) (ps : List Piece) (s : State) : steady (readRun m ps s).1 = steady s := by
  induction ps generalizing s with
  | nil => rfl
  | cons p ps ih => simp [readRun, ih, readBurst]

@[simp] theorem rxWords_steady (k ch u : Nat) (s : State) : steady (rxWords k ch u s).1 = steady s := by
  refine foldl_state (π := Prod.fst) (P := fun t => steady t = steady s) _ _ _ (fun r j h => ?_) rfl
  simp -proj only [↓steady_ite_fst, fst_mk, readRun_steady]
  split
  · exact h
  · exact h

/-! ### Freezes of the network and the ports -/

@[simp] theorem rxChan_steady (slip : Bool) (n ch : Nat) (ok : Bool) (ws : List Word) (s : State) :
    steady (rxChan slip n ch ok ws s) = steady s := by
  simp [rxChan, ↓steady_mk]

@[simp] theorem rxFreeze_steady (u k : Nat) (s : State) : steady (rxFreeze u k s) = steady s := by
  have hread (n : Nat) : steady ((List.range n).foldl (fun (r : State × List RxRead) i =>
      ((rxWords k (strChan r.1 k i) u r.1).1, r.2 ++ [⟨strChan r.1 k i, (rxWords k (strChan r.1 k i) u r.1).2.1, (rxWords k (strChan r.1 k i) u r.1).2.2⟩]))
      (s, [])).1 = steady s :=
    foldl_state (π := Prod.fst) (P := fun t => steady t = steady s) _ _ _ (fun r i h => (rxWords_steady ..).trans h) rfl
  simp [rxFreeze, hread]

@[simp] theorem netFreeze_steady (u : Nat) (s : State) : steady (netFreeze u s) = steady s := by
  simp [netFreeze]

@[simp] theorem portAct_steady (go : Bool) (p : Nat) (s : State) : steady (portAct go p s) = steady s := by
  unfold portAct
  dsimp only
  repeat' split
  all_goals simp

@[simp] theorem grpForget_steady (s : State) : steady (grpForget s) = steady s := by
  simp [grpForget, ↓steady_mk]

@[simp] theorem grpDue_steady (t : BitVec 64) (s : State) : steady (grpDue t s) = steady s := by
  simp [grpDue, ↓steady_mk, ↓steady_ite]

@[simp] theorem putHeader_steady (emit : Bool) (p : Nat) (k : BitVec 64) (status frames : Nat) (ts : Option Time) (s : State) :
    steady (putHeader emit p k status frames ts s) = steady s := by
  simp [putHeader]

@[simp] theorem freezeRows_steady (p : Nat) (k : BitVec 64) (status frames : Nat) (ts : Option Time) (rows : List (List Word)) (s : State) :
    steady (freezeRows p k status frames ts rows s) = steady s := by
  simp [freezeRows, ↓steady_mk]

@[simp] theorem detectSlots_steady (n : Nat) (alters : Bool) (src : BitVec 16) (code : BitVec 12) (cond : Bool) (s : State) :
    steady (detectSlots n alters src code cond s).1 = steady s := by
  simp [detectSlots, ↓steady_ite_fst]

@[simp] theorem portStat_steady (p b : Nat) (s : State) : steady (portStat p b s) = steady s := by
  simp [portStat]

@[simp] theorem alignCheckPort_steady (p : Nat) (c : Time) (f : Option Frame) (s : State) : steady (alignCheckPort p c f s) = steady s := by
  unfold alignCheckPort
  dsimp only
  repeat' split
  all_goals simp

@[simp] theorem windowCheck_steady (p n frames : Nat) (bad : Bool) (s : State) : steady (windowCheck p n frames bad s).1 = steady s := by
  simp [windowCheck, ↓steady_ite]

@[simp] theorem captureFreeze_steady (p : Nat) (k : BitVec 64) (c : Time) (moving : Bool) (gs : List GatePos) (s : State) :
    steady (captureFreeze p k c moving gs s) = steady s := by
  simp [captureFreeze, ↓steady_ite]

@[simp] theorem sapClocks_steady (p : Nat) (s : State) : steady (sapClocks p s) = steady s := by
  simp [sapClocks, ↓steady_ite]

/-! ### Ports and PDM at a CATCH -/

@[simp] theorem emitEnd_steady (p : Nat) (c : Time) (s : State) : steady (emitEnd p c s) = steady s := by
  unfold emitEnd
  dsimp only
  repeat' split
  all_goals simp [↓steady_ite]

@[simp] theorem portCatch_steady (k t : BitVec 64) (c : Time) (fade : Bool) (p : Nat) (s : State) :
    steady (portCatch k t c fade p s) = steady s := by
  simp [portCatch, ↓steady_ite]

@[simp] theorem pdmClock_steady (g : Nat) (s : State) : steady (pdmClock g s) = steady s := by
  simp [pdmClock, ↓steady_ite]

@[simp] theorem pdmSettled_steady (k : Nat) (s : State) : steady (pdmSettled k s) = steady s := by
  simp [pdmSettled, ↓steady_ite]

@[simp] theorem pdmCatch_steady (j : BitVec 64) (ws : List Word) (k : Nat) (s : State) : steady (pdmCatch j ws k s) = steady s := by
  simp [pdmCatch, ↓steady_mk]

@[simp] theorem pdmSet_steady (k : Nat) (on : Bool) (s : State) : steady (pdmSet k on s) = steady s := by
  simp [pdmSet, ↓steady_ite]

@[simp] theorem pdmDue_steady (t : BitVec 64) (s : State) : steady (pdmDue t s) = steady s := by
  simp [pdmDue, ↓steady_mk]

@[simp] theorem portsCatch_steady (k t : BitVec 64) (c : Time) (fade : Bool) (pdm : List (Nat × PdmIn)) (s : State) :
    steady (portsCatch k t c fade pdm s) = steady s := by
  simp [portsCatch, ↓steady_mk]

/-! ### What leaves at a CATCH -/

@[simp] theorem portEmitBlock_steady (t : BitVec 64) (p : Nat) (s : State) : steady (portEmitBlock t p s) = steady s := by
  simp [portEmitBlock, ↓steady_ite]

@[simp] theorem txEntry_steady (t : Nat) (fade : Bool) (k : Nat) (s : State) : steady (txEntry t fade k s) = steady s := by
  simp [txEntry, ↓steady_mk, ↓steady_ite]

@[simp] theorem mediaTransmit_steady (t : Nat) (fade : Bool) (s : State) : steady (mediaTransmit t fade s) = steady s := by
  simp [mediaTransmit]

@[simp] theorem ckDrive_steady (t i : Nat) (s : State) : steady (ckDrive t i s) = steady s := by
  simp [ckDrive, ↓steady_ite]

@[simp] theorem ckApply_steady (i : Nat) (s : State) : steady (ckApply i s) = steady s := by
  simp [ckApply, ↓steady_ite]

@[simp] theorem actCopy_steady (s : State) : steady (actCopy s) = steady s := by
  simp [actCopy, ↓steady_mk]

@[simp] theorem emitFreeze_steady (s : State) : steady (emitFreeze s) = steady s := by
  simp [emitFreeze, ↓steady_mk]

/-! ### Converters and shipments -/

@[simp] theorem asrcRun_steady (a n : Nat) (ws : List Word) (force : Bool) (s : State) : steady (asrcRun a n ws force s) = steady s := by
  simp [asrcRun, ↓steady_ite]

@[simp] theorem asrcStroke_steady (ratios : List (Nat × Word)) (a : Nat) (s : State) : steady (asrcStroke ratios a s) = steady s := by
  simp [asrcStroke, ↓steady_mk, ↓steady_ite, ↓steady_ite_fst]

@[simp] theorem asrcCatch_steady (ratios : List (Nat × Word)) (s : State) : steady (asrcCatch ratios s) = steady s := by
  simp [asrcCatch]

@[simp] theorem treatTake_steady (x : SrcTreat) (s : State) : steady (treatTake x s) = steady s := by
  simp [treatTake, ↓steady_ite]

@[simp] theorem framesTake_steady (k : BitVec 64) (src : Nat) (frames : BitVec 8) (s : State) : steady (framesTake k src frames s) = steady s := by
  simp [framesTake, ↓steady_ite]

@[simp] theorem blockTake_steady (inp : List InputBlock) (k : BitVec 64) (e : Nat × BitVec 2 × BitVec 8) (s : State) :
    steady (blockTake inp k e s) = steady s := by
  simp [blockTake, ↓steady_mk]

@[simp] theorem shipTake_steady (k : BitVec 64) (s : State) : steady (shipTake k s) = steady s := by
  unfold shipTake
  dsimp only
  repeat' split
  all_goals simp [↓steady_mk]

@[simp] theorem sectionSend_steady (k : BitVec 64) (frames : List (Nat × List Nat)) (close : Nat) (last : List Nat) (s : State) :
    steady (sectionSend k frames close last s) = steady s := by
  simp [sectionSend]

@[simp] theorem shipSend_steady (k : BitVec 64) (s : State) : steady (shipSend k s) = steady s := by
  simp [shipSend, ↓steady_ite]

/-! ### The operating point and the causes -/

@[simp] theorem skewCheck_steady (at_ : Time) (s : State) : steady (skewCheck at_ s) = steady s := by
  simp [skewCheck, ↓steady_mk]

@[simp] theorem opSet_steady (s : State) : steady (opSet s) = steady s := by
  unfold opSet
  split
  · rfl
  · rfl

@[simp] theorem tickCheck_steady (s : State) : steady (tickCheck s) = steady s := by
  simp [tickCheck, ↓steady_ite]

@[simp] theorem causeLog_steady (s : State) : steady (causeLog s) = steady s := by
  unfold causeLog
  split
  · rfl
  · exact (report_steady ..).trans rfl

/-! ### The baseline of a release -/

@[simp] theorem setDescBit_steady (n b : Nat) (v : Bool) (s : State) : steady (setDescBit n b v s) = steady s := by
  simp [setDescBit]

@[simp] theorem baseClear_steady (s : State) : steady (baseClear s) = steady s := by
  simp [baseClear, clearMem, ↓steady_mk, ↓steady_ite]

@[simp] theorem sliceCold_steady (sl : Nat) (s : State) : steady (sliceCold sl s) = steady s := by
  simp [sliceCold]

@[simp] theorem matrixCold_steady (s : State) : steady (matrixCold s) = steady s := by
  simp [matrixCold]

@[simp] theorem asrcLatch_steady (a : Nat) (s : State) : steady (asrcLatch a s) = steady s := by
  simp [asrcLatch]

@[simp] theorem sinkSettle_steady (i : Nat) (s : State) : steady (sinkSettle i s) = steady s := by
  simp [sinkSettle, ↓steady_ite]

@[simp] theorem patchBase_steady (s : State) : steady (patchBase s) = steady s := by
  simp [patchBase, ↓steady_mk]

@[simp] theorem callStat_steady (b : Nat) (s : State) : steady (callStat b s) = steady s := by
  simp [callStat]

@[simp] theorem writeReceipt_steady (r : Receipt) (s : State) : steady (writeReceipt r s) = steady s := by
  simp [writeReceipt, ↓steady_mk, ↓steady_ite]

@[simp] theorem receiptsOwed_steady (s : State) : steady (receiptsOwed s) = steady s := by
  simp [receiptsOwed, ↓steady_mk]

@[simp] theorem twinStat_steady (b : Nat) (s : State) : steady (twinStat b s) = steady s := by
  simp [twinStat]

@[simp] theorem syncLost_steady (s : State) : steady (syncLost s) = { steady s with inSync := false } := by
  unfold syncLost
  split
  · exact (twinStat_steady ..).trans rfl
  · next h =>
    have hsync : s.twin.inSync = false := by simpa using h
    simp [steady, hsync]

end Sys2Proof.Machine
end

section
/-! The CATCH (R40, R44, R47, R103, R377). -/

namespace Sys2Proof.Machine

/-! ### Ports and streams at a CATCH -/

theorem ioCatch_steady {mid : State → State} (hmid : ∀ s, steady (mid s) = steady s) (t : BitVec 64) (pdm : List (Nat × PdmIn)) (s : State) :
    steady (ioCatch t pdm mid s) = steady s := by
  simp [ioCatch, hmid]

/-- The state with the times of the last CATCH. -/
def stamped (at_ grid : Time) (s : State) : State := { s with eng := { s.eng with catchAt := at_, gridAt := grid } }

@[simp] theorem stamped_steady (at_ grid : Time) (s : State) : steady (stamped at_ grid s) = steady s := rfl

/-- The output blocks that remain have been emitted (R441). -/
def blocksDropped (s : State) : State := { s with patch := { s.patch with outBlk := [] } }

@[simp] theorem blocksDropped_steady (s : State) : steady (blocksDropped s) = steady s := rfl

theorem idleCatch_eq (at_ : Time) (pdm : List (Nat × PdmIn)) (s : State) :
    idleCatch at_ pdm s = stamped at_ at_ (ioCatch (BitVec.ofNat 64 (strokeAt s (at_ + strokeLen (sps s) / 2))) pdm blocksDropped s) := by
  unfold idleCatch
  rfl

theorem idleCatch_catchAt (at_ : Time) (pdm : List (Nat × PdmIn)) (s : State) : (idleCatch at_ pdm s).eng.catchAt = at_ := by
  rw [idleCatch_eq, stamped]

theorem idleCatch_steady (at_ : Time) (pdm : List (Nat × PdmIn)) (s : State) : steady (idleCatch at_ pdm s) = steady s := by
  rw [idleCatch_eq, stamped_steady, ioCatch_steady blocksDropped_steady]

/-! ### Cores at a CATCH -/

@[simp] theorem vget_vmap {α : Type} {n i : Nat} (d : α) (f : Nat → α → α) (v : Vector α n) (h : i < n) :
    vget d (vmap f v) i = f i (vget d v i) := by
  simp [vget, vmap, h]

/-- A core starts by the image and the stroke (R103). -/
theorem coreStart_congr {s t : State} (h : steady s = steady t) : coreStart s = coreStart t := by
  have himg : s.eng.img = t.eng.img := congrArg Steady.img h
  have hstroke : s.eng.stroke = t.eng.stroke := congrArg Steady.stroke h
  funext n k
  simp only [coreStart, himg, hstroke]

theorem latched_steady (l : Tab Bool) (s : State) : steady { s with eng := { s.eng with latched := l } } = steady s := rfl

/-- The engine's part of a CATCH starts the cores and resets the crews (R44, R103). -/
theorem engineCatch_steady (at_ : Time) (s : State) :
    steady (engineCatch at_ s) = { steady s with crews := Vector.replicate 16 {}, cores := vmap (coreStart s) s.cores } := by
  have hpoint (t : State) (c : Prop) [Decidable c] : steady (if c then t else opSet t) = steady t := by
    split
    · rfl
    · exact opSet_steady t
  have hstart (t : State) (p : PatchState) (ht : steady t = steady s) :
      steady { t with crews := Vector.replicate 16 {}, cores := vmap (coreStart t) t.cores, patch := p } =
        { steady s with crews := Vector.replicate 16 {}, cores := vmap (coreStart s) s.cores } := by
    rw [coreStart_congr ht, show t.cores = s.cores from congrArg Steady.cores ht, ← ht]
    rfl
  unfold engineCatch
  dsimp only
  rw [tickCheck_steady, slicesRun_steady, patchDeliver_steady]
  exact hstart _ _ ((hpoint _ _).trans ((skewCheck_steady ..).trans (latched_steady ..)))

/-! ### The engine's CATCH -/

/-- The state as a CATCH of the running engine for stroke `t` opens it. -/
def strokeOpened (t : BitVec 64) (s : State) : State :=
  { s with
    eng := { s.eng with stroke := t, phase := .drive }
    call := { s.call with accepted := 0 }
    geode := { s.geode with beaconKeys := s.geode.keys }
    msvc := { s.msvc with hold := [] }
    twin := { s.twin with expired := false } }

/-- What a CATCH does between the freeze of the blocks and their emission. -/
def blocksShipped (k : BitVec 64) (ratios : List (Nat × Word)) (s : State) : State := shipSend k (asrcCatch ratios (shipTake k s))

@[simp] theorem blocksShipped_steady (k : BitVec 64) (ratios : List (Nat × Word)) (s : State) : steady (blocksShipped k ratios s) = steady s := by
  simp [blocksShipped]

theorem runCatch_eq (t : BitVec 64) (at_ : Time) (ratios : List (Nat × Word)) (pdm : List (Nat × PdmIn)) (s : State) :
    let o := strokeOpened t s
    let u := engineCatch at_ (ioCatch t pdm (blocksShipped (t - 1#64) (ratiosIn ratios (t - 1#64) o)) o)
    runCatch t at_ ratios pdm s = stamped at_ (gridOf at_ u) u := by
  unfold runCatch
  rfl

theorem runCatch_catchAt (t : BitVec 64) (at_ : Time) (ratios : List (Nat × Word)) (pdm : List (Nat × PdmIn)) (s : State) :
    (runCatch t at_ ratios pdm s).eng.catchAt = at_ := by
  rw [runCatch_eq, stamped]

/-- The CATCH of the running engine for stroke `t` (R44, R103, R377). -/
theorem runCatch_steady (t : BitVec 64) (at_ : Time) (ratios : List (Nat × Word)) (pdm : List (Nat × PdmIn)) (s : State) :
    steady (runCatch t at_ ratios pdm s) =
      { steady (strokeOpened t s) with crews := Vector.replicate 16 {}, cores := vmap (coreStart (strokeOpened t s)) s.cores } := by
  have hio := ioCatch_steady (blocksShipped_steady (t - 1#64) (ratiosIn ratios (t - 1#64) (strokeOpened t s))) t pdm (strokeOpened t s)
  have hcores : (ioCatch t pdm (blocksShipped (t - 1#64) (ratiosIn ratios (t - 1#64) (strokeOpened t s))) (strokeOpened t s)).cores = s.cores :=
    congrArg Steady.cores hio
  rw [runCatch_eq, stamped_steady, engineCatch_steady, coreStart_congr hio, hio, hcores]

theorem coreAt_runCatch {n : Nat} (hn : n < 128) (t : BitVec 64) (at_ : Time) (ratios : List (Nat × Word)) (pdm : List (Nat × PdmIn)) (s : State) :
    coreAt (runCatch t at_ ratios pdm s) n = coreStart (strokeOpened t s) n (coreAt s n) := by
  have hcores : (runCatch t at_ ratios pdm s).cores = vmap (coreStart (strokeOpened t s)) s.cores := congrArg Steady.cores (runCatch_steady ..)
  rw [coreAt, hcores, vget_vmap _ _ _ hn, coreAt]

/-- System time as a CATCH finds it. -/
def timed (at_ : Time) (s : State) : State := { s with net := { s.net with now := at_ } }

@[simp] theorem timed_eng (at_ : Time) (s : State) : (timed at_ s).eng = s.eng := rfl

theorem catchUp_noFamily {s : State} (h : s.eng.fam = none) (at_ : Time) (ratios : List (Nat × Word)) (pdm : List (Nat × PdmIn)) :
    catchUp at_ ratios pdm s = s := by
  simp [catchUp, sps, h]

theorem sps_ne_zero {s : State} (h : s.eng.fam ≠ none) : sps s ≠ 0 := by
  unfold sps
  split
  · contradiction
  · split <;> omega

/-- Between strokes a CATCH finds nothing to finish (R44). -/
theorem catchUp_betweenStrokes {s : State} (hf : s.eng.fam ≠ none) (hp : s.eng.phase ≠ .drive) (hr : s.sys.ramped = false) (at_ : Time)
    (ratios : List (Nat × Word)) (pdm : List (Nat × PdmIn)) :
    let u := timed at_ s
    catchUp at_ ratios pdm s =
      leaveMode (if engHeld u || tooEarly at_ u then idleCatch at_ pdm u else runCatch (nextStroke u) at_ ratios pdm u) := by
  have hfin : finishStroke s = s := if_pos (by simpa using hp)
  have hsps : sps (timed at_ s) ≠ 0 := sps_ne_zero hf
  unfold catchUp
  dsimp only
  rw [if_neg (sps_ne_zero hf), hfin, hr]
  simp only [Bool.false_eq_true, if_false]
  exact if_neg hsps

/-- A mode that is being left begins its ramp, or nothing happens (R433). -/
theorem leaveMode_unramped {s : State} (h : s.sys.ramped = false) : ∃ b, leaveMode s = { s with sys := { s.sys with ramped := b } } := by
  unfold leaveMode
  split
  · split
    · exact ⟨s.sys.ramped, rfl⟩
    · rw [if_neg (by simp [h])]
      exact ⟨true, rfl⟩
  · exact ⟨s.sys.ramped, rfl⟩

theorem leaveMode_settled {s : State} (h : s.sys.busy = none) : leaveMode s = s := by
  simp [leaveMode, h]

/-- A CATCH of the held engine, or one before its first stroke (R441). -/
theorem catchUp_held {s : State} (hf : s.eng.fam ≠ none) (hp : s.eng.phase = .held) (hr : s.sys.ramped = false) (at_ : Time)
    (ratios : List (Nat × Word)) (pdm : List (Nat × PdmIn)) :
    catchUp at_ ratios pdm s = leaveMode (idleCatch at_ pdm (timed at_ s)) := by
  rw [catchUp_betweenStrokes hf (by simp [hp]) hr]
  exact congrArg leaveMode (if_pos (by simp [engHeld, hp]))

/-- A CATCH after FINISH runs the next stroke (R44). -/
theorem catchUp_finished {s : State} (hf : s.eng.fam ≠ none) (hp : s.eng.phase = .finished) (hr : s.sys.ramped = false) (at_ : Time)
    (ratios : List (Nat × Word)) (pdm : List (Nat × PdmIn)) :
    catchUp at_ ratios pdm s = leaveMode (runCatch (s.eng.stroke + 1#64) at_ ratios pdm (timed at_ s)) := by
  have hnext : nextStroke (timed at_ s) = s.eng.stroke + 1#64 := if_neg (by simp [hp])
  rw [catchUp_betweenStrokes hf (by simp [hp]) hr, hnext]
  exact congrArg leaveMode (if_neg (by simp [engHeld, tooEarly, hp]))

/-- Core `n` as a CATCH for stroke `k` starts it under the image `im` (R103; log entry 49). -/
theorem coreStart_eq {s : State} {im : Image} (hi : s.eng.img = some im) (n : Nat) (k : Core) :
    let h := decide (k.run = .halted)
    coreStart s n k = {
      pc := im.entry[n]?.getD 0, run := if h then .halted else .running, paused := if h then .running else .reset
      stroke := s.eng.stroke.extractLsb' 0 32, cycMax := k.cycMax, faultPc := k.faultPc, faultCode := k.faultCode } := by
  simp [coreStart, hi, lo64]

end Sys2Proof.Machine
end

section
/-! The CATCH starts a stroke (R40, R44, R47, R103, R377). -/

open Sys2Proof Sys2Proof.Machine

/-- Settles O23: what a CATCH keeps follows from what its parts keep, and what it sets from the opening of the stroke and the start of the cores. -/
theorem catchStarts : Obligations.CatchStarts := by
  intro s at_ ratios pdm
  refine ⟨⟨_, done_eq _⟩, fun hf => ?_, fun hf hp hr => ?_, fun im hf hi hp hb hr _ => ?_⟩
  · exact gives_done rfl (catchUp_noFamily hf at_ ratios pdm)
  · have hidle := idleCatch_steady at_ pdm (timed at_ s)
    have hat := idleCatch_catchAt at_ pdm (timed at_ s)
    refine goes_done rfl (catchUp_held hf hp hr at_ ratios pdm) ?_
    generalize idleCatch at_ pdm (timed at_ s) = u at hidle hat ⊢
    obtain ⟨b, hleave⟩ := leaveMode_unramped ((congrArg (fun x => x.sys.ramped) hidle).trans hr)
    rw [hleave]
    exact ⟨congrArg Steady.stroke hidle, (congrArg Steady.phase hidle).trans hp, hat, congrArg Steady.now hidle, congrArg Steady.cores hidle,
      congrArg Steady.crews hidle⟩
  · have hfam : s.eng.fam ≠ none := by simp [hf]
    have hrun := runCatch_steady (s.eng.stroke + 1#64) at_ ratios pdm (timed at_ s)
    have hat := runCatch_catchAt (s.eng.stroke + 1#64) at_ ratios pdm (timed at_ s)
    have hcore {n : Nat} (hn : n < 128) := coreAt_runCatch hn (s.eng.stroke + 1#64) at_ ratios pdm (timed at_ s)
    refine goes_done rfl (catchUp_finished hfam hp hr at_ ratios pdm) ?_
    generalize runCatch (s.eng.stroke + 1#64) at_ ratios pdm (timed at_ s) = u at hrun hat hcore ⊢
    rw [leaveMode_settled ((congrArg (fun x => x.sys.busy) hrun).trans hb)]
    exact ⟨congrArg Steady.stroke hrun, congrArg Steady.phase hrun, hat, congrArg Steady.now hrun, congrArg Steady.accepted hrun,
      congrArg Steady.crews hrun, congrArg Steady.hold hrun, congrArg Steady.img hrun, congrArg Steady.ovrCount hrun,
      fun n hn => (hcore hn).trans (coreStart_eq (s := strokeOpened (s.eng.stroke + 1#64) (timed at_ s)) hi n (coreAt s n))⟩
end

section
/-! The release order and the system controller step of the boot (R437, R440, R444–R446). -/

namespace Sys2Proof.Machine

/-! ### The release order -/

theorem releaseHeld_iff (s : State) :
    releaseHeld s = true ↔ s.sys.resetN = true ∨ s.sys.tamper = true ∨ s.sys.mode = .dormant ∨ s.sys.mode = .retain := by
  simp [releaseHeld, or_assoc]

/-- A source that holds the domains stops the release after the keel (R437, R439). -/
theorem resetRelease_held {s : State} (hr : 0 < s.sys.rel) (hh : releaseHeld s = true) (x : ReleaseIn) : resetRelease x s = s := by
  unfold resetRelease
  split
  · omega
  all_goals simp [hh]

/-- A domain whose release no source holds (R437): the step that its place in the order runs. -/
theorem resetRelease_free {s : State} (hh : ¬ releaseHeld s = true) (x : ReleaseIn) :
    (s.sys.rel = 1 → resetRelease x s = scStep x.straps s) ∧
    (s.sys.rel = 2 → resetRelease x s = { s with fab := {}, dma := {}, sys := { s.sys with rel := 3 } }) ∧
    (s.sys.rel = 3 → resetRelease x s = memStep x.dramFail.toNat s) ∧
    (s.sys.rel = 4 → s.msvc.clearing ≠ [] → resetRelease x s = s) ∧
    (s.sys.rel = 5 → resetRelease x s = { s with sys := { s.sys with rel := 6 } }) ∧
    (s.sys.rel = 7 → resetRelease x s = portStep s) := by
  refine ⟨fun hr => ?_, fun hr => ?_, fun hr => ?_, fun hr hc => ?_, fun hr => ?_, fun hr => ?_⟩
  · simp only [resetRelease, hr, if_neg hh]
  · simp only [resetRelease, hr, if_neg hh]
  · simp only [resetRelease, hr, if_neg hh]
  · simp [resetRelease, hr, hc]
  · simp only [resetRelease, hr, if_neg hh]
  · simp only [resetRelease, hr, if_neg hh]

/-- The keel is released whatever holds the other domains (R437). -/
theorem resetRelease_keel {s : State} (hr : s.sys.rel = 0) (x : ReleaseIn) : resetRelease x s = keelStep s := by
  simp only [resetRelease, hr]

/-! ### The memories step -/

theorem RecordsOnly.msvc {s t : State} (h : RecordsOnly s t) : t.msvc = s.msvc := h.field State.msvc

/-- Training reports its failure and changes the DRAM controller's state alone (R394). -/
theorem dramTrained_msvc {s : State} (hi : NoInjection s) (step : Nat) : (dramTrained step s).msvc = s.msvc := by
  unfold dramTrained
  dsimp only
  cases hc : step != 0
  · rw [detect_clear hi rfl]
  · rw [detect_found hi rfl]
    exact (report_recordsOnly ..).msvc

theorem dramStep_msvc {s : State} (hi : NoInjection s) (fail : Nat) : (dramStep fail s).msvc = s.msvc := by
  have htrained (d : DramState) : (dramTrained fail { s with dram := d }).msvc = s.msvc :=
    (dramTrained_msvc (s := { s with dram := d }) (fun a b => hi a b) fail).trans rfl
  unfold dramStep
  dsimp only
  split
  · rfl
  · split
    · exact htrained _
    · rfl

/-- Every memory is cleared but after RETAIN (R381, R382). -/
theorem memStep_clearing {s : State} (hi : NoInjection s) (hr : s.sys.retained = false) (fail : Nat) :
    (memStep fail s).msvc.clearing = [.coreProg, .coreData, .crew, .central, .matrix, .portBuf, .geode] := by
  have hstep (m : MemState) : (dramStep fail { loadRepairs s with msvc := m }).msvc = m :=
    (dramStep_msvc (s := { loadRepairs s with msvc := m }) (fun a b => hi a b) fail).trans rfl
  have hr' : (loadRepairs s).sys.retained = false := hr
  unfold memStep
  simp only [hr, hr', Bool.false_eq_true, if_false]
  exact congrArg MemState.clearing (hstep _)

/-! ### The registers a report leaves -/

/-- A listed entry of a table stays when another is set, in whatever order the table lists them. -/
theorem tget_tset_listed {α : Type} [DecidableEq α] {d v : α} {t : Tab α} {i j : Nat} (hj : j ≠ i) (h : tget d t j ≠ d) :
    tget d (tset d t i v) j = tget d t j := by
  induction t with
  | nil => exact absurd rfl h
  | cons e t ih =>
    obtain ⟨k, w⟩ := e
    have hkj : k ≤ j := by
      by_contra hlt
      exact h (by simp [tget, show j ≠ k by omega, show j < k by omega])
    have htail : j ≠ k → tget d ((k, w) :: t) j = tget d t j := fun hne => by
      simp [tget, hne, show ¬ j < k by omega]
    simp only [tset]
    split
    · split
      · rfl
      · simp [tget, hj, show ¬ j < i by omega]
    · split
      · have hne : j ≠ k := by omega
        rw [htail hne]
        split
        · rfl
        · simp [tget, hne, show ¬ j < k by omega]
      · by_cases hne : j = k
        · simp [tget, hne]
        · rw [htail hne, ← ih (htail hne ▸ h)]
          simp [tget, hne, show ¬ j < k by omega]

/-- Every register that is not 0 reads as before, ERR_STAT apart: `KeepsRegs` for a table in any order. -/
structure KeepsSet (s t : State) : Prop where
  reads : ∀ off, off ≠ Reg.ERR_STAT → reg s off ≠ 0#32 → reg t off = reg s off

theorem KeepsSet.of_eq {s t : State} (h : t.regs = s.regs) : KeepsSet s t := ⟨fun off _ _ => by rw [reg, h, reg]⟩

theorem KeepsSet.trans {s t u : State} (h : KeepsSet s t) (h' : KeepsSet t u) : KeepsSet s u :=
  ⟨fun off ho hn => (h'.reads off ho (by rwa [h.reads off ho hn])).trans (h.reads off ho hn)⟩

theorem KeepsSet.orReg {s t : State} (h : KeepsSet s t) (v : Word) : KeepsSet s (orReg Reg.ERR_STAT v t) :=
  h.trans ⟨fun _ ho hn => tget_tset_listed ho hn⟩

theorem collect_keepsSet (i : Nat) (src : BitVec 16) (code : BitVec 12) (sev : Sev) (inj : Bool) (info : Word) (s : State) :
    KeepsSet s (collect i src code sev inj info s) := by
  unfold collect
  dsimp only
  split
  · exact .of_eq rfl
  · repeat' split
    · exact ((KeepsSet.of_eq (by rfl)).orReg _).orReg _
    · exact (KeepsSet.of_eq (by rfl)).orReg _
    · exact (KeepsSet.of_eq (by rfl)).orReg _
    · exact .of_eq rfl

theorem reportI_keepsSet (inj : Bool) (src : BitVec 16) (code : BitVec 12) (sev : Sev) (info : Word) (s : State) :
    KeepsSet s (reportI inj src code sev info s) :=
  reportI_keeps (fun _ _ h => h.trans (collect_keepsSet ..)) (fun t h => h.trans (.of_eq (diagnose_regs t))) (.of_eq rfl)

/-! ### The records of a release -/

/-- The state once the cause of the reset is logged. -/
def causeLogged (s : State) : State := { s with sys := { s.sys with newCause := 0#32 } }

theorem causeLogged_of_none {s : State} (h : s.sys.newCause = 0#32) : causeLogged s = s := by
  unfold causeLogged
  rw [← h]

theorem causeLog_recordsOnly (s : State) : RecordsOnly (causeLogged s) (causeLog s) := by
  unfold causeLog
  split
  case isTrue h =>
    rw [causeLogged_of_none h]
    exact .refl s
  case isFalse => exact report_recordsOnly ..

theorem causeLog_keepsSet (s : State) : KeepsSet s (causeLog s) := by
  unfold causeLog
  split
  · exact .of_eq rfl
  · exact (KeepsSet.of_eq (by rfl)).trans (reportI_keepsSet ..)

/-- The state once a thermal trip and a wipe of the Geode are logged. -/
def tripsLogged (s : State) : State :=
  { s with sys := { s.sys with thermLog := false, thermInj := false }, geode := { s.geode with wipeLog := 0#32 } }

theorem RecordsOnly.tripsLogged {s t : State} (h : RecordsOnly s t) : RecordsOnly (tripsLogged s) (tripsLogged t) :=
  congrArg Machine.tripsLogged h

theorem RecordsOnly.causeLogged {s t : State} (h : RecordsOnly s t) : RecordsOnly (causeLogged s) (causeLogged t) :=
  congrArg Machine.causeLogged h

/-- The records of a thermal trip and of a wipe (R390, R428). -/
def tripRecords (s : State) : State :=
  let s := if s.sys.thermLog then reportI s.sys.thermInj powSrc 0x806#12 .fatal 0#32 s else s
  if s.geode.wipeLog = 0#32 then s else report (sysSrc 2 0) 0xA00#12 .fault s.geode.wipeLog s

theorem releaseLogs_eq (s : State) : releaseLogs s = causeLog (tripsLogged (tripRecords s)) := by
  unfold releaseLogs
  rfl

theorem tripRecords_recordsOnly (s : State) : RecordsOnly s (tripRecords s) := by
  have hwipe (t : State) : RecordsOnly t (if t.geode.wipeLog = 0#32 then t else report (sysSrc 2 0) 0xA00#12 .fault t.geode.wipeLog t) := by
    split
    · exact .refl t
    · exact report_recordsOnly ..
  unfold tripRecords
  dsimp only
  split
  · exact (reportI_recordsOnly ..).trans (hwipe _)
  · exact hwipe s

theorem tripRecords_keepsSet (s : State) : KeepsSet s (tripRecords s) := by
  have hwipe (t : State) : KeepsSet t (if t.geode.wipeLog = 0#32 then t else report (sysSrc 2 0) 0xA00#12 .fault t.geode.wipeLog t) := by
    split
    · exact .of_eq rfl
    · exact reportI_keepsSet ..
  unfold tripRecords
  dsimp only
  split
  · exact (reportI_keepsSet ..).trans (hwipe _)
  · exact hwipe s

theorem releaseLogs_recordsOnly (s : State) : RecordsOnly (causeLogged (tripsLogged s)) (releaseLogs s) := by
  rw [releaseLogs_eq]
  exact (tripRecords_recordsOnly s).tripsLogged.causeLogged.trans (causeLog_recordsOnly _)

theorem releaseLogs_keepsSet (s : State) : KeepsSet s (releaseLogs s) := by
  rw [releaseLogs_eq]
  exact ((tripRecords_keepsSet s).trans (.of_eq (by rfl))).trans (causeLog_keepsSet _)

/-! ### The system controller step -/

/-- The straps of the release are taken and a thermal hold ends. -/
def strapped (x : Straps) (s : State) : State := { s with sys := { s.sys with straps := x, therm := false } }

/-- The state that the checks of the boot ROM read (R445). -/
def romState (x : Straps) (s : State) : State :=
  identity (setReg Reg.RST_BOOT_CFG (flag x.twinEn 31) (releaseLogs (strapped x s)))

/-- The system controller step is over and the boot waits for the firmware. -/
def scDone (s : State) : State :=
  { s with sys := { s.sys with rel := 2, step := 2, result := 0, mode := .recovery, bootHold := true, wait := .firmware } }

/-- The fields of the trim row are loaded, and the release joins the count of RST_FSTART (R446, R452). -/
def trimmed (s : State) : State :=
  setReg Reg.RST_FSTART ((reg s Reg.RST_FSTART &&& 0x700#32) ||| wOf (Nat.min 7 (falseCount s + 1))) (trimLoad s)

/-- A false start is reported (R452). -/
def startJudged (s : State) : State := if falseStart s then report bootSrc 0x901#12 .degrade 0#32 s else s

/-- The system controller step after the straps, the records and the identity. -/
def romStep (s : State) : State :=
  if romResult s = 0 then scDone (trimmed (startJudged s)) else bootFail (romResult s) (scDone (trimmed (startJudged s)))

theorem scStep_eq (x : Straps) (s : State) : scStep x s = romStep (romState x s) := by
  unfold scStep
  rfl

theorem falseStart_of_romResult {s : State} (h : romResult s = 0) : falseStart s = false := by
  unfold romResult at h
  cases hf : falseStart s
  · rfl
  · rw [hf] at h
    contradiction

/-- A boot that no check of the ROM stops goes on to the firmware. -/
theorem romStep_good {s : State} (h : romResult s = 0) : romStep s = scDone (trimmed s) := by
  rw [romStep, if_pos h, startJudged, falseStart_of_romResult h]
  rfl

/-- A good row of options and trim loads registers and reports nothing (R446). -/
theorem trimLoad_good {s : State} (h : trimGood s = true) : ∃ regs, trimLoad s = { s with regs } := by
  unfold trimLoad
  dsimp only
  rw [if_pos h]
  unfold trimPut setReg
  exact ⟨_, rfl⟩

theorem identity_sys (s : State) : (identity s).sys = s.sys := by
  unfold identity
  split <;> rfl

theorem identity_root (s : State) : (identity s).geode.root = s.geode.root := by
  unfold identity
  split <;> rfl

theorem identity_regs (s : State) : (identity s).regs = s.regs := by
  unfold identity
  split <;> rfl

/-- After the system controller step there is an identity key (R389). -/
theorem identity_idKey (s : State) : (identity s).geode.idKey ≠ [] := by
  unfold identity
  split
  case isTrue h => simpa using h
  case isFalse => simp [List.range_succ, leBytes]

/-- The checks of the boot ROM read the straps of the release, and the memory and the root key as it found them. -/
theorem romState_sys (x : Straps) (s : State) : (romState x s).sys = (causeLogged (tripsLogged (strapped x s))).sys :=
  (identity_sys _).trans ((releaseLogs_recordsOnly _).field State.sys)

theorem romState_root (x : Straps) (s : State) : (romState x s).geode.root = s.geode.root :=
  (identity_root _).trans ((releaseLogs_recordsOnly _).field fun t => t.geode.root)

theorem romState_mem (x : Straps) (s : State) : (romState x s).mem = s.mem := by
  have h : kept (romState x s) = kept s := by
    rw [romState, identity_kept, setReg_kept, releaseLogs_kept]
    rfl
  exact congrArg Kept.mem h

theorem romState_falseStart {x : Straps} {s : State} (h : falseStart s = false) : falseStart (romState x s) = false := by
  have hset : reg s Reg.RST_FSTART ≠ 0#32 := fun h0 => by
    rw [falseStart, falseCount, h0] at h
    exact absurd h (by decide)
  have hlogs : reg (releaseLogs (strapped x s)) Reg.RST_FSTART = reg s Reg.RST_FSTART :=
    (releaseLogs_keepsSet (strapped x s)).reads Reg.RST_FSTART (by decide) hset
  have hcfg : reg (setReg Reg.RST_BOOT_CFG (flag x.twinEn 31) (releaseLogs (strapped x s))) Reg.RST_FSTART = reg s Reg.RST_FSTART :=
    (tget_tset_listed (by decide) fun h0 => hset (hlogs.symm.trans h0)).trans hlogs
  have hreg : reg (romState x s) Reg.RST_FSTART = reg s Reg.RST_FSTART := (congrArg (tget 0#32 · _) (identity_regs _)).trans hcfg
  rw [← h, falseStart, falseStart, falseCount, falseCount, hreg]

theorem trimGood_congr {s t : State} (h : t.mem = s.mem) : trimGood t = trimGood s := by
  simp only [trimGood, trimRow, peek, h]

theorem lcNow_congr {s t : State} (h : t.mem = s.mem) : lcNow t = lcNow s := by
  simp only [lcNow, h]

/-- No check of the boot ROM stops the boot (R445). -/
theorem romResult_zero {s : State} (hf : falseStart s = false) (hl : lcNow s < 2) (hb : s.sys.straps.bootSrc ≠ 3#2) (hr : s.geode.root ≠ [])
    (hg : trimGood s = true) : romResult s = 0 := by
  simp [romResult, hf, hb, hr, hg, show ¬ 1 < lcNow s by omega]

/-- Trim that is good touches the registers alone. -/
theorem trimmed_good {s : State} (h : trimGood s = true) : ∃ regs, trimmed s = { s with regs } := by
  obtain ⟨_, htrim⟩ := trimLoad_good h
  unfold trimmed
  rw [htrim]
  exact ⟨_, rfl⟩

/-- The first release of a device with a root key and a good trim row, neither a false start nor in a late lifecycle. -/
theorem scStep_boots {s : State} {x : Straps} (hf : falseStart s = false) (hl : lcNow s < 2) (hb : x.bootSrc ≠ 3#2) (hr : s.geode.root ≠ [])
    (hg : trimGood s = true) :
    (scStep x s).sys = { (causeLogged (tripsLogged (strapped x s))).sys with
      rel := 2, step := 2, result := 0, mode := .recovery, bootHold := true, wait := .firmware } ∧
    (scStep x s).geode.idKey ≠ [] := by
  have hmem := romState_mem x s
  have hg' : trimGood (romState x s) = true := (trimGood_congr hmem).trans hg
  have hzero : romResult (romState x s) = 0 :=
    romResult_zero (romState_falseStart hf) (lcNow_congr hmem ▸ hl) (by rwa [romState_sys]) (romState_root x s ▸ hr) hg'
  obtain ⟨_, htrim⟩ := trimmed_good hg'
  have hkey : (romState x s).geode.idKey ≠ [] := identity_idKey _
  rw [scStep_eq, romStep_good hzero, htrim, ← romState_sys]
  generalize romState x s = u at hkey ⊢
  exact ⟨rfl, hkey⟩

theorem scStep_mem (x : Straps) (s : State) : (scStep x s).mem = s.mem := congrArg Kept.mem (scStep_kept x s)

theorem keelStep_mem (s : State) : (keelStep s).mem = s.mem := congrArg Kept.mem (keelStep_kept s)

end Sys2Proof.Machine
end

section
/-! The loads of a boot and its outcomes (R443, R447–R452). -/

namespace Sys2Proof.Machine

/-! ### A boot that fails -/

/-- The boot ended in RECOVERY with a result, and the memory is `mem` (R445, R455). -/
def BootEnded (mem : List Host.Cell) (result : Nat) (t : State) : Prop :=
  t.sys.step = 15 ∧ t.sys.result = result ∧ t.sys.mode = .recovery ∧ t.sys.wait = .none ∧ t.sys.bootHold = true ∧ t.sys.modeHold = true ∧
    t.sys.busy = none ∧ t.mem = mem

theorem bootError_ended (rec : BitVec 12) (code : Nat) (s : State) : BootEnded s.mem code (bootError rec code s) :=
  ⟨rfl, rfl, rfl, rfl, rfl, rfl, rfl, congrArg Kept.mem (bootError_kept rec code s)⟩

/-- A command that ends the boot; the interrupt vectors that settle after it are not read. -/
theorem goes_ended {i : Instr} {s u t : State} {mem : List Host.Cell} {result : Nat} (he : exec i s = done u) (h : u = t)
    (ht : BootEnded mem result t) : Goes (exec i s) (BootEnded mem result) :=
  goes_done he h ht

/-! ### Firmware and engine image -/

theorem bootReads_mem (ofs n : Nat) (s : State) : (bootReads ofs n s).mem = s.mem := congrArg Kept.mem (bootReads_kept ofs n s)

theorem bootReads_geode (ofs n : Nat) (s : State) : (bootReads ofs n s).geode = s.geode := by
  unfold bootReads
  dsimp only
  split <;> rfl

/-- A boot from flash waits for what the chip fetches (R447, R448). -/
theorem bootReady_flash {s : State} {w : BootWait} (hw : s.sys.wait = w) (hr : 5 ≤ s.sys.rel) (hb : s.sys.straps.bootSrc = 1#2) :
    bootReady w s = true := by
  simp [bootReady, hw, hr, hb]

theorem bootEnv_bytes {s : State} (hb : s.sys.straps.bootSrc = 1#2) (engine : Bool) (b : List Byte) : bootEnv engine (.bytes b) s = some b := by
  simp [bootEnv, hb]

theorem bootEnv_failed {s : State} (hb : s.sys.straps.bootSrc = 1#2) (engine : Bool) : bootEnv engine .failed s = none := by
  simp [bootEnv, hb]

theorem bootReads_sys (ofs n : Nat) (s : State) : (bootReads ofs n s).sys = s.sys := by
  unfold bootReads
  dsimp only
  split <;> rfl

section
variable {s : State} (hw : s.sys.wait = .firmware) (hr : 5 ≤ s.sys.rel) (hb : s.sys.straps.bootSrc = 1#2)
include hw hr hb

/-- Firmware whose envelope opens. -/
theorem firmwareLoad_good {b p : List Byte} (ho : envOpen s.geode.root 1 524288 b = some p) :
    firmwareLoad (.bytes b) s =
      let u := writeBytes (centralAddr 0x780000) p (bootReads 0 b.length s)
      { u with sys := { s.sys with fw := true, fwLen := (b.length + 63) / 64 * 64, step := 4, wait := .engine, go := false } } := by
  unfold firmwareLoad
  simp only [bootReady_flash hw hr hb, bootEnv_bytes hb, bootReads_geode, ho, Bool.not_true, Bool.false_eq_true, if_false]
  rw [writeBytes_sys, bootReads_sys]

theorem firmwareLoad_refused {b : List Byte} (ho : envOpen s.geode.root 1 524288 b = none) :
    firmwareLoad (.bytes b) s = bootError 0x902#12 3 (bootReads 0 b.length s) := by
  unfold firmwareLoad
  simp only [bootReady_flash hw hr hb, bootEnv_bytes hb, bootReads_geode, ho, Bool.not_true, Bool.false_eq_true, if_false]

theorem firmwareLoad_failed : firmwareLoad .failed s = bootError 0x903#12 4 s := by
  unfold firmwareLoad
  simp only [bootReady_flash hw hr hb, bootEnv_failed hb, Bool.not_true, Bool.false_eq_true, if_false]

end

section
variable {s : State} (hw : s.sys.wait = .engine) (hr : 5 ≤ s.sys.rel) (hb : s.sys.straps.bootSrc = 1#2)
include hw hr hb

theorem engineImageLoad_failed : engineImageLoad .failed s = bootError 0x903#12 4 s := by
  unfold engineImageLoad
  simp only [bootReady_flash hw hr hb, bootEnv_failed hb, if_true]

theorem engineImageLoad_bytes (b : List Byte) : engineImageLoad (.bytes b) s = engineTake b (bootReads s.sys.fwLen b.length s) := by
  unfold engineImageLoad
  simp only [bootReady_flash hw hr hb, bootEnv_bytes hb, if_true]

end

/-- No write waits for the image: the late writes change nothing. -/
theorem lateWrites_none {s : State} (h : s.sys.late = []) : lateWrites s = s := by
  unfold lateWrites
  rw [h, List.foldl_nil, ← h]

/-- The image is taken and the boot hold ends (R449). -/
def imageTaken (s : State) : State :=
  { s with sys := { s.sys with wait := .none, bootHold := false, step := 5, result := 0, go := false } }

theorem engineTake_good {b : List Byte} {s : State} (hok : (imageLoad b s).2 = true) (hlate : (imageLoad b s).1.sys.late = []) :
    engineTake b s = imageTaken (imageLoad b s).1 := by
  unfold engineTake
  simp only [hok, lateWrites_none hlate, Bool.not_true, Bool.false_eq_true, if_false]
  rfl

/-! ### The host's wait, the go and the firmware's answer -/

theorem hostTimeout_waiting {s : State} (hw : s.sys.wait ≠ .none) (hb : s.sys.straps.bootSrc = 2#2) (hg : s.sys.go = false) (hr : 5 ≤ s.sys.rel) :
    hostTimeout s = bootError 0x903#12 8 s := by
  simp [hostTimeout, hw, hb, hg, hr]

theorem hostTimeout_gone {s : State} (hg : s.sys.go = true) : hostTimeout s = s := by
  simp [hostTimeout, hg]

theorem bootOk_refused {v : Word} (hv : v ≠ 0x4F4B#32) (m : Master) (ms : Nat) (s : State) : bootOk m v ms s = progError m Reg.SYS_BOOT_OK s :=
  if_pos hv

theorem bootOk_inTime {s : State} {ms : Nat} (h : ms ≤ 10000 ∨ s.sys.mode = .recovery) (m : Master) :
    bootOk m 0x4F4B#32 ms s = setReg Reg.RST_FSTART (reg s Reg.RST_FSTART &&& ~~~7#32) s := by
  rw [bootOk, if_neg (by simp), if_pos h]

theorem bootOk_late {s : State} {ms : Nat} (h : 10000 < ms) (hm : s.sys.mode ≠ .recovery) (m : Master) : bootOk m 0x4F4B#32 ms s = s := by
  rw [bootOk, if_neg (by simp), if_neg (by simp [hm, h])]

end Sys2Proof.Machine
end

section
/-! The engine's release (R42) and O53. -/

namespace Sys2Proof.Machine

/-- What the engine finds at stroke `k` after its release. -/
def steadyBase (k : BitVec 64) (x : Steady) : Steady :=
  { x with
    stroke := k, phase := .waiting, detBase := k, ovrCount := 0, cores := Vector.replicate 128 { run := .asleep }, crews := Vector.replicate 16 {}
    accepted := 0, arm := none, last := k, peerSeen := false, inSync := false }

theorem unitsBase_steady (k : BitVec 64) (s : State) :
    steady (unitsBase k s) = { steady s with
      stroke := k, phase := .waiting, ovrCount := 0, cores := Vector.replicate 128 { run := .asleep }, crews := Vector.replicate 16 {}
      accepted := 0, arm := none, last := k, peerSeen := false } := by
  unfold unitsBase
  rfl

theorem detBaseline_steady (k : BitVec 64) (s : State) : steady (detBaseline k s) = { steady s with detBase := k } := by
  unfold detBaseline
  rfl

theorem finTaken_steady (f : FinView) (s : State) : steady { s with fin := f } = steady s := rfl

theorem baseline_steady (warm : Bool) (k : BitVec 64) (s : State) : steady (baseline warm k s) = steadyBase k (steady s) := by
  have hclear (t : State) (ht : steady t = steady s) :
      steady (opSet (detBaseline k (unitsBase k (patchBase t)))) = { steadyBase k (steady s) with inSync := (steady s).inSync } := by
    rw [opSet_steady, detBaseline_steady, unitsBase_steady, patchBase_steady, ht]
    rfl
  unfold baseline
  dsimp only
  rw [receiptsOwed_steady, syncLost_steady, finTaken_steady, hclear]
  · rfl
  · split
    · exact baseClear_steady s
    · exact (matrixCold_steady _).trans (baseClear_steady s)

/-- The operating mode of an engine that runs (R432). -/
def released (s : State) : State :=
  { s with sys := { s.sys with
      mode := if s.sys.mode = .recovery then runMode s else s.sys.mode
      modeRes := if s.sys.busy.isSome then 1 else s.sys.modeRes, busy := none
      step := 5, result := 0, retained := false, retCopy := none, ramped := false
      rel := if s.sys.rel = 6 then 7 else s.sys.rel } }

theorem engineRelease_held {s : State} (h : engineFree s = false) (t0 : Time) : engineRelease t0 s = s := by
  rw [engineRelease, h]
  rfl

theorem engineRelease_free {s : State} (h : engineFree s = true) (t0 : Time) :
    engineRelease t0 s = released (baseline (s.sys.retained && s.sys.retCopy.isSome)
      (BitVec.ofNat 64 (firstStroke (sps (causeLog (timed t0 s))) t0)) (causeLog (timed t0 s))) := by
  unfold engineRelease released timed
  rw [if_neg (by simp [h])]

theorem sps_congr {s t : State} (h : steady s = steady t) : sps s = sps t := by
  simp only [sps, show s.eng.fam = t.eng.fam from congrArg Steady.fam h]

/-- The mode and the step of the release order after the engine's release, over what the frame layer keeps. -/
theorem released_sys {s t : State} (h : steadySys t.sys = steadySys s.sys) :
    (released t).sys.mode = (if s.sys.mode = .recovery then (if s.sys.straps.twinEn then .shadow else .live) else s.sys.mode) ∧
    (released t).sys.rel = (if s.sys.rel = 6 then 7 else s.sys.rel) := by
  have hmode : t.sys.mode = s.sys.mode := (congrArg SysState.mode h :)
  have hstraps : t.sys.straps = s.sys.straps := (congrArg SysState.straps h :)
  have hrel : t.sys.rel = s.sys.rel := (congrArg SysState.rel h :)
  rw [← hmode, ← hrel, ← hstraps]
  exact ⟨rfl, rfl⟩

/-- The released engine waits for its first stroke, two strokes after the next (R42). -/
theorem engineRelease_runs {s : State} (h : engineFree s = true) (t0 : Time) :
    let t := engineRelease t0 s
    let k := BitVec.ofNat 64 ((t0 * sps s + Time.second - 1) / Time.second + 2)
    t.eng.stroke = k ∧ t.eng.phase = .waiting ∧ t.eng.detBase = k ∧ t.twin.last = k ∧ t.twin.peerSeen = false ∧ t.twin.inSync = false ∧
      t.scene.arm = none ∧ t.sys.busy = none ∧ t.sys.step = 5 ∧ t.sys.retained = false ∧
      t.sys.mode = (if s.sys.mode = .recovery then (if s.sys.straps.twinEn then .shadow else .live) else s.sys.mode) ∧
      t.sys.rel = (if s.sys.rel = 6 then 7 else s.sys.rel) := by
  have htimed : steady (causeLog (timed t0 s)) = { steady s with now := t0 } := (causeLog_steady _).trans rfl
  have hsps : sps (causeLog (timed t0 s)) = sps s := sps_congr (t := timed t0 s) (causeLog_steady _)
  have hbase := baseline_steady (s.sys.retained && s.sys.retCopy.isSome)
    (BitVec.ofNat 64 (firstStroke (sps (causeLog (timed t0 s))) t0)) (causeLog (timed t0 s))
  rw [htimed] at hbase
  rw [engineRelease_free h]
  rw [hsps] at hbase ⊢
  generalize baseline _ _ _ = u at hbase ⊢
  obtain ⟨hmode, hrel⟩ := released_sys (s := s) (t := u) (congrArg Steady.sys hbase)
  exact ⟨congrArg Steady.stroke hbase, congrArg Steady.phase hbase, congrArg Steady.detBase hbase, congrArg Steady.last hbase,
    congrArg Steady.peerSeen hbase, congrArg Steady.inSync hbase, congrArg Steady.arm hbase, rfl, rfl, rfl, hmode, hrel⟩

end Sys2Proof.Machine
end

section
/-! The boot steps (R42, R437, R443, R445–R452, R479). -/

open Sys2Proof Sys2Proof.Machine

/-- Settles O53: each step by the equation of the case that its hypotheses choose. -/
theorem bootSteps : Obligations.BootSteps := by
  intro s hi
  refine ⟨?held, ?keel, ?order, ?firmware, ?image, ?timeout, ?gone, ?go, ?ok, ?engineHeld, ?engine⟩
  case held => exact fun x hr hh => gives_done rfl (resetRelease_held hr ((releaseHeld_iff s).2 hh) x)
  case keel =>
    exact fun x hr => goes_done rfl (resetRelease_keel hr x) ⟨rfl, rfl, keelStep_mem s⟩
  case order =>
    intro x hh
    obtain ⟨hsc, hfabric, hmem, hclear, htime, hport⟩ := resetRelease_free (fun h => hh ((releaseHeld_iff s).1 h)) x
    refine ⟨fun hr => gives_done rfl (hfabric hr), fun hr => gives_done rfl (htime hr), fun hr => goes_done rfl (hport hr) ⟨rfl, rfl⟩,
      fun hr hc => gives_done rfl (hclear hr hc), fun hr hret => goes_done rfl (hmem hr) ⟨rfl, memStep_clearing hi hret _⟩, ?_⟩
    intro hr hf hl hb hroot hg
    obtain ⟨hsys, hkey⟩ := scStep_boots hf hl hb hroot hg
    refine goes_done rfl (hsc hr) ?_
    have hmem := scStep_mem x.straps s
    generalize scStep x.straps s = u at hsys hkey hmem ⊢
    exact ⟨congrArg SysState.rel hsys, congrArg SysState.step hsys, congrArg SysState.mode hsys, congrArg SysState.bootHold hsys,
      congrArg SysState.wait hsys, congrArg SysState.straps hsys, congrArg SysState.newCause hsys, hkey, hmem⟩
  case firmware =>
    intro b hw hr hb
    have hended := bootError_ended 0x902#12 3 (bootReads 0 b.length s)
    rw [bootReads_mem] at hended
    exact ⟨fun p ho => gives_done rfl (firmwareLoad_good hw hr hb ho), fun ho => goes_ended rfl (firmwareLoad_refused hw hr hb ho) hended,
      goes_ended rfl (firmwareLoad_failed hw hr hb) (bootError_ended ..)⟩
  case image =>
    intro b hw hr hb
    refine ⟨goes_ended rfl (engineImageLoad_failed hw hr hb) (bootError_ended ..), fun hok hlate => ?_⟩
    refine goes_done rfl ((engineImageLoad_bytes hw hr hb b).trans (engineTake_good hok hlate)) ?_
    generalize (imageLoad b (bootReads s.sys.fwLen b.length s)).1 = u
    exact ⟨rfl, rfl, rfl, rfl, rfl, rfl⟩
  case timeout => exact fun hw hb hg hr => goes_ended rfl (hostTimeout_waiting hw hb hg hr) (bootError_ended ..)
  case gone => exact fun hg => gives_done rfl (hostTimeout_gone hg)
  case go => exact fun m v => gives_done rfl rfl
  case ok =>
    exact fun m v ms => ⟨fun hv => gives_done rfl (bootOk_refused hv m ms s), fun hv hms => gives_done rfl (hv ▸ bootOk_inTime hms m),
      fun hv hms hm => gives_done rfl (hv ▸ bootOk_late hms hm m)⟩
  case engineHeld => exact fun t0 hf => gives_done rfl (engineRelease_held hf t0)
  case engine =>
    intro t0 hf
    have h := engineRelease_runs hf t0
    refine goes_done rfl rfl ?_
    generalize engineRelease t0 s = u at h ⊢
    exact h
end

section
/-! The results of a compute syllable as the core takes them: its register files, its predicates and its flags (R70, R71, R79, R123). -/

namespace Sys2Proof.Machine

/-! ### Units of a vector -/

/-- Several units of a vector replaced, one after the other. -/
def vputs {α : Type} {n : Nat} (v : Vector α n) (l : List (Nat × α)) : Vector α n := l.foldl (fun v e => vput v e.1 e.2) v

@[simp] theorem vputs_nil {α : Type} {n : Nat} (v : Vector α n) : vputs v [] = v := rfl

@[simp] theorem vputs_cons {α : Type} {n : Nat} (v : Vector α n) (e : Nat × α) (l : List (Nat × α)) :
    vputs v (e :: l) = vputs (vput v e.1 e.2) l := rfl

theorem vget_vputs_ne {α : Type} {n i : Nat} (d : α) (v : Vector α n) {l : List (Nat × α)} (h : ∀ e ∈ l, e.1 ≠ i) :
    vget d (vputs v l) i = vget d v i := by
  induction l generalizing v with
  | nil => rfl
  | cons e l ih =>
    rw [List.forall_mem_cons] at h
    rw [vputs_cons, ih _ h.2, vget_vput_ne _ _ _ h.1]

/-- A unit that one entry of the list names holds that entry's value. -/
theorem vget_vputs_mem {α : Type} {n i : Nat} (d : α) (v : Vector α n) {l : List (Nat × α)} {x : α} (hi : i < n)
    (hl : l.Pairwise fun a b => a.1 ≠ b.1) (h : (i, x) ∈ l) : vget d (vputs v l) i = x := by
  induction l generalizing v with
  | nil => simp at h
  | cons e l ih =>
    rw [List.pairwise_cons] at hl
    rcases List.mem_cons.mp h with rfl | h
    · rw [vputs_cons, vget_vputs_ne _ _ fun b hb => (hl.1 b hb).symm, vget_vput, if_pos hi]
    · exact ih _ hl.2 h

/-! ### Register files -/

theorem rD_setD (k : Core) (i j : Nat) (v : Word) : rD (setD i v k) j = if i % 32 = j % 32 then v else rD k j := by
  by_cases h : i % 32 = j % 32
  · simp [rD, setD, h, Nat.mod_lt]
  · simp [rD, setD, h, vget_vput_ne]

theorem rAcc_setAcc {k : Core} {i j : Nat} {v : BitVec 80} (hi : i < 4) :
    rAcc (setAcc i v k) j = if i = j then v else rAcc k j := by
  by_cases h : i = j
  · subst h; simp [rAcc, setAcc, hi]
  · simp [rAcc, setAcc, h, vget_vput_ne]

@[simp] theorem onward_setAcc (i : Nat) (v : BitVec 80) (k : Core) : (setAcc i v k).onward = setAcc i v k.onward := rfl

@[simp] theorem onward_setA (i : Nat) (v : BitVec 24) (k : Core) : (setA i v k).onward = setA i v k.onward := rfl

/-- A predicate that is written reads the value, but for P0 (R71). -/
theorem rP_setP {k : Core} {i j : Nat} {v : Bool} (hi : i < 8) (hj : j < 8) :
    rP (setP i v k) j = if j = 0 then true else if j = i then v else rP k j := by
  by_cases h0 : j = 0
  · simp [rP, h0]
  · have hbit : (BitVec.ofNat 8 (2 ^ i)).getLsbD j = decide (i = j) := by
      rw [BitVec.getLsbD_ofNat, Nat.testBit_two_pow, decide_eq_true hj, Bool.true_and]
    have hrp (k : Core) : rP k j = k.p.getLsbD j := by simp [rP, h0]
    generalize hm : BitVec.ofNat 8 (2 ^ i) = m at hbit
    rw [if_neg h0, hrp, hrp, setP, hm]
    by_cases hi0 : i = 0
    · rw [if_pos hi0, if_neg (by omega)]
    · rw [if_neg hi0]
      by_cases hji : j = i
      · subst hji
        cases v <;> simp [-BitVec.getLsbD_eq_getElem, hbit, hj]
      · cases v <;> simp [-BitVec.getLsbD_eq_getElem, hbit, hj, hji, Ne.symm hji]

/-! ### The core after a syllable's results -/

/-- The core with the results of a compute syllable that writes no control register. -/
def withResult (r : CRes) (k : Core) : Core :=
  { k with
    d := vputs k.d (r.dw.map fun e => (e.1 % 32, e.2))
    acc := vputs k.acc r.accw
    p := match r.pw with
      | some e => (setP e.1 e.2 k).p
      | none => k.p
    stat := k.stat ||| r.sat.zeroExtend 32 ||| r.aov.zeroExtend 32 <<< 4
    bxd := r.track.foldl (fun b v => b ||| signFold v) k.bxd }

theorem setDs_eq (l : List (Nat × Word)) (k : Core) :
    l.foldl (fun k e => setD e.1 e.2 k) k = { k with d := vputs k.d (l.map fun e => (e.1 % 32, e.2)) } := by
  induction l generalizing k with
  | nil => rfl
  | cons e l ih => exact ih _

theorem setAccs_eq (l : List (Nat × BitVec 80)) (k : Core) :
    l.foldl (fun k e => setAcc e.1 e.2 k) k = { k with acc := vputs k.acc l } := by
  induction l generalizing k with
  | nil => rfl
  | cons e l ih => exact ih _

theorem setP_eq (i : Nat) (v : Bool) (k : Core) : setP i v k = { k with p := (setP i v k).p } := by
  unfold setP
  split <;> rfl

theorem writeC_eq {n : Nat} {r : CRes} {k : Core} (h : r.csrw = none) : writeC n r k = withResult r k := by
  unfold writeC withResult
  simp only [h, setDs_eq, setAccs_eq]
  cases r.pw with
  | none => rfl
  | some e =>
    dsimp only
    unfold setP
    split <;> rfl

theorem onward_withResult (r : CRes) (k : Core) : (withResult r k).onward = withResult r k.onward := by
  unfold withResult
  cases r.pw with
  | none => rfl
  | some e =>
    dsimp only
    unfold setP
    split <;> rfl

theorem legal_of {ok : Bool} {r : CRes} (h : ok = true) : legal ok r = r := by rw [legal, if_pos h]

/-- A compute command whose syllable answers `r`: its core takes the results and moves on (R89, R113). -/
theorem becomes_result {i : Instr} {s : State} {c : CoreId} {op : BitVec 6} {f : CSyl} {x : Word} {g : CIn → CRes} {r : CRes}
    (h : Computes s c f x) (he : exec i s = done (runBundle c.val (mkC op f x) s)) (ho : semOf op.toNat = some g)
    (hr : g { k := coreAt s c.val, n := c.val, f, imm := x } = r) (hi : r.ill = false) (hc : r.ctl = .seq) (hw : r.csrw = none) :
    Becomes i s c (withResult r (coreAt s c.val).onward) := by
  subst hr
  have := becomes_compute _ rfl h he ho hi hc hw
  rwa [writeC_eq hw, onward_withResult] at this

/-- What a state shows in which one core is replaced. -/
theorem Becomes.goes {i : Instr} {s : State} {c : CoreId} {k : Core} {p : State → Prop} (h : Becomes i s c k)
    (hp : ∀ t, coreAt t c.val = k → (∀ n, n ≠ c.val → coreAt t n = coreAt s n) → t.mem = s.mem → t.regs = s.regs → p t) :
    Goes (exec i s) p :=
  ⟨_, h, hp _ (by rw [settle_coreAt, coreAt_putCore c.isLt])
    (fun n hn => by rw [settle_coreAt, coreAt_putCore_ne (Ne.symm hn)]) rfl rfl⟩

@[simp] theorem withResult_dw (d : Nat) (v : Word) (k : Core) : withResult { dw := [(d, v)] } k = setD d v k := by
  simp [withResult, setD]

@[simp] theorem withResult_pw (i : Nat) (v : Bool) (k : Core) : withResult { pw := some (i, v) } k = setP i v k := by
  rw [setP_eq]
  simp [withResult]

/-- The operands as the meanings name them are those of the statements. -/
theorem srcA_eq (k : Core) (n : Nat) (f : CSyl) (x : Word) : srcA { k, n, f, imm := x } = opndA k f := rfl
theorem srcB_eq (k : Core) (n : Nat) (f : CSyl) (x : Word) : srcB { k, n, f, imm := x } = opndB k f x := rfl

end Sys2Proof.Machine
end

section
/-! CMP, PLOG and SEL (R119–R121). -/

namespace Sys2Proof.Machine

/-- A command that writes one predicate: P0 reads 1 all the same, and nothing but the predicates differs (R71). -/
theorem goes_setP {i : Instr} {s : State} {c : CoreId} {d : Nat} {v : Bool} (hd : d < 8)
    (h : Becomes i s c (setP d v (coreAt s c.val).onward)) : Goes (exec i s) fun t =>
      (∀ i, i < 8 → rP (coreAt t c.val) i = if i = 0 then true else if i = d then v else rP (coreAt s c.val) i) ∧
      { coreAt t c.val with p := (coreAt s c.val).p } = (coreAt s c.val).onward ∧ (∀ n, n ≠ c.val → coreAt t n = coreAt s n) ∧
      t.mem = s.mem ∧ t.regs = s.regs := by
  refine h.goes fun t hk ho hm hr => ⟨fun i hi => ?_, ?_, ho, hm, hr⟩
  · rw [hk, rP_setP hd hi]
    rfl
  · rw [hk, setP_eq]
    rfl

theorem plogFn_of_ne {m : Nat} {p q : Bool} (h8 : m < 8) (h7 : m ≠ 7) : plogFn m p q = some
    (if m = 0 then p && q else if m = 1 then p || q else if m = 2 then xor p q else if m = 3 then p && !q
      else if m = 4 then !p else if m = 5 then true else false) := by
  have : m = 0 ∨ m = 1 ∨ m = 2 ∨ m = 3 ∨ m = 4 ∨ m = 5 ∨ m = 6 := by omega
  rcases this with rfl | rfl | rfl | rfl | rfl | rfl | rfl <;> rfl

theorem semPlog_of_fn {i : CIn} {v : Bool}
    (hok : (i.f.shr == 0#3 && decide (i.f.dst.toNat < 8) && decide (i.f.sa.toNat < 8) && decide (i.f.sb.toNat < 8)
      && !i.f.md.getLsbD 3 && !i.f.li) = true)
    (hv : plogFn (i.f.md.toNat % 8) (rP i.k (i.f.sa.toNat % 8)) (rP i.k (i.f.sb.toNat % 8)) = some v) :
    semPlog i = { pw := some (i.f.dst.toNat, v) } := by
  rw [semPlog, hv]
  exact legal_of hok

theorem cmpCond_eq {m : Nat} (a b : Word) (h8 : m < 8) : cmpCond m a b =
    (if m = 0 then decide (a = b) else if m = 1 then decide (a ≠ b) else if m = 2 then decide (a.toInt < b.toInt)
      else if m = 3 then decide (a.toInt ≥ b.toInt) else if m = 4 then decide (a.toInt ≤ b.toInt) else if m = 5 then decide (a.toInt > b.toInt)
      else if m = 6 then decide (a.toNat < b.toNat) else decide (a.toNat ≥ b.toNat)) := by
  have : m = 0 ∨ m = 1 ∨ m = 2 ∨ m = 3 ∨ m = 4 ∨ m = 5 ∨ m = 6 ∨ m = 7 := by omega
  rw [Bool.eq_iff_iff]
  rcases this with rfl | rfl | rfl | rfl | rfl | rfl | rfl | rfl <;> simp [cmpCond, BitVec.slt, BitVec.sle, BitVec.ult]

/-- MOD without its bit 3 is a number below 8. -/
theorem md_lt_eight {md : BitVec 4} (h : md.getLsbD 3 = false) : md.toNat < 8 := by
  have : md.toNat.testBit 3 = false := h
  rw [Nat.testBit_eq_decide_div_mod_eq] at this
  have := md.isLt
  simp at *
  omega

end Sys2Proof.Machine
end

section
/-! Predicates written and read (R71, R119–R121). -/

open Sys2Proof Sys2Proof.Machine

/-- Settles O2: each of the three answers one result, and the predicate file takes it. -/
theorem predicateResults : Obligations.PredicateResults := by
  intro c f x s h hshr hmd
  have hm := md_lt_eight hmd
  refine ⟨fun hd => ?cmp, fun hd ha hb hli h7 => ?plog, fun hli => ?sel⟩
  case cmp =>
    have hr : semCmp { k := coreAt s c.val, n := c.val, f, imm := x } =
        { pw := some (f.dst.toNat, cmpCond f.md.toNat (opndA (coreAt s c.val) f) (opndB (coreAt s c.val) f x)) } := by
      rw [semCmp, legal_of (by simpa [hshr, hd] using hmd), Nat.mod_eq_of_lt hm, srcA_eq, srcB_eq]
    have hb := becomes_result h (i := .cmp c f x) rfl rfl hr rfl rfl rfl
    rw [withResult_pw, cmpCond_eq _ _ hm] at hb
    exact goes_setP hd hb
  case plog =>
    have hr := semPlog_of_fn (i := { k := coreAt s c.val, n := c.val, f, imm := x })
      (by simpa [hshr, hd, ha, hb, hli] using hmd)
      (by rw [Nat.mod_eq_of_lt hm, Nat.mod_eq_of_lt ha, Nat.mod_eq_of_lt hb, plogFn_of_ne hm h7])
    have hb := becomes_result h (i := .plog c f x) rfl rfl hr rfl rfl rfl
    rw [withResult_pw] at hb
    exact goes_setP hd hb
  case sel =>
    have hr : semSel { k := coreAt s c.val, n := c.val, f, imm := x } = { dw := [(f.dst.toNat,
        if rP (coreAt s c.val) f.md.toNat then opndA (coreAt s c.val) f else rD (coreAt s c.val) f.sb.toNat)] } := by
      rw [semSel, legal_of (by simpa [hshr, hli] using hmd), Nat.mod_eq_of_lt hm, srcA_eq]
      rfl
    have hb := becomes_result h (i := .sel c f x) rfl rfl hr rfl rfl rfl
    rwa [withResult_dw] at hb
end

section
/-! The lanes of a multiply and of an accumulator move: registers by lane, flags by lane, saturation (R74–R79, R123). -/

namespace Sys2Proof.Machine

/-! ### Lanes of a mask -/

/-- The lanes that a mask names. -/
def lanes (md : BitVec 4) : List Nat := (List.range 4).filter fun j => md.getLsbD j

theorem lanesOn_eq (f : CSyl) : lanesOn f = lanes f.md := rfl

theorem range_four_eq_lanes : List.range 4 = lanes 15#4 := by decide

theorem mem_lanes {md : BitVec 4} {j : Nat} : j ∈ lanes md ↔ j < 4 ∧ md.getLsbD j = true := by
  simp [lanes]

theorem lanes_pairwise (md : BitVec 4) : (lanes md).Pairwise (· < ·) := List.pairwise_lt_range.filter _

/-- What a fold of ORs over lanes gives: the bits of its start, and those that a lane sets. -/
theorem getLsbD_foldl_or {α : Type} {w : Nat} (l : List α) (g : α → BitVec w) (b : BitVec w) (i : Nat) :
    (l.foldl (fun b j => b ||| g j) b).getLsbD i = (b.getLsbD i || l.any fun j => (g j).getLsbD i) := by
  induction l generalizing b with
  | nil => simp
  | cons j l ih => rw [List.foldl_cons, ih, BitVec.getLsbD_or, List.any_cons, Bool.or_assoc]

theorem getLsbD_laneBit {n i : Nat} {b : Bool} (hi : i < 4) : (laneBit n b).getLsbD i = (b && decide (n = i)) := by
  cases b with
  | false => simp [laneBit]
  | true =>
    rw [laneBit, if_pos rfl, BitVec.getLsbD_ofNat, Nat.testBit_two_pow, decide_eq_true hi]

/-- Lane flags gathered over a mask: lane i's is set where the mask names it and its own condition holds. -/
theorem getLsbD_laneBits (md : BitVec 4) (x : Nat → Bool) {i : Nat} (hi : i < 4) :
    ((lanes md).foldl (fun b j => b ||| laneBit j (x j)) 0#4).getLsbD i = (md.getLsbD i && x i) := by
  rw [getLsbD_foldl_or, BitVec.getLsbD_zero, Bool.false_or, Bool.eq_iff_iff, List.any_eq_true, Bool.and_eq_true]
  constructor
  · rintro ⟨j, hj, h⟩
    obtain ⟨_, hmd⟩ := mem_lanes.mp hj
    rw [getLsbD_laneBit hi, Bool.and_eq_true, decide_eq_true_eq] at h
    obtain ⟨hx, rfl⟩ := h
    exact ⟨hmd, hx⟩
  · rintro ⟨hmd, hx⟩
    exact ⟨i, mem_lanes.mpr ⟨hi, hmd⟩, by simp [getLsbD_laneBit hi, hx]⟩

/-! ### Registers by lane -/

/-- Lane results written to D registers from `d` on (R70). -/
theorem lanesTo_vputs {k t : Core} {d : Nat} {md : BitVec 4} {v : Nat → Word}
    (h : t.d = vputs k.d (((lanes md).map fun j => (d + j, v j)).map fun e => (e.1 % 32, e.2))) : LanesTo k t d md v := by
  rw [List.map_map] at h
  constructor
  · intro j hj hmd
    rw [rD, h]
    refine vget_vputs_mem _ _ (Nat.mod_lt _ (by omega)) (List.pairwise_map.mpr ?_)
      (List.mem_map.mpr ⟨j, mem_lanes.mpr ⟨hj, hmd⟩, rfl⟩)
    refine (lanes_pairwise md).imp_of_mem fun ha hb hab => ?_
    have := (mem_lanes.mp hb).1
    simp only [Function.comp_apply]
    omega
  · intro r hr hne
    rw [rD, rD, h, vget_vputs_ne]
    intro e he
    obtain ⟨j, hj, rfl⟩ := List.mem_map.mp he
    obtain ⟨hj4, hmd⟩ := mem_lanes.mp hj
    rw [Nat.mod_eq_of_lt hr]
    exact hne j hj4 hmd

/-- Lane results written to the accumulators. -/
theorem rAcc_vputs {k t : Core} {md : BitVec 4} {v : Nat → BitVec 80} (h : t.acc = vputs k.acc ((lanes md).map fun j => (j, v j)))
    {j : Nat} (hj : j < 4) : rAcc t j = if md.getLsbD j then v j else rAcc k j := by
  rw [rAcc, rAcc, h]
  split
  case isTrue hmd =>
    exact vget_vputs_mem _ _ hj (List.pairwise_map.mpr ((lanes_pairwise md).imp fun h => Nat.ne_of_lt h))
      (List.mem_map.mpr ⟨j, mem_lanes.mpr ⟨hj, hmd⟩, rfl⟩)
  case isFalse hmd =>
    refine vget_vputs_ne _ _ fun e he => ?_
    obtain ⟨i, hi, rfl⟩ := List.mem_map.mp he
    rintro rfl
    exact hmd (mem_lanes.mp hi).2

/-! ### Flags by lane -/

theorem withResult_sat_stat (sat : BitVec 4) (k : Core) : (withResult { sat } k).stat = k.stat ||| sat.zeroExtend 32 := by
  simp [withResult]

theorem flagsTo_sat {k t : Core} {sat : BitVec 4} {b : Nat → Bool} (ht : t.stat = (withResult { sat } k).stat)
    (hb : ∀ j, j < 4 → sat.getLsbD j = b j) : FlagsTo k t 0 b := by
  have hstat := ht.trans (withResult_sat_stat sat k)
  constructor
  · intro j hj
    rw [bitAt, hstat, BitVec.getLsbD_or, BitVec.getLsbD_setWidth, Nat.zero_add, hb j hj, decide_eq_true (by omega), Bool.true_and, bitAt]
  · intro i hi hlo
    have hge : sat.getLsbD i = false := BitVec.getLsbD_of_ge _ _ (by omega)
    rw [bitAt, hstat, BitVec.getLsbD_or, BitVec.getLsbD_setWidth, hge, Bool.and_false, Bool.or_false, bitAt]

theorem flagsTo_aov {k t : Core} {aov : BitVec 4} {b : Nat → Bool} (ht : t.stat = (withResult { aov } k).stat)
    (hb : ∀ j, j < 4 → aov.getLsbD j = b j) : FlagsTo k t 4 b := by
  have hstat : t.stat = k.stat ||| aov.zeroExtend 32 <<< 4 := by simpa [withResult] using ht
  have hbit (i : Nat) (hi : i < 32) : bitAt t.stat i = (bitAt k.stat i || (decide (4 ≤ i) && aov.getLsbD (i - 4))) := by
    rw [bitAt, hstat, BitVec.getLsbD_or, BitVec.getLsbD_shiftLeft, BitVec.getLsbD_setWidth, bitAt]
    by_cases h : 4 ≤ i
    · simp [hi, h, show i - 4 < 32 by omega, show ¬ i < 4 by omega]
    · simp [hi, h, show i < 4 by omega]
  constructor
  · intro j hj
    rw [hbit _ (by omega), Nat.add_sub_cancel_left, hb j hj, decide_eq_true (by omega), Bool.true_and]
  · intro i hi hlo
    rw [hbit i hi]
    by_cases h : 4 ≤ i
    · rw [BitVec.getLsbD_of_ge _ _ (by omega), Bool.and_false, Bool.or_false]
    · simp [h]

/-! ### Saturation -/

/-- The 80-bit saturation of an exact sum (R76). -/
def clip80 (z : Int) : BitVec 80 := BitVec.ofInt 80 (max (-2 ^ 79) (min (2 ^ 79 - 1) z))

/-- The sum does not fit into 80 bits. -/
def over80 (z : Int) : Bool := decide (z < -2 ^ 79) || decide (2 ^ 79 - 1 < z)

theorem sat80_eq (z : Int) (n : Nat) : sat80 z n = (clip80 z, laneBit n (over80 z)) := by
  unfold sat80 clip80 over80
  by_cases hhi : 2 ^ 79 - 1 < z
  · have hlo : ¬ z < -2 ^ 79 := by omega
    rw [if_pos hhi, min_eq_left (by omega), max_eq_right (by omega), decide_eq_true hhi, decide_eq_false hlo]
    rfl
  · by_cases hlo : z < -2 ^ 79
    · rw [if_neg hhi, if_pos hlo, min_eq_right (by omega), max_eq_left (by omega), decide_eq_false hhi, decide_eq_true hlo]
      rfl
    · rw [if_neg hhi, if_neg hlo, min_eq_right (by omega), max_eq_right (by omega), decide_eq_false hhi, decide_eq_false hlo]
      rfl

/-- −1 × −1 is the only product whose move saturates (R78). -/
theorem sat32_product (a b : Word) :
    (sat32 (a.toInt * b.toInt / 2 ^ 31)).2 = (a == 0x80000000#32 && b == 0x80000000#32) := by
  have ha := BitVec.le_toInt a
  have ha' := BitVec.toInt_lt (x := a)
  have hb := BitVec.le_toInt b
  have hb' := BitVec.toInt_lt (x := b)
  have hmin (x : Word) : x = 0x80000000#32 ↔ x.toInt = -2147483648 := by
    rw [← BitVec.toInt_inj]
    rfl
  rw [Bool.eq_iff_iff, Bool.and_eq_true, beq_iff_eq, beq_iff_eq, hmin, hmin]
  norm_num at ha ha' hb hb' ⊢
  generalize a.toInt = x at *
  generalize b.toInt = y at *
  have hlow : -(2147483648 * 2147483648) ≤ x * y := by nlinarith
  have hiff : 4611686018427387904 ≤ x * y ↔ x = -2147483648 ∧ y = -2147483648 := by
    constructor
    · intro h
      constructor <;> nlinarith
    · rintro ⟨rfl, rfl⟩
      norm_num
  rw [← hiff, sat32]
  split
  · simp; omega
  · split
    · simp; omega
    · simp; omega

end Sys2Proof.Machine
end

section
/-! Multiplies and multiply-accumulates (R74–R78, R123, R126). -/

namespace Sys2Proof.Machine

theorem opA_eq (k : Core) (n : Nat) (f : CSyl) (x : Word) (j : Nat) : opA { k, n, f, imm := x } j = laneA k f j := rfl
theorem opB_eq (k : Core) (n : Nat) (f : CSyl) (x : Word) (j : Nat) : opB { k, n, f, imm := x } j = laneB k f j := rfl
theorem prodOf_eq (k : Core) (n : Nat) (f : CSyl) (x : Word) : prodOf { k, n, f, imm := x } = laneProd k f := rfl

theorem okShr4_of {f : CSyl} (h : f.shr.toNat < 4) (hli : f.li = false) : okShr4 f = true := by simp [okShr4, h, hli]
theorem okShr5_of {f : CSyl} (h : f.shr.toNat < 5) (hli : f.li = false) : okShr5 f = true := by simp [okShr5, h, hli]

theorem withResult_dws (l : List (Nat × Word)) (k : Core) :
    withResult { dw := l } k = { k with d := vputs k.d (l.map fun e => (e.1 % 32, e.2)) } := by simp [withResult]

/-- The results of an accumulate whose lane j adds `t j` (R76). -/
def accumRes (k : Core) (md : BitVec 4) (t : Nat → Int) : CRes :=
  { accw := (lanes md).map fun j => (j, clip80 ((rAcc k j).toInt + t j))
    aov := (lanes md).foldl (fun b j => b ||| laneBit j (over80 ((rAcc k j).toInt + t j))) 0#4 }

theorem accum_eq (k : Core) (n : Nat) (f : CSyl) (x : Word) (t : Nat → Int) :
    accum { k, n, f, imm := x } t = accumRes k f.md t := by
  simp only [accum, accumRes, sat80_eq, lanesOn_eq]

/-- A command that writes accumulators of the enabled lanes and the AOV bits (R76, R123). -/
theorem goes_lanes {i : Instr} {s : State} {c : CoreId} {md : BitVec 4} {v : Nat → BitVec 80} {aov : BitVec 4} {ov : Nat → Bool}
    (h : Becomes i s c (withResult { accw := (lanes md).map fun j => (j, v j), aov } (coreAt s c.val).onward))
    (hov : ∀ j, j < 4 → aov.getLsbD j = (md.getLsbD j && ov j)) : Goes (exec i s) fun t =>
      (∀ j, j < 4 → rAcc (coreAt t c.val) j = if md.getLsbD j then v j else rAcc (coreAt s c.val) j) ∧
      FlagsTo (coreAt s c.val) (coreAt t c.val) 4 (fun j => md.getLsbD j && ov j) ∧
      { coreAt t c.val with acc := (coreAt s c.val).acc, stat := (coreAt s c.val).stat } = (coreAt s c.val).onward ∧ t.mem = s.mem := by
  refine h.goes fun t hk _ hm _ => ⟨fun j hj => ?_, flagsTo_aov ?_ hov, ?_, hm⟩
  · exact rAcc_vputs (by rw [hk]; rfl) hj
  · rw [hk]
    rfl
  · rw [hk]
    rfl

/-- The same for a command that sets no AOV bit. -/
theorem goes_lanes_exact {i : Instr} {s : State} {c : CoreId} {md : BitVec 4} {v : Nat → BitVec 80}
    (h : Becomes i s c (withResult { accw := (lanes md).map fun j => (j, v j) } (coreAt s c.val).onward)) : Goes (exec i s) fun t =>
      (∀ j, j < 4 → rAcc (coreAt t c.val) j = if md.getLsbD j then v j else rAcc (coreAt s c.val) j) ∧
      FlagsTo (coreAt s c.val) (coreAt t c.val) 4 (fun j => md.getLsbD j && false) ∧
      { coreAt t c.val with acc := (coreAt s c.val).acc, stat := (coreAt s c.val).stat } = (coreAt s c.val).onward ∧ t.mem = s.mem :=
  goes_lanes h fun j _ => by simp

end Sys2Proof.Machine
end

section
/-! Products to data registers (R75, R78, R123). -/

open Sys2Proof Sys2Proof.Machine

/-- Settles O3: the lanes of the mask write their products, and SAT follows the one product that does not fit. -/
theorem multiplyResults : Obligations.MultiplyResults := by
  intro c f x s h hshr hli
  have hok := okShr4_of hshr hli
  refine ⟨?mpy, ?mpyi⟩
  case mpy =>
    have hr : semMpy { k := coreAt s c.val, n := c.val, f, imm := x } =
        { dw := (lanes f.md).map fun j => (f.dst.toNat + j, (sat32 (laneProd (coreAt s c.val) f j / 2 ^ 31)).1)
          sat := (lanes f.md).foldl (fun b j => b ||| laneBit j (sat32 (laneProd (coreAt s c.val) f j / 2 ^ 31)).2) 0#4 } := by
      rw [semMpy, legal_of hok]
      simp [accMove, satLane, shiftBy, sra, lanesOn_eq, prodOf_eq]
    refine (becomes_result h (i := .mpy c f x) rfl rfl hr rfl rfl rfl).goes fun t hk _ hm _ =>
      ⟨lanesTo_vputs (by rw [hk]; rfl), flagsTo_sat (by rw [hk]; rfl) fun j hj => ?_, by rw [hk]; rfl, hm⟩
    rw [getLsbD_laneBits _ _ hj, laneProd, sat32_product, Bool.and_assoc]
  case mpyi =>
    have hr : semMpyi { k := coreAt s c.val, n := c.val, f, imm := x } =
        { dw := (lanes f.md).map fun j => (f.dst.toNat + j, laneA (coreAt s c.val) f j * laneB (coreAt s c.val) f j) } := by
      rw [semMpyi, legal_of hok]
      simp only [lanesOn_eq, prodOf_eq, laneProd, wInt, BitVec.ofInt_mul, BitVec.ofInt_toInt]
    exact (becomes_result h (i := .mpyi c f x) rfl rfl hr rfl rfl rfl).goes fun t hk _ hm _ =>
      ⟨lanesTo_vputs (by rw [hk]; rfl), by rw [hk, withResult_dws]; rfl, hm⟩
end

section
/-! Accumulators (R76, R123, R126). -/

open Sys2Proof Sys2Proof.Machine

/-- Settles O4: each command's lanes are one list of accumulator writes, and the AOV bits are gathered over the same lanes. -/
theorem accumulateResults : Obligations.AccumulateResults := by
  intro c f x s h hli hdst
  have gathered (t : Nat → Int) (j : Nat) (hj : j < 4) := getLsbD_laneBits f.md (fun j => over80 ((rAcc (coreAt s c.val) j).toInt + t j)) hj
  refine ⟨fun hshr => ?mpa, fun hshr => ?mac, fun hshr => ?msu, fun hshr => ?macsu, fun hshr hsa hsb => ?clra⟩
  case mpa =>
    have hr : semMpa { k := coreAt s c.val, n := c.val, f, imm := x } =
        { accw := (lanes f.md).map fun j => (j, BitVec.ofInt 80 (laneProd (coreAt s c.val) f j)) } := by
      rw [semMpa, legal_of (by simp [okShr5_of hshr hli, hdst])]
      rfl
    exact goes_lanes_exact (becomes_result h (i := .mpa c f x) rfl rfl hr rfl rfl rfl)
  case mac =>
    have hr : semMac { k := coreAt s c.val, n := c.val, f, imm := x } = accumRes (coreAt s c.val) f.md (laneProd (coreAt s c.val) f) := by
      rw [semMac, legal_of (by simp [okShr5_of hshr hli, hdst]), accum_eq, prodOf_eq]
    exact goes_lanes (becomes_result h (i := .mac c f x) rfl rfl hr rfl rfl rfl) (gathered _)
  case msu =>
    have hr : semMsu { k := coreAt s c.val, n := c.val, f, imm := x } =
        accumRes (coreAt s c.val) f.md fun j => -laneProd (coreAt s c.val) f j := by
      rw [semMsu, legal_of (by simp [okShr5_of hshr hli, hdst]), accum_eq, prodOf_eq]
    exact goes_lanes (becomes_result h (i := .msu c f x) rfl rfl hr rfl rfl rfl) (gathered _)
  case macsu =>
    have hr : semMacsu { k := coreAt s c.val, n := c.val, f, imm := x } = accumRes (coreAt s c.val) f.md
        fun j => (laneA (coreAt s c.val) f j).toInt * ((laneB (coreAt s c.val) f j).toNat : Int) / 2 := by
      rw [semMacsu, legal_of (by simp [okShr4_of hshr hli, hdst]), accum_eq]
      rfl
    exact goes_lanes (becomes_result h (i := .macsu c f x) rfl rfl hr rfl rfl rfl) (gathered _)
  case clra =>
    have hr : semClra { k := coreAt s c.val, n := c.val, f, imm := x } = { accw := (lanes f.md).map fun j => (j, 0#80) } := by
      rw [semClra, legal_of (by simp [hshr, hli, hdst, hsa, hsb])]
      rfl
    exact goes_lanes_exact (becomes_result h (i := .clra c f x) rfl rfl hr rfl rfl rfl)
end

section
/-! Moves between accumulators and data registers (R77, R80–R82, R125–R127). -/

namespace Sys2Proof.Machine

/-! ### Words and flags -/

theorem laneBit_sat (n : Fin 4) (b : Bool) : (laneBit n.val b).zeroExtend 32 = flag b n.val := by
  revert n b
  decide

theorem laneBit_aov (n : Fin 4) (b : Bool) : (laneBit n.val b).zeroExtend 32 <<< 4 = flag b (4 + n.val) := by
  revert n b
  decide

/-- One accumulator written with its AOV bit (R76, R79). -/
theorem withResult_acc (n : Nat) (hn : n < 4) (v : BitVec 80) (b : Bool) (k : Core) :
    withResult { accw := [(n, v)], aov := laneBit n b } k = { setAcc n v k with stat := k.stat ||| flag b (4 + n) } := by
  have := laneBit_aov ⟨n, hn⟩ b
  simp only at this
  simp [withResult, setAcc, this]

theorem withResult_accw (n : Nat) (v : BitVec 80) (k : Core) : withResult { accw := [(n, v)] } k = setAcc n v k := by
  simp [withResult, setAcc]

/-! ### The length of a number -/

theorem bitlen_le {n w : Nat} (h : n < 2 ^ w) : bitlen n ≤ w := by
  unfold bitlen
  split
  · omega
  · next h0 => exact (Nat.log2_lt h0).mpr h

theorem testBit_of_bitlen_le {n i : Nat} (h : bitlen n ≤ i) : n.testBit i = false := by
  unfold bitlen at h
  split at h
  · next h0 => simp [h0]
  · exact Nat.testBit_lt_two_pow (lt_of_lt_of_le Nat.lt_log2_self (Nat.pow_le_pow_right (by omega) h))

theorem testBit_bitlen {n : Nat} (h : 0 < bitlen n) : n.testBit (bitlen n - 1) = true := by
  unfold bitlen at h ⊢
  split
  · next h0 => simp [h0] at h
  · next h0 => exact Nat.testBit_log2 h0

/-! ### Moves -/

/-- The whole shift of a move (R77, R80): a crew lead adds the SCALE field of the class. -/
def wholeShift (k : Core) (n : Nat) (f : CSyl) : Int :=
  f.sa.toInt + (if n % 8 = 0 then (k.scale.extractLsb' (8 * (f.md.toNat / 4)) 5).toInt else 0)

/-- The exact value that a move of accumulator `j` saturates (R77). -/
def movedInt (k : Core) (n : Nat) (f : CSyl) (j : Nat) : Int :=
  (if 0 ≤ wholeShift k n f then (rAcc k j).toInt * 2 ^ (wholeShift k n f).toNat
    else (rAcc k j).toInt / 2 ^ (-wholeShift k n f).toNat) / 2 ^ 31

theorem moveShift_eq (k : Core) (n : Nat) (f : CSyl) (x : Word) : moveShift { k, n, f, imm := x } = wholeShift k n f := by
  simp [moveShift, wholeShift, isLead, sh5, scaleField]

theorem accMove_eq (k : Core) (n : Nat) (f : CSyl) (j m : Nat) : accMove (rAcc k j).toInt (wholeShift k n f) m =
    ⟨(sat32 (movedInt k n f j)).1, laneBit m (sat32 (movedInt k n f j)).2⟩ := rfl

/-- What a moved word adds to BXD while STAT.BXE is set (R81). -/
def tracked (k : Core) (y : Word) : Word := if bitAt k.stat 20 then y ^^^ y.sshiftRight 31 else 0#32

theorem foldl_track (k : Core) (l : List Word) (b : Word) :
    (if bxe k then l else []).foldl (fun b v => b ||| signFold v) b = l.foldl (fun b v => b ||| tracked k v) b := by
  unfold tracked bxe
  split
  · rfl
  · next h =>
    induction l generalizing b with
    | nil => rfl
    | cons v l ih => simp

/-- The core that takes a list of accumulator moves to data registers. -/
theorem withResult_accMoves (k u : Core) (n : Nat) (f : CSyl) (x : Word) (l : List (Nat × Nat)) :
    withResult (accMoves { k, n, f, imm := x } l) u =
      { u with
        d := vputs u.d (l.map fun p => (p.1 % 32, (sat32 (movedInt k n f p.2)).1))
        stat := u.stat ||| (l.foldl (fun b p => b ||| laneBit p.2 (sat32 (movedInt k n f p.2)).2) 0#4).zeroExtend 32
        bxd := l.foldl (fun b p => b ||| tracked k (sat32 (movedInt k n f p.2)).1) u.bxd } := by
  simp [withResult, accMoves, moveShift_eq, accMove_eq, foldl_track, List.foldl_map, Function.comp_def]

/-- A move of all four accumulators (R125): their words, their SAT bits, and what BXD tracks. -/
theorem goes_accMoves {i : Instr} {s : State} {c : CoreId} {f : CSyl} {x : Word}
    (h : Becomes i s c (withResult (accMoves { k := coreAt s c.val, n := c.val, f, imm := x }
      ((lanes 15#4).map fun j => (f.dst.toNat + j, j))) (coreAt s c.val).onward)) : Goes (exec i s) fun t =>
      LanesTo (coreAt s c.val) (coreAt t c.val) f.dst.toNat 15#4 (fun j => (sat32 (movedInt (coreAt s c.val) c.val f j)).1) ∧
      FlagsTo (coreAt s c.val) (coreAt t c.val) 0 (fun j => (sat32 (movedInt (coreAt s c.val) c.val f j)).2) ∧
      (coreAt t c.val).bxd = (List.range 4).foldl
        (fun b j => b ||| tracked (coreAt s c.val) (sat32 (movedInt (coreAt s c.val) c.val f j)).1) (coreAt s c.val).bxd ∧
      { coreAt t c.val with d := (coreAt s c.val).d, stat := (coreAt s c.val).stat, bxd := (coreAt s c.val).bxd } =
        (coreAt s c.val).onward ∧ t.mem = s.mem := by
  have hsat (j : Nat) (hj : j < 4) := getLsbD_laneBits 15#4 (fun j => (sat32 (movedInt (coreAt s c.val) c.val f j)).2) hj
  have hon (j : Nat) (hj : j < 4) : (15#4).getLsbD j = true := (mem_lanes.mp (range_four_eq_lanes ▸ List.mem_range.mpr hj)).2
  rw [withResult_accMoves, List.map_map, List.foldl_map, List.foldl_map] at h
  refine h.goes fun t hk _ hm _ => ⟨lanesTo_vputs ?words,
    flagsTo_sat (sat := (lanes 15#4).foldl (fun b j => b ||| laneBit j (sat32 (movedInt (coreAt s c.val) c.val f j)).2) 0#4)
      ?stat fun j hj => ?flags, ?tracked, ?rest, hm⟩
  case words => rw [hk, List.map_map]; rfl
  case stat => rw [hk, withResult_sat_stat]; rfl
  case flags => rw [hsat j hj, hon j hj, Bool.true_and]
  case tracked => rw [hk, range_four_eq_lanes]; rfl
  case rest => rw [hk]; rfl

/-- The sum or difference of two accumulators that ACMB saturates (R126). -/
def combined (k : Core) (f : CSyl) : Int :=
  if f.md = 1#4 then (rAcc k f.sa.toNat).toInt - (rAcc k f.sb.toNat).toInt else (rAcc k f.sa.toNat).toInt + (rAcc k f.sb.toNat).toInt

/-! ### The parts of an accumulator -/

/-- The part of an accumulator that MVAR reads (R126). -/
def accPart (x : BitVec 80) (part : Nat) : Word :=
  if part = 0 then x.extractLsb' 0 32 else if part = 1 then x.extractLsb' 32 32 else (x.extractLsb' 64 16).signExtend 32

theorem accPart_eq_match (x : BitVec 80) (part : Nat) : (match part with
    | 0 => x.extractLsb' 0 32
    | 1 => x.extractLsb' 32 32
    | _ => (x.extractLsb' 64 16).signExtend 32 : Word) = accPart x part := by
  split <;> simp_all [accPart]

/-- An accumulator whose part is replaced, as SETAR does (R126). -/
def setAccPart (x : BitVec 80) (d : Word) (part : Nat) : BitVec 80 :=
  match part with
  | 0 => x.extractLsb' 32 48 ++ d
  | 1 => x.extractLsb' 64 16 ++ d ++ x.extractLsb' 0 32
  | _ => d.extractLsb' 0 16 ++ x.extractLsb' 0 64

theorem getLsbD_setAccPart (x : BitVec 80) (d : Word) {part i : Nat} (hp : part < 3) (hi : i < 80) :
    (setAccPart x d part).getLsbD i =
      if part = 0 ∧ i < 32 then d.getLsbD i else if part = 1 ∧ 32 ≤ i ∧ i < 64 then d.getLsbD (i - 32)
      else if part = 2 ∧ 64 ≤ i then d.getLsbD (i - 64) else x.getLsbD i := by
  have : part = 0 ∨ part = 1 ∨ part = 2 := by omega
  rcases this with rfl | rfl | rfl
  · simp only [setAccPart, BitVec.getLsbD_append, BitVec.getLsbD_extractLsb']
    by_cases h : i < 32
    · simp [h]
    · simp [h, show i - 32 < 48 by omega, show 32 + (i - 32) = i by omega]
  · simp only [setAccPart, BitVec.getLsbD_append, BitVec.getLsbD_extractLsb']
    by_cases h : i < 32
    · simp [h, show ¬ 32 ≤ i by omega]
    · by_cases h64 : i < 64
      · simp [h, h64, show i - 32 < 32 by omega, show 32 ≤ i by omega]
      · simp [h, h64, show ¬ i - 32 < 32 by omega, show i - 32 - 32 < 16 by omega, show 64 + (i - 32 - 32) = i by omega]
  · simp only [setAccPart, BitVec.getLsbD_append, BitVec.getLsbD_extractLsb']
    by_cases h : i < 64
    · simp [h, show ¬ 64 ≤ i by omega]
    · simp [h, show 64 ≤ i by omega, show i - 64 < 16 by omega]

end Sys2Proof.Machine
end

section
/-! Accumulator moves, their parts and the block exponent (R77, R80–R82, R125–R127). -/

open Sys2Proof Sys2Proof.Machine

/-- Settles O5: a move is a list of lanes with one shift, and the other instructions write one accumulator or one data register. -/
theorem accumulatorMoves : Obligations.AccumulatorMoves := by
  constructor
  · intro c f x s h hli hshr hsb
    refine ⟨?mva, fun hn => ?mva4, fun hsa hmd => ?bexp⟩
    case mva =>
      have hn : f.md.toNat % 4 < 4 := Nat.mod_lt _ (by omega)
      have hr : semMva { k := coreAt s c.val, n := c.val, f, imm := x } =
          accMoves { k := coreAt s c.val, n := c.val, f, imm := x } [(f.dst.toNat, f.md.toNat % 4)] := by
        rw [semMva, legal_of (by simp [hshr, hli, hsb])]
      have hb := becomes_result h (i := .mva c f x) rfl rfl hr rfl rfl rfl
      have hsat := laneBit_sat ⟨_, hn⟩ (sat32 (movedInt (coreAt s c.val) c.val f (f.md.toNat % 4))).2
      rw [withResult_accMoves, List.foldl_cons, List.foldl_nil, BitVec.zero_or, hsat] at hb
      exact hb
    case mva4 =>
      have hr : semMva4 { k := coreAt s c.val, n := c.val, f, imm := x } =
          accMoves { k := coreAt s c.val, n := c.val, f, imm := x } ((lanes 15#4).map fun j => (f.dst.toNat + j, j)) := by
        rw [semMva4, legal_of (by simp [hshr, hli, hsb, hn]), range_four_eq_lanes]
      have hb := becomes_result h (i := .mva4 c f x) rfl rfl hr rfl rfl rfl
      exact goes_accMoves hb
    case bexp =>
      have hr : semBexp { k := coreAt s c.val, n := c.val, f, imm := x } =
          { dw := [(f.dst.toNat, wInt (31 - bitlen (coreAt s c.val).bxd.toNat))] } := by
        rw [semBexp, legal_of (by simp [okInt, hshr, hmd, hsa, hsb, hli])]
        rfl
      have hb := becomes_result h (i := .bexp c f x) rfl rfl hr rfl rfl rfl
      rw [withResult_dw] at hb
      exact hb.goes fun t hk _ hm _ => ⟨hm, _, bitlen_le (BitVec.isLt _), fun i hi => testBit_of_bitlen_le hi, testBit_bitlen, hk⟩
  · intro c f x s h hshr
    refine ⟨fun hdst hsa hmd => ?lda, fun hli hdst hsa hsb hmd => ?acmb, fun hli hdst hsb hmd => ?sha, fun hli hsa hsb hmd => ?mvar,
      fun hli hdst hsb hmd => ?setar⟩
    case lda =>
      have hr : semLda { k := coreAt s c.val, n := c.val, f, imm := x } =
          { accw := [(f.md.toNat % 4, BitVec.ofInt 80 ((opndB (coreAt s c.val) f x).toInt * 2 ^ 31))] } := by
        rw [semLda, legal_of (by simp [hshr, hdst, hsa, hmd]), srcB_eq]
        norm_num
      have hb := becomes_result h (i := .lda c f x) rfl rfl hr rfl rfl rfl
      rwa [withResult_accw] at hb
    case acmb =>
      have hodd : f.md.getLsbD 0 = decide (f.md = 1#4) := by
        generalize f.md = md at hmd
        revert md
        decide
      have hr : semAcmb { k := coreAt s c.val, n := c.val, f, imm := x } =
          { accw := [(f.dst.toNat, clip80 (combined (coreAt s c.val) f))], aov := laneBit f.dst.toNat (over80 (combined (coreAt s c.val) f)) } := by
        simp only [semAcmb, combined, Nat.mod_eq_of_lt hdst, Nat.mod_eq_of_lt hsa, Nat.mod_eq_of_lt hsb, sat80_eq, hodd, decide_eq_true_eq]
        exact legal_of (by simp [hshr, hli, hdst, hsa, hsb, hmd])
      have hb := becomes_result h (i := .acmb c f x) rfl rfl hr rfl rfl rfl
      rw [withResult_acc _ hdst] at hb
      exact hb
    case sha =>
      have hn : f.md.toNat % 4 < 4 := Nat.mod_lt _ (by omega)
      have hr : semSha { k := coreAt s c.val, n := c.val, f, imm := x } =
          { accw := [(f.md.toNat % 4, clip80 (shiftBy (rAcc (coreAt s c.val) (f.md.toNat % 4)).toInt f.sa.toInt))]
            aov := laneBit (f.md.toNat % 4) (over80 (shiftBy (rAcc (coreAt s c.val) (f.md.toNat % 4)).toInt f.sa.toInt)) } := by
        simp only [semSha, sat80_eq, sh5]
        exact legal_of (by simp [hshr, hli, hdst, hsb, hmd])
      have hb := becomes_result h (i := .sha c f x) rfl rfl hr rfl rfl rfl
      rw [withResult_acc _ hn] at hb
      exact hb
    case mvar =>
      have hr : semMvar { k := coreAt s c.val, n := c.val, f, imm := x } =
          { dw := [(f.dst.toNat, accPart (rAcc (coreAt s c.val) (f.md.toNat % 4)) (f.md.toNat / 4))] } := by
        simp only [semMvar]
        rw [legal_of (by simp [hshr, hli, hsa, hsb, hmd]), ← accPart_eq_match]
        rfl
      have hb := becomes_result h (i := .mvar c f x) rfl rfl hr rfl rfl rfl
      rwa [withResult_dw] at hb
    case setar =>
      have hn : f.md.toNat % 4 < 4 := Nat.mod_lt _ (by omega)
      have hr : semSetar { k := coreAt s c.val, n := c.val, f, imm := x } = { accw := [(f.md.toNat % 4,
          setAccPart (rAcc (coreAt s c.val) (f.md.toNat % 4)) (opndA (coreAt s c.val) f) (f.md.toNat / 4))] } := by
        simp only [semSetar]
        rw [legal_of (by simp [hshr, hli, hdst, hsb, hmd])]
        rfl
      have hb := becomes_result h (i := .setar c f x) rfl rfl hr rfl rfl rfl
      rw [withResult_accw] at hb
      refine hb.goes fun t hk _ hm _ => ⟨fun i hi => ?_, fun j _ hne => ?_, by rw [hk]; rfl, hm⟩
      · rw [hk, rAcc_setAcc hn, if_pos rfl]
        exact getLsbD_setAccPart _ _ (by omega) hi
      · rw [hk, rAcc_setAcc hn, if_neg (Ne.symm hne)]
        rfl
end

section
/-! The commit of a compute syllable beside an idle transfer, its control part and its write of a control register included (R89, R113, R132). -/

namespace Sys2Proof.Machine

/-! ### Records and the core -/

theorem collect_putCore (i : Nat) (src : BitVec 16) (code : BitVec 12) (sev : Sev) (inj : Bool) (info : Word) (n : Nat) (k : Core)
    (s : State) : collect i src code sev inj info (putCore n k s) = putCore n k (collect i src code sev inj info s) := by
  have hheld : engHeld (putCore n k s) = engHeld s := rfl
  simp only [collect, hheld, putCore_err, putCore_eng]
  cases coalesce (fun r => sameRec r src code inj (engHeld s) s.eng.stroke s.err.win) (vget {} s.err.logs i).recs with
  | some rs => rfl
  | none =>
    dsimp only
    split_ifs <;> rfl

/-- A record that is no cause of self-diagnosis neither reads nor changes a core. -/
theorem report_putCore {src : BitVec 16} {code : BitVec 12} {sev : Sev} {info : Word} (hd : diagCode code sev = false) (n : Nat) (k : Core)
    (s : State) : report src code sev info (putCore n k s) = putCore n k (report src code sev info s) := by
  simp only [report, reportI, hd, Bool.false_eq_true, if_false]
  split <;> simp only [collect_putCore]

/-- The record of a write to a control register that does not take it (R72). -/
def csrReport (n : Nat) (r : CRes) (s : State) : State :=
  match r.csrw with
  | some e => if csrBad e.1 then report (coreSrc n) cCsr .note 0#32 s else s
  | none => s

theorem csrReport_putCore (n m : Nat) (r : CRes) (k : Core) (s : State) :
    csrReport n r (putCore m k s) = putCore m k (csrReport n r s) := by
  unfold csrReport
  split
  · split
    · exact report_putCore (by decide) m k s
    · rfl
  · rfl

/-! ### Commit -/

/-- The core that a compute syllable leaves (R89, R132, R133). -/
def committed (n : Nat) (r : CRes) (k : Core) : Core := { nextPc (writeC n r k) r.ctl with held := none }

theorem commit_idle {n : Nat} {op : BitVec 6} {f : CSyl} {x : Word} {s : State} (r : CRes) (hn : n < 128) (hx : XferIdle f x) :
    commit n (mkC op f x) r s = ctlAct n r.ctl (putCore n (committed n r (coreAt s n)) (csrReport n r s)) := by
  have hcsr : commit n (mkC op f x) r s = ctlAct n r.ctl
      (putCore n { coreAt (csrReport n r (putCore n (nextPc (writeC n r (coreAt s n)) r.ctl) s)) n with held := none }
        (csrReport n r (putCore n (nextPc (writeC n r (coreAt s n)) r.ctl) s))) := by
    rw [commit, xferAct_idle hx]
    rfl
  rw [hcsr, csrReport_putCore, coreAt_putCore hn, putCore_putCore]
  rfl

/-- A compute or control syllable with nothing to fault on commits. -/
theorem runBundle_idle {s : State} {n : Nat} {op : BitVec 6} {f : CSyl} {x : Word} {r : CRes} (hn : n < 128) (h : Issues s n)
    (hx : XferIdle f x) (hr : computeRes n (coreAt s n) (mkC op f x) = r) (hi : r.ill = false)
    (hc : ctlFault s n (coreAt s n) r.ctl = none) :
    runBundle n (mkC op f x) s = ctlAct n r.ctl (putCore n (committed n r (coreAt s n)) (csrReport n r s)) := by
  have hf : bundleFault s n (coreAt s n) (mkC op f x) (computeRes n (coreAt s n) (mkC op f x)) = none := by
    simp [bundleFault, hr, hi, hc, xferFault_idle hx]
  rw [runBundle_commit h hf (xferHold_idle hx), hr, commit_idle r hn hx]

/-- Beside the core and the interrupts sent out, nothing changes. -/
theorem Becomes.coreOnly {i : Instr} {s : State} {c : CoreId} {k : Core} {p : State → Prop} (h : Becomes i s c k)
    (hp : ∀ t, CoreOnly s t c.val → coreAt t c.val = k → p t) : Goes (exec i s) p :=
  ⟨_, h, hp _ ⟨rfl, fun n hn => by rw [settle_coreAt, coreAt_putCore_ne (Ne.symm hn)]⟩ (by rw [settle_coreAt, coreAt_putCore c.isLt])⟩

end Sys2Proof.Machine
end

section
/-! Control and status registers (R72, R131, R132). -/

namespace Sys2Proof.Machine

theorem coreIdOf_eq (c : CoreId) :
    coreIdOf c.val = wOf ((if c.val % 8 = 0 then 2 ^ 10 else 0) + c.val / 32 * 2 ^ 8 + c.val / 8 * 2 ^ 4 + c.val % 8) := by
  revert c
  decide

theorem readCsr_eq (k : Core) (c : CoreId) (r : Nat) : readCsr k c.val r =
    if r = 0 then k.stat else if r = 1 then (if c.val % 8 = 0 then k.scale else 0#32) else if r = 2 then k.bxd
    else if r = 3 then wOf ((if c.val % 8 = 0 then 2 ^ 10 else 0) + c.val / 32 * 2 ^ 8 + c.val / 8 * 2 ^ 4 + c.val % 8)
    else if r = 4 then k.stroke else if r = 5 then k.cwb else if r = 6 then lcOf k 0 else if r = 7 then lcOf k 1 else 0#32 := by
  unfold readCsr
  split <;> simp_all [isLead, coreIdOf_eq]

theorem writeCsr_scale (n : Nat) (v : Word) (k : Core) :
    writeCsr n (1#5).toNat v k = if n % 8 = 0 then { k with scale := v &&& 0x1F1F1F1F#32 } else k := by
  simp [writeCsr, isLead]

/-- A register that takes no write stays (R72). -/
theorem writeCsr_bad {c : Nat} (h : csrBad c = true) (n : Nat) (v : Word) (k : Core) : writeCsr n c v k = k := by
  unfold writeCsr
  split <;> simp_all [csrBad]

/-- STAT after a write (R72): writing 1 clears a flag, and the mode bits take the value written. -/
theorem bitAt_statWritten (v st : Word) {i : Nat} (hi : i < 32) : bitAt ((v &&& 0x1F0000#32) ||| (st &&& 0xFF#32 &&& ~~~v)) i =
    if i < 8 then bitAt st i && !bitAt v i else if 16 ≤ i ∧ i < 21 then bitAt v i else false := by
  have hmode : ∀ i : Fin 32, (0x1F0000#32).getLsbD i.val = decide (16 ≤ i.val ∧ i.val < 21) := by decide
  have hflag : ∀ i : Fin 32, (0xFF#32).getLsbD i.val = decide (i.val < 8) := by decide
  have hm := hmode ⟨i, hi⟩
  have hf := hflag ⟨i, hi⟩
  simp only at hm hf
  simp only [bitAt, BitVec.getLsbD_or, BitVec.getLsbD_and, BitVec.getLsbD_not, hm, hf, decide_eq_true hi, Bool.true_and]
  by_cases h8 : i < 8
  · simp [h8, show ¬ 16 ≤ i by omega]
  · simp [h8, Bool.and_comm]

/-- A write to a control register, taken or discarded with a record (R72, R132). -/
theorem runBundle_csrw {s : State} {c : CoreId} {f : CSyl} {x : Word} (h : Computes s c f x) (hshr : f.shr = 0#3) (hmd : f.md = 0#4)
    (hsa : f.sa = 0#5) : runBundle c.val (mkC 0x2C#6 f x) s =
      putCore c.val (writeCsr c.val f.dst.toNat (opndB (coreAt s c.val) f x) (coreAt s c.val)).onward
        (csrReport c.val { csrw := some (f.dst.toNat, opndB (coreAt s c.val) f x) } s) := by
  have hr : computeRes c.val (coreAt s c.val) (mkC 0x2C#6 f x) = { csrw := some (f.dst.toNat, opndB (coreAt s c.val) f x) } := by
    rw [computeRes_on (g := semCsrw) rfl h.pred, semCsrw, legal_of (by simp [okInt, hshr, hmd, hsa]), srcB_eq]
  rw [runBundle_idle c.isLt h.issues h.idle hr rfl rfl]
  simp [committed, writeC, Core.onward, nextPc, ctlAct]

theorem becomes_csrw {s : State} {c : CoreId} {f : CSyl} {x : Word} (h : Computes s c f x) (hshr : f.shr = 0#3) (hmd : f.md = 0#4)
    (hsa : f.sa = 0#5) (hgood : csrBad f.dst.toNat = false) : Becomes (.csrw c f x) s c
      (writeCsr c.val f.dst.toNat (opndB (coreAt s c.val) f x) (coreAt s c.val)).onward := by
  refine gives_done rfl ((runBundle_csrw h hshr hmd hsa).trans ?_)
  simp [csrReport, hgood]

end Sys2Proof.Machine
end

section
/-! Reads and writes of the control and status registers (R72, R131, R132). -/

open Sys2Proof Sys2Proof.Machine

/-- Settles O7: a read is one data register, a write one field of the core, and the rest a record. -/
theorem csrAccess : Obligations.CsrAccess := by
  intro c f x s h hshr hmd
  refine ⟨fun hli hsb => ?read, fun hsa => ⟨fun hd => ?stat, fun hd => ?scale, fun hd => ?bxd, fun hd => ?cwb, fun hd => ?bad⟩⟩
  case read =>
    have hr : semCsrr { k := coreAt s c.val, n := c.val, f, imm := x } =
        { dw := [(f.dst.toNat, readCsr (coreAt s c.val) c.val f.sa.toNat)] } := by
      rw [semCsrr, legal_of (by simp [okInt, hshr, hmd, hsb, hli])]
      rfl
    have hb := becomes_result h (i := .csrr c f x) rfl rfl hr rfl rfl rfl
    rwa [withResult_dw, readCsr_eq] at hb
  case stat =>
    refine (becomes_csrw h hshr hmd hsa (by simp [hd, csrBad])).coreOnly fun t ht hk => ⟨ht, by rw [hk, hd]; rfl, fun i hi => ?_⟩
    rw [hk, hd]
    exact bitAt_statWritten _ _ hi
  case scale =>
    have hb := becomes_csrw h hshr hmd hsa (by simp [hd, csrBad])
    rw [hd, writeCsr_scale] at hb
    split
    · next hlead => rwa [if_pos hlead] at hb
    · next hlead => rwa [if_neg hlead] at hb
  case bxd =>
    have hb := becomes_csrw h hshr hmd hsa (by simp [hd, csrBad])
    rw [hd] at hb
    exact hb
  case cwb =>
    have hb := becomes_csrw h hshr hmd hsa (by simp [hd, csrBad])
    rw [hd] at hb
    exact hb
  case bad =>
    have hbad : csrBad f.dst.toNat = true := by
      rcases hd with hd | hd | hd
      · simp [hd, csrBad]
      · simp [hd, csrBad]
      · simp [csrBad]; omega
    refine gives_done rfl ((runBundle_csrw h hshr hmd hsa).trans ?_)
    rw [writeCsr_bad hbad, report_putCore (by decide)]
    simp [csrReport, hbad]
end

section
/-! Control instructions: branches, jumps, calls, returns and loops (R89–R91, R94, R133, R134). -/

namespace Sys2Proof.Machine

/-- A control instruction has its meaning whatever its predicate (R114). -/
theorem computeRes_control {n : Nat} {k : Core} {op : BitVec 6} {f : CSyl} {x : Word} {g : CIn → CRes} (ho : semOf op.toNat = some g)
    (hc : isControl op.toNat = true) : computeRes n k (mkC op f x) = g { k, n, f, imm := x } := by
  simp [computeRes, mkC, ho, hc]

theorem committed_ctl (n : Nat) (ct : Ctl) (k : Core) : committed n { ctl := ct } k = { nextPc k ct with held := none } := by
  simp [committed, writeC]

/-- A control instruction that only moves the program counter, the loop levels and the return stack. -/
theorem becomes_control {i : Instr} {s : State} {c : CoreId} {op : BitVec 6} {f : CSyl} {x : Word} {g : CIn → CRes} {ct : Ctl}
    (h : Controls s c f x) (he : exec i s = done (runBundle c.val (mkC op f x) s)) (ho : semOf op.toNat = some g)
    (hcontrol : isControl op.toNat = true) (hr : g { k := coreAt s c.val, n := c.val, f, imm := x } = { ctl := ct })
    (hf : ctlFault s c.val (coreAt s c.val) ct = none) (ha : ∀ u, ctlAct c.val ct u = u) :
    Becomes i s c { nextPc (coreAt s c.val) ct with held := none } := by
  have hres : computeRes c.val (coreAt s c.val) (mkC op f x) = { ctl := ct } := (computeRes_control ho hcontrol).trans hr
  refine gives_done he ?_
  rw [runBundle_idle c.isLt h.issues h.idle hres rfl hf, ha, committed_ctl]
  rfl

theorem nextPc_loop (k : Core) (len cnt : Nat) : { nextPc k (.loop len cnt) with held := none } =
    if cnt = 0 then { k with pc := k.pc + 2 + len, held := none }
    else { k with pc := k.pc + 1, loops := k.loops ++ [⟨k.pc + 1, k.pc + 1 + len, cnt, cnt⟩], held := none } := by
  by_cases h : cnt = 0 <;> simp [nextPc, h]

theorem nextPc_ret {k : Core} {r : Nat} {rs : List Nat} (h : k.rets = r :: rs) : { nextPc k .ret with held := none } =
    { k with loops := closeLoops r k.loops, pc := r, rets := rs, held := none } := by
  simp [nextPc, h]

/-- The levels that a taken target leaves open (R91). -/
theorem closeLoops_eq (t : Nat) {l : List LoopLv} (h : l.length ≤ 2) : closeLoops t l =
    if ∃ o, l.getLast? = some o ∧ (o.start ≤ t ∧ t ≤ o.stop) then l
    else if 1 < l.length ∧ ∃ o, l.head? = some o ∧ (o.start ≤ t ∧ t ≤ o.stop) then l.take 1 else [] := by
  match l, h with
  | [], _ => simp [closeLoops]
  | [o], _ => simp [closeLoops]
  | [o, i], _ => simp [closeLoops]

/-- The effect of a taken target: the program counter, the return stack and the levels it leaves open (R91). -/
theorem goes_taken {i : Instr} {s : State} {c : CoreId} {pc : Nat} {rets : List Nat}
    (h : Becomes i s c { coreAt s c.val with loops := closeLoops pc (coreAt s c.val).loops, pc, rets, held := none }) :
    Goes (exec i s) fun t =>
      CoreOnly s t c.val ∧
      { coreAt t c.val with loops := (coreAt s c.val).loops } = { coreAt s c.val with pc, rets, held := none } ∧
      ((coreAt s c.val).loops.length ≤ 2 → (coreAt t c.val).loops =
        if ∃ o, (coreAt s c.val).loops.getLast? = some o ∧ (o.start ≤ pc ∧ pc ≤ o.stop) then (coreAt s c.val).loops
        else if 1 < (coreAt s c.val).loops.length ∧ ∃ o, (coreAt s c.val).loops.head? = some o ∧ (o.start ≤ pc ∧ pc ≤ o.stop) then
          (coreAt s c.val).loops.take 1
        else []) :=
  h.coreOnly fun t ht hk => ⟨ht, by rw [hk], fun hl => by rw [hk]; exact closeLoops_eq pc hl⟩

/-- A LOOP that meets the checks of R134 opens its level. -/
theorem loopFault_none {k : Core} {len : Nat} (hl : k.loops.length < 2) (hlen : k.pc + 1 + len ≤ 4095)
    (ho : ∀ o ∈ k.loops, o.stop ≠ k.pc ∧ k.pc + 1 + len ≤ o.stop) : loopFault k k.pc len = none := by
  rw [loopFault, if_neg (by omega), if_neg (by omega)]
  cases hlast : k.loops.getLast? with
  | none => rfl
  | some o =>
    obtain ⟨hstop, hin⟩ := ho o (List.mem_of_getLast? hlast)
    exact if_neg (by omega)

end Sys2Proof.Machine
end

section
/-! Control flow and zero-overhead loops (R89–R91, R94, R133, R134). -/

open Sys2Proof Sys2Proof.Machine

/-- Settles O8: each instruction by its control part, and the end bundle of a body by the levels that are open. -/
theorem controlFlow : Obligations.ControlFlow := by
  constructor
  · intro c f x s h hshr
    refine ⟨fun hdst hsa hsb hli hmd => ?nop, fun hsb hli => ⟨fun hmd hp => ?taken, fun hmd hp => ?past, fun hprd hmd => ?jmp,
      fun hprd hmd hrets => ?call⟩, fun hdst hsa hsb hprd hli hmd r rs hrets => ?ret, fun hprd hmd himm hl hlen ho => ?loop⟩
    case nop =>
      have hr : computeRes c.val (coreAt s c.val) (mkC 0x00#6 f x) = {} := by
        by_cases hp : rP (coreAt s c.val) f.prd.toNat = true
        · rw [computeRes_on (g := semNop) rfl hp, semNop, legal_of (by simp [hdst, hsa, hsb, hshr, hli, hmd])]
        · exact computeRes_off rfl rfl (by simpa using hp)
      refine gives_done rfl ((runBundle_compute c.isLt h.issues h.idle hr rfl rfl rfl).trans ?_)
      rw [writeC_none, nextPc_seq]
    case taken =>
      have hr : semBr { k := coreAt s c.val, n := c.val, f, imm := x } = { ctl := .jump (tgtOf f) } := by
        rw [semBr, legal_of (by simp [okTgt, hsb, hshr, hli, hmd]), if_pos (by simpa using hp)]
      have hb := becomes_control h (i := .br c f x) rfl rfl rfl hr rfl fun _ => rfl
      exact goes_taken hb
    case past =>
      have hr : semBr { k := coreAt s c.val, n := c.val, f, imm := x } = { ctl := .seq } := by
        rw [semBr, legal_of (by simp [okTgt, hsb, hshr, hli, hmd]), if_neg (by simpa using hp)]
      have hb := becomes_control h (i := .br c f x) rfl rfl rfl hr rfl fun _ => rfl
      exact hb
    case jmp =>
      have hr : semJmp { k := coreAt s c.val, n := c.val, f, imm := x } = { ctl := .jump (tgtOf f) } := by
        rw [semJmp, legal_of (by simp [okTgt, hsb, hshr, hli, hmd, hprd])]
      have hb := becomes_control h (i := .jmp c f x) rfl rfl rfl hr rfl fun _ => rfl
      exact goes_taken hb
    case call =>
      have hr : semCall { k := coreAt s c.val, n := c.val, f, imm := x } = { ctl := .call (tgtOf f) } := by
        rw [semCall, legal_of (by simp [okTgt, hsb, hshr, hli, hmd, hprd])]
      have hb := becomes_control h (i := .call c f x) rfl rfl rfl hr (if_neg (Nat.not_le.mpr hrets)) fun _ => rfl
      exact goes_taken hb
    case ret =>
      have hr : semRet { k := coreAt s c.val, n := c.val, f, imm := x } = { ctl := .ret } := by
        rw [semRet, legal_of (by simp [okBare, hdst, hsa, hsb, hshr, hli, hmd, hprd])]
      have hb := becomes_control h (i := .ret c f x) rfl rfl rfl hr (by simp [ctlFault, hrets]) fun _ => rfl
      rw [nextPc_ret hrets] at hb
      exact goes_taken hb
    case loop =>
      have hcount : loopCount { k := coreAt s c.val, n := c.val, f, imm := x } = (opndB (coreAt s c.val) f x).toNat % 65536 := by
        unfold loopCount opndB
        split <;> rfl
      have hr : semLoop { k := coreAt s c.val, n := c.val, f, imm := x } =
          { ctl := .loop (lenOf f) ((opndB (coreAt s c.val) f x).toNat % 65536) } := by
        rw [semLoop, hcount, legal_of]
        cases hli : f.li with
        | false => simp [hshr, hprd, hmd]
        | true => simp [hshr, hprd, hmd, (himm hli).1, (himm hli).2]
      have hb := becomes_control h (i := .loop c f x) rfl rfl rfl hr (loopFault_none hl hlen ho) fun _ => rfl
      rw [nextPc_loop] at hb
      exact hb
  · intro k o i ho hi
    have hlast (lv : LoopLv) (h : 0 < lv.cnt) : lv.cnt - 1 = 0 ↔ lv.cnt = 1 := by omega
    have hmore : 1 < i.cnt ↔ ¬ i.cnt = 1 := by omega
    refine ⟨fun h => ?none, fun h => ?one, fun h => ?two⟩
    case none => simp only [Core.onward, h, loopStep]
    case one =>
      simp only [Core.onward, h, loopStep, hlast o ho, ne_eq, ite_not]
      split_ifs <;> rfl
    case two =>
      simp only [Core.onward, h, loopStep, hlast o ho, hlast i hi, hmore, ne_eq, ite_not]
      split_ifs <;> rfl
end

section
/-! A transfer syllable beside an idle compute syllable: what commits, and what its predicate gates (R87, R114, R116). -/

namespace Sys2Proof.Machine

theorem compIdle_fields {op : BitVec 5} {f : TSyl} {w : Word} (h : CompIdle w) :
    (mkT op f w).copc = 0x00#6 ∧ (mkT op f w).cf = { prd := (mkT op f w).cf.prd } := h

theorem compIdle_li {op : BitVec 5} {f : TSyl} {w : Word} (h : CompIdle w) : (mkT op f w).cf.li = false := by
  rw [(compIdle_fields h).2]

/-- The compute syllable is a NOP, whatever its predicate. -/
theorem computeRes_compIdle {n : Nat} {k : Core} {op : BitVec 5} {f : TSyl} {w : Word} (h : CompIdle w) :
    computeRes n k (mkT op f w) = {} := by
  obtain ⟨hop, hcf⟩ := compIdle_fields (op := op) (f := f) h
  rw [computeRes, hop, hcf]
  cases isControl (0x00#6).toNat || rP k (mkT op f w).cf.prd.toNat <;> rfl

theorem xferOf_compIdle {op : BitVec 5} {f : TSyl} {w : Word} (h : CompIdle w) : xferOf (mkT op f w) = xopOf op.toNat := by
  rw [xferOf, compIdle_li h, if_neg (by simp)]
  rfl

theorem xferOn_compIdle {k : Core} {op : BitVec 5} {f : TSyl} {w : Word} (h : CompIdle w) :
    xferOn k (mkT op f w) = rP k f.tprd.toNat := by
  rw [xferOn, compIdle_li h]
  rfl

/-- The core after the post-modify of a transfer (R87). -/
def postModded (old : Core) (x : XOp) (f : TSyl) (k : Core) : Core :=
  match postMod old x f with
  | some e => setA e.1 e.2 k
  | none => k

theorem postModded_onward (old : Core) (x : XOp) (f : TSyl) (k : Core) :
    (postModded old x f k).onward = postModded old x f k.onward := by
  unfold postModded
  split <;> rfl

/-- The core that a transfer starts from at commit: it has moved on and its address register is stepped. -/
def stepped (k : Core) (x : XOp) (f : TSyl) : Core := postModded k x f (nextPc k .seq)

theorem stepped_onward (k : Core) (x : XOp) (f : TSyl) : { stepped k x f with held := none } = postModded k x f k.onward := by
  unfold stepped postModded
  split <;> rfl

/-- What a transfer that is on does to registers, memory and mailboxes, its post-modify done. -/
def xferDone (n : Nat) (old : Core) (x : XOp) (f : TSyl) (s : State) : State :=
  let dr := f.dr.toNat
  match x with
  | .ld _ _ =>
    let t := loadWords old (wordsAt n old x f) s
    putCore n (writeLoad {} dr t.2 (coreAt t.1 n)) t.1
  | .st _ _ => storeWords n (((accAddrs old x f).zipIdx).map fun e => ((mapWord n old e.1).getD (.data, 0), rD old (dr + e.2))) s
  | .mvr => putCore n (writeClass (f.mr.toNat / 4) f.ar.toNat ((rD old dr).truncate 24) (coreAt s n)) s
  | .mrv =>
    let c := f.mr.toNat / 4
    let v := readClass old c f.ar.toNat
    putCore n (writeLoad {} dr [if c = 1 then v.signExtend 32 else v.zeroExtend 32] (coreAt s n)) s
  | .setr =>
    let c := f.mr.toNat / 4
    putCore n (writeClass c f.ar.toNat (if c = 1 then f.ofs.signExtend 24 else f.ofs.zeroExtend 24) (coreAt s n)) s
  | .mbput => mailPut (n / 8 * 8 + f.ar.toNat) (rD old dr) s
  | .mbget => putCore n (writeLoad {} dr [old.mbox.headD 0#32] { coreAt s n with mbox := (coreAt s n).mbox.tail }) s
  | .mbcnt => putCore n (writeLoad {} dr [wOf old.mbox.length] (coreAt s n)) s
  | _ => s

theorem xferAct_compIdle {n : Nat} {op : BitVec 5} {f : TSyl} {w : Word} {x : XOp} {old : Core} {s : State} (hn : n < 128)
    (h : CompIdle w) (hx : xopOf op.toNat = some x) :
    xferAct n old (mkT op f w) {} (putCore n (nextPc old .seq) s) =
      if rP old f.tprd.toNat = true then xferDone n old x f (putCore n (stepped old x f) s) else putCore n (stepped old x f) s := by
  unfold xferAct stepped postModded
  rw [xferOf_compIdle h, hx, xferOn_compIdle h, compIdle_li h, show (mkT op f w).tf = f from rfl]
  simp only [Bool.false_eq_true, if_false]
  cases postMod old x f with
  | none =>
    cases rP old f.tprd.toNat with
    | false => rfl
    | true => cases x <;> rfl
  | some e =>
    have hmod (k : Core) : putCore n (setA e.1 e.2 (coreAt (putCore n k s) n)) (putCore n k s) = putCore n (setA e.1 e.2 k) s := by
      rw [coreAt_putCore hn, putCore_putCore]
    simp only [hmod]
    cases rP old f.tprd.toNat with
    | false => rfl
    | true => cases x <;> rfl

/-- The bundle a core is left without once it has committed. -/
def unheld (n : Nat) (s : State) : State := putCore n { coreAt s n with held := none } s

theorem unheld_putCore {n : Nat} (hn : n < 128) (k : Core) (s : State) : unheld n (putCore n k s) = putCore n { k with held := none } s := by
  rw [unheld, coreAt_putCore hn, putCore_putCore]

/-- What a transfer command's bundle commits. -/
theorem commit_compIdle {n : Nat} {op : BitVec 5} {f : TSyl} {w : Word} {x : XOp} {s : State} (hn : n < 128)
    (h : CompIdle w) (hx : xopOf op.toNat = some x) : commit n (mkT op f w) {} s =
      unheld n (if rP (coreAt s n) f.tprd.toNat = true then xferDone n (coreAt s n) x f (putCore n (stepped (coreAt s n) x f) s)
        else putCore n (stepped (coreAt s n) x f) s) := by
  rw [← xferAct_compIdle hn h hx, commit, writeC_none]
  rfl

/-! ### Off, faulting, committing -/

theorem bundleFault_compIdle {s : State} {n : Nat} {k : Core} {op : BitVec 5} {f : TSyl} {w : Word} (h : CompIdle w) :
    bundleFault s n k (mkT op f w) (computeRes n k (mkT op f w)) = xferFault n k (mkT op f w) := by
  rw [computeRes_compIdle h]
  rfl

/-- Under a false predicate a transfer faults on nothing and steps its address register (R87, R114). -/
theorem becomes_xfer_off {i : Instr} {s : State} {c : CoreId} {op : BitVec 5} {f : TSyl} {w : Word} {x : XOp} (h : Issues s c.val)
    (hw : CompIdle w) (hp : rP (coreAt s c.val) f.tprd.toNat = false) (he : exec i s = done (runBundle c.val (mkT op f w) s))
    (hx : xopOf op.toNat = some x) {k : Core} (hk : postModded (coreAt s c.val) x f (coreAt s c.val).onward = k) : Becomes i s c k := by
  subst hk
  have hf : bundleFault s c.val (coreAt s c.val) (mkT op f w) (computeRes c.val (coreAt s c.val) (mkT op f w)) = none := by
    rw [bundleFault_compIdle hw, xferFault, xferOf_compIdle hw, hx, xferOn_compIdle hw, hp]
    rfl
  have hh : xferHold s c.val (coreAt s c.val) (mkT op f w) = none := by
    rw [xferHold, xferOn_compIdle hw, hp]
    rfl
  refine gives_done he ?_
  rw [runBundle_commit h hf hh, computeRes_compIdle hw, commit_compIdle c.isLt hw hx, hp, if_neg (by simp), unheld_putCore c.isLt,
    stepped_onward]

theorem xferFault_on {n : Nat} {k : Core} {op : BitVec 5} {f : TSyl} {w : Word} {x : XOp} (hw : CompIdle w)
    (hp : rP k f.tprd.toNat = true) (hx : xopOf op.toNat = some x) (hok : xopOk x f = true) :
    xferFault n k (mkT op f w) = if (accAddrs k x f).all fun y => (mapWord n k y).isSome then none else some cAddr := by
  rw [xferFault, xferOf_compIdle hw, hx, xferOn_compIdle hw, hp]
  simp [show (mkT op f w).tf = f from rfl, hok]

/-- A transfer under a true predicate that neither faults nor waits. -/
theorem runBundle_xfer {s : State} {c : CoreId} {op : BitVec 5} {f : TSyl} {w : Word} {x : XOp} (h : Transfers s c f w)
    (hx : xopOf op.toNat = some x) (hok : xopOk x f = true)
    (ha : ∀ y ∈ accAddrs (coreAt s c.val) x f, (mapWord c.val (coreAt s c.val) y).isSome = true)
    (hh : xferHold s c.val (coreAt s c.val) (mkT op f w) = none) : runBundle c.val (mkT op f w) s =
      unheld c.val (xferDone c.val (coreAt s c.val) x f (putCore c.val (stepped (coreAt s c.val) x f) s)) := by
  have hf : bundleFault s c.val (coreAt s c.val) (mkT op f w) (computeRes c.val (coreAt s c.val) (mkT op f w)) = none := by
    rw [bundleFault_compIdle h.idle, xferFault_on h.idle h.pred hx hok, if_pos (List.all_eq_true.mpr ha)]
  rw [runBundle_commit h.issues hf hh, computeRes_compIdle h.idle, commit_compIdle c.isLt h.idle hx, if_pos h.pred]

end Sys2Proof.Machine
end

section
/-! Syllables under a false predicate (R87, R114). -/

open Sys2Proof Sys2Proof.Machine

/-- Settles O10: no result of the compute syllable, and no effect of the transfer but its post-modify. -/
theorem predicatedOff : Obligations.PredicatedOff := by
  intro s c f g x
  refine ⟨fun hi hx hp => ?compute, fun hi hw hp => ⟨?plain, ?byRegister, ?byOffset⟩⟩
  case compute =>
    have off {i : Instr} {op : BitVec 6} (he : exec i s = done (runBundle c.val (mkC op f x) s)) (ho : (semOf op.toNat).isSome = true)
        (hc : isControl op.toNat = false) : Becomes i s c (coreAt s c.val).onward := by
      refine gives_done he ((runBundle_compute c.isLt hi hx (computeRes_off ho hc hp) rfl rfl rfl).trans ?_)
      rw [writeC_none, nextPc_seq]
    iterate 41 refine List.forall_mem_cons.mpr ⟨off rfl rfl rfl, ?_⟩
    simp
  case plain =>
    iterate 13 refine List.forall_mem_cons.mpr ⟨becomes_xfer_off hi hw hp rfl rfl rfl, ?_⟩
    simp
  case byRegister =>
    iterate 7 refine List.forall_mem_cons.mpr ⟨becomes_xfer_off hi hw hp rfl rfl rfl, ?_⟩
    simp
  case byOffset =>
    iterate 7 refine List.forall_mem_cons.mpr ⟨becomes_xfer_off hi hw hp rfl rfl rfl, ?_⟩
    simp
end

section
/-! What a core stops on (R85, R94, R105, R108, R109, R112, R134). -/

namespace Sys2Proof.Machine

/-! ### The stop -/

/-- The effect of a core fault (R108): the core stops with its code, and memory and the other cores keep their contents. -/
def Stops (i : Instr) (s : State) (c : CoreId) (code : BitVec 12) : Prop :=
  Goes (exec i s) fun t =>
    (coreAt t c.val).run = .stopped ∧ (coreAt t c.val).faultCode = code ∧ (coreAt t c.val).faultPc = (coreAt s c.val).pc ∧
    t.mem = s.mem ∧ (∀ m, m ≠ c.val → coreAt t m = coreAt s m) ∧
    ∃ u, t = settle (report (coreSrc c.val) code .fault 0#32 u)

/-- A core fault is the record of a state in which only the stopped core differs, beside the counter of the free values. -/
theorem coreFault_report (n : Nat) (code : BitVec 12) (s : State) : ∃ (k : Core) (u : State),
    k.run = .stopped ∧ k.faultCode = code ∧ k.faultPc = (if 4096 ≤ (coreAt s n).pc then 4095 else (coreAt s n).pc) ∧
    u.mem = s.mem ∧ u.cores = s.cores ∧ coreFault n code s = report (coreSrc n) code .fault 0#32 (putCore n k u) :=
  ⟨_, { s with freeCtr := s.freeCtr + 98 }, rfl, rfl, rfl, rfl, rfl, rfl⟩

theorem stops_of_fault {i : Instr} {s : State} {c : CoreId} {b : Bundle} {code : BitVec 12} (h : Issues s c.val)
    (he : exec i s = done (runBundle c.val b s))
    (hf : bundleFault s c.val (coreAt s c.val) b (computeRes c.val (coreAt s c.val) b) = some code) : Stops i s c code := by
  obtain ⟨k, u, hrun, hcode, hpc, hmem, hcores, hstop⟩ := coreFault_report c.val code s
  have hcore (m : Nat) : coreAt (settle (report (coreSrc c.val) code .fault 0#32 (putCore c.val k u))) m = coreAt (putCore c.val k u) m := by
    rw [settle_coreAt, (report_recordsOnly ..).coreAt]
  refine goes_done he ((runBundle_fault h hf).trans hstop) ?_
  rw [hcore, coreAt_putCore c.isLt]
  refine ⟨hrun, hcode, hpc.trans (if_neg (Nat.not_le.mpr h.pc)), ?_, fun m hm => ?_, _, rfl⟩
  · rw [settle_mem, (report_recordsOnly ..).mem, putCore_mem, hmem]
  · rw [hcore, coreAt_putCore_ne (Ne.symm hm), coreAt, hcores, coreAt]

/-! ### Reserved encodings (R112) -/

theorem legal_not {ok : Bool} {r : CRes} (h : ok = false) : legal ok r = cIll := by rw [legal, h, if_neg (by simp)]

/-- The opcodes whose share and MOD fields are reserved (R117, R118, R122, R127–R132). -/
def plainOps : List (BitVec 6) :=
  [0x01#6, 0x02#6, 0x03#6, 0x04#6, 0x05#6, 0x06#6, 0x07#6, 0x08#6, 0x09#6, 0x0A#6, 0x0B#6, 0x0C#6, 0x0D#6, 0x0E#6, 0x0F#6,
    0x10#6, 0x11#6, 0x14#6, 0x28#6, 0x29#6, 0x2A#6, 0x2B#6, 0x2C#6]

/-- A meaning that answers the reserved-encoding result wherever a field check fails. -/
theorem plainOps_illegal {i : CIn} (h : okInt i.f = false) : ∀ op ∈ plainOps, ∃ g, semOf op.toNat = some g ∧ g i = cIll := by
  simp only [plainOps, List.forall_mem_cons]
  refine ⟨⟨semMov, rfl, ?_⟩, ⟨semAdd, rfl, ?_⟩, ⟨semAdds, rfl, ?_⟩, ⟨semSub, rfl, ?_⟩, ⟨semSubs, rfl, ?_⟩, ⟨semAbss, rfl, ?_⟩,
    ⟨semNegs, rfl, ?_⟩, ⟨semAnd, rfl, ?_⟩, ⟨semOr, rfl, ?_⟩, ⟨semXor, rfl, ?_⟩, ⟨semAndn, rfl, ?_⟩, ⟨semShl, rfl, ?_⟩,
    ⟨semShr, rfl, ?_⟩, ⟨semSra, rfl, ?_⟩, ⟨semShls, rfl, ?_⟩, ⟨semMin, rfl, ?_⟩, ⟨semMax, rfl, ?_⟩, ⟨semCls, rfl, ?_⟩,
    ⟨semBexp, rfl, ?_⟩, ⟨semZxarm, rfl, ?_⟩, ⟨semZxstep, rfl, ?_⟩, ⟨semCsrr, rfl, ?_⟩, ⟨semCsrw, rfl, ?_⟩, by simp⟩
  all_goals exact legal_not (by simp [h])

theorem stops_illegal {i : Instr} {s : State} {c : CoreId} {op : BitVec 6} {f : CSyl} {x : Word} {g : CIn → CRes} (h : Computes s c f x)
    (he : exec i s = done (runBundle c.val (mkC op f x) s)) (ho : semOf op.toNat = some g)
    (hill : g { k := coreAt s c.val, n := c.val, f, imm := x } = cIll) : Stops i s c 0x200#12 := by
  refine stops_of_fault h.issues he ?_
  rw [computeRes_on ho h.pred, hill]
  rfl

/-! ### Control instructions (R94, R105, R134) -/

theorem stops_control {i : Instr} {s : State} {c : CoreId} {op : BitVec 6} {f : CSyl} {x : Word} {g : CIn → CRes} {ct : Ctl}
    {code : BitVec 12} (h : Controls s c f x) (he : exec i s = done (runBundle c.val (mkC op f x) s)) (ho : semOf op.toNat = some g)
    (hcontrol : isControl op.toNat = true) (hr : g { k := coreAt s c.val, n := c.val, f, imm := x } = { ctl := ct })
    (hf : ctlFault s c.val (coreAt s c.val) ct = some code) : Stops i s c code := by
  refine stops_of_fault h.issues he ?_
  rw [computeRes_control ho hcontrol, hr, bundleFault, hf]
  rfl

/-! ### Addresses (R85) -/

theorem stops_address {i : Instr} {s : State} {c : CoreId} {op : BitVec 5} {f : TSyl} {w : Word} {x : XOp} (h : Transfers s c f w)
    (hok : xopOk x f = true) (ha : ∃ y ∈ accAddrs (coreAt s c.val) x f, mapWord c.val (coreAt s c.val) y = none)
    (he : exec i s = done (runBundle c.val (mkT op f w) s)) (hx : xopOf op.toNat = some x) : Stops i s c 0x201#12 := by
  refine stops_of_fault h.issues he ?_
  obtain ⟨y, hy, hnone⟩ := ha
  rw [bundleFault_compIdle h.idle, xferFault_on h.idle h.pred hx hok, if_neg]
  intro hall
  simpa [hnone] using List.all_eq_true.mp hall y hy

end Sys2Proof.Machine
end

section
/-! Core faults (R85, R89, R94, R105, R108, R109, R112). -/

open Sys2Proof Sys2Proof.Machine

/-- Settles O11: a reserved encoding, a control instruction's own check, or an address that maps nowhere. -/
theorem coreFaults : Obligations.CoreFaults := by
  intro s c f g x
  refine ⟨fun h hres => ?encoding, fun h hshr => ?lanes, fun h hshr hprd hmd hli => ⟨fun hsb hm hrets => ?call,
    fun hdst hsa hsb hm hrets => ?ret, fun hm hl => ?loop, fun hdst hsa hsb hmask => ?barrier⟩, fun h => ?address⟩
  case encoding =>
    have hok : okInt f = false := by
      rcases hres with hres | hres <;> simp [okInt, hres]
    have stop {i : Instr} {op : BitVec 6} (he : exec i s = done (runBundle c.val (mkC op f x) s)) (hop : op ∈ plainOps) : Stops i s c 0x200#12 := by
      obtain ⟨g, ho, hill⟩ := plainOps_illegal (i := { k := coreAt s c.val, n := c.val, f, imm := x }) hok op hop
      exact stops_illegal h he ho hill
    iterate 23 refine List.forall_mem_cons.mpr ⟨stop rfl (by decide), ?_⟩
    simp
  case lanes =>
    have hok : okShr4 f = false := by simp [okShr4, hshr]
    refine List.forall_mem_cons.mpr ⟨stops_illegal h rfl (g := semMpy) rfl (legal_not hok), ?_⟩
    refine List.forall_mem_cons.mpr ⟨stops_illegal h rfl (g := semMpyi) rfl (legal_not hok), ?_⟩
    refine List.forall_mem_cons.mpr ⟨stops_illegal h rfl (g := semMacsu) rfl (legal_not (by simp [hok])), ?_⟩
    simp
  case call =>
    have hr : semCall { k := coreAt s c.val, n := c.val, f, imm := x } = { ctl := .call (tgtOf f) } := by
      rw [semCall, legal_of (by simp [okTgt, hsb, hshr, hli, hm, hprd])]
    exact stops_control h rfl rfl rfl hr (if_pos hrets)
  case ret =>
    have hr : semRet { k := coreAt s c.val, n := c.val, f, imm := x } = { ctl := .ret } := by
      rw [semRet, legal_of (by simp [okBare, hdst, hsa, hsb, hshr, hli, hm, hprd])]
    exact stops_control h rfl rfl rfl hr (by simp [ctlFault, hrets])
  case loop =>
    have hr : semLoop { k := coreAt s c.val, n := c.val, f, imm := x } =
        { ctl := .loop (lenOf f) (loopCount { k := coreAt s c.val, n := c.val, f, imm := x }) } := by
      rw [semLoop, legal_of (by simp [hshr, hprd, hm, hli])]
    exact stops_control h rfl rfl rfl hr (if_pos hl)
  case barrier =>
    have h3 : f.md.getLsbD 3 = false := Nat.testBit_lt_two_pow hmd
    have hr : semBarrier { k := coreAt s c.val, n := c.val, f, imm := x } = { ctl := .barrier f.md.toNat } := by
      rw [semBarrier, legal_of, Nat.mod_eq_of_lt hmd]
      simp only [h3, okBare, hdst, hsa, hsb, hshr, hli, hprd]
      rfl
    exact stops_control h rfl rfl rfl hr (if_neg (by simp [hmask]))
  case address =>
    iterate 18 refine List.forall_mem_cons.mpr ⟨fun hok ha => stops_address h hok ha rfl rfl, ?_⟩
    simp
end

section
/-! Loads (R88, R99, R101, R135, R167). -/

namespace Sys2Proof.Machine

/-! ### The words read -/

/-- A word with good check bits reads as R99 and R101 say; in the firmware area a free value comes back (log entry 114). -/
theorem loadWord_good {s : State} {k : Core} {a : Nat} (hi : NoInjection s) (hg : Good s a) : ∃ ctr v,
    loadWord k a s = ({ s with freeCtr := ctr }, v) ∧ (firmwareArea a = false → ctr = s.freeCtr ∧ v = loadValue s k a) := by
  unfold loadWord loadValue
  cases queued (k.crewQ ++ k.winQ) a with
  | some w => exact ⟨s.freeCtr, w, rfl, fun _ => ⟨rfl, rfl⟩⟩
  | none =>
    cases hf : firmwareArea a with
    | true => exact ⟨_, _, rfl, by simp⟩
    | false =>
      refine ⟨s.freeCtr, _, ?_, fun _ => ⟨rfl, rfl⟩⟩
      cases isMeter a with
      | true => simp [eccCheck_good hi]
      | false => simp [readWord_good hi hg]

theorem loadWords_good {k : Core} {as : List Nat} {s : State} (hi : NoInjection s) (hg : ∀ a ∈ as, Good s a) : ∃ ctr ws,
    loadWords k as s = ({ s with freeCtr := ctr }, ws) ∧ ws.length = as.length ∧
    ((∀ a ∈ as, firmwareArea a = false) → ctr = s.freeCtr) ∧
    ∀ m, m < as.length → firmwareArea (as.getD m 0) = false → ws.getD m 0#32 = loadValue s k (as.getD m 0) := by
  induction as generalizing s with
  | nil => exact ⟨s.freeCtr, [], rfl, rfl, fun _ => rfl, fun m hm => absurd hm (Nat.not_lt_zero m)⟩
  | cons a as ih =>
    rw [List.forall_mem_cons] at hg
    obtain ⟨c1, v, hword, hv⟩ := loadWord_good (k := k) hi hg.1
    obtain ⟨c2, ws, hwords, hlen, hctr, hvals⟩ := ih (s := { s with freeCtr := c1 }) hi hg.2
    refine ⟨c2, v :: ws, by simp only [loadWords, hword, hwords], by simp [hlen], fun hf => ?_, fun m hm hf => ?_⟩
    · rw [List.forall_mem_cons] at hf
      rw [hctr hf.2]
      exact (hv hf.1).1
    · cases m with
      | zero => exact (hv hf).2
      | succ m => exact hvals m (by simpa using hm) hf

/-! ### The registers written -/

theorem writeLoad_eq (dr : Nat) (ws : List Word) (k : Core) :
    writeLoad {} dr ws k = { k with d := vputs k.d (ws.zipIdx.map fun e => ((dr + e.2) % 32, e.1)) } := by
  have hfold (l : List (Word × Nat)) (k : Core) : l.foldl (fun k e => setD (dr + e.2) e.1 k) k =
      { k with d := vputs k.d (l.map fun e => ((dr + e.2) % 32, e.1)) } := by
    induction l generalizing k with
    | nil => rfl
    | cons e l ih => exact ih _
  exact hfold ws.zipIdx k

theorem zipIdx_pairwise {α : Type} (l : List α) : l.zipIdx.Pairwise fun a b => a.2 < b.2 := by
  have h : (l.zipIdx.map Prod.snd).Pairwise (· < ·) := by
    rw [List.zipIdx_map_snd]
    exact List.pairwise_lt_range'
  exact List.pairwise_map.mp h

/-- A load's words lie in consecutive registers (R70). -/
theorem rD_writeLoad {dr m : Nat} {ws : List Word} {k : Core} (hlen : ws.length ≤ 32) (hm : m < ws.length) :
    rD (writeLoad {} dr ws k) (dr + m) = ws.getD m 0#32 := by
  rw [writeLoad_eq, rD]
  refine vget_vputs_mem _ _ (Nat.mod_lt _ (by omega)) (List.pairwise_map.mpr ((zipIdx_pairwise ws).imp_of_mem ?_))
    (List.mem_map.mpr ⟨(ws.getD m 0#32, m), ?_, rfl⟩)
  · intro a b ha hb hab
    have := List.snd_lt_of_mem_zipIdx hb
    dsimp only
    omega
  · rw [List.mk_mem_zipIdx_iff_getElem?, List.getElem?_eq_getElem hm, List.getD_eq_getElem _ _ hm]

theorem rD_writeLoad_other {dr r : Nat} {ws : List Word} {k : Core} (hr : r < 32) (h : ∀ m, m < ws.length → (dr + m) % 32 ≠ r) :
    rD (writeLoad {} dr ws k) r = rD k r := by
  rw [writeLoad_eq, rD, rD, vget_vputs_ne]
  intro e he
  obtain ⟨x, hx, rfl⟩ := List.mem_map.mp he
  rw [Nat.mod_eq_of_lt hr]
  exact h _ (List.snd_lt_of_mem_zipIdx hx)

/-! ### Addresses -/

theorem runAddrs_length (k : Core) (n j : Nat) (a : BitVec 24) : (runAddrs k n j a).length = j := by
  induction j generalizing a with
  | zero => rfl
  | succ j ih => simp only [runAddrs, List.length_cons, ih]

theorem accAddrs_ld_length (k : Core) (j : Nat) (mode : AMode) (f : TSyl) : (accAddrs k (.ld j mode) f).length = j := runAddrs_length ..
theorem accAddrs_st_length (k : Core) (j : Nat) (mode : AMode) (f : TSyl) : (accAddrs k (.st j mode) f).length = j := runAddrs_length ..

/-- An address register that takes its own value stays. -/
theorem setA_rA {k : Core} {n : Nat} (hn : n < 16) : setA n (rA k n) k = k := by
  simp [setA, rA, vget, vput, hn]

/-! ### The command -/

/-- The effect of a load of `j` words that leaves `a` in its address register. -/
def LoadDone (s : State) (c : CoreId) (f : TSyl) (j : Nat) (mode : AMode) (a : BitVec 24) (t : State) : Prop :=
  { t with cores := s.cores, host := s.host, out := s.out, freeCtr := s.freeCtr } = s ∧
  ((∀ y ∈ wordsAt c.val (coreAt s c.val) (.ld j mode) f, firmwareArea y = false) → t.freeCtr = s.freeCtr) ∧
  (∀ m, m ≠ c.val → coreAt t m = coreAt s m) ∧
  (∀ m, m < j → firmwareArea ((wordsAt c.val (coreAt s c.val) (.ld j mode) f).getD m 0) = false →
    rD (coreAt t c.val) (f.dr.toNat + m) =
      loadValue s (coreAt s c.val) ((wordsAt c.val (coreAt s c.val) (.ld j mode) f).getD m 0)) ∧
  (∀ r, r < 32 → (∀ m, m < j → (f.dr.toNat + m) % 32 ≠ r) → rD (coreAt t c.val) r = rD (coreAt s c.val) r) ∧
  { coreAt t c.val with d := (coreAt s c.val).d } = setA f.ar.toNat a (coreAt s c.val).onward

theorem load_goes {i : Instr} {s : State} {c : CoreId} {op : BitVec 5} {f : TSyl} {w : Word} {j : Nat} {mode : AMode} {a : BitVec 24}
    (h : Transfers s c f w) (he : exec i s = done (runBundle c.val (mkT op f w) s)) (hx : xopOf op.toNat = some (.ld j mode))
    (hj : j ≤ 32) (hok : okMode mode f = true)
    (hpost : postModded (coreAt s c.val) (.ld j mode) f (coreAt s c.val).onward = setA f.ar.toNat a (coreAt s c.val).onward)
    (ha : ∀ y ∈ accAddrs (coreAt s c.val) (.ld j mode) f, (mapWord c.val (coreAt s c.val) y).isSome = true)
    (hw : ∀ y ∈ wordsAt c.val (coreAt s c.val) (.ld j mode) f, inputDue s y = false ∧ Good s y) :
    (wordsAt c.val (coreAt s c.val) (.ld j mode) f).length = j ∧ Goes (exec i s) (LoadDone s c f j mode a) := by
  have hlen : (wordsAt c.val (coreAt s c.val) (.ld j mode) f).length = j := by rw [wordsAt, List.length_map, accAddrs_ld_length]
  have hhold : xferHold s c.val (coreAt s c.val) (mkT op f w) = none := by
    rw [xferHold, xferOn_compIdle h.idle, h.pred, xferOf_compIdle h.idle, hx]
    rw [if_neg (by simp)]
    refine if_neg ?_
    rw [List.any_eq_true]
    rintro ⟨y, hy, hdue⟩
    have := (hw _ (List.mem_map_of_mem hy)).1
    rw [this] at hdue
    exact Bool.false_ne_true hdue
  obtain ⟨ctr, ws, hwords, hwlen, hctr, hvals⟩ := loadWords_good (k := coreAt s c.val)
    (s := putCore c.val (stepped (coreAt s c.val) (.ld j mode) f) s) h.issues.inj fun y hy => (hw y hy).2
  have hrun := runBundle_xfer h hx hok ha hhold
  rw [xferDone] at hrun
  simp only [hwords] at hrun
  rw [unheld_putCore c.isLt] at hrun
  have hcore : coreAt { putCore c.val (stepped (coreAt s c.val) (.ld j mode) f) s with freeCtr := ctr } c.val =
    stepped (coreAt s c.val) (.ld j mode) f := coreAt_putCore c.isLt _ s
  rw [hcore] at hrun
  have hd : (stepped (coreAt s c.val) (.ld j mode) f).d = (coreAt s c.val).d := by
    unfold stepped postModded
    split <;> rfl
  have hkeep : { stepped (coreAt s c.val) (.ld j mode) f with held := none } = setA f.ar.toNat a (coreAt s c.val).onward :=
    (stepped_onward ..).trans hpost
  generalize hk : stepped (coreAt s c.val) (.ld j mode) f = k at hrun hd hkeep
  have hwj : ws.length = j := hwlen.trans hlen
  have hunheld (l : Core) (r : Nat) : rD { l with held := none } r = rD l r := rfl
  refine ⟨hlen, goes_done he hrun ⟨by simp [putCore], hctr, fun m hm => ?_, fun m hm hf => ?_, fun r hr hne => ?_, ?_⟩⟩
  · rw [settle_coreAt, coreAt_putCore_ne (Ne.symm hm)]
    exact coreAt_putCore_ne (Ne.symm hm) _ s
  · rw [settle_coreAt, coreAt_putCore c.isLt, hunheld, rD_writeLoad (by omega) (by omega)]
    exact hvals m (by omega) hf
  · rw [settle_coreAt, coreAt_putCore c.isLt, hunheld, rD_writeLoad_other hr (by rwa [hwj]), rD, hd, rD]
  · rw [settle_coreAt, coreAt_putCore c.isLt, writeLoad_eq, ← hkeep, ← hd]

end Sys2Proof.Machine
end

section
/-! Loads (R88, R99, R101, R135). -/

open Sys2Proof Sys2Proof.Machine

/-- Settles O12: the three widths of each addressing mode are one load of 1, 2 or 4 words. -/
theorem loads : Obligations.Loads := by
  intro c f w s h
  have hn : f.ar.toNat < 16 := f.ar.isLt
  have hstay (j : Nat) : postModded (coreAt s c.val) (.ld j .o) f (coreAt s c.val).onward =
      setA f.ar.toNat (rA (coreAt s c.val) f.ar.toNat) (coreAt s c.val).onward := (setA_rA (k := (coreAt s c.val).onward) hn).symm
  refine ⟨fun hofs => ?byRegister, fun hmr => ?indexed, fun hmr => ?byOffset⟩
  case byRegister =>
    have hok : okMode .p f = true := by simp [okMode, hofs]
    exact ⟨load_goes h rfl rfl (by omega) hok rfl, load_goes h rfl rfl (by omega) hok rfl, load_goes h rfl rfl (by omega) hok rfl⟩
  case indexed =>
    have hok : okMode .o f = true := by simp [okMode, hmr]
    exact ⟨load_goes h rfl rfl (by omega) hok (hstay 1), load_goes h rfl rfl (by omega) hok (hstay 2),
      load_goes h rfl rfl (by omega) hok (hstay 4)⟩
  case byOffset =>
    have hok : okMode .po f = true := by simp [okMode, hmr]
    exact ⟨load_goes h rfl rfl (by omega) hok rfl, load_goes h rfl rfl (by omega) hok rfl, load_goes h rfl rfl (by omega) hok rfl⟩
end

section
/-! The post-modify function (R86). -/

namespace Sys2Proof.Machine

/-! ### Reversed bits -/

theorem revBits_lt (k v : Nat) : revBits k v < 2 ^ k := by
  induction k generalizing v with
  | zero => simp [revBits]
  | succ k ih =>
    have hlow := ih (v / 2)
    have hbit : v % 2 * 2 ^ k ≤ 1 * 2 ^ k := Nat.mul_le_mul_right _ (by omega)
    rw [revBits, Nat.pow_succ]
    omega

theorem testBit_revBits {k i : Nat} (v : Nat) (hi : i < k) : (revBits k v).testBit i = v.testBit (k - 1 - i) := by
  induction k generalizing v with
  | zero => omega
  | succ k ih =>
    rw [revBits, Nat.mul_comm, Nat.testBit_two_pow_mul_add _ (revBits_lt k _)]
    split
    case isTrue h => rw [ih _ h, Nat.testBit_div_two, show k - 1 - i + 1 = k + 1 - 1 - i by omega]
    case isFalse h =>
      obtain rfl : i = k := by omega
      rw [Nat.sub_self, show i + 1 - 1 - i = 0 by omega, Nat.testBit_zero, Nat.testBit_zero, Nat.mod_mod]

/-- Reversing twice keeps the low bits. -/
theorem revBits_revBits (k v : Nat) : revBits k (revBits k v) = v % 2 ^ k := by
  refine Nat.eq_of_testBit_eq fun i => ?_
  rw [Nat.testBit_mod_two_pow]
  by_cases hi : i < k
  · rw [testBit_revBits _ hi, testBit_revBits _ (by omega), decide_eq_true hi, Bool.true_and, show k - 1 - (k - 1 - i) = i by omega]
  · rw [decide_eq_false hi, Bool.false_and]
    exact Nat.testBit_lt_two_pow (lt_of_lt_of_le (revBits_lt k _) (Nat.pow_le_pow_right (by omega) (by omega)))

/-! ### Offsets from a base -/

theorem ofNat_add_sub_toNat (b : BitVec 24) {x : Nat} (hx : x < 2 ^ 24) : (BitVec.ofNat 24 (b.toNat + x) - b).toNat = x := by
  have hb := b.isLt
  rw [BitVec.toNat_sub, BitVec.toNat_ofNat]
  omega

/-- The distance of two addresses, modulo a power of two (R86). -/
theorem sub_emod_two_pow (a b : BitVec 24) {e : Nat} (he : e ≤ 24) :
    (((a.toNat : Int) - b.toNat).emod ((2 ^ e : Nat) : Int)).toNat = (a - b).toNat % 2 ^ e := by
  have hb := b.isLt
  have hdvd : ((2 ^ e : Nat) : Int) ∣ ((2 ^ 24 : Nat) : Int) := Int.natCast_dvd_natCast.mpr (Nat.pow_dvd_pow 2 he)
  have hsub : ((a - b).toNat : Int) = ((a.toNat : Int) - b.toNat) % ((2 ^ 24 : Nat) : Int) := by
    rw [BitVec.toNat_sub]
    push_cast
    omega
  have h : ((a.toNat : Int) - b.toNat) % ((2 ^ e : Nat) : Int) = (((a - b).toNat % 2 ^ e : Nat) : Int) := by
    rw [Int.natCast_emod, hsub, Int.emod_emod_of_dvd _ hdvd]
  exact (congrArg Int.toNat h).trans (Int.toNat_natCast _)

/-- The bits that a bit-reversed step turns round (R86): none for a length below 2. -/
def revWidth (l : Nat) : Nat := if l < 2 then 0 else Nat.log2 l

theorem revWidth_le (l : BitVec 24) : revWidth l.toNat ≤ 24 := by
  unfold revWidth
  split
  · omega
  · next h => exact Nat.le_of_lt ((Nat.log2_lt (by omega)).mpr l.isLt)

/-! ### The three modes -/

/-- The offset of a bit-reversed step (R86). -/
def revStep (e : Nat) (b a : BitVec 24) (m : Int) : Nat :=
  revBits e ((revBits e ((a - b).toNat % 2 ^ e) + revBits e (m % 2 ^ e).toNat) % 2 ^ e)

theorem nextAddr_reversed {k : Core} {n : Nat} {a : BitVec 24} {m : Int} (hn : n < 4) (hb : brv k n = true) :
    nextAddr k n a m = BitVec.ofNat 24 ((rB k n).toNat + revStep (revWidth (rL k n).toNat) (rB k n) a m) := by
  have hdist := sub_emod_two_pow a (rB k n) (revWidth_le (rL k n))
  unfold revWidth at hdist
  unfold nextAddr revStep revWidth
  rw [if_pos ⟨hn, hb⟩]
  dsimp only
  rw [hdist]
  push_cast
  rfl

theorem nextAddr_circular {k : Core} {n : Nat} {a : BitVec 24} {m : Int} (hb : n < 4 → brv k n = false) (hn : n < 8)
    (hl : (rL k n).toNat ≠ 0) : nextAddr k n a m =
      BitVec.ofNat 24 ((rB k n).toNat + (((a.toNat : Int) - (rB k n).toNat + m) % (rL k n).toNat).toNat) := by
  have hno : ¬ (n < 4 ∧ brv k n = true) := fun h => by simpa [h.2] using hb h.1
  unfold nextAddr
  rw [if_neg hno, if_pos ⟨hn, hl⟩]
  rfl

theorem nextAddr_linear {k : Core} {n : Nat} {a : BitVec 24} {m : Int} (hb : n < 4 → brv k n = false)
    (hl : n < 8 → (rL k n).toNat = 0) : nextAddr k n a m = a + BitVec.ofInt 24 m := by
  have hno : ¬ (n < 4 ∧ brv k n = true) := fun h => by simpa [h.2] using hb h.1
  have hflat : ¬ (n < 8 ∧ (rL k n).toNat ≠ 0) := fun h => h.2 (hl h.1)
  unfold nextAddr
  rw [if_neg hno, if_neg hflat, BitVec.ofInt_add, BitVec.ofInt_natCast, BitVec.ofNat_toNat, BitVec.setWidth_eq]

end Sys2Proof.Machine
end

section
/-! The address function (R86). -/

open Sys2Proof Sys2Proof.Machine

/-- Settles O15: reversal is an involution on the low bits, and each mode is one offset from the base. -/
theorem nextAddress : Obligations.NextAddress := by
  refine ⟨fun k v i hi => testBit_revBits v hi, revBits_lt, fun k n a m _ =>
    ⟨fun hn hb => ?reversed, fun hn hb hl => ?circular, fun hb hl => nextAddr_linear hb hl⟩⟩
  case reversed =>
    have hlt : revStep (revWidth (rL k n).toNat) (rB k n) a m < 2 ^ revWidth (rL k n).toNat := revBits_lt ..
    have h24 : 2 ^ revWidth (rL k n).toNat ≤ 2 ^ 24 := Nat.pow_le_pow_right (by omega) (revWidth_le _)
    rw [nextAddr_reversed hn hb, ofNat_add_sub_toNat _ (by omega)]
    exact ⟨hlt, (revBits_revBits _ _).trans (Nat.mod_mod _ _)⟩
  case circular =>
    have hl24 := (rL k n).isLt
    have hpos : 0 < ((rL k n).toNat : Int) := by omega
    have hlo := Int.emod_nonneg ((a.toNat : Int) - (rB k n).toNat + m) (Int.ne_of_gt hpos)
    have hhi := Int.emod_lt_of_pos ((a.toNat : Int) - (rB k n).toNat + m) hpos
    rw [nextAddr_circular hb hn hl, ofNat_add_sub_toNat _ (by omega), Int.toNat_of_nonneg hlo]
    exact ⟨by omega, Int.emod_eq_emod_iff_emod_sub_eq_zero.mp (Int.emod_emod_of_dvd _ dvd_rfl)⟩
end

section
/-! Mailboxes: puts, gets, counts and their holds (R106, R139). -/

namespace Sys2Proof.Machine

/-! ### Held bundles -/

/-- A bundle that must wait is kept, and its core waits (R106). -/
theorem runBundle_hold {s : State} {n : Nat} {b : Bundle} {was : CoreRun} (h : Issues s n)
    (hf : bundleFault s n (coreAt s n) b (computeRes n (coreAt s n) b) = none) (hh : xferHold s n (coreAt s n) b = some was) :
    runBundle n b s = putCore n { coreAt s n with run := was, held := some b } s := by
  simp [runBundle, h.run, fetchCheck_good h, coreInject_none h.inj, hf, hh]

theorem becomes_hold {i : Instr} {s : State} {c : CoreId} {op : BitVec 5} {f : TSyl} {w : Word} {x : XOp} {was : CoreRun}
    (h : Transfers s c f w) (he : exec i s = done (runBundle c.val (mkT op f w) s)) (hx : xopOf op.toNat = some x)
    (hok : xopOk x f = true) (ha : accAddrs (coreAt s c.val) x f = [])
    (hh : xferHold s c.val (coreAt s c.val) (mkT op f w) = some was) :
    Becomes i s c { coreAt s c.val with run := was, held := some (mkT op f w) } := by
  have hf : bundleFault s c.val (coreAt s c.val) (mkT op f w) (computeRes c.val (coreAt s c.val) (mkT op f w)) = none := by
    rw [bundleFault_compIdle h.idle, xferFault_on h.idle h.pred hx hok, ha]
    rfl
  exact gives_done he (runBundle_hold h.issues hf hh)

/-- A held transfer whose wait is over commits, and its core runs on. -/
theorem retryHeld_commit {s : State} {n : Nat} {was : CoreRun} {op : BitVec 5} {f : TSyl} {w : Word} {x : XOp} (hn : n < 128)
    (hw : CompIdle w) (hp : rP (coreAt s n) f.tprd.toNat = true) (hx : xopOf op.toNat = some x) (hrun : (coreAt s n).run = was)
    (hheld : (coreAt s n).held = some (mkT op f w)) (hh : xferHold s n (coreAt s n) (mkT op f w) = none) : retryHeld n was s =
      unheld n (xferDone n { coreAt s n with run := .running } x f
        (putCore n (stepped { coreAt s n with run := .running } x f) s)) := by
  have hp' : rP { coreAt s n with run := .running } f.tprd.toNat = true := hp
  have hretry : retryHeld n was s = commit n (mkT op f w) {} (putCore n { coreAt s n with run := .running } s) := by
    simp [retryHeld, hheld, hrun, hh, computeRes_compIdle hw]
  rw [hretry, commit_compIdle hn hw hx, coreAt_putCore hn, putCore_putCore, if_pos hp']

/-! ### When a mailbox transfer waits -/

theorem xferHold_mbput {s : State} {n : Nat} {k : Core} {f : TSyl} {w : Word} (hw : CompIdle w) (hp : rP k f.tprd.toNat = true) :
    xferHold s n k (mkT 0x18#5 f w) = if 4 ≤ (coreAt s (n / 8 * 8 + f.ar.toNat)).mbox.length then some .putHeld else none := by
  rw [xferHold, xferOn_compIdle hw, hp, xferOf_compIdle hw]
  rfl

theorem xferHold_mbget {s : State} {n : Nat} {k : Core} {f : TSyl} {w : Word} (hw : CompIdle w) (hp : rP k f.tprd.toNat = true) :
    xferHold s n k (mkT 0x19#5 f w) = if k.mbox.isEmpty then some .getHeld else none := by
  rw [xferHold, xferOn_compIdle hw, hp, xferOf_compIdle hw]
  rfl

theorem xferHold_mbcnt {s : State} {n : Nat} {k : Core} {f : TSyl} {w : Word} (hw : CompIdle w) (hp : rP k f.tprd.toNat = true) :
    xferHold s n k (mkT 0x1A#5 f w) = none := by
  rw [xferHold, xferOn_compIdle hw, hp, xferOf_compIdle hw]
  rfl

/-! ### What a mailbox transfer does -/

@[simp] theorem writeLoad_one (dr : Nat) (v : Word) (k : Core) : writeLoad {} dr [v] k = setD dr v k := rfl

theorem onward_running (k : Core) : ({ k with run := .running } : Core).onward = { k.onward with run := .running } := rfl

/-- The core that has taken the first word of its mailbox. -/
theorem writeLoad_mbget {k : Core} {v : Word} {vs : List Word} (dr : Nat) (f : TSyl) (h : k.mbox = v :: vs) :
    { writeLoad {} dr [k.mbox.headD 0#32] { stepped k .mbget f with mbox := (stepped k .mbget f).mbox.tail } with held := none } =
      setD dr v { k.onward with mbox := vs } := by
  have hmbox : (stepped k .mbget f).mbox = k.mbox := rfl
  rw [hmbox, h]
  rfl

theorem withCores_putCore (v : Vector Core 128) (n : Nat) (k : Core) (s : State) :
    { putCore n k s with cores := v } = { s with cores := v } := rfl

/-- The effect of a put of `v` to the mailbox of core `m` by core `n`, which goes on as `k` (R106). -/
structure Put (s t : State) (n m : Nat) (v : Word) (k : Core) : Prop where
  box : (coreAt t m).mbox = (coreAt s m).mbox ++ [v]
  others : ∀ i, i ≠ m → (coreAt t i).mbox = (coreAt s i).mbox
  self : { coreAt t n with mbox := k.mbox } = k
  frame : { t with cores := s.cores } = s
  cores : ∀ i, i ≠ n → { coreAt t i with mbox := (coreAt s i).mbox } = coreAt s i

theorem mailPut_put {s : State} {n m : Nat} (v : Word) {k : Core} (hn : n < 128) (hm : m < 128) (hk : k.mbox = (coreAt s n).mbox) :
    Put s (unheld n (mailPut m v (putCore n k s))) n m v { k with held := none } := by
  by_cases hnm : m = n
  case pos =>
    subst hnm
    have ht : unheld m (mailPut m v (putCore m k s)) = putCore m { k with mbox := k.mbox ++ [v], held := none } s := by
      rw [mailPut, coreAt_putCore hn, putCore_putCore, unheld_putCore hn]
    rw [ht]
    have hat (i : Nat) (hi : i ≠ m) : coreAt (putCore m { k with mbox := k.mbox ++ [v], held := none } s) i = coreAt s i :=
      coreAt_putCore_ne (Ne.symm hi) _ s
    constructor
    case box => rw [coreAt_putCore hm, hk]
    case others => exact fun i hi => by rw [hat i hi]
    case self => rw [coreAt_putCore hm]
    case frame => rfl
    case cores => exact fun i hi => by rw [hat i hi]
  case neg =>
    have ht : unheld n (mailPut m v (putCore n k s)) =
        putCore n { k with held := none } (putCore m { coreAt s m with mbox := (coreAt s m).mbox ++ [v] } (putCore n k s)) := by
      rw [unheld, mailPut, coreAt_putCore_ne hnm, coreAt_putCore hn, coreAt_putCore_ne (Ne.symm hnm)]
    rw [ht]
    generalize hu : putCore m { coreAt s m with mbox := (coreAt s m).mbox ++ [v] } (putCore n k s) = u
    have hat (i : Nat) (hi : i ≠ n) : coreAt (putCore n { k with held := none } u) i = coreAt u i := coreAt_putCore_ne (Ne.symm hi) _ u
    have hum : coreAt u m = { coreAt s m with mbox := (coreAt s m).mbox ++ [v] } := by rw [← hu, coreAt_putCore hm]
    have hui (i : Nat) (hi : i ≠ n) (him : i ≠ m) : coreAt u i = coreAt s i := by
      rw [← hu, coreAt_putCore_ne (Ne.symm him), coreAt_putCore_ne (Ne.symm hi)]
    constructor
    case box => rw [hat m hnm, hum]
    case others =>
      intro i him
      by_cases hi : i = n
      · rw [hi, coreAt_putCore hn, hk]
      · rw [hat i hi, hui i hi him]
    case self => rw [coreAt_putCore hn]
    case frame => rw [← hu, withCores_putCore, withCores_putCore, withCores_putCore]
    case cores =>
      intro i hi
      rw [hat i hi]
      by_cases him : i = m
      · rw [him, hum]
      · rw [hui i hi him]

/-- A command that puts a word: its core goes on as `k`, which is the core before the bundle, running. -/
theorem goes_put {i : Instr} {s u : State} {c : CoreId} {f : TSyl} {v : Word} {k l : Core} (he : exec i s = done u)
    (hu : u = unheld c.val (xferDone c.val k .mbput f (putCore c.val (stepped k .mbput f) s)))
    (hdst : c.val / 8 * 8 + f.ar.toNat < 128) (hv : rD k f.dr.toNat = v) (hbox : k.mbox = (coreAt s c.val).mbox) (hl : l = k) :
    Goes (exec i s) fun t =>
      (coreAt t (c.val / 8 * 8 + f.ar.toNat)).mbox = (coreAt s (c.val / 8 * 8 + f.ar.toNat)).mbox ++ [v] ∧
      (∀ n, n ≠ c.val / 8 * 8 + f.ar.toNat → (coreAt t n).mbox = (coreAt s n).mbox) ∧
      { coreAt t c.val with mbox := (coreAt s c.val).mbox } = l.onward ∧
      { t with cores := s.cores, host := s.host, out := s.out } = s ∧
      ∀ n, n ≠ c.val → { coreAt t n with mbox := (coreAt s n).mbox } = coreAt s n := by
  have hput := mailPut_put (s := s) v (k := nextPc k .seq) c.isLt hdst hbox
  have hdone : u = unheld c.val (mailPut (c.val / 8 * 8 + f.ar.toNat) v (putCore c.val (nextPc k .seq) s)) := by
    rw [hu, ← hv]
    rfl
  rw [← hdone] at hput
  obtain ⟨hmail, hothers, hself, hframe, hcores⟩ := hput
  refine goes_done he rfl ⟨hmail, hothers, ?_, congrArg (fun t : State => { t with host := s.host, out := s.out }) hframe, hcores⟩
  rw [hl, ← hbox]
  exact hself

end Sys2Proof.Machine
end

section
/-! Mailboxes (R106, R139). -/

open Sys2Proof Sys2Proof.Machine

/-- Settles O16: a put is one word more in one mailbox, a get and a count one data register, and a wait keeps the bundle. -/
theorem mailboxes : Obligations.Mailboxes := by
  intro c f w s
  have hdst (har : f.ar.toNat < 8) : c.val / 8 * 8 + f.ar.toNat < 128 := by
    have := c.isLt
    omega
  refine ⟨fun h hofs hmr har hroom => ?put, fun h hofs hmr har hfull => ?putHeld,
    fun h hofs hmr har => ⟨?count, fun hempty => ?getHeld, fun v vs hbox => ?get⟩,
    fun hw hp hofs hmr => ⟨fun hrun hheld har hroom => ?putRelease, fun v vs hrun hheld hbox => ?getRelease⟩⟩
  case put =>
    have hok : xopOk .mbput f = true := by simp [xopOk, hofs, hmr, har]
    have hrun := runBundle_xfer h (op := 0x18#5) rfl hok (by simp [accAddrs])
      ((xferHold_mbput h.idle h.pred).trans (if_neg (Nat.not_le.mpr hroom)))
    exact goes_put rfl hrun (hdst har) rfl rfl rfl
  case putHeld =>
    have hok : xopOk .mbput f = true := by simp [xopOk, hofs, hmr, har]
    exact becomes_hold h rfl rfl hok rfl ((xferHold_mbput h.idle h.pred).trans (if_pos hfull))
  case count =>
    have hok : xopOk .mbcnt f = true := by simp [xopOk, hofs, hmr, har]
    refine gives_done rfl ((runBundle_xfer h (op := 0x1A#5) rfl hok (by simp [accAddrs]) (xferHold_mbcnt h.idle h.pred)).trans ?_)
    rw [xferDone, putCore_putCore, coreAt_putCore c.isLt, unheld_putCore c.isLt]
    rfl
  case getHeld =>
    have hok : xopOk .mbget f = true := by simp [xopOk, hofs, hmr, har]
    exact becomes_hold h rfl rfl hok rfl ((xferHold_mbget h.idle h.pred).trans (if_pos (by simp [hempty])))
  case get =>
    have hok : xopOk .mbget f = true := by simp [xopOk, hofs, hmr, har]
    refine gives_done rfl ((runBundle_xfer h (op := 0x19#5) rfl hok (by simp [accAddrs])
      ((xferHold_mbget h.idle h.pred).trans (if_neg (by simp [hbox])))).trans ?_)
    rw [xferDone, putCore_putCore, coreAt_putCore c.isLt, unheld_putCore c.isLt, writeLoad_mbget _ _ hbox]
  case putRelease =>
    have hretry := retryHeld_commit c.isLt hw hp (x := .mbput) rfl hrun hheld ((xferHold_mbput hw hp).trans (if_neg (Nat.not_le.mpr hroom)))
    exact goes_put rfl hretry (hdst har) rfl rfl (coreAt_putCore c.isLt ..)
  case getRelease =>
    refine gives_done rfl ((retryHeld_commit c.isLt hw hp (x := .mbget) rfl hrun hheld
      ((xferHold_mbget hw hp).trans (if_neg (by simp [hbox])))).trans ?_)
    have hbox' : ({ coreAt s c.val with run := .running } : Core).mbox = v :: vs := hbox
    rw [xferDone, putCore_putCore, coreAt_putCore c.isLt, unheld_putCore c.isLt, writeLoad_mbget _ _ hbox', onward_running]
end

section
/-! The drains of a core's store queues (R99, R377): they read and change memory, and of the cores only the queue that drains. -/

namespace Sys2Proof.Machine

/-! ### Stores and cores -/

theorem holdWalk_putCore (n : Nat) (k : Core) (s : State) (c w : Nat) (l : List Nat) (at_ : Nat) :
    holdWalk (putCore n k s) c w l at_ = holdWalk s c w l at_ := by
  induction l generalizing at_ with
  | nil => rfl
  | cons x l ih =>
    simp only [holdWalk, ih]
    rfl

theorem holdWord_putCore (n : Nat) (k : Core) (s : State) (c w : Nat) : holdWord (putCore n k s) c w = holdWord s c w := by
  have hlen : holdLen (putCore n k s) c = holdLen s c := rfl
  simp only [holdWord, holdWalk_putCore, hlen, putCore_eng]

/-- The first write of a stroke to a carry word keeps the old value in its hold word (R377). -/
theorem writeCrew_first {s : State} {c w h : Nat} (hw : holdWord s c w = some h) (hb : tget false s.msvc.hold (crewAddr c w) = false)
    (v : Word) : writeCrew c w v s = writeWord (crewAddr c w) v { writeWord (crewAddr c h) (peek s (crewAddr c w)) s with
      msvc := { (writeWord (crewAddr c h) (peek s (crewAddr c w)) s).msvc with hold := tset false s.msvc.hold (crewAddr c w) true } } := by
  simp only [writeCrew, hw, hb, Bool.false_eq_true, if_false]

/-- Every other write of a crew word is the word alone. -/
theorem writeCrew_again {s : State} {c w : Nat} (h : holdWord s c w = none ∨ tget false s.msvc.hold (crewAddr c w) = true) (v : Word) :
    writeCrew c w v s = writeWord (crewAddr c w) v s := by
  unfold writeCrew
  rcases h with h | h
  · rw [h]
  · cases holdWord s c w with
    | none => rfl
    | some _ => simp only [h, if_true]

theorem writeCrew_putCore (n : Nat) (k : Core) (c w : Nat) (v : Word) (s : State) :
    writeCrew c w v (putCore n k s) = putCore n k (writeCrew c w v s) := by
  have hold := holdWord_putCore n k s c w
  cases hw : holdWord s c w with
  | none =>
    rw [writeCrew_again (.inl hw), writeCrew_again (.inl (hold.trans hw))]
    rfl
  | some h =>
    cases hb : tget false s.msvc.hold (crewAddr c w) with
    | true =>
      rw [writeCrew_again (.inr hb), writeCrew_again (s := putCore n k s) (.inr hb)]
      rfl
    | false =>
      rw [writeCrew_first hw hb, writeCrew_first (s := putCore n k s) (hold.trans hw) hb]
      rfl

theorem storeCrew_putCore (n : Nat) (k : Core) (a : Nat) (v : Word) (s : State) :
    storeCrew a v (putCore n k s) = putCore n k (storeCrew a v s) := writeCrew_putCore ..

theorem storeWindow_putCore (n : Nat) (k : Core) (a : Nat) (v : Word) (s : State) :
    storeWindow a v (putCore n k s) = putCore n k (storeWindow a v s) := by
  have hplane : planeUnowned (putCore n k s) a = planeUnowned s a := rfl
  simp only [storeWindow, hplane]
  split_ifs <;> rfl

theorem drainEnt_putCore (window : Bool) (n : Nat) (k : Core) (e : StoreEnt) (s : State) :
    drainEnt window e (putCore n k s) = putCore n k (drainEnt window e s) := by
  induction e generalizing s with
  | nil => rfl
  | cons x e ih =>
    cases window with
    | false => simp only [drainEnt, Bool.false_eq_true, if_false, storeCrew_putCore, ih]
    | true => simp only [drainEnt, if_true, storeWindow_putCore, ih]

theorem storeCrew_frame (a : Nat) (v : Word) (s : State) : ∃ mem msvc, storeCrew a v s = { s with mem, msvc } := by
  unfold storeCrew
  cases hw : holdWord s ((a - crewBase) / 0x200000) ((a - crewBase) % 0x200000 / 4) with
  | none => exact ⟨_, _, writeCrew_again (.inl hw) v⟩
  | some h =>
    cases hb : tget false s.msvc.hold (crewAddr ((a - crewBase) / 0x200000) ((a - crewBase) % 0x200000 / 4)) with
    | true => exact ⟨_, _, writeCrew_again (.inr hb) v⟩
    | false => exact ⟨_, _, writeCrew_first hw hb v⟩

theorem storeWindow_frame (a : Nat) (v : Word) (s : State) : ∃ mem msvc stage, storeWindow a v s = { s with mem, msvc, stage } := by
  unfold storeWindow
  split_ifs <;> exact ⟨_, _, _, rfl⟩

/-- A drained entry changes memory, its check bits and hold bits, and the stage copy where it is of the window. -/
theorem drainEnt_frame (window : Bool) (e : StoreEnt) (s : State) : ∃ mem msvc stage,
    drainEnt window e s = { s with mem, msvc, stage } ∧ (window = false → stage = s.stage) := by
  induction e generalizing s with
  | nil => exact ⟨s.mem, s.msvc, s.stage, rfl, fun _ => rfl⟩
  | cons x e ih =>
    cases window with
    | false =>
      obtain ⟨m, v, h⟩ := storeCrew_frame x.1 x.2 s
      obtain ⟨mem, msvc, stage, hrest, hstage⟩ := ih (storeCrew x.1 x.2 s)
      rw [h] at hrest hstage
      exact ⟨mem, msvc, stage, by rw [drainEnt, if_neg (by simp), h, hrest], hstage⟩
    | true =>
      obtain ⟨m, v, g, h⟩ := storeWindow_frame x.1 x.2 s
      obtain ⟨mem, msvc, stage, hrest, _⟩ := ih (storeWindow x.1 x.2 s)
      rw [h] at hrest
      exact ⟨mem, msvc, stage, by rw [drainEnt, if_pos rfl, h, hrest], by simp⟩

theorem coreAt_drainEnt (window : Bool) (e : StoreEnt) (s : State) (m : Nat) : coreAt (drainEnt window e s) m = coreAt s m := by
  obtain ⟨_, _, _, h, _⟩ := drainEnt_frame window e s
  rw [h]
  rfl

/-! ### The head of a queue -/

theorem drainHead_crew {s : State} {n : Nat} {e : StoreEnt} {q : List StoreEnt} (h : (coreAt s n).crewQ = e :: q) :
    drainHead n false s = putCore n { coreAt s n with crewQ := q, crewTry := 0 } (drainEnt false e s) := by
  rw [← drainEnt_putCore]
  simp [drainHead, h]

theorem drainHead_win {s : State} {n : Nat} {e : StoreEnt} {q : List StoreEnt} (h : (coreAt s n).winQ = e :: q) :
    drainHead n true s = putCore n { coreAt s n with winQ := q, winTry := 0 } (drainEnt true e s) := by
  rw [← drainEnt_putCore]
  simp [drainHead, h]

theorem drainHead_crew_nil {s : State} {n : Nat} (h : (coreAt s n).crewQ = []) : drainHead n false s = s := by
  simp [drainHead, h]

theorem drainHead_win_nil {s : State} {n : Nat} (h : (coreAt s n).winQ = []) : drainHead n true s = s := by
  simp [drainHead, h]

/-- The core of a crew queue that drains: its head goes. -/
theorem coreAt_drainHead_crew {n : Nat} (hn : n < 128) (s : State) : ∃ i,
    coreAt (drainHead n false s) n = { coreAt s n with crewQ := (coreAt s n).crewQ.tail, crewTry := i } := by
  cases h : (coreAt s n).crewQ with
  | nil => exact ⟨(coreAt s n).crewTry, by rw [drainHead_crew_nil h, List.tail_nil, ← h]⟩
  | cons e q => exact ⟨0, by rw [drainHead_crew h, coreAt_putCore hn, List.tail_cons]⟩

theorem coreAt_drainHead_win {n : Nat} (hn : n < 128) (s : State) : ∃ i,
    coreAt (drainHead n true s) n = { coreAt s n with winQ := (coreAt s n).winQ.tail, winTry := i } := by
  cases h : (coreAt s n).winQ with
  | nil => exact ⟨(coreAt s n).winTry, by rw [drainHead_win_nil h, List.tail_nil, ← h]⟩
  | cons e q => exact ⟨0, by rw [drainHead_win h, coreAt_putCore hn, List.tail_cons]⟩

theorem coreAt_drainHead_ne {m n : Nat} (h : m ≠ n) (window : Bool) (s : State) : coreAt (drainHead n window s) m = coreAt s m := by
  cases window with
  | false =>
    cases hq : (coreAt s n).crewQ with
    | nil => rw [drainHead_crew_nil hq]
    | cons e q => rw [drainHead_crew hq, coreAt_putCore_ne (Ne.symm h), coreAt_drainEnt]
  | true =>
    cases hq : (coreAt s n).winQ with
    | nil => rw [drainHead_win_nil hq]
    | cons e q => rw [drainHead_win hq, coreAt_putCore_ne (Ne.symm h), coreAt_drainEnt]

/-! ### Both queues -/

/-- The two states differ in core `n` only, whose queues agree. -/
def SameQueues (n : Nat) (s t : State) : Prop :=
  ∃ k, t = putCore n k s ∧ k.crewQ = (coreAt s n).crewQ ∧ k.winQ = (coreAt s n).winQ

theorem SameQueues.drainHead {n : Nat} {s t : State} (hn : n < 128) (h : SameQueues n s t) (window : Bool) :
    SameQueues n (drainHead n window s) (drainHead n window t) := by
  obtain ⟨k, rfl, hcrew, hwin⟩ := h
  cases window with
  | false =>
    cases hq : (coreAt s n).crewQ with
    | nil =>
      rw [drainHead_crew_nil hq, drainHead_crew_nil (by rw [coreAt_putCore hn, hcrew, hq])]
      exact ⟨k, rfl, hcrew, hwin⟩
    | cons e q =>
      rw [drainHead_crew hq, drainHead_crew (by rw [coreAt_putCore hn, hcrew, hq]), coreAt_putCore hn, drainEnt_putCore, putCore_putCore]
      exact ⟨{ k with crewQ := q, crewTry := 0 }, by rw [putCore_putCore], by rw [coreAt_putCore hn], by rw [coreAt_putCore hn]; exact hwin⟩
  | true =>
    cases hq : (coreAt s n).winQ with
    | nil =>
      rw [drainHead_win_nil hq, drainHead_win_nil (by rw [coreAt_putCore hn, hwin, hq])]
      exact ⟨k, rfl, hcrew, hwin⟩
    | cons e q =>
      rw [drainHead_win hq, drainHead_win (by rw [coreAt_putCore hn, hwin, hq]), coreAt_putCore hn, drainEnt_putCore, putCore_putCore]
      exact ⟨{ k with winQ := q, winTry := 0 }, by rw [putCore_putCore], by rw [coreAt_putCore hn]; exact hcrew, by rw [coreAt_putCore hn]⟩

theorem SameQueues.mem {n : Nat} {s t : State} (h : SameQueues n s t) : t.mem = s.mem := by
  obtain ⟨k, rfl, _, _⟩ := h
  rfl

theorem SameQueues.drainAll {n : Nat} {s t : State} (hn : n < 128) (h : SameQueues n s t) : SameQueues n (drainAll n s) (drainAll n t) :=
  (((((h.drainHead hn false).drainHead hn false).drainHead hn false).drainHead hn false).drainHead hn true).drainHead hn true

/-- After both queues have drained they are empty, and the core is as it was (R99). -/
theorem coreAt_drainAll {n : Nat} (hn : n < 128) {s : State} (hc : (coreAt s n).crewQ.length ≤ 4) (hw : (coreAt s n).winQ.length ≤ 2) :
    ∃ i j, coreAt (drainAll n s) n = { coreAt s n with crewQ := [], winQ := [], crewTry := i, winTry := j } := by
  obtain ⟨_, h1⟩ := coreAt_drainHead_crew hn s
  obtain ⟨_, h2⟩ := coreAt_drainHead_crew hn (drainHead n false s)
  obtain ⟨_, h3⟩ := coreAt_drainHead_crew hn (drainHead n false (drainHead n false s))
  obtain ⟨i, h4⟩ := coreAt_drainHead_crew hn (drainHead n false (drainHead n false (drainHead n false s)))
  obtain ⟨_, h5⟩ := coreAt_drainHead_win hn (drainHead n false (drainHead n false (drainHead n false (drainHead n false s))))
  obtain ⟨j, h6⟩ := coreAt_drainHead_win hn (drainHead n true (drainHead n false (drainHead n false (drainHead n false (drainHead n false s)))))
  have hcrew : (coreAt s n).crewQ.tail.tail.tail.tail = [] := by
    rw [← List.length_eq_zero_iff]
    simp only [List.length_tail]
    omega
  have hwin : (coreAt s n).winQ.tail.tail = [] := by
    rw [← List.length_eq_zero_iff]
    simp only [List.length_tail]
    omega
  refine ⟨i, j, ?_⟩
  rw [drainAll, h6, h5, h4, h3, h2, h1, hcrew, hwin]

theorem coreAt_drainAll_ne {m n : Nat} (h : m ≠ n) (s : State) : coreAt (drainAll n s) m = coreAt s m := by
  simp only [drainAll, coreAt_drainHead_ne h]

end Sys2Proof.Machine
end

section
/-! Stores: local words at once, crew and window words as one entry of their queue (R83, R99, R135, R136). -/

namespace Sys2Proof.Machine

/-! ### Words written in order -/

/-- The memory after words written in order. -/
def putAll (m : List Host.Cell) (l : StoreEnt) : List Host.Cell := l.foldl (fun m e => memPutWord m e.1 e.2) m

/-- The state after words written in order. -/
def writeAll (l : StoreEnt) (s : State) : State := l.foldl (fun s e => writeWord e.1 e.2 s) s

theorem writeAll_eq (l : StoreEnt) (s : State) : ∃ ecc,
    writeAll l s = { s with mem := putAll s.mem l, msvc := { s.msvc with ecc } } := by
  induction l generalizing s with
  | nil => exact ⟨s.msvc.ecc, rfl⟩
  | cons e l ih =>
    obtain ⟨ecc, h⟩ := ih (writeWord e.1 e.2 s)
    exact ⟨ecc, h⟩

@[simp] theorem coreAt_writeAll (l : StoreEnt) (s : State) (n : Nat) : coreAt (writeAll l s) n = coreAt s n := by
  obtain ⟨_, h⟩ := writeAll_eq l s
  rw [h]
  rfl

@[simp] theorem writeAll_mem (l : StoreEnt) (s : State) : (writeAll l s).mem = putAll s.mem l := by
  obtain ⟨_, h⟩ := writeAll_eq l s
  rw [h]

theorem memGet_putAll_outside {m : List Host.Cell} {l : StoreEnt} {y : Nat} (hm : Memory.wf m = true)
    (h : ∀ e ∈ l, y < e.1 ∨ e.1 + 4 ≤ y) : memGet (putAll m l) y = memGet m y := by
  induction l generalizing m with
  | nil => rfl
  | cons e l ih =>
    rw [List.forall_mem_cons] at h
    exact (ih (memPutWord_wf hm) h.2).trans (memGet_memPutWord_outside hm h.1)

theorem memWord_putAll_outside {m : List Host.Cell} {l : StoreEnt} {a : Nat} (hm : Memory.wf m = true)
    (h : ∀ e ∈ l, a + 4 ≤ e.1 ∨ e.1 + 4 ≤ a) : memWord (putAll m l) a = memWord m a := by
  induction l generalizing m with
  | nil => rfl
  | cons e l ih =>
    rw [List.forall_mem_cons] at h
    exact (ih (memPutWord_wf hm) h.2).trans (memWord_memPutWord_outside hm h.1)

/-- A word holds the last value written to it. -/
theorem memWord_putAll {m : List Host.Cell} {l : StoreEnt} {i a : Nat} {v : Word} (hm : Memory.wf m = true) (h : l[i]? = some (a, v))
    (hlater : ∀ i', i < i' → ∀ e, l[i']? = some e → a + 4 ≤ e.1 ∨ e.1 + 4 ≤ a) : memWord (putAll m l) a = v := by
  induction l generalizing m i with
  | nil => simp at h
  | cons e l ih =>
    cases i with
    | zero =>
      obtain rfl : e = (a, v) := by simpa using h
      have hrest : ∀ e ∈ l, a + 4 ≤ e.1 ∨ e.1 + 4 ≤ a := by
        intro e he
        obtain ⟨i, hi⟩ := List.mem_iff_getElem?.mp he
        exact hlater (i + 1) (by omega) e (by simpa using hi)
      exact (memWord_putAll_outside (memPutWord_wf hm) hrest).trans (memWord_memPutWord hm)
    | succ i =>
      exact ih (memPutWord_wf hm) (by simpa using h) fun i' hi e he => hlater (i' + 1) (by omega) e (by simpa using he)

/-! ### The words of a store -/

/-- The words of a store with their regions. -/
def storeArgs (n : Nat) (k : Core) (x : XOp) (f : TSyl) : List ((Region × Nat) × Word) :=
  ((accAddrs k x f).zipIdx).map fun e => ((mapWord n k e.1).getD (.data, 0), rD k (f.dr.toNat + e.2))

theorem storeArgs_words (n : Nat) (k : Core) (x : XOp) (f : TSyl) :
    ((storeArgs n k x f).map fun e => (e.1.2, e.2)) = storeList n k x f := by
  rw [storeArgs, storeList, wordsAt, List.zipIdx_map, List.map_map, List.map_map]
  rfl

theorem storeArgs_region {r : Region} {n : Nat} {k : Core} {x : XOp} {f : TSyl} (h : AllIn r n k x f) :
    ∀ e ∈ storeArgs n k x f, e.1.1 = r := by
  intro e he
  obtain ⟨y, hy, rfl⟩ := List.mem_map.mp he
  obtain ⟨a, ha⟩ := h y.1 (List.fst_mem_of_mem_zipIdx hy)
  rw [ha]
  rfl

theorem storeList_length (n : Nat) (k : Core) (j : Nat) (mode : AMode) (f : TSyl) : (storeList n k (.st j mode) f).length = j := by
  rw [storeList, List.length_map, List.length_zipIdx, wordsAt, List.length_map, accAddrs_st_length]

theorem wordsAt_st_length (n : Nat) (k : Core) (j : Nat) (mode : AMode) (f : TSyl) : (wordsAt n k (.st j mode) f).length = j := by
  rw [wordsAt, List.length_map, accAddrs_st_length]

theorem storeList_getElem? {n : Nat} {k : Core} {j : Nat} {mode : AMode} {f : TSyl} {m : Nat} (hm : m < j) :
    (storeList n k (.st j mode) f)[m]? = some ((wordsAt n k (.st j mode) f).getD m 0, rD k (f.dr.toNat + m)) := by
  have hlen : m < (wordsAt n k (.st j mode) f).length := by rwa [wordsAt_st_length]
  simp [storeList, List.getD, List.getElem?_eq_getElem hlen]

/-- Local data words lie at multiples of 4 (R84). -/
theorem wordsAt_data_aligned {n : Nat} {k : Core} {x : XOp} {f : TSyl} (h : AllIn .data n k x f) : ∀ b ∈ wordsAt n k x f, b % 4 = 0 := by
  intro b hb
  obtain ⟨y, hy, rfl⟩ := List.mem_map.mp hb
  obtain ⟨a, ha⟩ := h y hy
  rw [ha, Option.getD_some]
  unfold mapWord at ha
  split_ifs at ha
  · obtain rfl : dataAddr n y = a := by simpa using ha
    simp only [dataAddr, coreBase]
    omega
  · simp at ha
  · simp at ha

/-! ### Queues -/

theorem enqueue_nil (n : Nat) (window : Bool) (s : State) : enqueue n window [] s = s := rfl

theorem enqueue_crew {s : State} {n : Nat} {e : StoreEnt} (he : e ≠ []) (h : (coreAt s n).crewQ.length < 4) :
    enqueue n false e s = putCore n { coreAt s n with crewQ := (coreAt s n).crewQ ++ [e] } s := by
  simp [enqueue, he, Nat.not_le.mpr h]

theorem enqueue_win {s : State} {n : Nat} {e : StoreEnt} (he : e ≠ []) (h : (coreAt s n).winQ.length < 2) :
    enqueue n true e s = putCore n { coreAt s n with winQ := (coreAt s n).winQ ++ [e] } s := by
  simp [enqueue, he, Nat.not_le.mpr h]

/-- A full queue gives up its head first (R99). -/
theorem enqueue_crew_full {s : State} {n : Nat} {e e' : StoreEnt} {q : List StoreEnt} (hn : n < 128) (he : e ≠ [])
    (h : (coreAt s n).crewQ = e' :: q) (hq : q.length = 3) :
    enqueue n false e s = putCore n { coreAt s n with crewQ := q ++ [e], crewTry := 0 } (drainEnt false e' s) := by
  simp [enqueue, he, h, hq, drainHead_crew h, coreAt_putCore hn]

theorem enqueue_win_full {s : State} {n : Nat} {e e' : StoreEnt} {q : List StoreEnt} (hn : n < 128) (he : e ≠ [])
    (h : (coreAt s n).winQ = e' :: q) (hq : q.length = 1) :
    enqueue n true e s = putCore n { coreAt s n with winQ := q ++ [e], winTry := 0 } (drainEnt true e' s) := by
  simp [enqueue, he, h, hq, drainHead_win h, coreAt_putCore hn]

/-! ### One region -/

/-- The words of a store in one region, and in the others none. -/
theorem filter_region {r r' : Region} {l : List ((Region × Nat) × Word)} (h : ∀ e ∈ l, e.1.1 = r) :
    (l.filter fun e => e.1.1 == r') = if r = r' then l else [] := by
  split
  · next hr => exact List.filter_eq_self.mpr fun e he => by simp [h e he, hr]
  · next hr => exact List.filter_eq_nil_iff.mpr fun e he => by simp [h e he, hr]

theorem storeWords_data {n : Nat} {l : List ((Region × Nat) × Word)} {s : State} (h : ∀ e ∈ l, e.1.1 = .data) :
    storeWords n l s = writeAll (l.map fun e => (e.1.2, e.2)) s := by
  simp only [storeWords, filter_region h, if_true, reduceCtorEq, if_false, List.map_nil, enqueue_nil, writeAll, List.foldl_map]

theorem storeWords_crew {n : Nat} {l : List ((Region × Nat) × Word)} {s : State} (h : ∀ e ∈ l, e.1.1 = .crew) :
    storeWords n l s = enqueue n false (l.map fun e => (e.1.2, e.2)) s := by
  simp only [storeWords, filter_region h, if_true, reduceCtorEq, if_false, List.map_nil, enqueue_nil, List.foldl_nil]

theorem storeWords_window {n : Nat} {l : List ((Region × Nat) × Word)} {s : State} (h : ∀ e ∈ l, e.1.1 = .window) :
    storeWords n l s = enqueue n true (l.map fun e => (e.1.2, e.2)) s := by
  simp only [storeWords, filter_region h, if_true, reduceCtorEq, if_false, List.map_nil, enqueue_nil, List.foldl_nil]

/-! ### The command -/

/-- `i` is a store of `j` words that leaves `a` in its address register. -/
structure IsStore (i : Instr) (s : State) (c : CoreId) (f : TSyl) (w : Word) (j : Nat) (mode : AMode) (a : BitVec 24) : Prop where
  issue : Transfers s c f w
  runs : ∃ op : BitVec 5, exec i s = done (runBundle c.val (mkT op f w) s) ∧ xopOf op.toNat = some (.st j mode)
  form : okMode mode f = true
  post : postModded (coreAt s c.val) (.st j mode) f (coreAt s c.val).onward = setA f.ar.toNat a (coreAt s c.val).onward
  words : 0 < j

theorem xferHold_st {s : State} {n : Nat} {k : Core} {op : BitVec 5} {f : TSyl} {w : Word} {j : Nat} {mode : AMode} (hw : CompIdle w)
    (hx : xopOf op.toNat = some (.st j mode)) : xferHold s n k (mkT op f w) = none := by
  rw [xferHold, xferOf_compIdle hw, hx]
  split <;> rfl

theorem stepped_queues (k : Core) (x : XOp) (f : TSyl) : (stepped k x f).crewQ = k.crewQ ∧ (stepped k x f).winQ = k.winQ := by
  unfold stepped postModded
  split <;> exact ⟨rfl, rfl⟩

/-- A store whose words all lie in one region. -/
theorem IsStore.run {i : Instr} {s : State} {c : CoreId} {f : TSyl} {w : Word} {j : Nat} {mode : AMode} {a : BitVec 24} {r : Region}
    (h : IsStore i s c f w j mode a) (hr : AllIn r c.val (coreAt s c.val) (.st j mode) f) : exec i s = done (unheld c.val
      (storeWords c.val (storeArgs c.val (coreAt s c.val) (.st j mode) f) (putCore c.val (stepped (coreAt s c.val) (.st j mode) f) s))) := by
  obtain ⟨op, he, hx⟩ := h.runs
  rw [he, runBundle_xfer h.issue hx h.form (fun y hy => ?_) (xferHold_st h.issue.idle hx)]
  · rfl
  · obtain ⟨b, hb⟩ := hr y hy
    rw [hb]
    rfl

section
variable {i : Instr} {s : State} {c : CoreId} {f : TSyl} {w : Word} {j : Nat} {mode : AMode} {a : BitVec 24}

theorem IsStore.ent_ne (h : IsStore i s c f w j mode a) : storeList c.val (coreAt s c.val) (.st j mode) f ≠ [] := by
  intro hnil
  have hlen := storeList_length c.val (coreAt s c.val) j mode f
  rw [hnil] at hlen
  exact absurd hlen (Nat.ne_of_lt h.words)

/-- The core that a store's bundle leaves, whatever has become of its queues. -/
theorem IsStore.kept (h : IsStore i s c f w j mode a) :
    { stepped (coreAt s c.val) (.st j mode) f with held := none } = setA f.ar.toNat a (coreAt s c.val).onward :=
  (stepped_onward ..).trans h.post

theorem IsStore.crew (h : IsStore i s c f w j mode a) (hr : AllIn .crew c.val (coreAt s c.val) (.st j mode) f)
    (hq : (coreAt s c.val).crewQ.length < 4) : Becomes i s c { setA f.ar.toNat a (coreAt s c.val).onward with
      crewQ := (coreAt s c.val).crewQ ++ [storeList c.val (coreAt s c.val) (.st j mode) f] } := by
  obtain ⟨hcrew, _⟩ := stepped_queues (coreAt s c.val) (.st j mode) f
  refine gives_done (h.run hr) ?_
  rw [storeWords_crew (storeArgs_region hr), storeArgs_words, enqueue_crew h.ent_ne (by rwa [coreAt_putCore c.isLt, hcrew]),
    coreAt_putCore c.isLt, putCore_putCore, unheld_putCore c.isLt, hcrew, ← h.kept]

theorem IsStore.window (h : IsStore i s c f w j mode a) (hr : AllIn .window c.val (coreAt s c.val) (.st j mode) f)
    (hq : (coreAt s c.val).winQ.length < 2) : Becomes i s c { setA f.ar.toNat a (coreAt s c.val).onward with
      winQ := (coreAt s c.val).winQ ++ [storeList c.val (coreAt s c.val) (.st j mode) f] } := by
  obtain ⟨_, hwin⟩ := stepped_queues (coreAt s c.val) (.st j mode) f
  refine gives_done (h.run hr) ?_
  rw [storeWords_window (storeArgs_region hr), storeArgs_words, enqueue_win h.ent_ne (by rwa [coreAt_putCore c.isLt, hwin]),
    coreAt_putCore c.isLt, putCore_putCore, unheld_putCore c.isLt, hwin, ← h.kept]

theorem IsStore.crew_full (h : IsStore i s c f w j mode a) (hr : AllIn .crew c.val (coreAt s c.val) (.st j mode) f) {e : StoreEnt}
    {q : List StoreEnt} (hq : (coreAt s c.val).crewQ = e :: q) (hlen : q.length = 3) : Goes (exec i s) fun t =>
      coreAt t c.val = { setA f.ar.toNat a (coreAt s c.val).onward with
        crewQ := q ++ [storeList c.val (coreAt s c.val) (.st j mode) f], crewTry := 0 } ∧
      t.mem = (drainHead c.val false s).mem ∧ t.stage = s.stage := by
  obtain ⟨hcrew, _⟩ := stepped_queues (coreAt s c.val) (.st j mode) f
  obtain ⟨_, _, _, hdrain, hstage⟩ := drainEnt_frame false e s
  have hrun := h.run hr
  rw [storeWords_crew (storeArgs_region hr), storeArgs_words,
    enqueue_crew_full c.isLt h.ent_ne (by rw [coreAt_putCore c.isLt, hcrew, hq]) hlen, coreAt_putCore c.isLt, drainEnt_putCore,
    putCore_putCore, unheld_putCore c.isLt] at hrun
  refine goes_done hrun rfl ⟨?_, ?_, ?_⟩
  · rw [settle_coreAt, coreAt_putCore c.isLt, ← h.kept]
  · rw [settle_mem, putCore_mem, drainHead_crew hq, putCore_mem]
  · rw [settle_stage, putCore_stage, hdrain]
    exact hstage rfl

theorem IsStore.window_full (h : IsStore i s c f w j mode a) (hr : AllIn .window c.val (coreAt s c.val) (.st j mode) f) {e : StoreEnt}
    {q : List StoreEnt} (hq : (coreAt s c.val).winQ = e :: q) (hlen : q.length = 1) : Goes (exec i s) fun t =>
      coreAt t c.val = { setA f.ar.toNat a (coreAt s c.val).onward with
        winQ := q ++ [storeList c.val (coreAt s c.val) (.st j mode) f], winTry := 0 } ∧
      t.mem = (drainHead c.val true s).mem ∧ t.stage = (drainHead c.val true s).stage := by
  obtain ⟨_, hwin⟩ := stepped_queues (coreAt s c.val) (.st j mode) f
  have hrun := h.run hr
  rw [storeWords_window (storeArgs_region hr), storeArgs_words,
    enqueue_win_full c.isLt h.ent_ne (by rw [coreAt_putCore c.isLt, hwin, hq]) hlen, coreAt_putCore c.isLt, drainEnt_putCore,
    putCore_putCore, unheld_putCore c.isLt] at hrun
  refine goes_done hrun rfl ⟨?_, ?_, ?_⟩
  · rw [settle_coreAt, coreAt_putCore c.isLt, ← h.kept]
  · rw [settle_mem, putCore_mem, drainHead_win hq, putCore_mem]
  · rw [settle_stage, putCore_stage, drainHead_win hq, putCore_stage]

theorem IsStore.data (h : IsStore i s c f w j mode a) (hm : MemoryOk s) (hr : AllIn .data c.val (coreAt s c.val) (.st j mode) f) :
    Goes (exec i s) fun t =>
      { t with mem := s.mem, cores := s.cores, host := s.host, out := s.out, msvc := { t.msvc with ecc := s.msvc.ecc } } = s ∧
      (∀ m, m ≠ c.val → coreAt t m = coreAt s m) ∧ coreAt t c.val = setA f.ar.toNat a (coreAt s c.val).onward ∧
      (∀ m, m < j → (∀ m', m < m' → m' < j →
          (wordsAt c.val (coreAt s c.val) (.st j mode) f).getD m' 0 ≠ (wordsAt c.val (coreAt s c.val) (.st j mode) f).getD m 0) →
        memWord t.mem ((wordsAt c.val (coreAt s c.val) (.st j mode) f).getD m 0) = rD (coreAt s c.val) (f.dr.toNat + m)) ∧
      ∀ y, (∀ b ∈ wordsAt c.val (coreAt s c.val) (.st j mode) f, y < b ∨ b + 4 ≤ y) → memGet t.mem y = memGet s.mem y := by
  obtain ⟨hwf, _⟩ := hm
  obtain ⟨ecc, hall⟩ := writeAll_eq (storeList c.val (coreAt s c.val) (.st j mode) f) (putCore c.val (stepped (coreAt s c.val) (.st j mode) f) s)
  have hrun := h.run hr
  rw [storeWords_data (storeArgs_region hr), storeArgs_words] at hrun
  have haligned (m : Nat) (hmj : m < j) : (wordsAt c.val (coreAt s c.val) (.st j mode) f).getD m 0 % 4 = 0 := by
    have hlen : m < (wordsAt c.val (coreAt s c.val) (.st j mode) f).length := by rwa [wordsAt_st_length]
    rw [List.getD_eq_getElem _ _ hlen]
    exact wordsAt_data_aligned hr _ (List.getElem_mem hlen)
  refine goes_done hrun rfl ⟨?frame, fun m hne => ?others, ?self, fun m hmj hlast => ?values, fun y hy => ?outside⟩
  case frame =>
    rw [hall]
    rfl
  case others => rw [settle_coreAt, unheld, coreAt_putCore_ne (Ne.symm hne), coreAt_writeAll, coreAt_putCore_ne (Ne.symm hne)]
  case self => rw [settle_coreAt, unheld, coreAt_putCore c.isLt, coreAt_writeAll, coreAt_putCore c.isLt, ← h.kept]
  case values =>
    rw [settle_mem, unheld, putCore_mem, writeAll_mem]
    refine memWord_putAll hwf (storeList_getElem? hmj) fun m' hm' e he => ?_
    have hj' : m' < j := by
      have := (List.getElem?_eq_some_iff.mp he).1
      rwa [storeList_length] at this
    rw [storeList_getElem? hj'] at he
    obtain rfl := Option.some.inj he
    have hne := hlast m' hm' hj'
    have h1 := haligned m hmj
    have h2 := haligned m' hj'
    dsimp only
    omega
  case outside =>
    rw [settle_mem, unheld, putCore_mem, writeAll_mem]
    refine memGet_putAll_outside hwf fun e he => ?_
    obtain ⟨x, hx, rfl⟩ := List.mem_map.mp he
    exact hy _ (List.fst_mem_of_mem_zipIdx hx)

end

end Sys2Proof.Machine
end

section
/-! Stores (R83, R99, R135, R136). -/

open Sys2Proof Sys2Proof.Machine

/-- Settles O13: the three widths of each addressing mode are one store, and its region says where its words go. -/
theorem stores : Obligations.Stores := by
  intro c f w s h hm
  have hn : f.ar.toNat < 16 := f.ar.isLt
  have hstay (j : Nat) : postModded (coreAt s c.val) (.st j .o) f (coreAt s c.val).onward =
      setA f.ar.toNat (rA (coreAt s c.val) f.ar.toNat) (coreAt s c.val).onward := (setA_rA (k := (coreAt s c.val).onward) hn).symm
  have all {i : Instr} {j : Nat} {mode : AMode} {a : BitVec 24} (hs : IsStore i s c f w j mode a) :=
    And.intro (hs.data hm) (And.intro hs.crew (And.intro hs.window (And.intro
      (fun hr (e : StoreEnt) (q : List StoreEnt) hq hlen => hs.crew_full hr (e := e) (q := q) hq hlen)
      (fun hr (e : StoreEnt) (q : List StoreEnt) hq hlen => hs.window_full hr (e := e) (q := q) hq hlen))))
  refine ⟨fun hofs => ?byRegister, fun hmr => ?indexed, fun hmr => ?byOffset⟩
  case byRegister =>
    have hok : okMode .p f = true := by simp [okMode, hofs]
    exact ⟨all ⟨h, ⟨_, rfl, rfl⟩, hok, rfl, by omega⟩, all ⟨h, ⟨_, rfl, rfl⟩, hok, rfl, by omega⟩,
      all ⟨h, ⟨_, rfl, rfl⟩, hok, rfl, by omega⟩⟩
  case indexed =>
    have hok : okMode .o f = true := by simp [okMode, hmr]
    exact ⟨all ⟨h, ⟨_, rfl, rfl⟩, hok, hstay 1, by omega⟩, all ⟨h, ⟨_, rfl, rfl⟩, hok, hstay 2, by omega⟩,
      all ⟨h, ⟨_, rfl, rfl⟩, hok, hstay 4, by omega⟩⟩
  case byOffset =>
    have hok : okMode .po f = true := by simp [okMode, hmr]
    exact ⟨all ⟨h, ⟨_, rfl, rfl⟩, hok, rfl, by omega⟩, all ⟨h, ⟨_, rfl, rfl⟩, hok, rfl, by omega⟩,
      all ⟨h, ⟨_, rfl, rfl⟩, hok, rfl, by omega⟩⟩
end

section
/-! Barriers, the wait for the stroke's end and sleep (R104, R105, R488). -/

namespace Sys2Proof.Machine

/-! ### Arriving at a barrier -/

/-- The crew notes that core `n` has arrived at barrier `j` (R105). -/
def arrivedAt (n j : Nat) (s : State) : State :=
  { s with crews := vput s.crews (n / 8) { crewAt s (n / 8) with
      arrived := vput (crewAt s (n / 8)).arrived j (vget 0#8 (crewAt s (n / 8)).arrived j ||| BitVec.ofNat 8 (2 ^ (n % 8))) } }

theorem arrivedAt_coreAt (n j : Nat) (s : State) (m : Nat) : coreAt (arrivedAt n j s) m = coreAt s m := rfl

theorem ctlAct_barrier (n j : Nat) (s : State) : ctlAct n (.barrier j) s =
    putCore n { coreAt (drainAll n s) n with run := .atBarrier j } (arrivedAt n j (drainAll n s)) := rfl

theorem getLsbD_own_bit (x : BitVec 8) (n : Nat) : (x ||| BitVec.ofNat 8 (2 ^ (n % 8))).getLsbD (n % 8) = true := by
  have hn : n % 8 < 8 := Nat.mod_lt _ (by omega)
  rw [BitVec.getLsbD_or, BitVec.getLsbD_ofNat, Nat.testBit_two_pow_self, decide_eq_true hn, Bool.and_true, Bool.or_true]

/-- A control instruction without a target under its field checks (R133). -/
theorem okBare_of {f : CSyl} (hdst : f.dst = 0#5) (hsa : f.sa = 0#5) (hsb : f.sb = 0#5) (hshr : f.shr = 0#3) (hprd : f.prd = 0#3)
    (hli : f.li = false) : okBare f = true := by
  simp [okBare, hdst, hsa, hsb, hshr, hprd, hli]

/-! ### The release -/

/-- Every member has arrived where each of the mask's bits is one of the arrivals' (R105). -/
theorem and_eq_left_of_bits {mask : Nat} {arr : BitVec 8} (h : ∀ i, mask.testBit i = true → i < 8 ∧ arr.getLsbD i = true) :
    mask &&& arr.toNat = mask := by
  refine Nat.eq_of_testBit_eq fun i => ?_
  rw [Nat.testBit_land]
  cases hm : mask.testBit i with
  | false => rfl
  | true => rw [Bool.true_and]; exact (h i hm).2

/-- Four bits that are all set read 15. -/
theorem fld_four_set {x : BitVec 16} {lo : Nat} (h : ∀ i, i < 4 → x.getLsbD (lo + i) = true) :
    fld (wOf x.toNat) (lo + 3) lo = 15 := by
  have hx : (wOf x.toNat).toNat = x.toNat := by
    have := x.isLt
    rw [wOf, BitVec.toNat_ofNat]
    omega
  rw [fld, bitsOf, hx, show lo + 3 + 1 - lo = 4 by omega]
  refine Nat.eq_of_testBit_eq fun i => ?_
  rw [Nat.testBit_mod_two_pow, Nat.testBit_div_two_pow, show 15 = 2 ^ 4 - 1 from rfl, Nat.testBit_two_pow_sub_one]
  by_cases hi : i < 4
  · have := h i hi
    rw [decide_eq_true hi, Bool.true_and, Nat.add_comm]
    exact this
  · rw [decide_eq_false hi, Bool.false_and]

theorem barrierReady_of {s : State} {cr : CrewId} {j : Fin 8} (hmask : barMask s cr.val j.val ≠ 0)
    (harr : ∀ i, (barMask s cr.val j.val).testBit i = true → i < 8 ∧ (vget 0#8 (crewAt s cr.val).arrived j.val).getLsbD i = true)
    (hslices : j.val = 7 → ∀ i, i < 4 → s.mix.done.getLsbD (cr.val / 4 * 4 + i) = true) : barrierReady s cr.val j.val = true := by
  have hlast : (j.val != 7 || fld (wOf s.mix.done.toNat) (cr.val / 4 * 4 + 3) (cr.val / 4 * 4) == 15) = true := by
    by_cases h7 : j.val = 7
    · simp [fld_four_set (hslices h7)]
    · simp [h7]
  simp only [barrierReady, and_eq_left_of_bits harr, hlast]
  simpa using hmask

end Sys2Proof.Machine
end

section
/-! The ends of a core's stroke (R104, R105). -/

open Sys2Proof Sys2Proof.Machine

/-- Settles O9: arrival, release, the wait for the queues and sleep, each by what its command does to the core. -/
theorem strokeWaits : Obligations.StrokeWaits := by
  intro s c f x
  refine ⟨fun h hdst hsa hsb hshr hprd hli => ⟨fun hmd hmask hcq hwq => ?barrier, fun hmd => ?waitstroke⟩,
    fun cycles hrun hcq hwq => ?sleep, fun cr j hmask hchain harr hslices => ?release⟩
  case barrier =>
    have h3 : f.md.getLsbD 3 = false := Nat.testBit_lt_two_pow hmd
    have hr : computeRes c.val (coreAt s c.val) (mkC 0x35#6 f x) = { ctl := .barrier f.md.toNat } := by
      rw [computeRes_control (g := semBarrier) rfl rfl, semBarrier, legal_of, Nat.mod_eq_of_lt hmd]
      simp only [h3, okBare_of hdst hsa hsb hshr hprd hli]
      rfl
    have hrun := runBundle_idle c.isLt h.issues h.idle hr rfl (if_pos hmask)
    obtain ⟨i, j, hcore⟩ := coreAt_drainAll (s := putCore c.val (coreAt s c.val).onward s) c.isLt
      (by rw [coreAt_putCore c.isLt]; exact hcq) (by rw [coreAt_putCore c.isLt]; exact hwq)
    have hsame : SameQueues c.val s (putCore c.val (coreAt s c.val).onward s) := ⟨_, rfl, rfl, rfl⟩
    have hcommit : putCore c.val (committed c.val { ctl := .barrier f.md.toNat } (coreAt s c.val))
        (csrReport c.val { ctl := .barrier f.md.toNat } s) = putCore c.val (coreAt s c.val).onward s := by
      rw [committed_ctl]
      rfl
    have hcrew : c.val / 8 < 16 := by
      have := c.isLt
      omega
    refine goes_done rfl (hrun.trans (ctlAct_barrier ..)) ⟨?_, ?_, ?_, fun m hm => ?_⟩
    · rw [settle_coreAt, coreAt_putCore c.isLt, hcommit, hcore, coreAt_putCore c.isLt]
      rfl
    · rw [crewAt, settle_crews, putCore_crews, arrivedAt, vget_vput, if_pos hcrew, vget_vput, if_pos hmd]
      exact getLsbD_own_bit ..
    · rw [settle_mem, putCore_mem, hcommit]
      exact (hsame.drainAll c.isLt).mem
    · rw [settle_coreAt, coreAt_putCore_ne (Ne.symm hm), arrivedAt_coreAt, hcommit, coreAt_drainAll_ne hm, coreAt_putCore_ne (Ne.symm hm)]
  case waitstroke =>
    have hr : computeRes c.val (coreAt s c.val) (mkC 0x36#6 f x) = { ctl := .waitstroke } := by
      rw [computeRes_control (g := semWaitstroke) rfl rfl, semWaitstroke, legal_of]
      simp [okBare_of hdst hsa hsb hshr hprd hli, hmd]
    refine gives_done rfl ((runBundle_idle c.isLt h.issues h.idle hr rfl rfl).trans ?_)
    rw [committed_ctl, ctlAct, coreAt_putCore c.isLt, putCore_putCore]
    rfl
  case sleep => exact gives_done rfl (if_pos ⟨hrun, hcq, hwq⟩)
  case release =>
    have hgo : barrierRelease cr.val j.val s = barrierGo cr.val j.val s := by
      rw [barrierRelease, if_pos (barrierReady_of hmask harr hslices), if_neg hchain]
    refine goes_done rfl hgo ⟨?_, rfl, fun i hi => ?_⟩
    · have hcr : cr.val < 16 := cr.isLt
      rw [crewAt, settle_crews, barrierGo, vget_vput, if_pos hcr, vget_vput, if_pos j.isLt]
    · exact vget_vmap {} _ s.cores hi
end

section
/-! The integer, saturating and shift instructions and CLS as the core takes them (R117, R118, R122). -/

namespace Sys2Proof.Machine

/-! ### One data register, with or without SAT0 -/

theorem okInt_of {f : CSyl} (hshr : f.shr = 0#3) (hmd : f.md = 0#4) : okInt f = true := by simp [okInt, hshr, hmd]

theorem withResult_wS (d : Nat) (z : Int) (k : Core) : withResult { dw := [(d, (sat32 z).1)], sat := laneBit 0 (sat32 z).2 } k =
    { setD d (sat32 z).1 k with stat := k.stat ||| flag (sat32 z).2 0 } := by
  have hsat := laneBit_sat 0 (sat32 z).2
  simp only [Fin.val_zero] at hsat
  simp [withResult, setD, hsat]

section
variable {i : Instr} {s : State} {c : CoreId} {op : BitVec 6} {f : CSyl} {x : Word} {g : CIn → CRes} {ok : Bool}
  (h : Computes s c f x) (he : exec i s = done (runBundle c.val (mkC op f x) s)) (ho : semOf op.toNat = some g)
include h he ho

/-- A command whose syllable writes one data register and sets no flag (R117, R118). -/
theorem becomes_word {v : Word} (hok : ok = true)
    (hr : g { k := coreAt s c.val, n := c.val, f, imm := x } = legal ok (wD { k := coreAt s c.val, n := c.val, f, imm := x } v)) :
    Becomes i s c (setD f.dst.toNat v (coreAt s c.val).onward) := by
  have hb := becomes_result h he ho (hr.trans (legal_of hok)) rfl rfl rfl
  rwa [wD, withResult_dw] at hb

/-- A command whose syllable saturates an exact result (R117, R118). -/
theorem becomes_saturated {z : Int} (hok : ok = true)
    (hr : g { k := coreAt s c.val, n := c.val, f, imm := x } =
      legal ok (wS { k := coreAt s c.val, n := c.val, f, imm := x } (satLane z 0))) :
    Becomes i s c { setD f.dst.toNat (sat32 z).1 (coreAt s c.val).onward with
      stat := (coreAt s c.val).stat ||| flag (sat32 z).2 0 } := by
  have hb := becomes_result h he ho (hr.trans (legal_of hok)) rfl rfl rfl
  rwa [wS, satLane, withResult_wS] at hb

end

/-! ### Values -/

theorem ite_slt {α : Type} (a b : Word) (u v : α) : (if a.slt b then u else v) = if a.toInt < b.toInt then u else v := by
  simp only [BitVec.slt_iff_toInt_lt]

/-- The absolute value, by the sign. -/
theorem natAbs_eq_ite (z : Int) : (z.natAbs : Int) = if z < 0 then -z else z := by
  split <;> omega

/-- From count 31 on an arithmetic right shift leaves only the sign. -/
theorem ediv_two_pow_of_ge {z : Int} {n : Nat} (hlo : -2 ^ 31 ≤ z) (hhi : z < 2 ^ 31) (hn : 31 ≤ n) : z / 2 ^ n = z / 2 ^ 31 := by
  have hpow : (2 : Int) ^ 31 ≤ 2 ^ n := pow_le_pow_right₀ (by omega) hn
  rcases lt_or_ge z 0 with hz | hz
  · rw [Int.ediv_eq_neg_one_of_neg_of_le hz (by omega), Int.ediv_eq_neg_one_of_neg_of_le hz (by omega)]
  · rw [Int.ediv_eq_zero_of_lt hz (by omega), Int.ediv_eq_zero_of_lt hz hhi]

/-- SRA is the floor of the quotient, whatever the count (R118). -/
theorem sshiftRight_min_eq (a : Word) (n : Nat) : a.sshiftRight (Nat.min n 31) = BitVec.ofInt 32 (a.toInt / 2 ^ n) := by
  have hquot : a.toInt / 2 ^ Nat.min n 31 = a.toInt / 2 ^ n := by
    rcases Nat.le_total n 31 with hn | hn
    · rw [show Nat.min n 31 = n from Nat.min_eq_left hn]
    · rw [show Nat.min n 31 = 31 from Nat.min_eq_right hn, ediv_two_pow_of_ge (BitVec.le_toInt a) BitVec.toInt_lt hn]
  rw [← hquot, BitVec.sshiftRight, Int.shiftRight_eq_div_pow]
  norm_num

/-! ### Redundant sign bits -/

/-- A bit of a folded word is set where the word's bit differs from its sign. -/
theorem testBit_signFold (a : Word) {i : Nat} (hi : i < 32) : (signFold a).toNat.testBit i = (bitAt a i ^^ bitAt a 31) := by
  have hsign : (a.sshiftRight 31).getLsbD i = a.getLsbD 31 := by
    rw [BitVec.getLsbD_sshiftRight, decide_eq_false (by omega), Bool.not_false, Bool.true_and]
    split
    · rw [show i = 0 by omega]
    · rw [BitVec.msb_eq_getLsbD_last]
  rw [BitVec.testBit_toNat, signFold, BitVec.getLsbD_xor, hsign, bitAt, bitAt]

theorem signFold_lt (a : Word) : (signFold a).toNat < 2 ^ 31 := by
  refine Nat.lt_pow_two_of_testBit _ fun i hi => ?_
  rcases Nat.lt_or_ge i 32 with h | h
  · rw [show i = 31 by omega, testBit_signFold a (by omega), Bool.xor_self]
  · exact Nat.testBit_lt_two_pow (lt_of_lt_of_le (BitVec.isLt _) (Nat.pow_le_pow_right (by omega) h))

/-- What CLS counts (R122). -/
def redundantSigns (a : Word) : Nat := 31 - bitlen (signFold a).toNat

theorem bitlen_signFold_le (a : Word) : bitlen (signFold a).toNat ≤ 31 := bitlen_le (signFold_lt a)

theorem wInt_redundantSigns (a : Word) : wInt (31 - bitlen (signFold a).toNat) = wOf (redundantSigns a) := by
  have hcast : ((redundantSigns a : Nat) : Int) = 31 - bitlen (signFold a).toNat := Int.ofNat_sub (bitlen_signFold_le a)
  rw [wInt, wOf, ← hcast, BitVec.ofInt_natCast]

theorem bitAt_of_lt_redundantSigns {a : Word} {i : Nat} (h : i < redundantSigns a) : bitAt a (30 - i) = bitAt a 31 := by
  unfold redundantSigns at h
  have hzero := testBit_of_bitlen_le (n := (signFold a).toNat) (i := 30 - i) (by omega)
  rw [testBit_signFold a (by omega)] at hzero
  simpa using hzero

theorem bitAt_redundantSigns_ne {a : Word} (h : redundantSigns a < 31) : bitAt a (30 - redundantSigns a) ≠ bitAt a 31 := by
  have hle := bitlen_signFold_le a
  unfold redundantSigns at h ⊢
  have hone := testBit_bitlen (n := (signFold a).toNat) (by omega)
  rw [testBit_signFold a (by omega), show bitlen (signFold a).toNat - 1 = 30 - (31 - bitlen (signFold a).toNat) by omega] at hone
  simpa using hone

end Sys2Proof.Machine
end

section
/-! The integer instructions, the shifts and CLS (R117, R118, R122). -/

open Sys2Proof Sys2Proof.Machine

/-- Settles O1: each instruction writes one data register, the saturating ones with SAT0; SRA's floor and the sign bits that CLS counts are
the two values that need an argument. -/
theorem aluResults : Obligations.AluResults := by
  intro c f x s h hshr hmd
  have hok := okInt_of hshr hmd
  have hone (hli : f.li = false) (hsb : f.sb = 0#5) : (okInt f && !f.li && f.sb == 0#5) = true := by simp [hok, hli, hsb]
  refine ⟨fun hb => ?mov, becomes_word h rfl rfl hok rfl, becomes_word h rfl rfl hok rfl, becomes_word h rfl rfl hok rfl,
    becomes_word h rfl rfl hok rfl, becomes_word h rfl rfl hok rfl, becomes_word h rfl rfl hok rfl, ?min, ?max,
    becomes_saturated h rfl rfl hok rfl, becomes_saturated h rfl rfl hok rfl, fun hli hsb => ?abss,
    fun hli hsb => becomes_saturated h rfl rfl (hone hli hsb) rfl, becomes_saturated h rfl rfl hok rfl, becomes_word h rfl rfl hok rfl,
    becomes_word h rfl rfl hok rfl, ?sra, fun hli hsb => ?cls⟩
  case mov =>
    have hmov : (okInt f && (f.li || f.sb == 0#5)) = true := by simpa [hok] using hb
    exact becomes_word h rfl rfl hmov rfl
  case min =>
    rw [← ite_slt]
    exact becomes_word h rfl rfl hok rfl
  case max =>
    rw [← ite_slt]
    exact becomes_word h rfl rfl hok rfl
  case abss =>
    rw [← natAbs_eq_ite]
    exact becomes_saturated h rfl rfl (hone hli hsb) rfl
  case sra =>
    rw [← sshiftRight_min_eq]
    exact becomes_word h rfl rfl hok rfl
  case cls =>
    have hcls : (okInt f && f.sb == 0#5 && !f.li) = true := by simp [hok, hli, hsb]
    have hb : Becomes (.cls c f x) s c (setD f.dst.toNat (wInt (31 - bitlen (signFold (opndA (coreAt s c.val) f)).toNat))
      (coreAt s c.val).onward) := becomes_word h rfl rfl hcls rfl
    rw [wInt_redundantSigns] at hb
    refine hb.goes fun t hk _ hm _ => ⟨hm, _, ?_, hk, fun i hi => bitAt_of_lt_redundantSigns hi, bitAt_redundantSigns_ne⟩
    rw [redundantSigns]
    omega
end

section
/-! The gain groups: what ZXARM and ZXSTEP write to the four registers of a group (R128–R130). -/

namespace Sys2Proof.Machine

/-! ### The registers of a group -/

theorem lanes_all {j : Nat} (hj : j < 4) : (15#4).getLsbD j = true :=
  (mem_lanes.mp (range_four_eq_lanes ▸ List.mem_range.mpr hj)).2

theorem rD_mod (k : Core) (r : Nat) : rD k (r % 32) = rD k r := by rw [rD, rD, Nat.mod_mod]

/-- Four consecutive registers of which some are written: the others hold their own values. -/
theorem LanesTo.all {k t : Core} {d : Nat} {md : BitVec 4} {v : Nat → Word} (h : LanesTo k t d md v)
    (hv : ∀ j, j < 4 → md.getLsbD j = false → v j = rD k (d + j)) : LanesTo k t d 15#4 v := by
  obtain ⟨hin, hout⟩ := h
  refine ⟨fun j hj _ => ?_, fun r hr hne => hout r hr fun j hj _ => hne j hj (lanes_all hj)⟩
  cases hmd : md.getLsbD j with
  | true => exact hin j hj hmd
  | false =>
    rw [← rD_mod t, hout _ (Nat.mod_lt _ (by omega)), rD_mod, hv j hj hmd]
    intro i hi hon heq
    have hij : i = j := by omega
    rw [hij, hmd] at hon
    exact Bool.false_ne_true hon

/-- The words of a gain group, in register order (R128). -/
def groupWord (g tg z st : Word) : Nat → Word
  | 0 => g
  | 1 => tg
  | 2 => z
  | _ => st

/-- Core `n` has moved on, and registers `d` to `d` + 3 hold a gain group (R128). -/
def GroupHeld (s t : State) (n d : Nat) (g tg z st : Word) : Prop :=
  rD (coreAt t n) d = g ∧ rD (coreAt t n) (d + 1) = tg ∧ rD (coreAt t n) (d + 2) = z ∧ rD (coreAt t n) (d + 3) = st ∧
  (∀ r, r < 32 → (∀ j, j < 4 → (d + j) % 32 ≠ r) → rD (coreAt t n) r = rD (coreAt s n) r) ∧
  { coreAt t n with d := (coreAt s n).d } = (coreAt s n).onward ∧ t.mem = s.mem

/-- A command that writes the registers of a gain group which a mask names; the others hold the group's words already. -/
theorem goes_group {i : Instr} {s : State} {c : CoreId} {d : Nat} {md : BitVec 4} {g tg z st : Word}
    (h : Becomes i s c (withResult { dw := (lanes md).map fun j => (d + j, groupWord g tg z st j) } (coreAt s c.val).onward))
    (hv : ∀ j, j < 4 → md.getLsbD j = false → groupWord g tg z st j = rD (coreAt s c.val) (d + j)) :
    Goes (exec i s) fun t => GroupHeld s t c.val d g tg z st := by
  refine h.goes fun t hk _ hm _ => ?_
  have hlanes : LanesTo (coreAt s c.val) (coreAt t c.val) d md (groupWord g tg z st) :=
    lanesTo_vputs (by rw [hk, withResult_dws]; rfl)
  obtain ⟨hin, hout⟩ := hlanes.all hv
  exact ⟨hin 0 (by omega) rfl, hin 1 (by omega) rfl, hin 2 (by omega) rfl, hin 3 (by omega) rfl,
    fun r hr hne => hout r hr fun j hj _ => hne j hj, by rw [hk, withResult_dws]; rfl, hm⟩

/-! ### ZXARM -/

section
variable {k : Core} {n : Nat} {f : CSyl} {x : Word} (hok : okInt f = true) (hli : f.li = false)
include hok hli

/-- A new target that is the gain itself ends the step (R129). -/
theorem semZxarm_same (hb : rD k f.sb.toNat = rD k f.dst.toNat) (g z : Word) :
    semZxarm { k, n, f, imm := x } = { dw := (lanes 10#4).map fun j => (f.dst.toNat + j,
      groupWord g (rD k f.sb.toNat) z (gainStat false false (bitAt (rD k (f.dst.toNat + 3)) 29) 0) j) } := by
  simp only [semZxarm]
  rw [legal_of (by simp [hok, hli]), if_pos hb]
  rfl

/-- Another target waits for a zero crossing, 120 strokes where no number is given (R129). -/
theorem semZxarm_other (hb : rD k f.sb.toNat ≠ rD k f.dst.toNat) (g : Word) :
    semZxarm { k, n, f, imm := x } = { dw := (lanes 14#4).map fun j => (f.dst.toNat + j,
      groupWord g (rD k f.sb.toNat)
        (k.stroke + wOf (if (opndA k f).toNat % 256 = 0 then 120 else (opndA k f).toNat % 256))
        (gainStat true false (bitAt (rD k (f.dst.toNat + 3)) 29) 0) j) } := by
  simp only [semZxarm]
  rw [legal_of (by simp [hok, hli]), if_neg hb]
  rfl

end

/-! ### ZXSTEP -/

/-- The wait ends by a sign change, which takes the target at once, or by its deadline, which starts a ramp from the gain (R130). -/
theorem zxWait_eq (g t z : Word) (wait ramp flip late : Bool) (k : Nat) :
    let flips := wait && flip
    let due := wait && !flips && late
    zxWait g t z wait ramp flip late k =
      (if flips then t else g, if due then g else z, wait && !flips && !due, ramp || due, if due then 0 else k) := by
  cases wait with
  | false => simp [zxWait]
  | true =>
    cases flip with
    | true => simp [zxWait]
    | false => cases late <;> simp [zxWait]

theorem zxRamp_off (g t z : Word) (k : Nat) : zxRamp g t z false k = (g, false, k) := rfl

/-- One sample of a ramp; the 64th ends it (R130). -/
theorem zxRamp_on (g t z : Word) (k : Nat) : zxRamp g t z true k =
    (wInt (z.toInt + (t.toInt - z.toInt) * (k + 1 : Nat) / 64), k + 1 != 64, if k + 1 = 64 then 0 else k + 1) := by
  by_cases h : k = 63
  · simp [zxRamp, sra, h]
  · simp [zxRamp, sra, h]

theorem fld_lt (w : Word) (hi lo : Nat) : fld w hi lo < 2 ^ (hi + 1 - lo) := Nat.mod_lt _ (by positivity)

theorem gainStat_of_lt {k : Nat} (wait ramp neg : Bool) (hk : k < 64) :
    gainStat wait ramp neg k = flag wait 31 ||| flag ramp 30 ||| flag neg 29 ||| wOf k := by
  rw [gainStat, Nat.mod_eq_of_lt hk]

/-- G, DL or G0, and the status of a gain group after a sample, by its sign and by whether the deadline has come (R130). -/
def zxSample (g t z st : Word) (neg late : Bool) : Word × Word × Word :=
  let flips := bitAt st 31 && neg != bitAt st 29
  let due := bitAt st 31 && !flips && late
  let g0 := if due then g else z
  let q := (if due then 0 else fld st 5 0) + 1
  if bitAt st 30 || due then
    (wInt (g0.toInt + (t.toInt - g0.toInt) * q / 64), g0,
      flag (bitAt st 31 && !flips && !due) 31 ||| flag (q != 64) 30 ||| flag neg 29 ||| wOf (if q = 64 then 0 else q))
  else (if flips then t else g, z, flag (bitAt st 31 && !flips) 31 ||| flag false 30 ||| flag neg 29 ||| wOf (fld st 5 0))

/-- The wait stage and then the ramp stage of the model make one sample. -/
theorem zxSample_eq (g t z st : Word) (neg late : Bool) :
    let w := zxWait g t z (bitAt st 31) (bitAt st 30) (neg != bitAt st 29) late (fld st 5 0)
    let r := zxRamp w.1 t w.2.1 w.2.2.2.1 w.2.2.2.2
    (r.1, w.2.1, gainStat w.2.2.1 r.2.1 neg r.2.2) = zxSample g t z st neg late := by
  have hk : fld st 5 0 < 64 := fld_lt st 5 0
  unfold zxSample
  simp only [zxWait_eq]
  generalize (bitAt st 31 && neg != bitAt st 29) = flips
  generalize hdue : (bitAt st 31 && !flips && late) = due
  cases hramp : bitAt st 30 || due with
  | true =>
    have hq : (if due then 0 else fld st 5 0) < 64 := by split <;> omega
    generalize (if due then 0 else fld st 5 0) = k at hq
    have hnext : (if k + 1 = 64 then 0 else k + 1) < 64 := by split <;> omega
    rw [zxRamp_on, if_pos rfl, gainStat_of_lt _ _ _ hnext]
  | false =>
    have hoff : due = false := (Bool.or_eq_false_iff.mp hramp).2
    subst hoff
    simp [zxRamp_off, gainStat_of_lt _ _ _ hk]

theorem not_slt_zero (a : Word) : (!a.slt 0#32) = decide (0 ≤ a.toInt) := by
  simp only [BitVec.slt, ← decide_not, BitVec.toInt_zero, Int.not_lt]

/-- ZXSTEP writes the whole group after one sample (R130). -/
theorem semZxstep_eq {k : Core} {n : Nat} {f : CSyl} {x : Word} (hok : okInt f = true) (hli : f.li = false) (hsb : f.sb = 0#5) :
    let d := f.dst.toNat
    let z := zxSample (rD k d) (rD k (d + 1)) (rD k (d + 2)) (rD k (d + 3)) (decide ((opndA k f).toInt < 0))
      (decide (0 ≤ (k.stroke - rD k (d + 2)).toInt))
    semZxstep { k, n, f, imm := x } = { dw := (lanes 15#4).map fun j => (d + j, groupWord z.1 (rD k (d + 1)) z.2.1 z.2.2 j) } := by
  simp only [semZxstep]
  rw [legal_of (by simp [hok, hli, hsb]), ← not_slt_zero, ← zxSample_eq]
  rfl

end Sys2Proof.Machine
end

section
/-! Gain groups (R128–R130). -/

open Sys2Proof Sys2Proof.Machine

/-- Settles O6: ZXARM writes the target, the deadline and the status, and ZXSTEP the whole group, by its wait and by its ramp. -/
theorem gainGroup : Obligations.GainGroup := by
  intro c f x s h hshr hmd hli
  have hok := okInt_of hshr hmd
  refine ⟨?arm, fun hsb => ?step⟩
  case arm =>
    split
    case isTrue hb =>
      refine goes_group (becomes_result h (i := .zxarm c f x) rfl rfl (semZxarm_same hok hli hb _ _) rfl rfl rfl) fun j hj hoff => ?_
      have hkept : ∀ j, j < 4 → (10#4).getLsbD j = false → j = 0 ∨ j = 2 := by decide
      rcases hkept j hj hoff with rfl | rfl
      · rfl
      · rfl
    case isFalse hb =>
      refine goes_group (becomes_result h (i := .zxarm c f x) rfl rfl (semZxarm_other hok hli hb _) rfl rfl rfl) fun j hj hoff => ?_
      have hkept : ∀ j, j < 4 → (14#4).getLsbD j = false → j = 0 := by decide
      rw [hkept j hj hoff]
      rfl
  case step =>
    have hg := goes_group (becomes_result h (i := .zxstep c f x) rfl rfl (semZxstep_eq hok hli hsb) rfl rfl rfl)
      fun j hj hoff => absurd (lanes_all hj) (by simp [hoff])
    unfold zxSample at hg
    intro neg flips late g0 q
    split
    case isTrue hrun =>
      rw [if_pos hrun] at hg
      exact hg
    case isFalse hrun =>
      rw [if_neg hrun] at hg
      exact hg
end

section
/-! Transfers that stay within the registers of their core: the idle one, post-modifies and moves of the address unit (R138). -/

namespace Sys2Proof.Machine

/-- The transfers that touch no memory and no mailbox. -/
def XOp.inRegisters : XOp → Bool
  | .tnop | .amodm | .amodi | .mvr | .mrv | .setr => true
  | _ => false

/-- What such a transfer does to its core `k`, its post-modify done; the sources are those of `old`. -/
def regsMoved (old : Core) (x : XOp) (f : TSyl) (k : Core) : Core :=
  match x with
  | .mvr => writeClass (f.mr.toNat / 4) f.ar.toNat ((rD old f.dr.toNat).truncate 24) k
  | .mrv =>
    let v := readClass old (f.mr.toNat / 4) f.ar.toNat
    setD f.dr.toNat (if f.mr.toNat / 4 = 1 then v.signExtend 32 else v.zeroExtend 32) k
  | .setr => writeClass (f.mr.toNat / 4) f.ar.toNat (if f.mr.toNat / 4 = 1 then f.ofs.signExtend 24 else f.ofs.zeroExtend 24) k
  | _ => k

theorem xferDone_inRegisters {n : Nat} {old k : Core} {x : XOp} {f : TSyl} {s : State} (hn : n < 128) (hx : x.inRegisters = true) :
    xferDone n old x f (putCore n k s) = putCore n (regsMoved old x f k) s := by
  have hput (l : Core) : putCore n (regsMoved old x f l) (putCore n k s) = putCore n (regsMoved old x f l) s := putCore_putCore ..
  cases x with
  | tnop | amodm | amodi => rfl
  | mvr | mrv | setr =>
    rw [← hput, xferDone, coreAt_putCore hn]
    rfl
  | ld | st | mbput | mbget | mbcnt => exact absurd hx Bool.false_ne_true

theorem writeClass_unheld (cls i : Nat) (v : BitVec 24) (k : Core) :
    { writeClass cls i v k with held := none } = writeClass cls i v { k with held := none } := by
  unfold writeClass
  split <;> rfl

theorem regsMoved_unheld (old : Core) (x : XOp) (f : TSyl) (k : Core) :
    { regsMoved old x f k with held := none } = regsMoved old x f { k with held := none } := by
  cases x with
  | mvr | setr => exact writeClass_unheld ..
  | _ => rfl

theorem accAddrs_inRegisters {x : XOp} (hx : x.inRegisters = true) (k : Core) (f : TSyl) : accAddrs k x f = [] := by
  cases x with
  | ld | st => exact absurd hx Bool.false_ne_true
  | _ => rfl

theorem xferHold_inRegisters {s : State} {n : Nat} {k : Core} {op : BitVec 5} {f : TSyl} {w : Word} {x : XOp} (hw : CompIdle w)
    (ho : xopOf op.toNat = some x) (hx : x.inRegisters = true) : xferHold s n k (mkT op f w) = none := by
  rw [xferHold, xferOf_compIdle hw, ho]
  refine ite_eq_left_iff.mpr fun _ => ?_
  cases x with
  | ld | st | mbput | mbget | mbcnt => exact absurd hx Bool.false_ne_true
  | _ => rfl

/-- A transfer within the registers: its post-modify, then its move (R87, R138). -/
theorem becomes_inRegisters {i : Instr} {s : State} {c : CoreId} {op : BitVec 5} {f : TSyl} {w : Word} {x : XOp} (h : Transfers s c f w)
    (he : exec i s = done (runBundle c.val (mkT op f w) s)) (ho : xopOf op.toNat = some x) (hx : x.inRegisters = true)
    (hok : xopOk x f = true) :
    Becomes i s c (regsMoved (coreAt s c.val) x f (postModded (coreAt s c.val) x f (coreAt s c.val).onward)) := by
  refine gives_done he ((runBundle_xfer h ho hok ?_ (xferHold_inRegisters h.idle ho hx)).trans ?_)
  · simp [accAddrs_inRegisters hx]
  · rw [xferDone_inRegisters c.isLt hx, unheld_putCore c.isLt, regsMoved_unheld, stepped_onward]

/-! ### The register classes -/

theorem writeClass_eq (cls i : Nat) (v : BitVec 24) (k : Core) : writeClass cls i v k =
    if cls = 0 then { k with a := vput k.a i v } else if cls = 1 then { k with m := vput k.m i v }
    else if cls = 2 then { k with b := vput k.b i v } else { k with l := vput k.l i v } := by
  match cls with
  | 0 | 1 | 2 => rfl
  | n + 3 => simp [writeClass]

/-- A class register as a data register takes it: the modifiers are signed (R138). -/
theorem readClass_extended (k : Core) (cls i : Nat) :
    (if cls = 1 then (readClass k cls i).signExtend 32 else (readClass k cls i).zeroExtend 32) =
      if cls = 0 then (vget 0#24 k.a i).zeroExtend 32 else if cls = 1 then (vget 0#24 k.m i).signExtend 32
      else if cls = 2 then (vget 0#24 k.b i).zeroExtend 32 else (vget 0#24 k.l i).zeroExtend 32 := by
  match cls with
  | 0 | 1 | 2 => rfl
  | n + 3 => simp [readClass, rL]

end Sys2Proof.Machine
end

section
/-! The address unit (R138). -/

open Sys2Proof Sys2Proof.Machine

/-- Settles O14: each of the six is a transfer within the registers of its core. -/
theorem addressUnit : Obligations.AddressUnit := by
  intro c f w s h
  refine ⟨fun hdr har hmr hofs => ?tnop, fun hdr hofs => ?amodm, fun hdr hmr => ?amodi, fun hmr hreg => ?classes⟩
  case tnop =>
    have har' : f.ar = 0#4 := BitVec.eq_of_toNat_eq har
    exact becomes_inRegisters h (x := .tnop) rfl rfl rfl (by simp [xopOk, hdr, har', hmr, hofs])
  case amodm => exact becomes_inRegisters h (x := .amodm) rfl rfl rfl (by simp [xopOk, hdr, hofs])
  case amodi => exact becomes_inRegisters h (x := .amodi) rfl rfl rfl (by simp [xopOk, hdr, hmr])
  case classes =>
    have hclass : okClass f = true := by simpa [okClass, hmr] using hreg
    refine ⟨fun hdr => ?setr, fun hofs => ?mvr, fun hofs => ?mrv⟩
    case setr =>
      have hb := becomes_inRegisters h (i := .setr c f w) (x := .setr) rfl rfl rfl (by simp [xopOk, hdr, hclass])
      simp only [regsMoved, writeClass_eq] at hb
      exact hb
    case mvr =>
      have hb := becomes_inRegisters h (i := .mvr c f w) (x := .mvr) rfl rfl rfl (by simp [xopOk, hofs, hclass])
      simp only [regsMoved, writeClass_eq] at hb
      exact hb
    case mrv =>
      have hb := becomes_inRegisters h (i := .mrv c f w) (x := .mrv) rfl rfl rfl (by simp [xopOk, hofs, hclass])
      simp only [regsMoved, readClass_extended] at hb
      exact hb
end

section
/-! The application of a due call, and the calls that the write units of a stroke do not cover (R58, R59). -/

namespace Sys2Proof.Machine

/-! ### The next call -/

theorem alignSwap_none {s : State} (h : s.scene.align = []) : alignSwap s = s := by
  simp [alignSwap, h]

/-- The next call, of the row's opcode and with its write units free, acts on the state that counts them (R58). -/
theorem applyCall_due {s : State} {p : Pend} {op : BitVec 16} {armed : Bool} {act : Pend → State → State × Applied} (hd : Due s p op armed) :
    applyCall op armed act s =
      let r := act p (charged s p)
      match r.2 with
      | .done => receiptApplied p (strokeDue s) { r.1 with call := { r.1.call with pend := dropPend p r.1.call.pend } }
      | .reject w => receiptEnd p.call stRejected w (strokeDue s) { r.1 with call := { r.1.call with pend := dropPend p r.1.call.pend } }
      | .keep q => { r.1 with call := { r.1.call with pend := r.1.call.pend.map fun x => if x = p then q else x } } := by
  obtain ⟨hnext, hop, harmed, halign, hunits⟩ := hd
  unfold applyCall
  rw [hnext]
  dsimp only
  rw [if_neg (by simp [hop, harmed]), alignSwap_none halign, if_neg (Nat.not_lt.mpr hunits)]
  rfl

/-- A row that applies calls by `act` applies the due call, where `act` leaves `t`. -/
theorem applies_due {i : Instr} {s t : State} {p : Pend} {op : BitVec 16} {armed : Bool} {act : Pend → State → State × Applied}
    (hd : Due s p op armed) (he : exec i s = done (applyCall op armed act s)) (ha : act p (charged s p) = (t, .done)) : Applies i s p t := by
  refine gives_done he ?_
  simp only [applyCall_due hd, ha]

/-! ### Calls over the budget -/

/-- A due call that exceeds the write units is not applied: the calls that are left move (R59). -/
theorem applyCall_over {s : State} {p : Pend} {op : BitVec 16} {armed : Bool} (act : Pend → State → State × Applied) (hn : nextDue s = some p)
    (hop : p.call.opcode = op) (ha : p.armed = armed) (hl : s.scene.align = []) (hu : 4096 < s.call.wu + callCost p.call) :
    applyCall op armed act s = moveRest s := by
  unfold applyCall
  rw [hn]
  dsimp only
  rw [if_neg (by simp [hop, ha]), alignSwap_none hl, if_pos hu]

/-- Without REJECT and without an armed recall the due calls wait for the next stroke, ahead of those targeted there (R59). -/
theorem moveRest_waits {s : State} (hr : ∀ x ∈ s.call.pend, x.rej = false) (ha : s.scene.arm = none) :
    let k := (strokeDue s).toNat
    moveRest s = { s with call := { s.call with
      pend := ((s.call.pend.filter fun x => decide (x.due.toNat ≤ k)).map fun x => { x with due := BitVec.ofNat 64 (k + 1), late := true }) ++
        s.call.pend.filter fun x => decide (k < x.due.toNat) } } := by
  dsimp only
  have hdue (x : Pend) (hx : x ∈ s.call.pend.filter fun x => decide (x.due.toNat ≤ (strokeDue s).toNat)) : x.rej = false :=
    hr x (List.mem_of_mem_filter hx)
  have hkeep := List.filter_eq_self.mpr fun (x : Pend) hx => show (!x.rej) = true by rw [hdue x hx]; rfl
  have hout := List.filter_eq_nil_iff.mpr fun (x : Pend) hx => show ¬ x.rej = true by rw [hdue x hx]; decide
  unfold moveRest
  dsimp only
  rw [hkeep, hout]
  simp only [List.foldl_nil, ha]

/-- The rows of calls that change a covered value and have one application. -/
def callRows : List (BitVec 16 × Instr) :=
  [(1#16, .setParam), (2#16, .swapBank), (3#16, .route), (4#16, .xpGain), (5#16, .xpSwap), (8#16, .mute), (9#16, .portMask), (10#16, .portRamp)]

theorem exec_callRows (s : State) : ∀ e ∈ callRows, ∃ act, exec e.2 s = done (applyCall e.1 false act s) := by
  simp only [callRows, List.forall_mem_cons, List.not_mem_nil, false_imp_iff, implies_true, and_true]
  exact ⟨⟨_, rfl⟩, ⟨_, rfl⟩, ⟨_, rfl⟩, ⟨_, rfl⟩, ⟨_, rfl⟩, ⟨_, rfl⟩, ⟨_, rfl⟩, ⟨_, rfl⟩⟩

end Sys2Proof.Machine
end

section
/-! What the calls of strips do (R150, R151, R157). -/

namespace Sys2Proof.Machine

/-! ### SET_PARAM -/

/-- One or two words come from the payload (R150). -/
theorem setParam_inline {p : Pend} (s : State) (hn : pbyte p.call.payload 3 ≤ 2) :
    setParam p s = (paramWrite (pfield p.call.payload 0 2) (pbyte p.call.payload 2)
      ((List.range (pbyte p.call.payload 3)).map fun i => wOf (pfield p.call.payload (4 + 4 * i) 4)) s, .done) := by
  simp only [setParam, if_pos hn]

/-- The bulk words of a SET_PARAM read without an error (R52, R150). -/
theorem readBulk_setParam {c : CallRec} {s : State} {n : Nat} (ho : c.opcode = 1#16) (hb : pbyte c.payload 3 = n) (hn : 2 < n)
    (hp : ptrOk (pfield c.payload 8 4) (4 * n) = true) (hc : Clean s (centralAddr (pfield c.payload 8 4)) n) :
    readBulk c s = (s, memWords s.mem (centralAddr (pfield c.payload 8 4)) n) := by
  have harea : bulkOf c = some (pfield c.payload 8 4, 4 * n) := by
    rw [bulkOf, if_pos ⟨ho, by omega⟩, hb]
  have hread := readSeq_clean hc
  have hwords : 4 * n / 4 = n := by omega
  simp [readBulk, harea, hp, ho, hwords, hread]

/-- Three words and more come from the bulk area (R150). -/
theorem setParam_bulk {p : Pend} {s : State} (ho : p.call.opcode = 1#16) (hn : 2 < pbyte p.call.payload 3)
    (hp : ptrOk (pfield p.call.payload 8 4) (4 * pbyte p.call.payload 3) = true)
    (hc : Clean s (centralAddr (pfield p.call.payload 8 4)) (pbyte p.call.payload 3)) :
    setParam p s = (paramWrite (pfield p.call.payload 0 2) (pbyte p.call.payload 2)
      (memWords s.mem (centralAddr (pfield p.call.payload 8 4)) (pbyte p.call.payload 3)) s, .done) := by
  simp only [setParam, if_neg (Nat.not_le.mpr hn), readBulk_setParam ho rfl hn hp hc]

/-! ### Bits of a descriptor -/

/-- Writing the complement of a word's bit inverts that bit alone. -/
theorem flipBit_eq_xor (w : Word) (b : Nat) :
    (if (!bitAt w b) = true then w ||| flag true b else w &&& ~~~flag true b) = w ^^^ flag true b := by
  have hflag (i : Nat) (hi : i < 32) : (flag true b).getLsbD i = decide (b = i) := by
    rw [flag, if_pos rfl, wOf, BitVec.getLsbD_ofNat, Nat.testBit_two_pow, decide_eq_true hi, Bool.true_and]
  split
  · next h =>
    have hclear : w.getLsbD b = false := by simpa [bitAt] using h
    refine BitVec.eq_of_getLsbD_eq fun i hi => ?_
    rw [BitVec.getLsbD_or, BitVec.getLsbD_xor, hflag i hi]
    by_cases hb : b = i
    · rw [← hb, hclear, Bool.false_or, Bool.false_xor]
    · rw [decide_eq_false hb, Bool.or_false, Bool.xor_false]
  · next h =>
    have hset : w.getLsbD b = true := by simpa [bitAt] using h
    refine BitVec.eq_of_getLsbD_eq fun i hi => ?_
    rw [BitVec.getLsbD_and, BitVec.getLsbD_not, BitVec.getLsbD_xor, hflag i hi, decide_eq_true hi, Bool.true_and]
    by_cases hb : b = i
    · rw [← hb, hset, Bool.true_and, Bool.true_xor]
    · rw [decide_eq_false hb, Bool.not_false, Bool.and_true, Bool.xor_false]

/-- LIVE of one strip toggles (R151). -/
theorem toggleLive_eq (n : Nat) (s : State) : toggleLive n s = writeWord (descAddr n) (descWord s n 0 ^^^ 0x4000000#32) s :=
  congrArg (writeWord (descAddr n) · s) (flipBit_eq_xor (descWord s n 0) 26)

/-! ### SWAP_BANK -/

/-- A strip in use toggles LIVE where no recall is under way (R151). -/
theorem swapStrip_eq {n : Nat} {s : State} (ha : s.scene.arm = none) (hf : s.scene.fades = []) :
    swapStrip n s = if stripKind s n = 0 then s else writeWord (descAddr n) (descWord s n 0 ^^^ 0x4000000#32) s := by
  simp only [swapStrip, ha, hf, List.any_nil, Bool.false_eq_true, if_false, toggleLive_eq]

/-- The swap of strips `f 0`, `f 1`, … where no recall is under way (R151). -/
theorem foldl_swapStrip {l : List Nat} (f : Nat → Nat) {s : State} (ha : s.scene.arm = none) (hf : s.scene.fades = []) :
    (l.map f).foldl (fun t n => swapStrip n t) s = l.foldl (fun t i =>
      if stripKind t (f i) = 0 then t else writeWord (descAddr (f i)) (descWord t (f i) 0 ^^^ 0x4000000#32) t) s := by
  induction l generalizing s with
  | nil => rfl
  | cons i l ih =>
    have hscene : (swapStrip (f i) s).scene = s.scene := by
      rw [swapStrip_eq ha hf]
      split <;> rfl
    rw [List.map_cons, List.foldl_cons, List.foldl_cons, ih (by rw [hscene, ha]) (by rw [hscene, hf]), swapStrip_eq ha hf]

/-- SWAP_BANK of a range takes its strips in order (R151). -/
theorem swapBank_range {p : Pend} (s : State) (ho : p.call.opcode = 2#16) (hn : pfield p.call.payload 2 2 ≠ 0) :
    swapBank p s = (((List.range (pfield p.call.payload 2 2)).map fun i => pfield p.call.payload 0 2 + i).foldl (fun t n => swapStrip n t) s,
      .done) := by
  have hbulk : readBulk p.call s = (s, []) := by simp [readBulk, bulkOf, ho, hn]
  simp only [swapBank, hbulk, swapStrips, if_neg hn]

/-! ### MUTE -/

/-- MUTE writes the descriptor's bit 25 (R157). -/
theorem muteCall_eq (p : Pend) (s : State) :
    let n := pfield p.call.payload 0 2
    muteCall p s = (writeWord (descAddr n)
      (if pbyte p.call.payload 2 = 1 then descWord s n 0 ||| 0x2000000#32 else descWord s n 0 &&& ~~~0x2000000#32) s, .done) := by
  simp only [muteCall, setDescBit, beq_iff_eq]
  rfl

end Sys2Proof.Machine
end

section
/-! What the calls of ports do (R270, R273). -/

namespace Sys2Proof.Machine

/-- A direction equal to the target leaves the gate as it was before the stroke's first ramp (R270, R273). -/
theorem portRamp_same {n len : Nat} {up : Bool} {s : State} :
    let x := portAt s n
    let g := x.muteWas.getD x.mute
    g.up = up → portRamp n up len s = putPort n { x with muteWas := some g, mute := g } s := by
  intro x g hg
  exact congrArg (fun m => putPort n { x with muteWas := some g, mute := m } s) (if_pos hg)

/-- Another direction aims that gate anew, over `len` strokes (R270). -/
theorem portRamp_turn {n len : Nat} {up : Bool} {s : State} :
    let x := portAt s n
    let g := x.muteWas.getD x.mute
    g.up ≠ up → portRamp n up len s = putPort n { x with muteWas := some g, mute := gateAim g up (len * portN s x) } s := by
  intro x g hg
  exact congrArg (fun m => putPort n { x with muteWas := some g, mute := m } s) (if_neg hg)

end Sys2Proof.Machine
end

section
/-! What the calls of crosspoints do: a crosspoint's step word beside its target (R189, R193), and the swap of the targets (R190). -/

namespace Sys2Proof.Machine

/-- An entry above the one that is set reads as before, in any table. -/
theorem tget_tset_above {α : Type} [DecidableEq α] {d v : α} {i j : Nat} (t : Tab α) (h : i < j) : tget d (tset d t i v) j = tget d t j := by
  have hskip (x : α) (l : Tab α) : tget d ((i, x) :: l) j = tget d l j := by
    rw [tget, if_neg (Nat.ne_of_gt h), if_neg (Nat.not_lt_of_gt h)]
  induction t with
  | nil =>
    rw [tset]
    split
    · rfl
    · exact hskip v []
  | cons e t ih =>
    obtain ⟨k, w⟩ := e
    rw [tset]
    split
    · split
      · rfl
      · exact hskip v _
    · split
      · next hk =>
        subst hk
        rw [hskip w t]
        split
        · rfl
        · exact hskip v t
      · simp only [tget, ih]

/-- A byte above a word that is written reads as before, in any memory. -/
theorem memGet_memPutWord_above {a c : Nat} (m : List Host.Cell) (w : Word) (h : a + 4 ≤ c) : memGet (memPutWord m a w) c = memGet m c := by
  simp only [memPutWord, memPut, memGet]
  rw [tget_tset_above _ (by omega), tget_tset_above _ (by omega), tget_tset_above _ (by omega), tget_tset_above _ (by omega)]

theorem half_memPutWord_above {a c : Nat} (m : List Host.Cell) (w : Word) (h : a + 4 ≤ c) : half (memPutWord m a w) c = half m c := by
  rw [half, memGet_memPutWord_above m w h, memGet_memPutWord_above m w (by omega), half]

theorem xpLocal_lt (x : Nat) : xpLocal x < sliceXp := by
  have hterm : xpTerm x < 1152 := by
    unfold xpTerm
    split <;> omega
  unfold xpLocal sliceXp
  omega

/-- The step words of a slice lie above its two target arrays (R193). -/
theorem tgtAddr_below_stepAddr (sl : Nat) (y : Bool) {r : Nat} (h : r < sliceXp) (q : Nat) : tgtAddr sl y r + 4 ≤ stepAddr sl q := by
  have harray : (if y = true then 0x24000 else 0) ≤ 0x24000 := by cases y <;> decide
  unfold sliceXp at h
  unfold tgtAddr stepAddr matrixAddr
  omega

/-- XP_GAIN writes the target in force, then ARM into the step word as it stands (R189). -/
theorem xpGain_eq (x : Nat) (g : Word) (s : State) :
    let sl := xpSlice x
    let r := xpLocal x
    let t := writeWord (tgtAddr sl (tselOf s sl) r) g s
    xpGain x g s = writeHalf (stepAddr sl r) (half t.mem (stepAddr sl r) ||| 0x2000) t := by
  have hstep := half_memPutWord_above s.mem g (tgtAddr_below_stepAddr (xpSlice x) (tselOf s (xpSlice x)) (xpLocal_lt x) (xpLocal x))
  simp only [xpGain, writeWord_mem, hstep]

/-- A mask of no slices names all (R190). -/
theorem sliceMask_ofNat (n : Nat) : sliceMask (BitVec.ofNat 16 n) = if n % 65536 = 0 then 0xFFFF#16 else BitVec.ofNat 16 n := by
  have hzero : BitVec.ofNat 16 n = 0#16 ↔ n % 65536 = 0 := BitVec.toNat_inj.symm.trans (by rw [BitVec.toNat_ofNat]; rfl)
  simp only [sliceMask, hzero]

/-- XP_SWAP toggles the array in force of the slices of its mask (R190). -/
theorem xpSwap_ofNat (n : Nat) (s : State) :
    let mask := if n % 65536 = 0 then 0xFFFF#16 else BitVec.ofNat 16 n
    xpSwap (BitVec.ofNat 16 n) s = orReg Reg.MIX_STAT 1#32 { s with mix := { s.mix with tsel := s.mix.tsel ^^^ mask } } := by
  simp only [xpSwap, sliceMask_ofNat]

end Sys2Proof.Machine
end

section
/-! What the calls do at their application (R150, R151, R157, R189, R190, R270, R271), and the budget of write units (R59). -/

open Sys2Proof Sys2Proof.Machine

/-- Settles O20, call by call: each row applies its due call by the update whose equation the lemmas above state, and a call over the
budget moves the due calls on. -/
theorem callsApplied : Obligations.CallsApplied := by
  refine ⟨fun s p _ => ⟨fun hd => ⟨fun hn => ?inline, fun hn hp hc => ?bulk⟩, fun hd ha hf hn => ?swapBank, fun hd => ?xpGain, fun hd => ?xpSwap,
    fun hd => ?mute, fun hd => ?portMask, fun hd => ⟨fun hg => ?rampSame, fun hg => ?rampTurn⟩, fun hd => ?mark⟩,
    fun s p hn hl ha hu hr hm e he ho => ?moved⟩
  case inline => exact applies_due hd rfl (setParam_inline _ hn)
  case bulk => exact applies_due hd rfl (setParam_bulk (s := charged s p) hd.op hn hp hc)
  case swapBank => exact applies_due hd rfl ((swapBank_range _ hd.op hn).trans (congrArg (·, Applied.done) (foldl_swapStrip _ ha hf)))
  case xpGain => exact applies_due hd rfl (congrArg (·, Applied.done) (xpGain_eq ..))
  case xpSwap => exact applies_due hd rfl (congrArg (·, Applied.done) (xpSwap_ofNat ..))
  case mute => exact applies_due hd rfl (muteCall_eq ..)
  case portMask => exact applies_due hd rfl rfl
  case rampSame => exact applies_due hd rfl (congrArg (·, Applied.done) (portRamp_same (s := charged s p) hg))
  case rampTurn => exact applies_due hd rfl (congrArg (·, Applied.done) (portRamp_turn (s := charged s p) hg))
  case mark => exact applies_due hd rfl rfl
  case moved =>
    obtain ⟨act, hexec⟩ := exec_callRows s e he
    exact gives_done hexec ((applyCall_over act hn ho ha hl hu).trans (moveRest_waits hr hm))
end

section
/-! The selects with their snapshots (R197, R227, R228, R471, R488) and the write of the shadow target (R192): each written register by
its cases, and the judgement of a write of one word (R403). -/

namespace Sys2Proof.Machine

theorem xpSelWrite_taken {v : Word} (h : fld v 19 0 < xpCount) (m : Master) (s : State) :
    xpSelWrite m v s = snapTake m Reg.XP_SEL (xpSnap s (fld v 19 0)) (setBank m (fun b => { b with xp := fld v 19 0 }) s) := if_pos h

theorem xpSelWrite_ignored {v : Word} (h : xpCount ≤ fld v 19 0) (m : Master) (s : State) : xpSelWrite m v s = progError m Reg.XP_SEL s :=
  if_neg h.not_gt

theorem sinkSelWrite_taken {v : Word} (h : sinkBad (fld v 12 0) = false) (m : Master) (s : State) : sinkSelWrite m v s =
    snapTake m Reg.SINK_SEL (sinkSnap s (fld v 12 0)) (setBank m (fun b => { b with sink := fld v 12 0 }) s) :=
  if_neg (Bool.eq_false_iff.mp h)

theorem sinkSelWrite_ignored {v : Word} (h : sinkBad (fld v 12 0) = true) (m : Master) (s : State) :
    sinkSelWrite m v s = progError m Reg.SINK_SEL s := if_pos h

theorem latSelWrite_taken {v : Word} (h : sinkBad (fld v 12 0) = false) (m : Master) (s : State) : latSelWrite m v s =
    snapTake m Reg.LAT_SEL (latSnap s (fld v 12 0)) (setBank m (fun b => { b with lat := fld v 12 0 }) s) :=
  if_neg (Bool.eq_false_iff.mp h)

theorem latSelWrite_ignored {v : Word} (h : sinkBad (fld v 12 0) = true) (m : Master) (s : State) :
    latSelWrite m v s = progError m Reg.LAT_SEL s := if_pos h

/-- BANK_ARMED and ENGINE_OWNED (R31, R32) both find nothing: the word may be written, and the judgement itself changes nothing. -/
theorem judgeWrite_free {m : Master} {w : BusWord} {s : State} (hi : NoInjection s) (hc : clearingAt s w.a = false)
    (hk : closedAt s m true w.a = false) (ha : armedAt s w.a = false) (ho : ownedAt s w.a = false) : judgeWrite m [w] s = (s, true) := by
  simp only [judgeWrite, List.any_cons, List.any_nil, List.find?_cons, List.find?_nil, hc, hk, ha, ho, Bool.or_self, ite_self,
    Option.isSome_none, Bool.false_and, detect_clear hi, Bool.false_eq_true, if_false]

/-- BANK_ARMED refuses a word of an armed matrix area, with its record and MIX_STAT.SHD_ARMED (R31, R192). -/
theorem judgeWrite_armed {m : Master} {w : BusWord} {s : State} (hi : NoInjection s) (hc : clearingAt s w.a = false)
    (hk : closedAt s m true w.a = false) (ha : armedAt s w.a = true) (ht : targetOf w.a = 3) :
    judgeWrite m [w] s = (orReg Reg.MIX_STAT 2#32 (report (fabSrc m) 0x304#12 .note (wOf (w.a / 16)) s), false) := by
  simp only [judgeWrite, infoAddr, List.any_cons, List.any_nil, List.find?_cons, hc, hk, ha, ht, Bool.or_self, Option.isSome_some,
    detect_found hi, beq_self_eq_true, Bool.true_or, Bool.false_eq_true, if_false, if_true]

theorem xpShdWrite_free {m : Master} {s : State} (hi : NoInjection s) (hc : clearingAt s (xpShdAddr s m) = false)
    (hk : closedAt s m true (xpShdAddr s m) = false) (ha : armedAt s (xpShdAddr s m) = false) (ho : ownedAt s (xpShdAddr s m) = false)
    (v : Word) : xpShdWrite m v s = (writeWord (xpShdAddr s m) v s, true) := by
  simp only [xpShdWrite, judgeWrite_free (w := { a := xpShdAddr s m, d := v, en := 15#4 }) hi hc hk ha ho, if_true]

theorem xpShdWrite_armed {m : Master} {s : State} (hi : NoInjection s) (hc : clearingAt s (xpShdAddr s m) = false)
    (hk : closedAt s m true (xpShdAddr s m) = false) (ha : armedAt s (xpShdAddr s m) = true) (ht : targetOf (xpShdAddr s m) = 3)
    (v : Word) : xpShdWrite m v s =
      (orReg Reg.MIX_STAT 2#32 (report (fabSrc m) 0x304#12 .note (wOf (xpShdAddr s m / 16)) s), false) := by
  simp only [xpShdWrite, judgeWrite_armed (w := { a := xpShdAddr s m, d := v, en := 15#4 }) hi hc hk ha ht, Bool.false_eq_true, if_false]

end Sys2Proof.Machine
end

section
open Sys2Proof Sys2Proof.Machine

/-- Settles O46, select by select: an operand that names an instance is taken with its snapshot and any other is logged; every CORE_SEL
operand names a core. The word of XP_SHD is written or refused as its fabric write would be judged. -/
theorem selects : Obligations.Selects := by
  refine fun s m v hi => ⟨fun h => ?xpTaken, fun h => ?xpIgnored, fun h => ⟨?sinkTaken, ?latTaken⟩, fun h => ⟨?sinkIgnored, ?latIgnored⟩, ?core,
    fun hc hk => ⟨fun ha ho => ?shdFree, fun ha ht => ?shdArmed⟩⟩
  case xpTaken => exact gives_done rfl (xpSelWrite_taken h m s)
  case xpIgnored => exact gives_done rfl (xpSelWrite_ignored h m s)
  case sinkTaken => exact gives_done rfl (sinkSelWrite_taken h m s)
  case latTaken => exact gives_done rfl (latSelWrite_taken h m s)
  case sinkIgnored => exact gives_done rfl (sinkSelWrite_ignored h m s)
  case latIgnored => exact gives_done rfl (latSelWrite_ignored h m s)
  case core => exact gives_done rfl rfl
  case shdFree => exact gives_done rfl (congrArg Prod.fst (xpShdWrite_free hi hc hk ha ho v))
  case shdArmed => exact gives_done rfl (congrArg Prod.fst (xpShdWrite_armed hi hc hk ha ht v))
end

section
/-! What the rows of a recall do (R232–R245): its start at F, its strokes T, T + 1 and H, and the cancel. -/

namespace Sys2Proof.Machine

/-! ### A due call that is kept, or rejected -/

/-- A call with a second application stays in the table as `q` (R232). -/
theorem applyCall_keep {s t : State} {p q : Pend} {op : BitVec 16} {armed : Bool} {act : Pend → State → State × Applied} (hd : Due s p op armed)
    (ha : act p (charged s p) = (t, .keep q)) :
    applyCall op armed act s = { t with call := { t.call with pend := t.call.pend.map fun x => if x = p then q else x } } := by
  simp only [applyCall_due hd, ha]

/-- A call rejected at its application leaves the table with that receipt (R62). -/
theorem applyCall_reject {s t : State} {p : Pend} {op : BitVec 16} {armed : Bool} {act : Pend → State → State × Applied} {reason : Nat}
    (hd : Due s p op armed) (ha : act p (charged s p) = (t, .reject reason)) :
    applyCall op armed act s =
      receiptEnd p.call stRejected reason (strokeDue s) { t with call := { t.call with pend := dropPend p t.call.pend } } := by
  simp only [applyCall_due hd, ha]

/-! ### The start at F -/

/-- The recall that a SCENE_ARM with the descriptor words `ws` starts (R232, R234, R235). -/
def recallOf (p : Pend) (ws : List Word) (s : State) : Recall :=
  let f := (strokeDue s).toNat
  let t := max p.call.target.toNat f
  let x := pbyte p.call.payload 6
  let d := sceneOf ws
  { id := p.call.id, scene := wOf (pfield p.call.payload 0 4), t := t, f := f, hand := t + x - 1, xf := x, peff := t - f
    short := decide (t - f < pfield p.call.payload 4 2), desc := { d with strips := usedOf s d.strips }
    forked := if t = f ∧ x = 0 then [] else forkChoice s d }

/-- FORKED and the first fork word of every strip that a recall forks (R237, R240). -/
def forkStart (r : Recall) (s : State) : State :=
  r.forked.foldl (fun s n => putFork n (forkWord r r.f) (setDescBit n 24 true s)) s

/-- The state with its recall started: its forks marked, itself armed and shown (R240, R249). -/
def startRecall (r : Recall) (s : State) : State :=
  let t := forkStart r s
  { t with scene := { t.scene with
    arm := some r, view := some r, nFork := r.forked.length, nDirect := r.desc.strips.length - r.forked.length } }

theorem startRecall_call (r : Recall) (s : State) : (startRecall r s).call = s.call :=
  foldl_state (π := id) (P := fun t => t.call = s.call) _ r.forked s (fun _ _ h => h) rfl

theorem startRecall_fades (r : Recall) (s : State) : (startRecall r s).scene.fades = s.scene.fades :=
  foldl_state (π := id) (P := fun t => t.scene.fades = s.scene.fades) _ r.forked s (fun _ _ h => h) rfl

/-- With no recall armed, a SCENE_ARM starts its own at F and stays in the table for T (R232, R240). -/
theorem sceneArm_free {p : Pend} {s : State} {ws : List Word} (ha : s.scene.arm = none) (hb : readBulk p.call s = (s, ws)) :
    let r := recallOf p ws s
    sceneArm p s = (startRecall r s,
      .keep { p with armed := true, due := BitVec.ofNat 64 r.t, late := p.late || decide (p.due.toNat < r.f) }) := by
  have hfree : s.call.pend.find? (fun q => isArmed s q) = none :=
    List.find?_eq_none.mpr fun q _ => by simp [isArmed, ha]
  simp only [sceneArm, hfree, hb, startRecall, forkStart, recallOf]
  rfl

/-- A SCENE_ARM counts one write unit (R51, R232). -/
theorem callCost_sceneArm {c : CallRec} (h : c.opcode = 6#16) : callCost c = 1 := by
  simp [callCost, callQuiet, h]

theorem forkInsert_charged (s : State) (p : Pend) (n : Nat) (l : List Nat) : forkInsert (charged s p) n l = forkInsert s n l := by
  induction l with
  | nil => rfl
  | cons m l ih =>
    simp only [forkInsert, ih]
    rfl

/-- The choice of forks does not look at the write units. -/
theorem forkChoice_charged (s : State) (p : Pend) (d : SceneDesc) : forkChoice (charged s p) d = forkChoice s d := by
  simp only [forkChoice, forkInsert_charged]
  rfl

/-! ### The recall stroke -/

/-- LIVE of the strips `l` toggles, in order (R240). -/
def toggleAll (l : List Nat) (s : State) : State :=
  l.foldl (fun t n => writeWord (descAddr n) (descWord t n 0 ^^^ 0x4000000#32) t) s

theorem toggleAll_scene (l : List Nat) (s : State) : (toggleAll l s).scene = s.scene :=
  foldl_state (π := id) (P := fun t => t.scene = s.scene) _ l s (fun _ _ h => h) rfl

/-- Outside a crossfade a strip toggles LIVE at the recall stroke (R240). -/
theorem foldl_recallStrip {s : State} (hf : s.scene.fades = []) (l : List Nat) :
    l.foldl (fun t n => recallStrip n t) s = toggleAll l s := by
  unfold toggleAll
  induction l generalizing s with
  | nil => rfl
  | cons n l ih =>
    have hstrip : recallStrip n s = writeWord (descAddr n) (descWord s n 0 ^^^ 0x4000000#32) s := by
      simp only [recallStrip, hf, List.any_nil, Bool.false_eq_true, if_false, toggleLive_eq]
    rw [List.foldl_cons, List.foldl_cons, hstrip, ih (by rw [writeWord_scene, hf])]

/-- The matrix part of a recall applied for stroke `u` (R242). -/
def recallMatrix (d : SceneDesc) (u : Nat) (s : State) : State :=
  if d.xp then
    if d.xpAlign then { s with scene := { s.scene with align := s.scene.align ++ [(d.xpMask, u + 1)] } } else xpSwap d.xpMask s
  else s

theorem recallMatrix_none {d : SceneDesc} (h : d.xp = false) (u : Nat) (s : State) : recallMatrix d u s = s := by
  simp only [recallMatrix, h, Bool.false_eq_true, if_false]

theorem recallMatrix_align {d : SceneDesc} {s : State} (h : d.xp = true) (ha : d.xpAlign = true) (hs : s.scene.align = []) (u : Nat) :
    recallMatrix d u s = { s with scene := { s.scene with align := [(d.xpMask, u + 1)] } } := by
  simp only [recallMatrix, h, ha, hs, if_true, List.nil_append]

theorem recallMatrix_swap {d : SceneDesc} (h : d.xp = true) (ha : d.xpAlign = false) (u : Nat) (s : State) :
    recallMatrix d u s = xpSwap d.xpMask s := by
  simp only [recallMatrix, h, ha, Bool.false_eq_true, if_true, if_false]

/-- The state in which an applied recall crossfades. -/
def withFade (r : Recall) (s : State) : State :=
  { s with scene := { s.scene with
    arm := none, fades := s.scene.fades ++ [r], view := some r, nFork := r.forked.length
    nDirect := r.desc.strips.length - r.forked.length } }

/-- The recall with the strokes of its application for stroke `u` (R232). -/
def recallAt (r : Recall) (u : Nat) : Recall := { r with t := u, hand := u + r.xf - 1, peff := u - r.f }

/-- The armed recall acts at T: its banks, its fork words, its routes, then the matrix (R242). -/
theorem sceneRecall_armed {p : Pend} {s : State} {r : Recall} (ha : s.scene.arm = some r) :
    let u := (strokeDue s).toNat
    let t := r.forked.foldl (fun t n => putFork n (forkWord (recallAt r u) u) t) (r.desc.strips.foldl (fun t n => recallStrip n t) s)
    sceneRecall p s = (recallMatrix r.desc u (r.desc.routes.foldl (fun t e => recallRoute e t) (withFade (recallAt r u) t)), .done) := by
  unfold sceneRecall
  rw [ha]
  rfl

/-- A recall without forks or routes, met by no crossfade, swaps its banks, then the matrix (R242). -/
theorem sceneRecall_direct {p : Pend} {s : State} {r : Recall} (ha : s.scene.arm = some r) (hfork : r.forked = []) (hroute : r.desc.routes = [])
    (hf : s.scene.fades = []) :
    let u := (strokeDue s).toNat
    let t := toggleAll r.desc.strips s
    sceneRecall p s = (recallMatrix r.desc u { t with scene := { t.scene with
      arm := none, fades := [recallAt r u], view := some (recallAt r u), nFork := 0, nDirect := r.desc.strips.length } }, .done) := by
  intro u t
  have hfades : t.scene.fades = [] := (congrArg SceneState.fades (toggleAll_scene ..)).trans hf
  have hnone : (recallAt r u).forked = [] := hfork
  rw [sceneRecall_armed ha, hfork, hroute, foldl_recallStrip hf]
  change (recallMatrix r.desc u (withFade (recallAt r u) t), Applied.done) = _
  rw [withFade, hfades, hnone]
  rfl

/-! ### The cancel -/

/-- A SCENE_ARM of the scene that a SCENE_CANCEL names, or of any scene (R245). -/
def cancels (scene : Nat) (x : Pend) : Prop :=
  x.call.opcode = 6#16 ∧ (scene = 0xFFFFFFFF ∨ pfield x.call.payload 0 4 = scene)

theorem cancels_iff (scene : Nat) (x : Pend) :
    (x.call.opcode == 6#16 && (scene == 0xFFFFFFFF || pfield x.call.payload 0 4 == scene)) = true ↔ cancels scene x := by
  simp [cancels]

/-- In a list without repeats, a test that one element alone passes filters that element. -/
theorem filter_eq_singleton {α : Type} [BEq α] [LawfulBEq α] {f : α → Bool} {x : α} {l : List α} (hx : x ∈ l) (hf : f x = true)
    (hu : ∀ y ∈ l, f y = true → y = x) (hn : l.Nodup) : l.filter f = [x] := by
  have hself : ∀ y ∈ l, f y = (y == x) := fun y hy => by
    rw [Bool.eq_iff_iff, beq_iff_eq]
    exact ⟨hu y hy, fun h => h ▸ hf⟩
  rw [List.filter_congr hself, List.filter_beq, List.count_eq_one_of_mem hn hx, List.replicate_one]

/-- A SCENE_CANCEL that names no call of the table is rejected (R245). -/
theorem sceneCancel_none {p : Pend} {s : State} (h : ∀ x ∈ s.call.pend, ¬ cancels (pfield p.call.payload 0 4) x) :
    sceneCancel p s = (s, .reject 4) := by
  have hhit := List.filter_eq_nil_iff.mpr fun x hx => (cancels_iff _ x).not.mpr (h x hx)
  simp only [sceneCancel, hhit, List.isEmpty_nil, if_true]

/-- A SCENE_CANCEL takes the one call it names, not yet applied at F, out of the table, with its receipt (R245). -/
theorem sceneCancel_one {p x : Pend} {s : State} (hx : x ∈ s.call.pend) (hc : cancels (pfield p.call.payload 0 4) x)
    (hu : ∀ y ∈ s.call.pend, cancels (pfield p.call.payload 0 4) y → y = x) (hn : s.call.pend.Nodup) (ha : x.armed = false) :
    sceneCancel p s = (orReg Reg.SCENE_EVT 2#32 (receiptEnd x.call stCancelled 0x11 (strokeDue s)
      { s with call := { s.call with pend := dropPend x s.call.pend } }), .done) := by
  have hhit := filter_eq_singleton hx ((cancels_iff _ x).mpr hc) (fun y hy h => hu y hy ((cancels_iff _ y).mp h)) hn
  simp only [sceneCancel, hhit, List.isEmpty_cons, Bool.false_eq_true, if_false, List.foldl_cons, List.foldl_nil, cancelPend, ha]
  rfl

/-! ### The hand-over -/

/-- After the FINISH of H the strips of the recall run SINGLE and the recall is done (R240). -/
theorem sceneDone_one {s : State} {r : Recall} (hp : s.eng.phase = .finished) (hf : s.scene.fades = [r])
    (hh : r.hand ≤ s.eng.stroke.toNat) :
    let t := r.forked.foldl (fun t n => forkClear n t) s
    sceneDone s = orReg Reg.SCENE_EVT 1#32 { t with scene := { t.scene with fades := [] } } := by
  intro t
  have hscene : t.scene = s.scene := foldl_state (π := id) (P := fun t => t.scene = s.scene) _ r.forked s (fun _ _ h => h) rfl
  have hpast : [r].filter (fun r => decide (r.hand ≤ s.eng.stroke.toNat)) = [r] := by simp [hh]
  have hleft : [r].filter (fun r => decide (s.eng.stroke.toNat < r.hand)) = [] := by simp [hh]
  unfold sceneDone
  simp only [hp, hf, hpast, List.isEmpty_cons, List.foldl_cons, List.foldl_nil]
  change sceneEvt 0 { t with scene := { t.scene with fades := t.scene.fades.filter _ } } = _
  rw [hscene, hf, hleft]
  rfl

/-! ### The aligned swap -/

/-- After a FINISH calls are applied for the next stroke (R58). -/
theorem strokeDue_finished {s : State} (hp : s.eng.phase = .finished) (hk : s.eng.stroke.toNat + 1 < 2 ^ 64) :
    (strokeDue s).toNat = s.eng.stroke.toNat + 1 := by
  rw [strokeDue, if_pos hp]
  bv_omega

/-- The aligned swaps that are due act in the order of their recalls (R242). -/
theorem alignSwap_due {s : State} (ho : callsOpen s = true) (h : ∀ m ∈ s.scene.align, m.2 ≤ (strokeDue s).toNat) :
    alignSwap s = s.scene.align.foldl (fun t m => xpSwap m.1 t) { s with scene := { s.scene with align := [] } } := by
  have hall : s.scene.align.all (fun m => decide (m.2 ≤ (strokeDue s).toNat)) = true := by simpa using h
  have hnone : s.scene.align = [] → s = { s with scene := { s.scene with align := [] } } := fun h => by rw [← h]
  unfold alignSwap
  split
  · next h =>
    rw [h]
    exact hnone h
  · rw [if_pos ⟨ho, hall⟩]

/-- Aligned swaps wait while one of them is not yet due. -/
theorem alignSwap_waits {s : State} (h : ∃ m ∈ s.scene.align, (strokeDue s).toNat < m.2) : alignSwap s = s := by
  have hall : ¬ s.scene.align.all (fun m => decide (m.2 ≤ (strokeDue s).toNat)) = true := by simpa using h
  unfold alignSwap
  split
  · rfl
  · exact if_neg fun hc => hall hc.2

end Sys2Proof.Machine
end

section
/-! The recall of a scene: its two applications, its cancel, its end and its aligned swap (R232, R235, R240, R242, R245). -/

open Sys2Proof Sys2Proof.Machine

/-- Settles O22, row by row: a SCENE_ARM arms the recall of its descriptor and stays in the table for T; the recall stroke, the cancel, the
hand-over and the aligned swap are the updates whose equations the lemmas above state. -/
theorem scenes : Obligations.Scenes := by
  refine fun s p _ => ⟨fun hd ha hb => ?atF, fun r hd ha hfork hroute hf _ => ?atT,
    fun hd => ⟨fun h => ?cancelNone, fun x hx hc hu hn hx' => ?cancelOne⟩, fun r hp hf hh => ?handOver,
    fun hp hk => ⟨fun h => ?alignDue, fun h => ?alignWaits⟩⟩
  case atF =>
    refine goes_done rfl (applyCall_keep hd (sceneArm_free (s := charged s p) ha hb))
      ⟨recallOf p _ (charged s p), rfl, rfl, rfl, rfl, rfl, rfl, rfl, rfl, ?forked, rfl, ?pend, ?units, ?fades⟩
    case forked => exact congrArg (ite _ [] ·) (forkChoice_charged ..)
    case pend => exact congrArg (List.map _ ·.pend) (startRecall_call (recallOf p _ (charged s p)) (charged s p))
    case units => exact (congrArg CallState.wu (startRecall_call ..)).trans (congrArg (s.call.wu + ·) (callCost_sceneArm hd.op))
    case fades => exact startRecall_fades (recallOf p _ (charged s p)) (charged s p)
  case atT =>
    have happly := sceneRecall_direct (p := p) (s := charged s p) ha hfork hroute hf
    have halign : (toggleAll r.desc.strips (charged s p)).scene.align = [] := (congrArg SceneState.align (toggleAll_scene ..)).trans hd.align
    refine ⟨fun hx => applies_due hd rfl (happly.trans ?none), fun hx hal => applies_due hd rfl (happly.trans ?align),
      fun hx hal => applies_due hd rfl (happly.trans ?swap)⟩
    case none => exact congrArg (·, Applied.done) (recallMatrix_none hx ..)
    case align =>
      rw [recallMatrix_align hx hal]
      · rfl
      · exact halign
    case swap => exact congrArg (·, Applied.done) (recallMatrix_swap hx hal ..)
  case cancelNone => exact gives_done rfl (applyCall_reject hd (sceneCancel_none (s := charged s p) h))
  case cancelOne => exact applies_due hd rfl (sceneCancel_one (s := charged s p) hx hc hu hn hx')
  case handOver => exact gives_done rfl (sceneDone_one hp hf hh)
  case alignDue => exact gives_done rfl (alignSwap_due (by simp [callsOpen, hp]) (by rwa [strokeDue_finished hp hk]))
  case alignWaits => exact gives_done rfl (alignSwap_waits (by rwa [strokeDue_finished hp hk]))
end

section
/-! The ports as a file of units: a port read after a write to the same and to another port, and folds of updates over ports. -/

namespace Sys2Proof.Machine

/-- A unit put back as it is. -/
theorem vput_vget {α : Type} {n i : Nat} (d : α) (v : Vector α n) (h : i < n) : vput v i (vget d v i) = v := by
  simp [vget, vput, h]

@[simp] theorem portAt_putPort {p : Nat} (h : p < 48) (x : Port) (s : State) : portAt (putPort p x s) p = x := by
  simp [portAt, putPort, h]

theorem portAt_putPort_ne {p q : Nat} (h : p ≠ q) (x : Port) (s : State) : portAt (putPort p x s) q = portAt s q :=
  vget_vput_ne _ _ _ h

@[simp] theorem putPort_putPort (p : Nat) (x y : Port) (s : State) : putPort p x (putPort p y s) = putPort p x s := by
  simp [putPort]

theorem putPort_portAt {p : Nat} (h : p < 48) (s : State) : putPort p (portAt s p) s = s := by
  rw [putPort, portAt, vput_vget _ _ h]

theorem RecordsOnly.portAt {s t : State} (h : RecordsOnly s t) (p : Nat) : portAt t p = portAt s p := by
  have hport : t.port = s.port := h.field State.port
  rw [Machine.portAt, hport, Machine.portAt]

/-- `t` differs from `s` at most in the ports of the port unit. -/
def PortsOnly (s t : State) : Prop := ∃ ports, t = { s with port := { s.port with ports } }

theorem PortsOnly.refl (s : State) : PortsOnly s s := ⟨s.port.ports, rfl⟩

theorem PortsOnly.putPort {s t : State} (h : PortsOnly s t) (p : Nat) (x : Port) : PortsOnly s (putPort p x t) := by
  obtain ⟨ports, rfl⟩ := h
  exact ⟨vput ports p x, rfl⟩

/-- A fold that updates each port of a list once, from what is not in the ports and from the port itself. -/
theorem foldl_putPort {s u : State} {f : State → Nat → State} {g : Nat → Port → Port} {l : List Nat}
    (hf : ∀ t, PortsOnly s t → ∀ p ∈ l, f t p = putPort p (g p (portAt t p)) t) (hl : l.Nodup) (hu : PortsOnly s u) :
    PortsOnly s (l.foldl f u) ∧ ∀ p, p < 48 → portAt (l.foldl f u) p = if p ∈ l then g p (portAt u p) else portAt u p := by
  induction l generalizing u with
  | nil => exact ⟨hu, fun p _ => by simp⟩
  | cons q l ih =>
    obtain ⟨hq, hl⟩ := List.nodup_cons.mp hl
    rw [List.foldl_cons, hf u hu q (by simp)]
    obtain ⟨honly, hport⟩ := ih (fun t ht p hp => hf t ht p (List.mem_cons_of_mem q hp)) hl (hu.putPort q (g q (portAt u q)))
    refine ⟨honly, fun p hp => (hport p hp).trans ?_⟩
    by_cases hpq : p = q
    · subst hpq
      simp [hq, hp]
    · simp [hpq, portAt_putPort_ne (Ne.symm hpq)]

end Sys2Proof.Machine
end

section
/-! The reset pulse of ports and PDM clock groups and its release (R253, R267, R281, R282). -/

namespace Sys2Proof.Machine

/-! ### The pulse -/

/-- A port that its reset has taken OFF (R267). -/
def takenOff (x : Port) : Port := { x with st := .off, held := true, win := [], emit := none }

/-- The units that a write to PORT_RST0 or PORT_RST1 names (R282). -/
def rstUnits (hi : Bool) (v : Word) : List Nat :=
  ((List.range 32).filter fun i => bitAt v i ∧ (if hi then 32 + i else i) < 52).map fun i => if hi then 32 + i else i

theorem mem_rstUnits {hi : Bool} {v : Word} {u : Nat} (h : u < 52) :
    u ∈ rstUnits hi v ↔ (if hi then 32 ≤ u && bitAt v (u - 32) else u < 32 && bitAt v u) = true := by
  cases hi with
  | false => simp [rstUnits, h]
  | true =>
    simp only [rstUnits, if_true, List.mem_map, List.mem_filter, List.mem_range, decide_eq_true_eq, Bool.and_eq_true]
    constructor
    · rintro ⟨i, ⟨_, hv, _⟩, rfl⟩
      exact ⟨by omega, by rwa [Nat.add_sub_cancel_left]⟩
    · rintro ⟨hu, hv⟩
      exact ⟨u - 32, ⟨by omega, hv, by omega⟩, by omega⟩

/-- A reset of one unit: what it does to the ports and to the PDM groups, nothing else changing. -/
theorem unitReset_port (u : Nat) (s : State) : ∃ port, unitReset u s = { s with port } ∧
    (∀ p, p < 48 → portAt { s with port } p = if p = u then takenOff (portAt s p) else portAt s p) ∧
    ∀ g, g < 4 → port.pdmHeld.getLsbD g = (s.port.pdmHeld.getLsbD g || decide (48 + g = u)) := by
  by_cases hu : u < 48
  · refine ⟨(putPort u (takenOff (portAt s u)) s).port, if_pos hu, fun p hp => ?_, fun g _ => ?_⟩
    · by_cases hpu : p = u
      · subst hpu
        exact (portAt_putPort hp _ s).trans (if_pos rfl).symm
      · exact (portAt_putPort_ne (Ne.symm hpu) _ s).trans (if_neg hpu).symm
    · rw [decide_eq_false (by omega), Bool.or_false]
      rfl
  · refine ⟨_, if_neg hu, fun p hp => ?_, fun g hg => ?_⟩
    · exact (if_neg (by omega)).symm
    · have hbit : decide (u - 48 = g) = decide (48 + g = u) := decide_eq_decide.mpr (by omega)
      rw [BitVec.getLsbD_or, BitVec.getLsbD_ofNat, Nat.testBit_two_pow, decide_eq_true hg, Bool.true_and, hbit]

/-- Resets of several units, the same one more than once or not. -/
theorem foldl_unitReset (l : List Nat) (s : State) : ∃ port, l.foldl (fun s u => unitReset u s) s = { s with port } ∧
    (∀ p, p < 48 → portAt { s with port } p = if p ∈ l then takenOff (portAt s p) else portAt s p) ∧
    ∀ g, g < 4 → port.pdmHeld.getLsbD g = (s.port.pdmHeld.getLsbD g || decide (48 + g ∈ l)) := by
  induction l generalizing s with
  | nil => exact ⟨s.port, rfl, fun p _ => by simp, fun g _ => by simp⟩
  | cons u l ih =>
    obtain ⟨port, heq, hport, hheld⟩ := unitReset_port u s
    obtain ⟨port', heq', hport', hheld'⟩ := ih { s with port }
    refine ⟨port', by rw [List.foldl_cons, heq, heq'], fun p hp => (hport' p hp).trans ?_, fun g hg => (hheld' g hg).trans ?_⟩
    · rw [hport p hp]
      by_cases hpu : p = u <;> by_cases hpl : p ∈ l <;> simp [hpu, hpl, takenOff]
    · rw [hheld g hg, Bool.or_assoc, ← Bool.decide_or]
      simp only [List.mem_cons]

theorem unitReset_err (u : Nat) (s : State) : (unitReset u s).err = s.err := by
  obtain ⟨port, h, _⟩ := unitReset_port u s
  rw [h]

theorem loopPort_idle {s : State} (h : s.err.testBusy = false) (u : Nat) : loopPort s u = false := by
  simp [loopPort, h]

/-- Two folds agree whose steps agree under what every step keeps. -/
theorem foldl_congr_of_keeps {α β : Type} {f g : α → β → α} {P : α → Prop} (h : ∀ x i, P x → f x i = g x i ∧ P (g x i)) (l : List β) {x : α}
    (hx : P x) : l.foldl f x = l.foldl g x := by
  induction l generalizing x with
  | nil => rfl
  | cons i l ih =>
    obtain ⟨heq, hkeep⟩ := h x i hx
    rw [List.foldl_cons, heq, ih hkeep, List.foldl_cons]

/-- Outside a self-test a pulse is the reset of each unit that it names. -/
theorem portRstWrite_idle {s : State} (h : s.err.testBusy = false) (hi : Bool) (v : Word) :
    portRstWrite hi v s = (rstUnits hi v).foldl (fun s u => unitReset u s) s := by
  rw [portRstWrite, rstUnits, List.foldl_map, List.foldl_filter]
  refine foldl_congr_of_keeps (P := fun t => t.err.testBusy = false) (fun t i ht => ?_) _ h
  generalize (if hi then 32 + i else i) = u
  have hbusy : (unitReset u t).err.testBusy = false := by rw [unitReset_err, ht]
  by_cases hn : bitAt v i ∧ u < 52
  · simp [hn, hbusy, loopPort_idle hbusy]
  · simp [hn, ht]

/-! ### The release -/

/-- A port whose release found no configuration to take up (R267). -/
def portReleased (x : Port) : Port := { held := false, seen := x.seen, rate := { x.rate with valid := false } }

/-- A released port that takes up PORT_CFG: IDLE, the RUN gate closed and the MUTE gate open (R253, R267, R269, R271). -/
def portConfigured (s : State) (p : Nat) (c : Word) (x : Port) : Port :=
  let y := { portReleased x with cfg := c }
  { y with st := .idle, run := ⟨0, runLen s p y, false⟩, mute := ⟨2 * portN s y, 2 * portN s y, true⟩, fmeas := bitAt c 30 }

section
variable {s : State} {p : Nat}

theorem portRelease_disabled (hi : NoInjection s) (hh : (portAt s p).held = true) (hen : bitAt (regAt s Reg.PORT_CFG p) 31 = false) :
    portRelease p s = putPort p (portReleased (portAt s p)) s := by
  simp [portRelease, hh, hen, detect_clear hi, portReleased]

theorem portRelease_refused (hi : NoInjection s) (hh : (portAt s p).held = true) (hen : bitAt (regAt s Reg.PORT_CFG p) 31 = true)
    (hbad : cfgBad (regAt s Reg.PORT_CFG p) = true) : portRelease p s =
      orRegAt Reg.PORT_STAT p 0x80#32 (putPort p (portReleased (portAt s p)) (report (portSrc p) 0x405#12 .note 0#32 s)) := by
  simp [portRelease, hh, hen, hbad, detect_found hi, portReleased, portStat, flag, wOf]

theorem portRelease_taken (hi : NoInjection s) (hh : (portAt s p).held = true) (hen : bitAt (regAt s Reg.PORT_CFG p) 31 = true)
    (hgood : cfgBad (regAt s Reg.PORT_CFG p) = false) :
    portRelease p s = putPort p (portConfigured s p (regAt s Reg.PORT_CFG p) (portAt s p)) s := by
  simp [portRelease, hh, hen, hgood, detect_clear hi, portConfigured, portReleased, cfgMaster]

theorem unitRelease_port (hp : p < 48) : unitRelease p s = portRelease p s := if_pos hp

theorem unitRelease_pdm (hp : 48 ≤ p) : unitRelease p s = pdmRelease (p - 48) s := if_neg (Nat.not_lt.mpr hp)

theorem pdmRelease_held {g : Nat} (h : s.port.pdmHeld.getLsbD g = true) : pdmRelease g s = { s with port := { s.port with
    pdmHeld := s.port.pdmHeld &&& ~~~(BitVec.ofNat 4 (2 ^ g))
    pdmCfg := (s.port.pdmCfg &&& ~~~wOf (0xF0 * 2 ^ (8 * g))) ||| (reg s Reg.PDM_CFG &&& wOf (0xF0 * 2 ^ (8 * g))) } } := by
  simp [pdmRelease, h]

/-- Past the ports step and outside a self-test, PORT_RESET_RELEASE releases its unit (R267, R437). -/
theorem gives_portResetRelease {u : Fin 52} {t : State} (hb : s.err.testBusy = false) (hr : s.sys.rel = 8) (h : unitRelease u.val s = t) :
    Gives (.portResetRelease u) s t :=
  gives_done rfl ((if_pos (by simp [hr, loopPort_idle hb])).trans h)

end

/-! ### PDM streams and gates -/

theorem ioStroke_eq (s : State) :
    ioStroke s = if s.eng.phase = .drive ∨ s.eng.phase = .finished then s.eng.stroke else s.port.stroke := by
  simp [ioStroke]

/-- A stream past its settling is live (R281). -/
theorem pdmSettled_over {s : State} {k : Nat} (hk : k < 32) (ho : (pdmAt s k).on = true) (hs : (pdmAt s k).settle = 0) :
    pdmSettled k s = { s with port := { s.port with pdm := vput s.port.pdm k { pdmAt s k with live := true } } } := by
  cases hl : (pdmAt s k).live with
  | false => simp [pdmSettled, ho, hs, hl, putPdm]
  | true =>
    have hself : ({ pdmAt s k with live := true } : PdmStream) = pdmAt s k := by rw [← hl]
    rw [hself, show vput s.port.pdm k (pdmAt s k) = s.port.pdm from vput_vget _ _ hk]
    simp [pdmSettled, hl]

@[simp] theorem gateGain_open (n : Nat) : gateGain n n = 2 ^ 31 := if_pos rfl

theorem gateGain_closed {n : Nat} (h : 0 < n) : gateGain 0 n = 0 := by
  simp [gateGain, h.ne]

theorem gateGain_le (p n : Nat) : gateGain p n ≤ 2 ^ 31 := by
  have hup : upg p n ≤ 0x7FFFFFFF := Nat.min_le_left ..
  unfold gateGain
  split_ifs <;> omega

end Sys2Proof.Machine
end

section
/-! Port resets and PDM_EN (R253, R267, R281, R282). -/

open Sys2Proof Sys2Proof.Machine

/-- Settles O26: a pulse is the reset of each unit it names, a release one of three by PORT_CFG, and the rest single updates. -/
theorem portResets : Obligations.PortResets := by
  refine ⟨fun s hi hb => ⟨fun m hi32 v => ?pulse, fun u hu hr hh => ⟨fun hen => ?disabled, fun hen hbad => ?refused, fun hen hgood => ?taken⟩,
    fun u hu hr hh => ?pdmRelease⟩, fun s => ⟨fun m v => ?pdmEn, fun k ho hs => ?settled, fun p n hp hn h0 => ?gain⟩⟩
  case pulse =>
    obtain ⟨port, heq, hport, hheld⟩ := foldl_unitReset (rstUnits hi32 v) s
    refine goes_done rfl ((portRstWrite_idle hb hi32 v).trans heq) ⟨fun p hp => (hport p hp).trans ?_, fun g hg => (hheld g hg).trans ?_, rfl⟩
    · simp only [mem_rstUnits (show p < 52 by omega)]
      rfl
    · simp only [mem_rstUnits (show 48 + g < 52 by omega), Bool.decide_eq_true]
  case disabled => exact gives_portResetRelease hb hr ((unitRelease_port hu).trans (portRelease_disabled hi hh hen))
  case refused => exact gives_portResetRelease hb hr ((unitRelease_port hu).trans (portRelease_refused hi hh hen hbad))
  case taken => exact gives_portResetRelease hb hr ((unitRelease_port hu).trans (portRelease_taken hi hh hen hgood))
  case pdmRelease => exact gives_portResetRelease hb hr ((unitRelease_pdm hu).trans (pdmRelease_held hh))
  case pdmEn => exact gives_done rfl (by rw [pdmEnWrite, ioStroke_eq])
  case settled => exact gives_done rfl (pdmSettled_over k.isLt ho hs)
  case gain => exact ⟨gateGain_closed h0, gateGain_open n, gateGain_le p n⟩
end

section
/-! Group actions and the RUN gates (R267–R269, R273). -/

namespace Sys2Proof.Machine

theorem grpWrite_first {s : State} (h : s.port.grp = []) (go : Bool) (v : Word) : grpWrite go v s = { s with port := { s.port with
    grpG := ioStroke s + 2#64
    grp := ((List.range 16).filter fun i => bitAt v i).map fun i => ⟨ioStroke s + 2#64, i, go⟩ } } := by
  simp [grpWrite, h]

/-- The stroke whose group actions PORT_GROUP_ACTION performs. -/
def grpStroke (s : State) : BitVec 64 := if callsOpen s then strokeDue s else ioStroke s

theorem grpStroke_eq (s : State) : grpStroke s =
    if s.eng.phase = .finished then s.eng.stroke + 1#64 else if s.eng.phase = .held then s.port.stroke else s.eng.stroke := by
  cases h : s.eng.phase <;> simp [grpStroke, callsOpen, strokeDue, ioStroke, h]

theorem grpDue_none {s : State} (h : s.port.grp = []) (t : BitVec 64) : grpDue t s = s := by
  have hself : ({ s with port := { s.port with grp := [] } } : State) = s := by rw [← h]
  simpa [grpDue, h] using hself

/-- A port of RUN gate length `n` after a group's start or stop: its state and gate turn where the action changes them (R268, R273). -/
def gateActed (go : Bool) (n : Nat) (x : Port) : Port :=
  if go then
    if x.st = .idle then { x with st := .starting, run := ⟨0, n, true⟩ }
    else if x.st = .stopping then { x with st := .starting, run := gateAim x.run true n }
    else x
  else if x.st = .starting ∨ x.st = .running then { x with st := .stopping, run := gateAim x.run false n }
  else x

/-- A port after a group action: of another group it stays as it is. -/
def groupActed (s : State) (a : GrpAct) (p : Nat) (x : Port) : Port :=
  if cfgGrp x.cfg ≠ a.grp then x else gateActed a.go (runLen s p x) x

theorem portAct_eq {s : State} {p : Nat} (hp : p < 48) (go : Bool) :
    portAct go p s = putPort p (gateActed go (runLen s p (portAt s p)) (portAt s p)) s := by
  cases go with
  | true => cases h : (portAt s p).st <;> simp [portAct, gateActed, h, putPort_portAt hp]
  | false => cases h : (portAt s p).st <;> simp [portAct, gateActed, h, putPort_portAt hp]

/-- The length of a RUN gate is not in the ports. -/
theorem groupActed_portsOnly {s t : State} (h : PortsOnly s t) (a : GrpAct) : groupActed t a = groupActed s a := by
  obtain ⟨_, rfl⟩ := h
  rfl

theorem groupActed_step {s t : State} {p : Nat} (h : PortsOnly s t) (hp : p < 48) (a : GrpAct) :
    (if cfgGrp (portAt t p).cfg = a.grp then portAct a.go p t else t) = putPort p (groupActed s a p (portAt t p)) t := by
  rw [← groupActed_portsOnly h, groupActed]
  by_cases hg : cfgGrp (portAt t p).cfg = a.grp
  · rw [if_pos hg, if_neg (not_not.mpr hg), portAct_eq hp]
  · rw [if_neg hg, if_pos hg, putPort_portAt hp]

/-- The one action due meets every port, and none is left. -/
theorem grpDue_one {s : State} {a : GrpAct} {t : BitVec 64} (h : s.port.grp = [a]) (hd : a.g.toNat ≤ t.toNat) :
    ∃ ports, grpDue t s = { s with port := { s.port with ports, grp := [] } } ∧
      ∀ p, p < 48 → vget {} ports p = groupActed s a p (portAt s p) := by
  obtain ⟨⟨ports, hports⟩, hport⟩ := foldl_putPort (s := s) (u := s) (l := List.range 48) (g := groupActed s a)
    (fun t ht p hp => groupActed_step ht (List.mem_range.mp hp) a) List.nodup_range (.refl s)
  refine ⟨ports, ?_, fun p hp => ?_⟩
  · simp [grpDue, h, hd, hports, Nat.not_lt.mpr hd]
  · have hp' := hport p hp
    rwa [hports, if_pos (List.mem_range.mpr hp)] at hp'

theorem runRampEnd_up {x : Port} (hs : x.st = .starting) (he : x.run.p = x.run.n) : runRampEnd x = { x with st := .running } := by
  simp [runRampEnd, hs, he]

theorem runRampEnd_down {x : Port} (hs : x.st = .stopping) (he : x.run.p = 0) : runRampEnd x = { x with st := .idle } := by
  simp [runRampEnd, hs, he]

end Sys2Proof.Machine
end

section
/-! Port groups (R267–R269, R273). -/

open Sys2Proof Sys2Proof.Machine

/-- Settles O27: a write schedules its actions, the action due meets every port of its group once, and the ends of the ramps are single
updates of a port. -/
theorem portGroups : Obligations.PortGroups := by
  refine fun s => ⟨fun m v hg => ?write, fun hg => ?none, fun a hg hd => ?action,
    fun p => ⟨fun hs he => ?up, fun hs he => ?down, fun ht => ?silence, fun ht => ?ramp⟩⟩
  case write =>
    rw [← ioStroke_eq]
    exact ⟨gives_done rfl (grpWrite_first hg true v), gives_done rfl (grpWrite_first hg false v)⟩
  case none => exact gives_done rfl (grpDue_none hg _)
  case action =>
    rw [← grpStroke_eq] at hd
    obtain ⟨ports, heq, hports⟩ := grpDue_one hg hd
    exact goes_done rfl heq ⟨rfl, rfl, hports⟩
  case up => exact gives_done rfl (congrArg (putPort p.val · s) (runRampEnd_up hs he))
  case down => exact gives_done rfl (congrArg (putPort p.val · s) (runRampEnd_down hs he))
  case silence => exact gives_done rfl (if_pos ht)
  case ramp => exact gives_done rfl (if_pos ht)
end

section
/-! The serial line of a port and its edges (R251, R252, R254, R256, R264–R266). -/

namespace Sys2Proof.Machine

/-! ### The words of a frame -/

/-- The bits of a number that is read MSB first onto `v`. -/
theorem testBit_foldl_msb (bits : List Bool) (v j : Nat) :
    (bits.foldl (fun v b => 2 * v + if b then 1 else 0) v).testBit j =
      if j < bits.length then bits.getD (bits.length - 1 - j) false else v.testBit (j - bits.length) := by
  induction bits generalizing v with
  | nil => simp
  | cons b bits ih =>
    have hbit : (2 * v + if b then 1 else 0) = Nat.bit b v := by cases b <;> rfl
    rw [List.foldl_cons, ih, hbit, List.length_cons]
    rcases Nat.lt_trichotomy j bits.length with hj | rfl | hj
    · rw [if_pos hj, if_pos (by omega), show bits.length + 1 - 1 - j = (bits.length - 1 - j) + 1 by omega, List.getD_cons_succ]
    · simp
    · rw [if_neg (by omega), if_neg (by omega), show j - bits.length = (j - (bits.length + 1)) + 1 by omega, Nat.testBit_bit_succ]

theorem bitAt_msbWord {bits : List Bool} (h : bits.length ≤ 32) (j : Nat) :
    bitAt (msbWord bits) j = (decide (j < bits.length) && bits.getD (bits.length - 1 - j) false) := by
  rw [bitAt, msbWord, wOf, BitVec.getLsbD_ofNat, testBit_foldl_msb]
  by_cases hj : j < bits.length
  · simp [hj, Nat.lt_of_lt_of_le hj h]
  · simp [hj]

theorem widthOf_le (c : Nat) : widthOf c ≤ 32 := by
  unfold widthOf
  split_ifs <;> decide

/-- A bit of the serial line as the port captures it, 0 past the end (R251). -/
theorem getElem?_capBits (c : Word) (bits : List DiBit) (i : Nat) :
    (capBits c bits)[i]? = bits[i]?.map fun d => if bitAt c 18 then d.atFall else d.atRise :=
  List.getElem?_map

/-- The bits of a slot's word: those of its first WLEN periods, MSB first (R252). -/
theorem bitAt_slotIn (c : Word) (bits : List DiBit) (i j : Nat) :
    bitAt (slotIn c bits i) j = (decide (j < widthOf (cfgWlen c)) && ((capBits c bits)[dataStart c + i * widthOf (cfgSlotw c) +
      (widthOf (cfgWlen c) - 1 - j)]?).getD false) := by
  rw [slotIn]
  generalize hn : widthOf (cfgWlen c) = n
  generalize dataStart c + i * widthOf (cfgSlotw c) = start
  generalize hbs : ((capBits c bits).drop start).take n = bs
  have hle : bs.length ≤ n := hbs ▸ List.length_take_le ..
  have hlen : (bs ++ List.replicate (n - bs.length) false).length = n := by
    rw [List.length_append, List.length_replicate]
    omega
  rw [bitAt_msbWord (by rw [hlen, ← hn]; exact widthOf_le _), hlen]
  by_cases hj : j < n
  · have hpad : (bs ++ List.replicate (n - bs.length) false).getD (n - 1 - j) false = (bs[n - 1 - j]?).getD false := by
      rw [List.getD_eq_getElem?_getD]
      rcases Nat.lt_or_ge (n - 1 - j) bs.length with hk | hk
      · rw [List.getElem?_append_left hk]
      · rw [List.getElem?_append_right hk, List.getElem?_eq_none hk, List.getElem?_replicate]
        split <;> rfl
    rw [hpad, ← hbs, List.getElem?_take_of_lt (by omega), List.getElem?_drop]
  · simp [hj]

theorem dataStart_eq (c : Word) : dataStart c = if cfgFmt c = 0 ∨ (cfgFmt c = 2 ∧ bitAt c 16 = true) then 1 else 0 := by
  unfold dataStart
  by_cases h : cfgFmt c = 0 <;> simp [h]

/-! ### Edges -/

theorem fsRising_eq (c : Word) : fsRising c = xor (decide (cfgFmt c ≠ 0)) (bitAt c 19) := by
  have hfmt : (cfgFmt c != 0) = decide (cfgFmt c ≠ 0) := by simp only [bne, decide_not, beq_eq_decide]
  rw [fsRising, hfmt, Bool.bne_eq_xor]

/-- An edge at a port that is OFF, or one that starts no frame, changes nothing. -/
theorem fsEdge_other {s : State} {p : Nat} {rising : Bool} (h : (portAt s p).st = .off ∨ rising ≠ fsRising (portAt s p).cfg)
    (at_ : Time) (bits : List DiBit) (period : Nat) : fsEdge p at_ rising bits period s = s :=
  if_pos (h.imp_right .inr)

/-- The time of an edge: a master port's own edges are those of its grid (R254). -/
def edgeTime (s : State) (p : Nat) (at_ : Time) : Time :=
  if sapPad s p == .driven then gridEdge (sps s * portN s (portAt s p)) s.eng.gridAt at_ else at_

/-- One more edge in the rate window that counts, at a running port whose phase is known (R264). -/
theorem countEdge_running {x : Port} {t : Time} (hs : x.stopped = false) (hf : x.fmeas = true) (hk : x.ew.k = t / 6553600000000)
    (he : x.ew.e ≠ 0) : countEdge t { x with stopped := false, fmeas := x.fmeas && !x.stopped } =
      { x with ew := { x.ew with e := x.ew.e + 1, t2 := t } } := by
  simp [countEdge, hs, hf, hk, he]

/-- An edge that starts a frame at port `p`, which runs with its phase known, in the rate window that counts (R252, R256, R264). -/
structure StartsFrame (s : State) (p : Nat) (at_ : Time) (rising : Bool) : Prop where
  on : (portAt s p).st ≠ .off
  rising : rising = fsRising (portAt s p).cfg
  supplied : portVioLow s p = false
  running : (portAt s p).stopped = false
  phase : (portAt s p).fmeas = true
  speed : (portAt s p).speed = false
  window : (portAt s p).ew.k = edgeTime s p at_ / 6553600000000
  counted : (portAt s p).ew.e ≠ 0

/-- Such an edge is counted and its frame waits for its window (R256, R264). -/
theorem fsEdge_frame {s : State} {p : Nat} {at_ : Time} {rising : Bool} (hp : p < 48) (h : StartsFrame s p at_ rising) (bits : List DiBit)
    (period : Nat) :
    let x := portAt s p
    fsEdge p at_ rising bits period s = putPort p { x with
      ew := { x.ew with e := x.ew.e + 1, t2 := edgeTime s p at_ }
      win := x.win ++ [⟨edgeTime s p at_, (List.range (portSlots x.cfg)).map (slotIn x.cfg bits),
        sapPad s p == .driven || period == frameBits x.cfg⟩] } s := by
  have htime : (if (sapPad s p == .driven) = true then gridEdge (sps s * portN s (portAt s p)) s.eng.gridAt at_ else at_) =
      edgeTime s p at_ := rfl
  have hseen : ¬ ((portAt s p).st = .off ∨ (portVioLow s p = true ∧ cfgMaster (portAt s p).cfg = false) ∨
      rising ≠ fsRising (portAt s p).cfg) := by simp [h.on, h.supplied, h.rising]
  simp only [fsEdge, if_neg hseen, htime, countEdge_running h.running h.phase h.window h.counted]
  simp [hp, h.phase, h.speed, h.supplied, h.running]

/-! ### The loss of the edges -/

/-- 1 ms without an edge stops a slave port of the device's domains (R266). -/
theorem portStop_slave {s : State} {p : Nat} (hi : NoInjection s) (hst : (portAt s p).st ≠ .off) (hm : bitAt (portAt s p).cfg 30 = false)
    (hstop : (portAt s p).stopped = false) (hd : portDom (portAt s p).cfg ≠ 3) :
    portStop p s = orRegAt Reg.PORT_STAT p 8#32
      (putPort p { portAt s p with stopped := true } (report (portSrc p) 0x406#12 .degrade 0#32 s)) := by
  rw [portStop, detect_found hi (by simp [hst, hm, hstop, cfgMaster])]
  simp [hd, (report_recordsOnly ..).portAt, portStat, flag, wOf]

/-! ### The published rate -/

/-- The nominal rates lie more than 2 % of both apart (R265). -/
theorem classRate_apart {c d : Nat} (h1 : 1 ≤ c) (h : c < d) (h7 : d ≤ 7) : 51 * classRate c < 49 * classRate d := by
  have hall : ∀ d, d ≤ 7 → ∀ c, c < d → 1 ≤ c → 51 * classRate c < 49 * classRate d := by decide
  exact hall d h7 c h h1

/-- A rate within 2 % of the nominal rate of a class (R265). -/
def NearClass (rate c : Nat) : Prop := ((rate : Int) - 1024 * classRate c).natAbs * 50 ≤ 1024 * classRate c

theorem NearClass.not_above {rate c d : Nat} (h : NearClass rate c) (h1 : 1 ≤ c) (hcd : c < d) (h7 : d ≤ 7) : ¬ NearClass rate d := by
  have hapart := classRate_apart h1 hcd h7
  unfold NearClass at *
  omega

theorem NearClass.unique {rate c d : Nat} (h : NearClass rate c) (h' : NearClass rate d) (hc : 1 ≤ c ∧ c ≤ 7) (hd : 1 ≤ d ∧ d ≤ 7) : c = d := by
  rcases Nat.lt_trichotomy c d with hlt | heq | hgt
  · exact absurd h' (h.not_above hc.1 hlt hd.2)
  · exact heq
  · exact absurd h (h'.not_above hd.1 hgt hc.2)

/-- The one member of a list that meets a test is what a search finds. -/
theorem find?_eq_some_of_unique {α : Type} {f : α → Bool} {l : List α} {c : α} (hc : c ∈ l) (hf : f c = true)
    (hu : ∀ d ∈ l, f d = true → d = c) : l.find? f = some c := by
  obtain ⟨d, hd⟩ := Option.isSome_iff_exists.mp (List.find?_isSome.mpr ⟨c, hc, hf⟩)
  rw [hd, hu d (List.mem_of_find?_eq_some hd) (List.find?_some hd)]

theorem classOf_near {c rate : Nat} (hc : 1 ≤ c ∧ c ≤ 7) (h0 : rate ≠ 0) (h : NearClass rate c) : classOf rate = c := by
  have hmem : c ∈ (List.range 7).map (· + 1) := List.mem_map.mpr ⟨c - 1, List.mem_range.mpr (by omega), by omega⟩
  rw [classOf, find?_eq_some_of_unique hmem]
  · rfl
  · exact Bool.and_eq_true_iff.mpr ⟨bne_iff_ne.mpr h0, decide_eq_true h⟩
  · intro d hd hf
    obtain ⟨i, hi, rfl⟩ := List.mem_map.mp hd
    have hi7 := List.mem_range.mp hi
    rw [Bool.and_eq_true, decide_eq_true_eq] at hf
    exact NearClass.unique hf.2 h ⟨by omega, by omega⟩ hc

/-- The rate of a window with two edges or more at different times (R264). -/
theorem rateOf_counted {w : EdgeWin} (he : 2 ≤ w.e) (ht : w.t1 < w.t2) :
    rateOf w = 1024 * (w.e - 1) * 65536000000000 / (w.t2 - w.t1) :=
  if_neg (not_or.mpr ⟨Nat.not_lt.mpr he, Nat.not_le.mpr ht⟩)

/-- Tolerance of a port's rate in parts per million (R264). -/
def rateTol (s : State) (p : Nat) : Nat :=
  if fld (regAt s Reg.PORT_CTRL p) 9 0 = 0 then 100 else fld (regAt s Reg.PORT_CTRL p) 9 0

/-- The window that ends at `e` gave port `p` a rate within tolerance, of the class as before and no overspeed (R255, R264, R265). -/
structure RateSteady (s : State) (p : Nat) (x : Port) (e : Time) : Prop where
  on : x.st ≠ .off
  window : x.ew.k = e / 6553600000000 - 1
  domain : portDom x.cfg < 3
  within : ((rateOf x.ew : Int) - 1024 * (sps s * domN (portDom x.cfg) : Nat)).natAbs * 1000000 ≤
    rateTol s p * (1024 * (sps s * domN (portDom x.cfg)))
  valid : x.rate.valid = true
  cls : classOf (rateOf x.ew) = x.cls
  slow : ¬ (bitAt x.cfg 30 = false ∧ 49152000 < portSlots x.cfg * widthOf (cfgSlotw x.cfg) * classRate x.cls)

/-- Such a rate is published without a record (R264, R265). -/
theorem ratePublish_steady {s : State} {p : Nat} {x : Port} {e : Time} (hi : NoInjection s) (hx : portAt s p = x) (h : RateSteady s p x e) :
    ratePublish p e s = putPort p { x with rate := publish [wOf (rateOf x.ew)] x.rate, oot := false, speed := false } s := by
  have htol : (if fld (regAt s Reg.PORT_CTRL p) 9 0 = 0 then 100 else fld (regAt s Reg.PORT_CTRL p) 9 0) = rateTol s p := rfl
  have hslow : (!cfgMaster x.cfg && decide (portSlots x.cfg * widthOf (cfgSlotw x.cfg) * classRate x.cls > 49152000)) = false := by
    simpa [cfgMaster] using h.slow
  unfold ratePublish
  rw [hx, if_neg h.on]
  simp only [if_pos h.window, if_pos h.domain, htol, decide_eq_false (Nat.not_lt.mpr h.within), h.cls, hslow, h.valid, Bool.and_false,
    Bool.false_and, if_true, bne_self_eq_false, detect_clear hi, Bool.false_eq_true, if_false, hx]

end Sys2Proof.Machine
end

section
/-! Port edges (R251, R252, R254, R256, R264–R266). -/

open Sys2Proof Sys2Proof.Machine

/-- Settles O28: an edge that starts a frame adds it and counts, the loss of the edges is one record and one bit, and a rate within its
bounds publishes. -/
theorem portEdges : Obligations.PortEdges := by
  refine fun s p hi => ⟨fun at_ rising bits period => ⟨fun h => ?other, fun hst hr hv hstop hf hsp hk he => ?frame⟩,
    fun hst hm hstop hd => ?stopped, fun e hst hk he ht hd htol hv hcls hfast => ?rate, fun c rate h1 h7 h0 h => ?cls⟩
  case other => exact gives_done rfl (fsEdge_other (by rwa [fsRising_eq]) ..)
  case frame =>
    refine ⟨(List.range (portSlots (portAt s p.val).cfg)).map (slotIn (portAt s p.val).cfg bits), by simp, fun i hslot j _ => ?_,
      gives_done rfl (fsEdge_frame p.isLt ⟨hst, by rwa [fsRising_eq], hv, hstop, hf, hsp, hk, he⟩ ..)⟩
    simp only [← dataStart_eq, ← getElem?_capBits, ← bitAt_slotIn]
    simp [hslot]
  case stopped => exact gives_done rfl (portStop_slave hi hst hm hstop hd)
  case rate =>
    rw [← rateOf_counted he ht] at htol hcls ⊢
    exact gives_done rfl (ratePublish_steady hi rfl ⟨hst, hk, hd, htol, hv, hcls, hfast⟩)
  case cls => exact classOf_near ⟨h1, h7⟩ h0 h
end

section
/-! The frames of a network port (R284–R286): what the access layer drops, what the device answers, and what the host queue takes. -/

namespace Sys2Proof.Machine

/-! ### The access layer -/

theorem netStat_fcs (p : Nat) (s : State) : netStat p 2 s = orReg (Reg.NET_STAT0 + 0x40 * p) 4#32 s := rfl
theorem netStat_long (p : Nat) (s : State) : netStat p 3 s = orReg (Reg.NET_STAT0 + 0x40 * p) 8#32 s := rfl

section
variable {h : RxHdr} {s : State}

theorem frameCheck_down (hl : linkUp s h.port.val = false) : frameCheck h s = (s, false) := by
  simp [frameCheck, hl]

theorem frameCheck_badFcs (hl : linkUp s h.port.val = true) (hf : h.fcsOk = false) :
    frameCheck h s = (orReg (Reg.NET_STAT0 + 0x40 * h.port.val) 4#32 s, false) := by
  simp [frameCheck, hl, hf, netStat_fcs]

theorem frameCheck_long (hl : linkUp s h.port.val = true) (hf : h.fcsOk = true) (hn : 1522 < h.len) :
    frameCheck h s = (orReg (Reg.NET_STAT0 + 0x40 * h.port.val) 8#32 s, false) := by
  simp [frameCheck, hl, hf, hn, netStat_long]

theorem frameCheck_good (hl : linkUp s h.port.val = true) (hf : h.fcsOk = true) (hn : h.len ≤ 1522) : frameCheck h s = (s, true) := by
  simp [frameCheck, hl, hf, Nat.not_lt.mpr hn]

end

/-- The commands that carry a frame for the device or the host leave a dropped frame at what the access layer has noted. -/
theorem gives_frame_dropped {fr : RxFrame} {s t : State} (h : frameCheck fr.hdr s = (t, false)) :
    ∀ i ∈ ([.arpRequest fr, .icmpEcho fr, .igmpQuery fr, .hostQueueRx fr] : List Instr), Gives i s t := by
  have hreply (kind at_ : Nat) : reply kind at_ fr s = t := by simp [reply, h]
  simp only [List.forall_mem_cons, List.not_mem_nil, false_imp_iff, implies_true, and_true]
  refine ⟨gives_done rfl (hreply frArp 24), gives_done rfl (hreply frIcmp 16), gives_done rfl ?igmp, gives_done rfl ?host⟩
  case igmp => simp [igmpQuery, h]
  case host => simp [hostQueueRx, h]

/-! ### The answers of the device -/

theorem sendFrame_up {s : State} {p : Nat} (h : linkUp s p = true) (kind : Nat) (fields : List Nat) (payload : List Byte) :
    sendFrame p kind fields payload s = { s with out := s.out ++ [.frame p kind fields payload] } :=
  if_pos h

section
variable {fr : RxFrame} {s : State} (hl : linkUp s fr.hdr.port.val = true) (hf : fr.hdr.fcsOk = true) (hn : fr.hdr.len ≤ 1522)
include hl hf hn

theorem hostQueueRx_good : hostQueueRx fr s = hostQueue fr.hdr fr.bytes s := by
  simp [hostQueueRx, frameCheck_good hl hf hn]

theorem reply_own {at_ : Nat}
    (ho : beField fr.bytes (etherPay fr.bytes + at_) 4 = (reg s (Reg.NET_IP0 + 0x40 * fr.hdr.port.val)).toNat) (kind : Nat) :
    reply kind at_ fr s = { s with out := s.out ++ [.frame fr.hdr.port.val kind [] (Config.replyFrame kind fr.bytes)] } := by
  simp [reply, frameCheck_good hl hf hn, netReg, ho, sendFrame_up hl]

/-- A request for another address goes the way of a frame for the host (R285). -/
theorem reply_other {at_ : Nat}
    (ho : ¬ beField fr.bytes (etherPay fr.bytes + at_) 4 = (reg s (Reg.NET_IP0 + 0x40 * fr.hdr.port.val)).toNat) (kind : Nat) :
    reply kind at_ fr s = hostQueueRx fr s := by
  simp [reply, frameCheck_good hl hf hn, netReg, ho, hostQueueRx_good hl hf hn]

theorem igmpQuery_good : igmpQuery fr s = { s with out := s.out ++ [.frame fr.hdr.port.val frIgmp
    (igmpv s fr.hdr.port.val :: (groupsOn s fr.hdr.port.val).map (·.toNat)) (Config.replyFrame frIgmp fr.bytes)] } := by
  simp [igmpQuery, frameCheck_good hl hf hn, sendFrame_up hl]

end

theorem mediaPacket_dropped {pk : MediaPacket} {s t : State} (h : frameCheck pk.hdr s = (t, false)) : mediaPacket pk s = t := by
  simp [mediaPacket, h]

theorem ptpMessage_dropped {j : Nat} {msg : PtpMessage} {s t : State} (h : frameCheck msg.hdr s = (t, false)) : ptpMessage j msg s = t := by
  simp [ptpMessage, h]

end Sys2Proof.Machine
end

section
/-! Frames dropped and answered (R284, R285). -/

open Sys2Proof Sys2Proof.Machine

/-- Settles O29: what the access layer drops leaves its bit of NET_STAT, and a good frame is answered or is the host's. -/
theorem networkReplies : Obligations.NetworkReplies :=
  fun _ _ _ _ => ⟨fun hl => gives_frame_dropped (frameCheck_down hl), fun hl hf => gives_frame_dropped (frameCheck_badFcs hl hf),
    fun hl hf hn => gives_frame_dropped (frameCheck_long hl hf hn),
    fun ⟨hl, hf, hn⟩ ho => ⟨_, gives_done rfl (reply_own hl hf hn ho frArp)⟩,
    fun ⟨hl, hf, hn⟩ ho => congrArg done (reply_other hl hf hn ho frArp),
    fun ⟨hl, hf, hn⟩ ho => ⟨_, gives_done rfl (reply_own hl hf hn ho frIcmp)⟩,
    fun ⟨hl, hf, hn⟩ ho => congrArg done (reply_other hl hf hn ho frIcmp),
    fun ⟨hl, hf, hn⟩ => ⟨_, gives_done rfl (igmpQuery_good hl hf hn)⟩,
    fun hl hf => gives_done rfl (mediaPacket_dropped (frameCheck_badFcs hl hf)),
    fun _ hl hf => gives_done rfl (ptpMessage_dropped (frameCheck_badFcs hl hf))⟩
end

section
/-! The host queue (R284, R286). -/

namespace Sys2Proof.Machine

/-! ### Receive -/

/-- The frames that a port drops unseen, by their EtherType and the fragment fields of IPv4 (R284). -/
theorem unsupported_iff (bs : List Byte) : unsupported bs = true ↔
    etherType bs = 0x8808 ∨ etherType bs = 0x86DD ∨ (etherType bs = 0x0800 ∧ beField bs (etherPay bs + 6) 2 % 16384 ≠ 0) := by
  simp [unsupported, or_assoc]

theorem stampWords_eq (t : Time) : stampWords t =
    [wOf (t % 65536000000000 / 65536), wOf (t / 65536000000000), wOf (t / 65536000000000 / 4294967296), wOf (t % 65536000000000 % 65536)] := rfl

theorem netStat_full (p : Nat) (s : State) : netStat p 4 s = orReg (Reg.NET_STAT0 + 0x40 * p) 16#32 s := rfl

section
variable {h : RxHdr} {bytes : List Byte} {s : State}

theorem hostQueue_unsupported (hu : unsupported bytes = true) : hostQueue h bytes s = s :=
  if_pos hu

theorem hostQueue_full (hu : ¬ unsupported bytes = true)
    (hf : hqSize s Reg.NET_HQ_RXSIZE ≤ (s.net.rxWr - (reg s Reg.NET_HQ_RXRD).truncate 11).toNat) :
    hostQueue h bytes s = orReg (Reg.NET_STAT0 + 0x40 * h.port.val) 16#32 s :=
  ((if_neg hu).trans (if_pos hf)).trans (netStat_full ..)

/-- A frame with room in the ring is written at the write index with its header and ingress stamp, and raises the host's interrupt (R286). -/
theorem hostQueue_stored (hu : ¬ unsupported bytes = true)
    (hf : (s.net.rxWr - (reg s Reg.NET_HQ_RXRD).truncate 11).toNat < hqSize s Reg.NET_HQ_RXSIZE) :
    let a := centralAddr ((reg s Reg.NET_HQ_RXBASE).toNat + s.net.rxWr.toNat % hqSize s Reg.NET_HQ_RXSIZE * 2048)
    let t := ingress s h
    let stamp := [wOf (t % 65536000000000 / 65536), wOf (t / 65536000000000), wOf (t % 65536000000000 % 65536)]
    let bs := (((place h.port.val 15 ||| wOf (bytes.length % 2048)) :: stamp).flatMap leBytes ++ bytes).take 2048
    let u := (writeRun .net (fun _ => true) (cut a bs.length) bs s).1
    hostQueue h bytes s = irqLatch 4 { u with net := { u.net with rxWr := u.net.rxWr + 1 } } := by
  simp only [hostQueue, if_neg hu, if_neg (Nat.not_le.mpr hf), stampWords_eq, List.getD_cons_zero, List.getD_cons_succ]

end

/-! ### Transmit -/

theorem hqTxSend_empty {s : State} (h : s.net.txRd = s.net.txProd) : hqTxSend s = s :=
  if_pos h

theorem bitsOf_bit15 (w : Nat) : bitsOf w 15 15 = w / 32768 % 2 := rfl

theorem sendFrame_eq (p kind : Nat) (fields : List Nat) (payload : List Byte) (s : State) : sendFrame p kind fields payload s =
    if vget false s.net.up p = true then { s with out := s.out ++ [.frame p kind fields payload] } else s := rfl

/-- The oldest entry leaves the ring, whether or not the link of its port is up (R286). -/
theorem hqTxSend_oldest {s : State} (h : s.net.txRd ≠ s.net.txProd) :
    let a := centralAddr ((reg s Reg.NET_HQ_TXBASE).toNat + s.net.txRd.toNat % hqSize s Reg.NET_HQ_TXSIZE * 2048)
    let w := readRun .net (cut a 4) s
    let r := readRun .net (cut (a + 16) (min 2032 (leNat w.2.1 % 2048))) w.1
    let p := leNat w.2.1 / 32768 % 2
    let u : State := { r.1 with net := { r.1.net with txRd := r.1.net.txRd + 1 } }
    hqTxSend s = if vget false u.net.up p = true then { u with out := u.out ++ [.frame p 4 [] (r.2.1 ++ leBytes (crc32 r.2.1))] } else u := by
  rw [hqTxSend, if_neg h]
  simp only [bitsOf_bit15, sendFrame_eq, Nat.min_def]

end Sys2Proof.Machine
end

section
/-! The host queue (R284, R286). -/

open Sys2Proof Sys2Proof.Machine

/-- Settles O30: a good frame is discarded, dropped or stored, and the oldest entry leaves. -/
theorem hostQueue : Obligations.HostQueue := by
  refine fun s => ⟨fun fr hl hf hn => ?receive, fun m v => gives_done rfl rfl, fun h => gives_done rfl (hqTxSend_oldest h),
    fun h => gives_done rfl (hqTxSend_empty h)⟩
  case receive =>
    have hgood := hostQueueRx_good hl hf hn
    exact ⟨fun hd => gives_done rfl (hgood.trans (hostQueue_unsupported ((unsupported_iff _).mpr hd))),
      fun hd hfull => gives_done rfl (hgood.trans (hostQueue_full (mt (unsupported_iff _).mp hd) hfull)),
      fun hd hfree => gives_done rfl (hgood.trans (hostQueue_stored (mt (unsupported_iff _).mp hd) hfree))⟩
end

section
/-! The links of the network ports and the stream counters (R313, R314, R412). -/

namespace Sys2Proof.Machine

theorem RecordsOnly.net {s t : State} (h : RecordsOnly s t) : t.net = s.net := h.field State.net

theorem netStat_linkDown (p : Nat) (s : State) : netStat p 1 s = orReg (Reg.NET_STAT0 + 0x40 * p) 2#32 s := rfl

/-- A link that was up goes down with its record and its bit of NET_STAT (R314). -/
theorem linkDown_up {s : State} {p : Nat} (hi : NoInjection s) (h : linkUp s p = true) :
    linkDown p s = orReg (Reg.NET_STAT0 + 0x40 * p) 2#32
      { report (srcId 1 5 p 0) 0x500#12 .degrade 0#32 s with net := { s.net with up := vput s.net.up p false } } := by
  have hnet := (report_recordsOnly (srcId 1 5 p 0) 0x500#12 .degrade 0#32 s).net
  simp [linkDown, h, detect_found hi, netSrc, netStat_linkDown, hnet]

theorem linkDown_down {s : State} {p : Nat} (h : linkUp s p = false) : linkDown p s = s := by
  simp [linkDown, h]

theorem linkRaise_enabled {s : State} {p : Nat} (he : bitAt (reg s (Reg.NET_CFG0 + 0x40 * p)) 31 = true) (ht : s.err.testBusy = false) :
    linkRaise p s = { s with net := { s.net with up := vput s.net.up p true } } := by
  simp [linkRaise, netReg, he, loopHolds, ht]

/-- A write to NET_CFG of a link that is down restarts the NET master only (R313, R412). -/
theorem netCfgWrite_down {s : State} {p : Nat} (h : linkUp s p = false) (v : Word) (prog : Option Burst) :
    netCfgWrite p v prog s = masterReset .net memPerform prog (setReg (Reg.NET_CFG0 + 0x40 * p) (v &&& 0xFF000000#32) s) := by
  rw [netCfgWrite, linkDown_down (s := setReg _ _ s) h]

end Sys2Proof.Machine
end

section
/-! Network links (R313, R314, R412). -/

open Sys2Proof Sys2Proof.Machine

/-- Settles O32: each command's update, with the link as the statement has it; the counters publish by definition. -/
theorem networkLinks : Obligations.NetworkLinks :=
  fun _ _ hi => ⟨fun h => gives_done rfl (linkDown_up hi h), fun h => gives_done rfl (linkDown_down h),
    fun he ht => gives_done rfl (linkRaise_enabled he ht), fun _ v prog h => gives_done rfl (netCfgWrite_down h v prog), gives_done rfl rfl⟩
end

section
/-! System time: the resolutions of a split, the held offset and the latched time (R288, R294, R296). -/

namespace Sys2Proof.Machine

theorem RecordsOnly.ref {s t : State} (h : RecordsOnly s t) : t.ref = s.ref := h.field State.ref
theorem RecordsOnly.inj {s t : State} (h : RecordsOnly s t) : t.err.inj = s.err.inj := h.field fun u => u.err.inj

/-- The injection slots alone decide whether one is armed. -/
theorem NoInjection.congr {s t : State} (hi : NoInjection s) (h : t.err.inj = s.err.inj) : NoInjection t := fun src code => by
  rw [injArmed, h]
  exact hi src code

theorem ptpFirst_lt {s : State} {r : Nat} (h : ptpFirst s = some r) : r < 2 := by
  have h01 : r ∈ [0, 1] := List.mem_of_mem_filter (List.mem_of_find?_eq_some h)
  simp only [List.mem_cons, List.not_mem_nil, or_false] at h01
  omega

/-! ### The switch to a PTP instance -/

/-- The held offset of a switch to a PTP instance is its OFS, and nothing is left of another build-out (R325). -/
theorem buildOut_ptp {r : Nat} (hr : r < 2) (s : State) : buildOut r s = setHeld (ptpAt s r).ofs { s with ref := { s.ref with bo := 0 } } :=
  if_pos hr

theorem firstStep_done {s : State} (h : s.ref.firstDone = true) (r : Nat) : firstStep r s = s :=
  if_pos h

/-- What a switch to PTP instance `r` makes of the references' part: from FREERUN or HOLDOVER it acquires (R325, R327). -/
def switchedTo (r : Nat) (x : RefState) : RefState :=
  let y := { x with sel := some r, slew := 1, bo := 0 }
  if x.dpll = 0 ∨ x.dpll = 3 then { y with dpll := 1, locks := 0 } else y

@[simp] theorem switchedTo_sel (r : Nat) (x : RefState) : (switchedTo r x).sel = some r := by
  unfold switchedTo
  dsimp only
  split <;> rfl

@[simp] theorem switchedTo_slew (r : Nat) (x : RefState) : (switchedTo r x).slew = 1 := by
  unfold switchedTo
  dsimp only
  split <;> rfl

theorem switchedTo_dpll {x : RefState} (h : x.dpll = 0 ∨ x.dpll = 3) (r : Nat) : (switchedTo r x).dpll = 1 := by
  simp [switchedTo, h]

/-- A switch to a PTP instance takes its offset as the held one; the first acquisition, which steps, is left out. -/
theorem refSwitch_ptp {s : State} {r : Nat} (hi : NoInjection s) (hr : r < 2)
    (hd : s.ref.dpll = 0 ∨ s.ref.dpll = 3 → s.ref.firstDone = true) :
    refSwitch r s = { refHist 3 (report selSrc 0x611#12 .note 0#32 s) with
      net := { s.net with held := (ptpAt s r).ofs }, ref := switchedTo r s.ref } := by
  have hrec := report_recordsOnly selSrc 0x611#12 .note 0#32 s
  have hdpll : (refHist 3 (report selSrc 0x611#12 .note 0#32 s)).ref.dpll = s.ref.dpll := congrArg RefState.dpll hrec.ref
  unfold refSwitch
  simp only [detect_found hi, buildOut_ptp hr, hdpll]
  by_cases hw : s.ref.dpll = 0 ∨ s.ref.dpll = 3
  · rw [if_pos hw, firstStep_done]
    · simp [refHist, setHeld, switchedTo, ptpAt, hrec.net, hrec.ref, hw]
    · simp [refHist, setHeld, hrec.ref, hd hw]
  · rw [if_neg hw]
    simp [refHist, setHeld, switchedTo, ptpAt, hrec.net, hrec.ref, hw]

/-! ### Steps -/

@[simp] theorem setFreq_net (f : Int) (s : State) : (setFreq f s).net = s.net := by
  unfold setFreq
  split <;> rfl

@[simp] theorem setFreq_err (f : Int) (s : State) : (setFreq f s).err = s.err := by
  unfold setFreq
  split <;> rfl

/-- A step of the host moves system time and leaves the held offset (R296). -/
theorem hostStep_net {s : State} (hi : NoInjection s) (d : Int) :
    (hostStep d s).net.held = s.net.held ∧ (hostStep d s).net.now = ((s.net.now : Int) + d).toNat := by
  have hnet (src : BitVec 16) := (report_recordsOnly src 0x602#12 .fault 0#32 s).net
  simp [hostStep, detect_found hi, stepTime, hnet]

theorem holdEnd_net {s : State} (h : s.net.held ≠ 0) : (holdEnd s).net = { s.net with held := 0 } := by
  rw [holdEnd, if_neg h, setHeld_net]

theorem holdEnd_err (s : State) : (holdEnd s).err = s.err := by
  unfold holdEnd
  split <;> rfl

/-! ### FORCE and STEP -/

section
variable {s : State} {r : Nat}

theorem timeForce_idle (h : s.net.isSplit = false ∨ ptpFirst s = none) : timeForce s = s := by
  unfold timeForce
  rcases h with h | h <;> simp [h]

theorem timeStep_idle (h : s.net.isSplit = false ∨ ptpFirst s = none) : timeStep s = s := by
  unfold timeStep
  rcases h with h | h <;> simp [h]

variable (hi : NoInjection s) (hs : s.net.isSplit = true) (hf : ptpFirst s = some r)
include hs hf

theorem timeForce_followed (hsel : s.ref.sel = some r) : timeForce s = s := by
  simp [timeForce, hs, hf, hsel]

include hi

/-- A FORCE to an instance that is not followed holds its offset and lets system time run on (R296). -/
theorem timeForce_switch (hsel : s.ref.sel ≠ some r) (hd : s.ref.dpll = 0 ∨ s.ref.dpll = 3 → s.ref.firstDone = true) :
    (timeForce s).ref = switchedTo r s.ref ∧ (timeForce s).net.held = (ptpAt s r).ofs ∧ (timeForce s).net.now = s.net.now := by
  have heq : timeForce s = refSwitch r (endWait s) := by simp [timeForce, hs, hf, hsel]
  rw [heq, refSwitch_ptp (s := endWait s) (hi.congr rfl) (ptpFirst_lt hf) hd]
  exact ⟨rfl, rfl, rfl⟩

/-- A STEP to an instance that is not followed moves system time by its offset at once (R296). -/
theorem timeStep_switch (hsel : s.ref.sel ≠ some r) (hd : s.ref.dpll = 0 ∨ s.ref.dpll = 3 → s.ref.firstDone = true) :
    (timeStep s).net.held = 0 ∧ (timeStep s).net.now = ((s.net.now : Int) + (ptpAt s r).ofs).toNat := by
  have hrec := report_recordsOnly selSrc 0x611#12 .note 0#32 (endWait s)
  have heq := refSwitch_ptp (s := endWait s) (hi.congr rfl) (ptpFirst_lt hf) hd
  simp only [timeStep, hs, hf, hsel, Bool.not_true, Bool.false_eq_true, if_false, heq]
  refine (hostStep_net (hi.congr ?inj) _).imp (·.trans ?held) (·.trans ?now)
  case inj => simpa [refHist, endWait] using hrec.inj
  case held => simp
  case now => simp [ptpAt, endWait]

/-- A STEP while the instance is followed takes the rest of the held offset at once (R296). -/
theorem timeStep_followed (hsel : s.ref.sel = some r) :
    (timeStep s).net.held = 0 ∧ (timeStep s).net.now = ((s.net.now : Int) + s.net.held).toNat := by
  have heq : timeStep s = if s.net.held = 0 then s else hostStep s.net.held (holdEnd s) := by simp [timeStep, hs, hf, hsel]
  rw [heq]
  by_cases h0 : s.net.held = 0
  · simp [h0]
  · have hstep := hostStep_net (s := holdEnd s) (hi.congr (by rw [holdEnd_err])) s.net.held
    rw [holdEnd_net h0] at hstep
    rwa [if_neg h0]

end

end Sys2Proof.Machine
end

section
/-! System time (R288, R294, R296). -/

open Sys2Proof Sys2Proof.Machine

/-- Settles O34: FORCE holds the offset of a switch, STEP takes what is left at once, and the rest are the updates themselves. -/
theorem systemTime : Obligations.SystemTime := by
  refine fun s hi => ⟨fun m h => ⟨gives_done rfl (timeForce_idle h), gives_done rfl (timeStep_idle h)⟩, fun m r hs hf hsel hd => ?force,
    fun m r hs hf hsel hd => ?step, fun m r hs hf hsel hd => ⟨gives_done rfl (timeForce_followed hs hf hsel), ?rest⟩,
    fun m r hs hf hsel hd hfirst => ?acquire, gives_done rfl rfl, fun m t => gives_done rfl rfl⟩
  case force =>
    obtain ⟨href, hheld, hnow⟩ := timeForce_switch hi hs hf hsel (by omega)
    exact goes_done rfl rfl (by simp [href, hheld, hnow])
  case step => exact goes_done rfl rfl (timeStep_switch hi hs hf hsel (by omega))
  case rest => exact goes_done rfl rfl (timeStep_followed hi hs hf hsel)
  case acquire =>
    obtain ⟨href, hheld, hnow⟩ := timeForce_switch hi hs hf hsel fun _ => hfirst
    exact goes_done rfl rfl (by simp [href, hheld, hnow, switchedTo_dpll hd])
end

section
/-! The carry of a PTP domain past the end of its 48-bit seconds into TIME_EPOCH (R287). A register table of canonical form reads the next
epoch back; a table that lists TIME_EPOCH twice need not. -/

namespace Sys2Proof.Machine

/-- The low half of TIME_EPOCH after the carry. -/
theorem fld_epochNext (w : Word) : fld ((w + 1#32) &&& 0xFFFF#32) 15 0 = (fld w 15 0 + 1) % 2 ^ 16 := by
  have hmask : ((w + 1#32) &&& 0xFFFF#32).toNat = (w + 1#32).toNat % 2 ^ 16 := by
    rw [BitVec.toNat_and]
    exact Nat.and_two_pow_sub_one_eq_mod _ 16
  simp [fld, bitsOf, hmask, BitVec.toNat_add]

/-- On a register table of canonical form the epoch after the seconds of a Sync is the next one where the followed domain carries, and as
before where it does not (R287). -/
theorem epoch_ptpSeconds {s : State} (hw : tabWf 0#32 s.regs = true) (i : Nat) (sec : BitVec 48) :
    fld (reg (ptpSeconds i sec s) Reg.TIME_EPOCH) 15 0 =
      if s.ref.sel = some i ∧ 2 ^ 47 ≤ (ptpAt s i).sec.toNat ∧ sec.toNat < 2 ^ 47 then (fld (reg s Reg.TIME_EPOCH) 15 0 + 1) % 2 ^ 16
      else fld (reg s Reg.TIME_EPOCH) 15 0 := by
  unfold ptpSeconds
  simp only [reg, putPtp_regs]
  by_cases hc : s.ref.sel = some i ∧ 2 ^ 47 ≤ (ptpAt s i).sec.toNat ∧ sec.toNat < 2 ^ 47
  · rw [if_pos hc, if_pos hc, setReg_regs, tget_tset hw, if_pos rfl, fld_epochNext]
  · rw [if_neg hc, if_neg hc]

/-- Instance 0 is followed and near the end of its seconds. TIME_EPOCH stands at its greatest value in a table that lists it twice, so that
a write of 0, which takes the first entry out, lets the second one show. -/
def epochListedTwice : State :=
  let data : PtpData := { prio1 := 0#8, cls := 0#8, acc := 0#8, variance := 0#16, prio2 := 0#8, gmid := 0#64, steps := 0#16, utc := 0#16 }
  { State.reset with
    regs := [(Reg.TIME_EPOCH, 0xFFFF#32), (Reg.TIME_EPOCH, 5#32)]
    net := { up := Vector.replicate 2 true, ptp := Vector.replicate 2 { st := 2, sec := 0x800000000000#48, master := some { sender := 1#80, data } } }
    ref := { sel := some 0 } }

/-- A one-step Sync of that instance's master, its seconds past the end. -/
def syncPastEnd : PtpMessage :=
  { hdr := { port := 0, len := 64, fcsOk := true, sfd := 0 }, domain := 0#8, sender := 1#80, seq := 0#16, correction := 0
    body := .sync false ⟨0#48, 0#32⟩ }

theorem epochListedTwice_noInjection : NoInjection epochListedTwice := fun src code => by
  simp [injArmed, epochListedTwice, State.reset, slotNames]

/-- The epoch 0 that the carry writes reads back as 5. -/
theorem epochListedTwice_t21 :
    (ptpAt (settle (ptpMessage 0 syncPastEnd epochListedTwice)) 0).t21 = -(5 * 2 ^ 48 * 65536000000000) := by decide +kernel

end Sys2Proof.Machine
end

section
/-! The PTP instances (R287, R289–R293). -/

open Sys2Proof Sys2Proof.Machine

/-- Refutes O33: the statement allows a register table that lists TIME_EPOCH twice. There the epoch of a Sync past the end of the seconds
is 0 by the statement, and the model reads the second entry, 5. On a table of canonical form the epoch is the
statement's (`epoch_ptpSeconds`). -/
theorem not_ptpInstances : ¬ Obligations.PtpInstances := by
  intro h
  obtain ⟨hmessage, -⟩ := h epochListedTwice 0 epochListedTwice_noInjection rfl
  obtain ⟨-, htaken⟩ := hmessage syncPastEnd (by decide +kernel) rfl (by decide)
  obtain ⟨-, hsync, -⟩ := htaken (by decide +kernel) (by decide +kernel) (by decide +kernel)
  obtain ⟨-, -, hestimate⟩ := hsync false ⟨0#48, 0#32⟩ rfl
  obtain ⟨t, ht, h21, -⟩ := hestimate ⟨_, rfl, rfl⟩ rfl
  obtain rfl : settle (ptpMessage 0 syncPastEnd epochListedTwice) = t := Host.Outcome.next.inj ht
  rw [show ((0 : Fin 2).val) = 0 from rfl, epochListedTwice_t21] at h21
  exact absurd h21 (by decide +kernel)
end

section
/-! The choice of a reference: its rank, its support and the tie (R317, R322). -/

namespace Sys2Proof.Machine

/-! ### Rank -/

/-- The rank of a reference: its QL, then its priority, of which the lower is the better (R317). -/
def refRank (s : State) (r : Nat) : ℕ ×ₗ ℕᵒᵈ := toLex ((refAt s r).ql, OrderDual.toDual (refPrio s r))

theorem outranks_iff {s : State} {a b : Nat} : outranks s a b = true ↔ refRank s b < refRank s a := by
  simp only [outranks, refRank, Prod.Lex.toLex_lt_toLex, OrderDual.toDual_lt_toDual, Bool.or_eq_true, Bool.and_eq_true, decide_eq_true_eq,
    beq_iff_eq]
  exact or_congr_right (and_congr_left' eq_comm)

/-- The candidates that no other outranks. -/
def topRank (s : State) (cands : List Nat) : List Nat := cands.filter fun r => !(cands.any fun v => outranks s v r)

theorem mem_topRank {s : State} {cands : List Nat} {a : Nat} :
    a ∈ topRank s cands ↔ a ∈ cands ∧ ∀ v ∈ cands, outranks s v a = false := by
  simp [topRank]

/-- Rank is a linear order, so there is a highest one among any candidates. -/
theorem topRank_ne_nil {s : State} {cands : List Nat} (h : cands ≠ []) : topRank s cands ≠ [] := by
  obtain ⟨a, ha, hmax⟩ := cands.toFinset.exists_max_image (refRank s) (by simpa using h)
  refine List.ne_nil_of_mem (mem_topRank.mpr ⟨List.mem_toFinset.mp ha, fun v hv => ?_⟩)
  rw [Bool.eq_false_iff, ne_eq, outranks_iff]
  exact not_lt_of_ge (hmax v (List.mem_toFinset.mpr hv))

/-! ### Support -/

theorem foldl_natMax_le {l : List Nat} {m n : Nat} : l.foldl Nat.max m ≤ n ↔ m ≤ n ∧ ∀ x ∈ l, x ≤ n := by
  induction l generalizing m with
  | nil => simp
  | cons x l ih => rw [List.foldl_cons, ih, List.forall_mem_cons, ← and_assoc, Nat.max_le]

/-- The top members with the largest support. -/
def bestSupported (s : State) (cands : List Nat) : List Nat :=
  (topRank s cands).filter fun r => refSupport s cands r == ((topRank s cands).map (refSupport s cands)).foldl Nat.max 0

theorem mem_bestSupported {s : State} {cands : List Nat} {a : Nat} :
    a ∈ bestSupported s cands ↔ a ∈ topRank s cands ∧ ∀ b ∈ topRank s cands, refSupport s cands b ≤ refSupport s cands a := by
  have hle (n : Nat) : ((topRank s cands).map (refSupport s cands)).foldl Nat.max 0 ≤ n ↔ ∀ b ∈ topRank s cands, refSupport s cands b ≤ n := by
    simp [foldl_natMax_le]
  rw [bestSupported, List.mem_filter, beq_iff_eq]
  refine and_congr_right fun ha => ?_
  rw [← hle]
  exact ⟨fun h => h.ge, fun h => le_antisymm ((hle _).mp le_rfl a ha) h⟩

theorem bestSupported_ne_nil {s : State} {cands : List Nat} (h : cands ≠ []) : bestSupported s cands ≠ [] := by
  obtain ⟨a, ha, hmax⟩ := (topRank s cands).toFinset.exists_max_image (refSupport s cands) (by simpa using topRank_ne_nil h)
  exact List.ne_nil_of_mem (mem_bestSupported.mpr ⟨List.mem_toFinset.mp ha, fun b hb => hmax b (List.mem_toFinset.mpr hb)⟩)

/-! ### The tie -/

theorem bestBy_mem {lt : Nat → Nat → Bool} {l : List Nat} {r : Nat} (h : bestBy lt l = some r) : r ∈ l := by
  induction l with
  | nil => cases h
  | cons x l ih =>
    rw [bestBy] at h
    cases hb : bestBy lt l with
    | none => simp_all
    | some b =>
      rw [hb] at h
      dsimp only at h
      split at h
      · exact List.mem_cons_of_mem _ (ih (hb.trans h))
      · exact List.mem_cons.mpr (.inl (Option.some.inj h).symm)

theorem bestBy_eq_none {lt : Nat → Nat → Bool} {l : List Nat} : bestBy lt l = none ↔ l = [] := by
  cases l with
  | nil => simp [bestBy]
  | cons x l =>
    rw [bestBy]
    split
    · simp
    · split <;> simp

/-- The current selection is kept where it is among the best (R322). -/
theorem refChoice_kept {s : State} {cands : List Nat} {k : Nat} (hs : s.ref.sel = some k) (hk : k ∈ bestSupported s cands) :
    refChoice s cands = some k := by
  have hk' : (bestSupported s cands).contains k = true := by simpa using hk
  rw [refChoice, hs]
  exact if_pos hk'

/-- Otherwise the choice is the best of them by the distance from the holdover estimate (R322). -/
theorem refChoice_nearest {s : State} {cands : List Nat} (h : ∀ k, s.ref.sel = some k → k ∉ bestSupported s cands) :
    refChoice s cands = bestBy (fun a b => decide (hofsDist s a < hofsDist s b)) (bestSupported s cands) := by
  rw [refChoice]
  split
  · next k hs =>
    have hk : ¬ (bestSupported s cands).contains k = true := by simpa using h k hs
    exact if_neg hk
  · rfl

theorem refChoice_mem {s : State} {cands : List Nat} {r : Nat} (h : refChoice s cands = some r) : r ∈ bestSupported s cands := by
  by_cases hk : ∃ k, s.ref.sel = some k ∧ k ∈ bestSupported s cands
  · obtain ⟨k, hs, hk⟩ := hk
    obtain rfl : k = r := Option.some.inj ((refChoice_kept hs hk).symm.trans h)
    exact hk
  · push Not at hk
    exact bestBy_mem ((refChoice_nearest hk).symm.trans h)

theorem refChoice_eq_none {s : State} {cands : List Nat} : refChoice s cands = none ↔ cands = [] := by
  refine ⟨fun h => ?_, fun h => ?_⟩
  · by_contra hc
    have hk (k : Nat) (hs : s.ref.sel = some k) : k ∉ bestSupported s cands := fun hk => by
      simp [refChoice_kept hs hk] at h
    rw [refChoice_nearest hk, bestBy_eq_none] at h
    exact bestSupported_ne_nil hc h
  · subst h
    rw [refChoice_nearest fun _ _ => List.not_mem_nil]
    rfl

/-- A candidate is QUALIFIED (R322). -/
theorem qualified_of_mem_refCands {s : State} {r : Nat} (h : r ∈ refCands s) : (refAt s r).st = 3 := by
  simp only [refCands, List.mem_filter, Bool.and_eq_true, beq_iff_eq] at h
  exact h.2.1.1

end Sys2Proof.Machine
end

section
/-! What a selection and a change of QL do to the references: they leave each alone, but for the offset of the one whose first acquisition sets
system time (R322, R324, R325, R451). -/

namespace Sys2Proof.Machine

/-! ### References as units of a vector -/

theorem refAt_putRef {r : Nat} (hr : r < 4) (x : RefSt) (s : State) : refAt (putRef r x s) r = x := by
  simp [refAt, hr]

theorem refAt_congr {s t : State} (h : t.ref.refs = s.ref.refs) (r : Nat) : refAt t r = refAt s r := by
  rw [refAt, h, refAt]

/-- Only the four references have a state other than OFF. -/
theorem lt_four_of_qualified {s : State} {r : Nat} (h : (refAt s r).st = 3) : r < 4 := by
  by_contra hr
  rw [refAt, vget, dif_neg hr] at h
  exact absurd h (by decide)

/-! ### Updates that leave the references alone -/

@[simp] theorem refHist_ref (b : Nat) (s : State) : (refHist b s).ref = s.ref := rfl
@[simp] theorem rstat_ref (r b : Nat) (s : State) : (rstat r b s).ref = s.ref := rfl

@[simp] theorem report_ref (src : BitVec 16) (code : BitVec 12) (sev : Sev) (info : Word) (s : State) :
    (report src code sev info s).ref = s.ref :=
  (report_recordsOnly src code sev info s).ref

@[simp] theorem detect_ref (alters : Bool) (src : BitVec 16) (code : BitVec 12) (sev : Sev) (info : Word) (cond : Bool) (s : State) :
    (detect alters src code sev info cond s).1.ref = s.ref := by
  have hinj : (reportI true src code sev info (injFire src code s)).ref = s.ref := (reportI_recordsOnly ..).ref
  unfold detect
  dsimp only
  split
  · dsimp only
    split
    · exact (lapse_recordsOnly _ _).ref.trans hinj
    · exact hinj
  · split
    · exact report_ref ..
    · rfl

@[simp] theorem dropWindows_refs (s : State) : (dropWindows s).ref.refs = s.ref.refs := rfl
@[simp] theorem runAlone_refs (st : Nat) (s : State) : (runAlone st s).ref.refs = s.ref.refs := rfl

@[simp] theorem refNone_refs (useEst force : Bool) (s : State) : (refNone useEst force s).ref.refs = s.ref.refs := by
  unfold refNone
  dsimp only
  repeat' split
  all_goals simp

@[simp] theorem disagreeCheck_refs (cands : List Nat) (s : State) : (disagreeCheck cands s).ref.refs = s.ref.refs := by
  unfold disagreeCheck
  dsimp only
  repeat' split
  all_goals simp

/-- Step 2 of a switch sets the built-out offset and the held one (R325). -/
theorem buildOut_frame (r : Nat) (s : State) :
    ∃ bo held, buildOut r s = { s with ref := { s.ref with bo }, net := { s.net with held } } := by
  unfold buildOut
  split <;> exact ⟨_, _, rfl⟩

/-! ### A selection -/

/-- Every reference is as before, but that the offset of a QUALIFIED one may have been taken up (R451). -/
def RefsKept (s t : State) : Prop := ∀ r, refAt t r = refAt s r ∨ (refAt s r).st = 3 ∧ refAt t r = { refAt s r with phs := 0#32 }

theorem RefsKept.of_eq {s t : State} (h : t.ref.refs = s.ref.refs) : RefsKept s t := fun r => .inl (refAt_congr h r)

theorem RefsKept.of_eq_left {s t u : State} (h : t.ref.refs = s.ref.refs) (h' : RefsKept t u) : RefsKept s u := fun r => by
  have := h' r
  rwa [refAt_congr h] at this

theorem RefsKept.ite {c : Prop} [Decidable c] {s t u : State} (ht : RefsKept s t) (hu : RefsKept s u) : RefsKept s (if c then t else u) := by
  split
  · exact ht
  · exact hu

/-- What does not read the offset is as before. -/
theorem RefsKept.field {α : Type} {s t : State} (h : RefsKept s t) (f : RefSt → α) (hf : ∀ x : RefSt, f { x with phs := 0#32 } = f x) (r : Nat) :
    f (refAt t r) = f (refAt s r) := by
  rcases h r with h | ⟨-, h⟩
  · rw [h]
  · rw [h, hf]

theorem RefsKept.eq_of_not_qualified {s t : State} (h : RefsKept s t) {r : Nat} (hr : (refAt s r).st ≠ 3) : refAt t r = refAt s r :=
  (h r).resolve_right fun hq => hr hq.1

theorem clearOfs_refsKept {s : State} {r : Nat} (hq : (refAt s r).st = 3) : RefsKept s (clearOfs r s) := by
  unfold clearOfs
  split
  · exact .of_eq rfl
  · intro q
    by_cases hqr : r = q
    · subst hqr
      exact .inr ⟨hq, refAt_putRef (lt_four_of_qualified hq) _ s⟩
    · exact .inl (vget_vput_ne _ _ _ hqr)

theorem firstStep_refsKept {s : State} {r : Nat} (hq : (refAt s r).st = 3) : RefsKept s (firstStep r s) := by
  unfold firstStep
  split
  · exact .of_eq rfl
  · exact .of_eq_left rfl (clearOfs_refsKept (s := setHeld 0 { stepTime (refOfs s r) s with ref := _ }) hq)

theorem refSwitch_refsKept {s : State} {r : Nat} (hq : (refAt s r).st = 3) : RefsKept s (refSwitch r s) := by
  unfold refSwitch
  dsimp only
  obtain ⟨bo, held, hb⟩ := buildOut_frame r { refHist 3 (detect false selSrc 0x611#12 .note 0#32 true s).1 with
    ref := { (refHist 3 (detect false selSrc 0x611#12 .note 0#32 true s).1).ref with sel := some r, slew := 1 } }
  rw [hb]
  split
  · refine .of_eq_left (t := { refHist 3 (detect false selSrc 0x611#12 .note 0#32 true s).1 with ref := _, net := _ }) ?_ (firstStep_refsKept ?_)
    · simp
    · rwa [refAt_congr (s := s) (by simp)]
  · exact .of_eq (by simp)

theorem refFollow_refsKept {s : State} {r : Nat} (hq : (refAt s r).st = 3) : RefsKept s (refFollow r s) := by
  unfold refFollow
  split
  · exact .of_eq rfl
  · exact refSwitch_refsKept hq

theorem selectAuto_refsKept (s : State) : RefsKept s (selectAuto s) := by
  have hnone {t : State} (h : t.ref.refs = s.ref.refs) : RefsKept s (refNone true false t) := .of_eq ((refNone_refs ..).trans h)
  unfold selectAuto
  refine .ite (hnone rfl) (.ite (.ite (.of_eq rfl) (hnone rfl)) ?_)
  dsimp only
  split
  · exact hnone rfl
  · next r hr =>
    have hq : (refAt s r).st = 3 := qualified_of_mem_refCands (mem_topRank.mp (mem_bestSupported.mp (refChoice_mem hr)).1).1
    have hd : (disagreeCheck (refCands s) s).ref.refs = s.ref.refs := disagreeCheck_refs ..
    exact .of_eq_left hd (refFollow_refsKept (by rwa [refAt_congr hd]))

/-- A selection follows QUALIFIED references alone, so it takes up the offset of no other (R322, R324). -/
theorem refSelect_refsKept (s : State) : RefsKept s (refSelect s) := by
  unfold refSelect
  split
  · exact selectAuto_refsKept s
  · split
    · exact refFollow_refsKept ‹_›
    · exact .of_eq (refNone_refs ..)
  · exact .of_eq (refNone_refs ..)
  · exact .of_eq (refNone_refs ..)

/-- The QL taken anew is put into its reference, and the selection that a change runs keeps the rest. -/
theorem qlRefresh_refsKept {r : Nat} (hr : r < 4) (s : State) : RefsKept (putRef r { refAt s r with ql := qlNow s r } s) (qlRefresh r s) := by
  unfold qlRefresh
  dsimp only
  split
  · next h =>
    refine .of_eq ?_
    rw [h]
    exact (vput_vget _ _ hr).symm
  · split
    · exact .of_eq_left (by simp) (refSelect_refsKept _)
    · exact refSelect_refsKept _

end Sys2Proof.Machine
end

section
/-! The end of a window: what it makes of each reference (R320, R321). -/

namespace Sys2Proof.Machine

/-! ### Registers of a table in any order -/

/-- A write of a value that is listed changes no other entry, in whatever order the table lists them. -/
theorem tget_tset_ne {α : Type} [DecidableEq α] {d v : α} {i j : Nat} (hv : v ≠ d) (hj : j ≠ i) (t : Tab α) :
    tget d (tset d t i v) j = tget d t j := by
  induction t with
  | nil => simp [tset, hv, tget, hj]
  | cons e t ih =>
    obtain ⟨k, w⟩ := e
    rw [tset, if_neg hv, if_neg hv]
    by_cases hlt : i < k
    · rw [if_pos hlt]
      by_cases hji : j < i
      · simp [tget, hj, hji, show j ≠ k by omega, show j < k by omega]
      · simp [tget, hj, hji]
    · rw [if_neg hlt]
      by_cases hik : i = k
      · subst hik
        simp [tget, hj]
      · simp [hik, tget, ih]

/-- A bit that is set in one register leaves every other. -/
theorem reg_orReg_flag {off j i : Nat} (hi : i < 32) (hj : j ≠ off) (s : State) : reg (orReg off (flag true i) s) j = reg s j := by
  have hflag : flag true i ≠ 0#32 := fun h => by
    have hpow : (flag true i).toNat = 2 ^ i := Nat.mod_eq_of_lt (Nat.pow_lt_pow_right (by decide) hi)
    rw [h] at hpow
    exact absurd hpow.symm (by positivity)
  exact tget_tset_ne (fun h => hflag (BitVec.or_eq_zero_iff.mp h).2) hj s.regs

theorem reg_collect {i off : Nat} (hi : i ≤ 7) (ho : off ≠ Reg.ERR_STAT) (src : BitVec 16) (code : BitVec 12) (sev : Sev) (inj : Bool)
    (info : Word) (s : State) : reg (collect i src code sev inj info s) off = reg s off := by
  have hovf : ovfBit i < 32 := by
    unfold ovfBit
    split <;> omega
  have hsev : sevNum sev < 32 := by cases sev <;> decide
  unfold collect
  dsimp only
  split
  · rfl
  · repeat' split
    · exact (reg_orReg_flag hsev ho _).trans (reg_orReg_flag hovf ho _)
    · exact reg_orReg_flag hsev ho _
    · exact reg_orReg_flag hovf ho _
    · rfl

/-- A report writes ERR_STAT alone. -/
theorem reg_report {off : Nat} (ho : off ≠ Reg.ERR_STAT) (src : BitVec 16) (code : BitVec 12) (sev : Sev) (info : Word) (s : State) :
    reg (report src code sev info s) off = reg s off := by
  have hchip (t : State) : reg (collect 7 src code sev false info t) off = reg t off := reg_collect le_rfl ho ..
  have hdiag (t : State) : reg (diagnose t) off = reg t off := by rw [reg, diagnose_regs, reg]
  unfold report reportI
  dsimp only
  split
  · rw [hdiag, hchip]
    split
    · rfl
    · exact reg_collect (by omega) ho ..
  · rw [hchip]
    split
    · rfl
    · exact reg_collect (by omega) ho ..

/-! ### What the window of a reference rests on beside its measurement -/

/-- The accept limit, the supply of the wired inputs and the injection slots are as before. -/
structure SameGauge (s t : State) : Prop where
  limit : reg t Reg.REF_LIMIT = reg s Reg.REF_LIMIT
  vio : t.sys.vio = s.sys.vio
  inj : t.err.inj = s.err.inj

theorem SameGauge.refl (s : State) : SameGauge s s := ⟨rfl, rfl, rfl⟩

theorem SameGauge.trans {s t u : State} (h : SameGauge s t) (h' : SameGauge t u) : SameGauge s u :=
  ⟨h'.limit.trans h.limit, h'.vio.trans h.vio, h'.inj.trans h.inj⟩

theorem SameGauge.acceptLim {s t : State} (h : SameGauge s t) : acceptLim t = acceptLim s := by
  rw [Machine.acceptLim, h.limit, Machine.acceptLim]

theorem SameGauge.noInjection {s t : State} (h : SameGauge s t) (hi : NoInjection s) : NoInjection t := hi.congr h.inj

theorem sameGauge_putRef (r : Nat) (x : RefSt) (s : State) : SameGauge s (putRef r x s) := ⟨rfl, rfl, rfl⟩

theorem sameGauge_report (src : BitVec 16) (code : BitVec 12) (sev : Sev) (info : Word) (s : State) :
    SameGauge s (report src code sev info s) :=
  ⟨reg_report (by decide) .., (report_recordsOnly ..).field fun u => u.sys.vio, (report_recordsOnly ..).inj⟩

theorem sameGauge_refHist {b : Nat} (hb : b < 32) (s : State) : SameGauge s (refHist b s) :=
  ⟨reg_orReg_flag hb (by decide) s, rfl, rfl⟩

theorem sameGauge_rstat {b : Nat} (hb : b < 32) (r : Nat) (s : State) : SameGauge s (rstat r b s) :=
  ⟨reg_orReg_flag hb (by simp only [regKey, Reg.REF_LIMIT, Reg.REF_RSTAT]; omega) s, rfl, rfl⟩

/-! ### The window of one reference -/

/-- A window is good (R320). -/
def goodWindow (lim : Int) (m : RefMeas) : Bool := decide ((m.fofs.toInt.natAbs : Int) ≤ lim)

/-- State and count of a reference after a measured window (R320). -/
def countWindow (good : Bool) (st run : Nat) : Nat × Nat :=
  if st = 2 then (if good then (if run + 1 = 4 then (3, 0) else (2, run + 1)) else (2, 0))
  else if st = 3 then (if good then (3, 0) else if run + 1 = 4 then (2, 0) else (3, run + 1))
  else (st, run)

/-- A reference with its measured window counted. -/
def counted (good : Bool) (x : RefSt) : RefSt :=
  { x with st := (countWindow good x.st x.run).1, run := (countWindow good x.st x.run).2 }

/-- What a window publishes of a reference. -/
def published (r : Nat) (m : RefMeas) (x : RefSt) : RefSt :=
  { x with valid := true, gen := genNext x.gen, fofs := if m.present then m.fofs else x.fofs
           phs := if r < 2 then 0#32 else if m.present then m.phs else x.phs }

/-- An enabled reference after its window: without a measurement it is published and not counted. -/
def afterWindow (r : Nat) (lim : Int) (m : RefMeas) (x : RefSt) : RefSt :=
  if m.present then counted (goodWindow lim m) (published r m x) else published r m x

theorem afterWindow_fields (r : Nat) (lim : Int) (m : RefMeas) (x : RefSt) :
    let c := if m.present then countWindow (goodWindow lim m) x.st x.run else (x.st, x.run)
    (afterWindow r lim m x).st = c.1 ∧ (afterWindow r lim m x).run = c.2 ∧ (afterWindow r lim m x).fofs = (if m.present then m.fofs else x.fofs) ∧
      (afterWindow r lim m x).gen = genNext x.gen ∧ (afterWindow r lim m x).valid = true := by
  cases h : m.present <;> simp [afterWindow, counted, published, h]

/-- The drift warning of a window (R321). -/
def driftWarned (r : Nat) (m : RefMeas) (s : State) : State :=
  if 2 * (m.fofs.toInt.natAbs : Int) > acceptLim s then
    refHist 4 (rstat r 1 (if bitAt (regAt s Reg.REF_RSTAT r) 1 then s else (detect false (refSrc r) 0x613#12 .note 0#32 true s).1))
  else s

@[simp] theorem driftWarned_ref (r : Nat) (m : RefMeas) (s : State) : (driftWarned r m s).ref = s.ref := by
  unfold driftWarned
  split
  · split <;> simp
  · rfl

theorem sameGauge_driftWarned {s : State} (hi : NoInjection s) (r : Nat) (m : RefMeas) : SameGauge s (driftWarned r m s) := by
  simp only [driftWarned, detect_found hi]
  split
  · refine SameGauge.trans ?_ ((sameGauge_rstat (by decide) r _).trans (sameGauge_refHist (by decide) _))
    split
    · exact .refl s
    · exact sameGauge_report ..
  · exact .refl s

/-- The verdict on a measured window of a published reference `x` (R320, R321). -/
def judged (r : Nat) (m : RefMeas) (x : RefSt) (s : State) : State :=
  let good := goodWindow (acceptLim s) m
  if x.st = 2 then
    (if good then putRef r (if x.run + 1 = 4 then { x with st := 3, run := 0 } else { x with run := x.run + 1 }) s
     else putRef r { x with run := 0 } s)
  else if x.st = 3 then
    let d := detect false (refSrc r) 0x610#12 .degrade 0#32 (!good && decide (x.run + 1 = 4)) (driftWarned r m s)
    if d.2 then rstat r 2 (putRef r { x with st := 2, run := 0 } d.1)
    else putRef r { x with run := if good then 0 else x.run + 1 } d.1
  else s

section
variable {s : State} {r : Nat} {m : RefMeas} {x : RefSt}

theorem refWindow_off (h : (refAt s r).st = 0) : refWindow r m s = s := if_pos h

theorem refWindow_absent (h : (refAt s r).st ≠ 0) (hm : m.present = false) : refWindow r m s = putRef r (published r m (refAt s r)) s := by
  simp [refWindow, h, hm, published]

theorem refWindow_present (h : (refAt s r).st ≠ 0) (hm : m.present = true) :
    refWindow r m s = judged r m (published r m (refAt s r)) (putRef r (published r m (refAt s r)) s) := by
  have hm' : ¬ (!m.present) = true := by simp [hm]
  exact (if_neg h).trans (if_neg hm')

theorem judged_pending (h2 : x.st = 2) : judged r m x s = putRef r (counted (goodWindow (acceptLim s) m) x) s := by
  rw [judged, if_pos h2]
  cases goodWindow (acceptLim s) m
  · simp [counted, countWindow, h2]
  · by_cases hr : x.run + 1 = 4 <;> simp [counted, countWindow, h2, hr]

theorem judged_lost (h2 : x.st ≠ 2) (h3 : x.st ≠ 3) : judged r m x s = s := by
  rw [judged, if_neg h2, if_neg h3]

theorem judged_disqualified (hi : NoInjection s) (h3 : x.st = 3) (hg : goodWindow (acceptLim s) m = false) (hr : x.run + 1 = 4) :
    judged r m x s = rstat r 2 (putRef r (counted false x) (report (refSrc r) 0x610#12 .degrade 0#32 (driftWarned r m s))) := by
  have hd := (sameGauge_driftWarned hi r m).noInjection hi
  simp [judged, counted, countWindow, h3, hg, hr, detect_found hd]

theorem judged_qualified (hi : NoInjection s) (h3 : x.st = 3) (h : ¬ (goodWindow (acceptLim s) m = false ∧ x.run + 1 = 4)) :
    judged r m x s = putRef r (counted (goodWindow (acceptLim s) m) x) (driftWarned r m s) := by
  have hd := (sameGauge_driftWarned hi r m).noInjection hi
  cases hg : goodWindow (acceptLim s) m
  · have hr : x.run + 1 ≠ 4 := fun hr => h ⟨hg, hr⟩
    simp [judged, counted, countWindow, h3, hg, hr, detect_clear hd]
  · simp [judged, counted, countWindow, h3, hg, detect_clear hd]

/-- The verdict counts the window into its reference and changes no other. -/
theorem judged_effect (hi : NoInjection s) (hx : vput s.ref.refs r x = s.ref.refs) :
    SameGauge s (judged r m x s) ∧
      (judged r m x s).ref = { s.ref with refs := vput s.ref.refs r (counted (goodWindow (acceptLim s) m) x) } := by
  by_cases h2 : x.st = 2
  · rw [judged_pending h2]
    exact ⟨sameGauge_putRef .., rfl⟩
  by_cases h3 : x.st = 3
  · have hdrift := sameGauge_driftWarned hi r m
    by_cases h : goodWindow (acceptLim s) m = false ∧ x.run + 1 = 4
    · obtain ⟨hg, hr⟩ := h
      rw [judged_disqualified hi h3 hg hr, hg]
      exact ⟨hdrift.trans ((sameGauge_report ..).trans ((sameGauge_putRef ..).trans (sameGauge_rstat (by decide) ..))), by simp⟩
    · rw [judged_qualified hi h3 h]
      exact ⟨hdrift.trans (sameGauge_putRef ..), by simp⟩
  · have hkeep : counted (goodWindow (acceptLim s) m) x = x := by simp [counted, countWindow, h2, h3]
    rw [judged_lost h2 h3, hkeep, hx]
    exact ⟨.refl s, rfl⟩

/-- The window of an enabled reference publishes and counts it and changes no other. -/
theorem refWindow_effect (hi : NoInjection s) (h : (refAt s r).st ≠ 0) :
    SameGauge s (refWindow r m s) ∧
      (refWindow r m s).ref = { s.ref with refs := vput s.ref.refs r (afterWindow r (acceptLim s) m (refAt s r)) } := by
  have hput := sameGauge_putRef r (published r m (refAt s r)) s
  cases hm : m.present with
  | false =>
    rw [refWindow_absent h hm]
    exact ⟨hput, by simp [afterWindow, hm]⟩
  | true =>
    rw [refWindow_present h hm]
    obtain ⟨hgauge, href⟩ := judged_effect (r := r) (m := m) (x := published r m (refAt s r)) (hput.noInjection hi) (by simp)
    exact ⟨hput.trans hgauge, by rw [href, hput.acceptLim]; simp [afterWindow, hm]⟩

end

theorem sameGauge_refWindow {s : State} (hi : NoInjection s) (r : Nat) (m : RefMeas) : SameGauge s (refWindow r m s) := by
  by_cases h : (refAt s r).st = 0
  · rw [refWindow_off h]
    exact .refl s
  · exact (refWindow_effect hi h).1

theorem refAt_refWindow {s : State} (hi : NoInjection s) {r : Nat} (hr : r < 4) (m : RefMeas) :
    refAt (refWindow r m s) r = if (refAt s r).st = 0 then refAt s r else afterWindow r (acceptLim s) m (refAt s r) := by
  split
  · next h => rw [refWindow_off h]
  · next h => simp [refAt, (refWindow_effect hi h).2, hr]

theorem refAt_refWindow_ne {s : State} (hi : NoInjection s) {r q : Nat} (hq : r ≠ q) (m : RefMeas) :
    refAt (refWindow r m s) q = refAt s q := by
  by_cases h : (refAt s r).st = 0
  · rw [refWindow_off h]
  · simp [refAt, (refWindow_effect hi h).2, vget_vput_ne _ _ _ hq]

/-! ### The windows of all references -/

/-- What is measured of reference `r` in a window. -/
def measured (meas : Vector RefMeas 4) (r : Nat) : RefMeas := vget { present := false, fofs := 0#32, phs := 0#32 } meas r

/-- One step of a window's end: the inputs of an unsupplied bank are not measured (R492). -/
def windowStep (meas : Vector RefMeas 4) (s : State) (r : Nat) : State :=
  refWindow r { measured meas r with present := (measured meas r).present && !refBankLow s r } s

theorem windowStep_supplied {s : State} (hv : s.sys.vio.getLsbD 5 = false) (meas : Vector RefMeas 4) (r : Nat) :
    windowStep meas s r = refWindow r (measured meas r) s := by
  have hlow : refBankLow s r = false := by rw [refBankLow, hv, Bool.and_false]
  rw [windowStep, hlow, Bool.not_false, Bool.and_true]

/-- Each reference of a list is counted once, from what it was before. -/
theorem refAt_windowSteps {s : State} (hi : NoInjection s) (hv : s.sys.vio.getLsbD 5 = false) (meas : Vector RefMeas 4) {l : List Nat}
    (hl : l.Nodup) {r : Nat} (hr : r < 4) :
    refAt (l.foldl (windowStep meas) s) r = if r ∈ l then refAt (refWindow r (measured meas r) s) r else refAt s r := by
  induction l generalizing s with
  | nil => rfl
  | cons q l ih =>
    obtain ⟨hq, hl⟩ := List.nodup_cons.mp hl
    have hgauge := sameGauge_refWindow hi q (measured meas q)
    rw [List.foldl_cons, windowStep_supplied hv, ih (hgauge.noInjection hi) (by rw [hgauge.vio, hv]) hl]
    by_cases hqr : q = r
    · subst hqr
      rw [if_neg hq, if_pos List.mem_cons_self]
    · have hother := refAt_refWindow_ne hi hqr (measured meas q)
      simp only [List.mem_cons, Ne.symm hqr, false_or, hother, refAt_refWindow hi hr, refAt_refWindow (hgauge.noInjection hi) hr, hgauge.acceptLim]

/-! ### The DPLL at a window's end -/

@[simp] theorem setFreq_refs (f : Int) (s : State) : (setFreq f s).ref.refs = s.ref.refs := by
  unfold setFreq
  split <;> rfl

@[simp] theorem lostLock_refs (e : Int) (s : State) : (lostLock e s).ref.refs = s.ref.refs := by
  unfold lostLock
  split <;> rfl

@[simp] theorem lockedWindow_refs (e : Int) (s : State) : (lockedWindow e s).ref.refs = s.ref.refs := by
  unfold lockedWindow
  dsimp only
  split <;> simp

@[simp] theorem dpllWindow_refs (pe fe : Int) (s : State) : (dpllWindow pe fe s).ref.refs = s.ref.refs := by
  unfold dpllWindow
  dsimp only
  repeat' split
  all_goals simp

@[simp] theorem freqDone_refs (s : State) : (freqDone s).ref.refs = s.ref.refs := by
  unfold freqDone
  split
  · exact setFreq_refs ..
  · rfl

@[simp] theorem buildoutEnd_refs (s : State) : (buildoutEnd s).ref.refs = s.ref.refs := by
  unfold buildoutEnd
  split <;> rfl

@[simp] theorem slewSecond_refs (s : State) : (slewSecond s).ref.refs = s.ref.refs := by
  unfold slewSecond
  dsimp only
  repeat' split
  all_goals simp

/-- The references once their windows have ended; a new window may find a disagreement. -/
def windowed (meas : Vector RefMeas 4) (s : State) : State :=
  (List.range 4).foldl (windowStep meas) { s with ref := { s.ref with disag := false } }

theorem windowEnd_eq (meas : Vector RefMeas 4) (pe fe : Int) (s : State) :
    windowEnd meas pe fe s = refSelect (slewSecond (dpllWindow pe fe (windowed meas s))) := rfl

/-- After the windows of the references the DPLL and the selection leave them, but for the offset of a QUALIFIED one. -/
theorem windowEnd_refsKept (meas : Vector RefMeas 4) (pe fe : Int) (s : State) : RefsKept (windowed meas s) (windowEnd meas pe fe s) := by
  rw [windowEnd_eq]
  exact .of_eq_left (by simp) (refSelect_refsKept _)

/-- A reference at a window's end, where the inputs are supplied. -/
theorem refAt_windowed {s : State} (hi : NoInjection s) (hv : s.sys.vio.getLsbD 5 = false) (meas : Vector RefMeas 4) {r : Nat} (hr : r < 4) :
    refAt (windowed meas s) r = if (refAt s r).st = 0 then refAt s r else afterWindow r (acceptLim s) (measured meas r) (refAt s r) :=
  have hi' : NoInjection { s with ref := { s.ref with disag := false } } := hi.congr rfl
  (refAt_windowSteps hi' hv meas (by decide) hr).trans ((if_pos (List.mem_range.mpr hr)).trans (refAt_refWindow hi' hr _))

end Sys2Proof.Machine
end

section
/-! Qualification (R320, R321). -/

open Sys2Proof Sys2Proof.Machine

/-- Settles O35: each reference is published and counted by its own window, and the DPLL and the selection leave that. -/
theorem qualification : Obligations.Qualification := by
  intro s meas r hi hv _ m x good counts
  have hwindow := refAt_windowed hi hv meas r.isLt
  have hfields (h0 : x.st ≠ 0) : counts (if m.present then countWindow (goodWindow (acceptLim s) m) x.st x.run else (x.st, x.run)).1
      (if m.present then countWindow (goodWindow (acceptLim s) m) x.st x.run else (x.st, x.run)).2 := fun pe fe => by
    have hkept {α : Type} (f : RefSt → α) (hf : ∀ y : RefSt, f { y with phs := 0#32 } = f y) :
        f (refAt (windowEnd meas pe fe s) r.val) = f (afterWindow r.val (acceptLim s) m x) := by
      rw [(windowEnd_refsKept meas pe fe s).field f hf, hwindow, if_neg h0]
      rfl
    obtain ⟨hst, hrun, hfofs, hgen, hvalid⟩ := afterWindow_fields r.val (acceptLim s) m x
    exact goes_done rfl rfl ⟨(hkept RefSt.st fun _ => rfl).trans hst, (hkept RefSt.run fun _ => rfl).trans hrun,
      (hkept RefSt.fofs fun _ => rfl).trans hfofs, (hkept RefSt.gen fun _ => rfl).trans hgen, (hkept RefSt.valid fun _ => rfl).trans hvalid⟩
  have hgood : goodWindow (acceptLim s) m = true ↔ good := decide_eq_true_iff
  refine ⟨fun h0 hm => ?absent, fun h1 => ?lost, fun h2 hm hg => ?pendingGood, fun h2 hm hg => ?pendingBad, fun h3 hm hg => ?qualifiedGood,
    fun h3 hm hg => ?qualifiedBad, fun h0 pe fe => ?off⟩
  case absent => simpa [hm] using hfields h0
  case lost => simpa [h1, countWindow] using hfields (by omega)
  case pendingGood => simpa [h2, hm, hgood.mpr hg, countWindow, apply_ite] using hfields (by omega)
  case pendingBad => simpa [h2, hm, mt hgood.mp hg, countWindow] using hfields (by omega)
  case qualifiedGood => simpa [h3, hm, hgood.mpr hg, countWindow] using hfields (by omega)
  case qualifiedBad => simpa [h3, hm, mt hgood.mp hg, countWindow, apply_ite] using hfields (by omega)
  case off =>
    refine goes_done rfl rfl (((windowEnd_refsKept meas pe fe s).eq_of_not_qualified ?_).trans ?_)
    · rw [hwindow, if_pos h0, show (refAt s r.val).st = 0 from h0]
      decide
    · rw [hwindow, if_pos h0]
end

section
/-! A write to REF_CTRL that forces a reference, and a write to REF_CFG that restarts none (R320, R324, R325, R327). -/

namespace Sys2Proof.Machine

theorem fld_and (v m : Word) (hi lo : Nat) : fld (v &&& m) hi lo = fld v hi lo &&& fld m hi lo := by
  rw [fld, fld, fld, bitsOf, bitsOf, bitsOf, BitVec.toNat_and, Nat.and_div_two_pow, Nat.and_mod_two_pow]

/-- MODE and FREF are kept in REF_CTRL as they are written. -/
theorem fld_refCtrlMask (v : Word) : fld (v &&& 0xFC000000#32) 31 30 = fld v 31 30 ∧ fld (v &&& 0xFC000000#32) 29 28 = fld v 29 28 := by
  have hthree {n : Nat} (h : n < 2 ^ 2) : n &&& 3 = n := (Nat.and_two_pow_sub_one_eq_mod n 2).trans (Nat.mod_eq_of_lt h)
  exact ⟨(fld_and ..).trans (hthree (fld_lt v 31 30)), (fld_and ..).trans (hthree (fld_lt v 29 28))⟩

theorem refCtrlWrite_sameMode {s : State} {v : Word} (h : fld (reg s Reg.REF_CTRL) 31 28 = fld v 31 28) :
    refCtrlWrite v s = setReg Reg.REF_CTRL (v &&& 0xFC000000#32) s :=
  if_pos h

/-- A FORCED mode follows its reference while it is QUALIFIED (R324). -/
theorem refSelect_forced {s : State} (hm : refMode s = 1) (hq : (refAt s (refForced s)).st = 3) : refSelect s = refFollow (refForced s) s := by
  unfold refSelect
  rw [hm]
  exact if_pos hq

theorem refCtrlWrite_forced {s : State} {v : Word} (hw : tabWf 0#32 s.regs = true) (hne : fld (reg s Reg.REF_CTRL) 31 28 ≠ fld v 31 28)
    (hm : fld v 31 30 = 1) (hq : (refAt s (fld v 29 28)).st = 3) (hsel : s.ref.sel ≠ some (fld v 29 28)) :
    refCtrlWrite v s = refSwitch (fld v 29 28) (endWait (setReg Reg.REF_CTRL (v &&& 0xFC000000#32) s)) := by
  have hctrl : reg (endWait (setReg Reg.REF_CTRL (v &&& 0xFC000000#32) s)) Reg.REF_CTRL = v &&& 0xFC000000#32 := (tget_tset hw).trans (if_pos rfl)
  have hfref : refForced (endWait (setReg Reg.REF_CTRL (v &&& 0xFC000000#32) s)) = fld v 29 28 := by
    rw [refForced, hctrl, (fld_refCtrlMask v).2]
  have hforced := refSelect_forced (s := endWait (setReg Reg.REF_CTRL (v &&& 0xFC000000#32) s))
    (by rw [refMode, hctrl, (fld_refCtrlMask v).1, hm]) (by rwa [hfref])
  rw [hfref, refFollow, if_neg (show ¬ (endWait (setReg _ _ s)).ref.sel = _ from hsel)] at hforced
  exact (if_neg hne).trans hforced

/-- A switch out of ACQUIRING or LOCKED starts step 1 and leaves the DPLL's state and system time (R325, R327). -/
theorem refSwitch_acquired {s : State} (hi : NoInjection s) {r : Nat} (hd : s.ref.dpll = 1 ∨ s.ref.dpll = 2) :
    (refSwitch r s).ref.sel = some r ∧ (refSwitch r s).ref.slew = 1 ∧ (refSwitch r s).ref.dpll = s.ref.dpll ∧ (refSwitch r s).net.now = s.net.now := by
  have hnow : (report selSrc 0x611#12 .note 0#32 s).net.now = s.net.now := by rw [(report_recordsOnly ..).net]
  have hdpll : ¬ (s.ref.dpll = 0 ∨ s.ref.dpll = 3) := by omega
  unfold refSwitch
  rw [detect_found hi rfl]
  simp only [refHist_ref, report_ref, if_neg hdpll]
  obtain ⟨bo, held, hb⟩ := buildOut_frame r { refHist 3 (report selSrc 0x611#12 .note 0#32 s) with ref := { s.ref with sel := some r, slew := 1 } }
  rw [hb]
  exact ⟨rfl, rfl, rfl, hnow⟩

/-- Of the configuration of a PTP instance only EN restarts it (R320). -/
theorem cfgKey_ptp {r : Nat} (hr : r < 2) (c : Word) : cfgKey r (c &&& 0xFFC0000F#32) = if bitAt c 31 then 0x80000000#32 else 0#32 := by
  rw [cfgKey, if_pos hr, BitVec.and_assoc]
  exact BitVec.and_twoPow c 31

/-- A write to REF_CFG of a PTP instance that leaves EN does not restart it (R320). -/
theorem refCfgWrite_keeps {s : State} {m : Master} {r : Nat} {v : Word} (hr : r < 2) (hen : bitAt v 31 = bitAt (refCfgOf s r) 31)
    {α : Type} (f : RefSt → α) (hphs : ∀ x : RefSt, f { x with phs := 0#32 } = f x) (hql : ∀ (x : RefSt) q, f { x with ql := q } = f x) :
    f (refAt (refCfgWrite m r v s) r) = f (refAt s r) := by
  have hkey : cfgKey r (v &&& 0xFFC0000F#32) = cfgKey r (refCfgOf s r) := by
    rw [cfgKey_ptp hr, hen, cfgKey, if_pos hr]
    exact (BitVec.and_twoPow _ 31).symm
  have hwrite : refCfgWrite m r v s = refSelect (qlRefresh r (setRegAt Reg.REF_CFG r (v &&& 0xFFC0000F#32) s)) := by
    simp [refCfgWrite, hkey, Nat.not_le.mpr hr]
  rw [hwrite, (refSelect_refsKept _).field f hphs, (qlRefresh_refsKept (by omega) _).field f hphs, refAt_putRef (by omega), hql]
  rfl

end Sys2Proof.Machine
end

section
/-! The selection (R322, R324, R325, R327). -/

open Sys2Proof Sys2Proof.Machine

/-- Settles O36: the choice is among the best supported of the top rank, a forced reference is switched to, and what restarts no reference
leaves its state. -/
theorem selection : Obligations.Selection := by
  refine fun s hi => ⟨fun r h => ?chosen, fun r k h hs hk hsup => ?tie, refChoice_eq_none,
    fun m v h => gives_done rfl (refCtrlWrite_sameMode h), fun m v hw hne hm hq hsel hd => ?forced, fun m v hr hen _ => ?config⟩
  case chosen =>
    obtain ⟨htop, hmost⟩ := mem_bestSupported.mp (refChoice_mem h)
    exact ⟨mem_topRank.mp htop, fun a ha => hmost a (mem_topRank.mpr ha)⟩
  case tie =>
    have hbest := mem_bestSupported.mpr ⟨mem_topRank.mpr hk, fun b hb => hsup b (mem_topRank.mp hb)⟩
    exact Option.some.inj (h.symm.trans (refChoice_kept hs hbest))
  case forced =>
    exact goes_done rfl (refCtrlWrite_forced hw hne hm hq hsel)
      (refSwitch_acquired (s := endWait (setReg Reg.REF_CTRL (v &&& 0xFC000000#32) s)) (hi.congr rfl) hd)
  case config =>
    exact goes_done rfl rfl ⟨refCfgWrite_keeps hr hen RefSt.st (fun _ => rfl) (fun _ _ => rfl),
      refCfgWrite_keeps hr hen RefSt.run (fun _ => rfl) (fun _ _ => rfl)⟩
end

section
/-! Loss and return of a signal, quality words, and the local oscillator (R319, R320, R330). -/

namespace Sys2Proof.Machine

/-! ### The signal -/

theorem foldl_refs {α : Type} {f : State → α → State} (h : ∀ s x, (f s x).ref.refs = s.ref.refs) (l : List α) (s : State) :
    (l.foldl f s).ref.refs = s.ref.refs := by
  induction l generalizing s with
  | nil => rfl
  | cons x xs ih => exact (ih (f s x)).trans (h s x)

@[simp] theorem alignLose_refs (r : Nat) (s : State) : (alignLose r s).ref.refs = s.ref.refs := by
  rw [alignLose, foldl_refs fun t i => ?_]
  split <;> rfl

@[simp] theorem alignJoin_refs (r : Nat) (s : State) : (alignJoin r s).ref.refs = s.ref.refs := by
  rw [alignJoin, foldl_refs fun t i => ?_]
  split <;> rfl

/-- A reference without its signal: PENDING and QUALIFIED fall to LOS (R320). -/
def signalLost (x : RefSt) : RefSt := if x.st = 2 ∨ x.st = 3 then { x with sig := false, st := 1, run := 0 } else { x with sig := false }

theorem signalLost_sig (x : RefSt) : (signalLost x).sig = false := by
  unfold signalLost
  split <;> rfl

theorem signalLost_st (x : RefSt) : (signalLost x).st = if x.st = 2 ∨ x.st = 3 then 1 else x.st := by
  unfold signalLost
  split <;> rfl

theorem refAt_refLose {r : Nat} (hr : r < 4) (s : State) : refAt (refLose r s) r = signalLost (refAt s r) := by
  unfold refLose signalLost
  dsimp only
  split
  · next h => simp [h, refAt_putRef hr]
  · next h =>
    have hrec (t : State) : refAt (rstat r 0 (detect false (refSrc r) 0x616#12 .degrade 0#32 true t).1) r = refAt t r :=
      refAt_congr (by simp) r
    simp [h, hrec, refAt_putRef hr]
  · next h2 h3 => rw [if_neg (not_or.mpr ⟨h2, h3⟩), refAt_putRef hr]

/-- The loss of the signal of a wired reference, or of an instance that is not in SLAVE. -/
theorem losEvent_refsKept {r : Nat} {s : State} (h : r < 2 → (ptpAt s r).st ≠ 3) : RefsKept (refLose r s) (losEvent r s) := by
  rw [losEvent, if_neg fun hc => h hc.1 hc.2]
  refine .of_eq_left ?_ (refSelect_refsKept _)
  split
  · rfl
  · exact alignLose_refs ..

theorem losEvent_slave {r : Nat} {s : State} (hr : r < 2) (h : (ptpAt s r).st = 3) : losEvent r s = s := if_pos ⟨hr, h⟩

/-- A reference with its signal: LOS leaves for PENDING (R320). -/
theorem refAt_refGain {r : Nat} (hr : r < 4) (s : State) : (refAt (refGain r s) r).sig = true ∧
    (refAt (refGain r s) r).st = if (refAt s r).st = 1 then 2 else (refAt s r).st := by
  rw [refGain, refAt_putRef hr]
  by_cases h : (refAt s r).st = 1 <;> simp [h]

/-- The first edge is the gain of the signal, and the selection keeps it. -/
theorem firstEdge_refsKept (r : Nat) (s : State) : RefsKept (refGain r s) (refSelect (alignJoin r (refGain r s))) :=
  .of_eq_left (alignJoin_refs ..) (refSelect_refsKept _)

theorem refBankLow_wired (s : State) (r : Nat) : refBankLow s (r + 2) = s.sys.vio.getLsbD 5 := by
  rw [refBankLow, decide_eq_true (Nat.le_add_left 2 r), Bool.true_and]

theorem not_refBankLow {s : State} (hv : s.sys.vio.getLsbD 5 = false) (r : Nat) : ¬ refBankLow s r = true := by
  simp only [refBankLow, hv, Bool.and_false, Bool.false_eq_true, not_false_eq_true]

/-! ### Quality words -/

theorem qlGood_iff {w : BitVec 16} {stop : Bool} : qlGood w stop = true ↔
    stop = true ∧ w.extractLsb' 12 4 = 0xA#4 ∧ w.extractLsb' 0 4 = w.extractLsb' 12 4 ^^^ w.extractLsb' 8 4 ^^^ w.extractLsb' 4 4 := by
  simp only [qlGood, Bool.and_eq_true, beq_iff_eq, and_assoc]

theorem qlWord_bad {w : BitVec 16} {stop : Bool} (h : ¬ qlGood w stop = true) (r : Nat) (s : State) :
    qlWord r w stop s = orRegAt Reg.REF_RSTAT r 16#32 s := by
  rw [qlWord, if_pos (by simpa using h)]
  rfl

/-- What does not read the QL or the offset is after the QL is taken anew as before. -/
theorem qlRefresh_field {r : Nat} (hr : r < 4) (s : State) {α : Type} (f : RefSt → α) (hphs : ∀ x : RefSt, f { x with phs := 0#32 } = f x)
    (hql : ∀ (x : RefSt) q, f { x with ql := q } = f x) : f (refAt (qlRefresh r s) r) = f (refAt s r) := by
  rw [(qlRefresh_refsKept hr s).field f hphs, refAt_putRef hr, hql]

theorem qlRefresh_ql {r : Nat} (hr : r < 4) (s : State) : (refAt (qlRefresh r s) r).ql = qlNow s r := by
  rw [(qlRefresh_refsKept hr s).field RefSt.ql fun _ => rfl, refAt_putRef hr]

/-- A valid word is the last one; its QL acts when the one before carried it too (R319). -/
theorem qlWord_good {w : BitVec 16} {stop : Bool} (h : qlGood w stop = true) {r : Nat} (hr : r < 4) (s : State) :
    (refAt (qlWord r w stop s) r).lastQl = some (w.extractLsb' 8 4).toNat ∧
      (refAt (qlWord r w stop s) r).wql =
        if (refAt s r).lastQl = some (w.extractLsb' 8 4).toNat then (w.extractLsb' 8 4).toNat else (refAt s r).wql := by
  rw [qlWord, if_neg (by simpa using h)]
  dsimp only
  rw [qlRefresh_field hr _ RefSt.lastQl (fun _ => rfl) fun _ _ => rfl, qlRefresh_field hr _ RefSt.wql (fun _ => rfl) fun _ _ => rfl, refAt_putRef hr]
  exact ⟨rfl, rfl⟩

theorem qlLose_unworded {r : Nat} {s : State} (h : bitAt (refCfgOf s r) 27 = false) : qlLose r s = s :=
  if_pos (by simp [h])

/-- A wired reference graded by its words has their QL (R319). -/
theorem qlNow_worded {r : Nat} {s : State} (hr : 2 ≤ r) (h : bitAt (refCfgOf s r) 27 = true) : qlNow s r = (refAt s r).wql := by
  rw [qlNow, if_neg (by omega), if_pos h]

/-- Without a valid word for 3 s a reference that they grade has QL 0 (R319). -/
theorem qlLose_worded {r : Nat} {s : State} (h2 : 2 ≤ r) (hr : r < 4) (h : bitAt (refCfgOf s r) 27 = true) :
    (refAt (qlLose r s) r).ql = 0 ∧ (refAt (qlLose r s) r).wql = 0 ∧ (refAt (qlLose r s) r).lastQl = none := by
  have hcfg (x : RefSt) : refCfgOf (putRef r x (rstat r 3 s)) r = refCfgOf s r :=
    reg_orReg_flag (by decide) (by simp [regKey, Reg.REF_CFG, Reg.REF_RSTAT]) s
  rw [qlLose, if_neg (by simp [h]), qlRefresh_ql hr, qlNow_worded h2 (by rwa [hcfg]), qlRefresh_field hr _ RefSt.lastQl (fun _ => rfl) fun _ _ => rfl,
    qlRefresh_field hr _ RefSt.wql (fun _ => rfl) fun _ _ => rfl, refAt_putRef hr]
  exact ⟨rfl, rfl, rfl⟩

/-! ### The local oscillator -/

/-- A fault of XIN: its record, FAULT, and system time from the internal oscillator (R330). -/
theorem loFaultEvent_eq {s : State} (hi : NoInjection s) :
    let u := orReg Reg.LO_STAT 1#32 (report (srcId 1 5 4 15) 0x617#12 .fatal 0#32 s)
    loFaultEvent s = { u with ref := { u.ref with intOsc := true, xinBack := false, freq := Config.internalDrift u.freeCtr }, freeCtr := u.freeCtr + 1 } := by
  rw [loFaultEvent, detect_found hi (by simp [hi selSrc 0x617#12])]
  rfl

/-- With FAULT cleared and XIN back system time runs at the frequency its state gives it (R330). -/
theorem loCheck_back {s : State} (hx : s.ref.xinBack = true) (h : s.ref.intOsc = true ∧ reg s Reg.LO_STAT &&& 1#32 = 0#32) :
    loCheck s = { s with ref := { s.ref with intOsc := false, freq := freqGoal s } } := by
  rw [loCheck, if_pos (by simp [hx, h])]
  rfl

theorem loCheck_waits {s : State} (h : ¬ (s.ref.intOsc = true ∧ reg s Reg.LO_STAT &&& 1#32 = 0#32)) : loCheck s = s :=
  if_neg fun hc => h (by simp_all)

end Sys2Proof.Machine
end

section
/-! Events of the references and the local oscillator (R319, R320, R330). -/

open Sys2Proof Sys2Proof.Machine

/-- Settles O37: each event's own update, of which the selection that follows leaves what the statement reads. -/
theorem referenceEvents : Obligations.ReferenceEvents := by
  refine fun s hi _ => ⟨fun r h => ?loss, fun r hr h => gives_done rfl (losEvent_slave hr h), fun r hv => ?unsupplied, fun r hv => ?edge,
    fun r w stop hv => ⟨fun h => ?badWord, fun h => ?word⟩, fun r h _ => goes_done rfl rfl (qlLose_worded (by omega) (by omega) h),
    ⟨_, gives_done rfl (loFaultEvent_eq hi)⟩, fun r h => gives_done rfl (qlLose_unworded h), fun h => gives_done rfl ?back,
    fun h => gives_done rfl (loCheck_waits h)⟩
  case loss =>
    have hkept := losEvent_refsKept h
    refine goes_done rfl rfl ⟨(hkept.field RefSt.sig (fun _ => rfl) r).trans ?_, (hkept.field RefSt.st (fun _ => rfl) r).trans ?_⟩
    · rw [refAt_refLose r.isLt, signalLost_sig]
    · rw [refAt_refLose r.isLt, signalLost_st]
      by_cases h0 : (refAt s r.val).st = 0 <;> simp [h0]
  case unsupplied =>
    have hlow : refBankLow s (r.val + 2) = true := (refBankLow_wired ..).trans hv
    exact ⟨gives_done rfl (if_pos hlow), fun w stop => gives_done rfl (if_pos hlow)⟩
  case edge =>
    have hkept := firstEdge_refsKept (r.val + 2) s
    obtain ⟨hsig, hst⟩ := refAt_refGain (r := r.val + 2) (by omega) s
    exact goes_done rfl (if_neg (not_refBankLow hv _)) ⟨(hkept.field RefSt.sig (fun _ => rfl) _).trans hsig, (hkept.field RefSt.st (fun _ => rfl) _).trans hst⟩
  case badWord =>
    exact gives_done rfl ((if_neg (not_refBankLow hv _)).trans (qlWord_bad (mt qlGood_iff.mp h) _ s))
  case word =>
    exact goes_done rfl (if_neg (not_refBankLow hv _)) (qlWord_good (qlGood_iff.mpr h) (by omega) s)
  case back => exact loCheck_back (s := { s with ref := { s.ref with xinBack := true } }) rfl h
end

section
/-! The DPLL's loss of lock and the steps of a switch (R325–R327). -/

namespace Sys2Proof.Machine

/-- The DPLL in LOCKED goes back to ACQUIRING on a phase error above 1 µs, its estimate without the last two windows (R326, R327). -/
theorem lostLock_beyond {s : State} {e : Int} (hd : s.ref.dpll = 2) (he : 1000 < e.natAbs) :
    lostLock e s = orReg Reg.REF_HIST 2#32 { dropWindows s with ref := { (dropWindows s).ref with dpll := 1, locks := 0 } } :=
  if_pos ⟨hd, he⟩

theorem lostLock_within {s : State} {e : Int} (h : s.ref.dpll ≠ 2 ∨ e.natAbs ≤ 1000) : lostLock e s = s :=
  if_neg (by omega)

/-- The mean of some windows is their sum over their number, rounded down. -/
theorem meanOf_nonempty {l : List Int} (h : l ≠ []) : meanOf l = l.foldl (· + ·) 0 / (l.length : Int) := by
  simp [meanOf, h]

/-- The estimate without the last two windows (R326). -/
theorem dropWindows_eq (s : State) : dropWindows s = { s with ref := { s.ref with
    windows := s.ref.windows.drop 2, hwin := min 60 (s.ref.windows.drop 2).length
    hofs := if s.ref.windows.drop 2 = [] then s.ref.hofs
      else ((s.ref.windows.drop 2).take 60).foldl (· + ·) 0 / (((s.ref.windows.drop 2).take 60).length : Int) } } := by
  unfold dropWindows
  generalize s.ref.windows.drop 2 = w
  dsimp only
  rw [List.length_take]
  by_cases hw : w = []
  · simp [hw]
  · rw [meanOf_nonempty (by simp [hw]), List.length_take]
    simp [hw]

/-- The end of step 1 sets system time to the frequency it moved to, unless the internal oscillator runs it (R325, R330). -/
theorem freqDone_slewing {s : State} (h : s.ref.slew = 1) : freqDone s = { s with ref := { s.ref with
    freq := if s.ref.intOsc then s.ref.freq else freqGoal s
    slew := match s.ref.sel with
      | some r => if slewsOut s r then 2 else 0
      | none => 0 } } := by
  simp only [freqDone, if_pos h, setFreq]
  split <;> rfl

theorem freqDone_idle {s : State} (h : s.ref.slew ≠ 1) : freqDone s = s := if_neg h

theorem buildoutEnd_slewing {s : State} (h : s.ref.slew = 2) :
    buildoutEnd s = { s with ref := { s.ref with slew := 0, bo := 0 }, net := { s.net with held := 0 } } :=
  if_pos h

theorem buildoutEnd_idle {s : State} (h : s.ref.slew ≠ 2) : buildoutEnd s = s := if_neg h

end Sys2Proof.Machine
end

section
/-! The DPLL leaves LOCKED and finishes a switch (R325–R327). -/

open Sys2Proof Sys2Proof.Machine

/-- Settles O38: each command's update, with the estimate as `dropWindows_eq` gives it. -/
theorem dpllSteps : Obligations.DpllSteps := by
  refine fun s e => ⟨fun hd he => gives_done rfl ?lost, fun h => gives_done rfl (lostLock_within h), fun h => gives_done rfl ?freq,
    fun h => gives_done rfl (buildoutEnd_slewing h), fun h => gives_done rfl (freqDone_idle h), fun h => gives_done rfl (buildoutEnd_idle h)⟩
  case lost => rw [lostLock_beyond hd he, dropWindows_eq]
  case freq => exact freqDone_slewing h
end

section
/-! A record outside self-diagnosis (R348, R461): it changes the registers and the logs alone. A cause of TWIN_STAT with its record, and the
bits of TWIN_STAT that stay set. -/

namespace Sys2Proof.Machine

theorem RecordsOnly.sys {s t : State} (h : RecordsOnly s t) : t.sys = s.sys := h.field State.sys

theorem collect_frame (i : Nat) (src : BitVec 16) (code : BitVec 12) (sev : Sev) (inj : Bool) (info : Word) (s : State) :
    ∃ regs logs, collect i src code sev inj info s = { s with regs, err := { s.err with logs } } := by
  unfold collect
  dsimp only
  repeat' split
  all_goals exact ⟨_, _, rfl⟩

/-- A record that is no cause of self-diagnosis leaves the twin's part and the outputs alone too. -/
theorem reportI_frame {code : BitVec 12} {sev : Sev} (hd : diagCode code sev = false) (inj : Bool) (src : BitVec 16) (info : Word) (s : State) :
    ∃ regs logs, reportI inj src code sev info s = { s with regs, err := { s.err with logs } } := by
  have hreport : reportI inj src code sev info s = collect 7 src code sev inj info
      (if src.extractLsb' 13 3 = 0#3 ∨ 6 < (src.extractLsb' 8 5).toNat then s
        else collect (src.extractLsb' 8 5).toNat src code sev inj info s) := by
    simp [reportI, hd]
  rw [hreport]
  split
  · exact collect_frame ..
  · obtain ⟨regs, logs, h⟩ := collect_frame (src.extractLsb' 8 5).toNat src code sev inj info s
    rw [h]
    exact collect_frame ..

theorem report_frame {code : BitVec 12} {sev : Sev} (hd : diagCode code sev = false) (src : BitVec 16) (info : Word) (s : State) :
    ∃ regs logs, report src code sev info s = { s with regs, err := { s.err with logs } } :=
  reportI_frame hd false src info s

theorem report_twin {code : BitVec 12} {sev : Sev} (hd : diagCode code sev = false) (src : BitVec 16) (info : Word) (s : State) :
    (report src code sev info s).twin = s.twin := by
  obtain ⟨_, _, h⟩ := report_frame hd src info s
  rw [h]

/-! ### Causes of TWIN_STAT (R369) -/

/-- A cause of TWIN_STAT with its record: what a detector of the twin does. -/
def twinEvent (b : Nat) (code : BitVec 12) (sev : Sev) (s : State) : State :=
  orReg Reg.TWIN_STAT (flag true b) (report twinSrc code sev 0#32 s)

theorem twinStat_detect {alters : Bool} {s : State} (hi : NoInjection s) (b : Nat) (code : BitVec 12) (sev : Sev) :
    twinStat b (detect alters twinSrc code sev 0#32 true s).1 = twinEvent b code sev s := by
  rw [detect_found hi rfl, twinStat, twinEvent]

theorem twinEvent_recordsOnly (b : Nat) (code : BitVec 12) (sev : Sev) (s : State) : RecordsOnly s (twinEvent b code sev s) :=
  (report_recordsOnly twinSrc code sev 0#32 s).trans rfl

theorem twinEvent_frame {code : BitVec 12} {sev : Sev} (hd : diagCode code sev = false) (b : Nat) (s : State) :
    ∃ regs logs, twinEvent b code sev s = { s with regs, err := { s.err with logs } } := by
  obtain ⟨_, _, h⟩ := report_frame hd twinSrc 0#32 s
  rw [twinEvent, h]
  exact ⟨_, _, rfl⟩

theorem twinEvent_twin {code : BitVec 12} {sev : Sev} (hd : diagCode code sev = false) (b : Nat) (s : State) :
    (twinEvent b code sev s).twin = s.twin :=
  report_twin hd ..

theorem twinEvent_err (b : Nat) (code : BitVec 12) (sev : Sev) (s : State) :
    (twinEvent b code sev s).err = (report twinSrc code sev 0#32 s).err := rfl

theorem twinEvent_noInjection {s : State} (hi : NoInjection s) (b : Nat) (code : BitVec 12) (sev : Sev) :
    NoInjection (twinEvent b code sev s) :=
  hi.congr (twinEvent_recordsOnly b code sev s).inj

/-- On a register table of canonical form a bit of TWIN_STAT reads as set. -/
structure StatSet (b : Nat) (s : State) : Prop where
  table : tabWf 0#32 s.regs = true
  bit : bitAt (reg s Reg.TWIN_STAT) b = true

theorem StatSet.congr {b : Nat} {s t : State} (h : StatSet b s) (hr : t.regs = s.regs) : StatSet b t :=
  ⟨hr ▸ h.table, by rw [reg, hr]; exact h.bit⟩

theorem StatSet.orReg {b : Nat} {s : State} (h : StatSet b s) (v : Word) : StatSet b (orReg Reg.TWIN_STAT v s) :=
  ⟨tset_tabWf h.table, by
    have hbit : (reg s Reg.TWIN_STAT).getLsbD b = true := h.bit
    rw [reg_orReg h.table, if_pos rfl, bitAt, BitVec.getLsbD_or, hbit, Bool.true_or]⟩

theorem StatSet.report {b : Nat} {s : State} (h : StatSet b s) (src : BitVec 16) (code : BitVec 12) (sev : Sev) (info : Word) :
    StatSet b (report src code sev info s) :=
  ⟨(reportI_keepsRegs ..).table h.table, by rw [reg_report (by decide)]; exact h.bit⟩

theorem twinEvent_statSet {s : State} (hw : tabWf 0#32 s.regs = true) {b : Nat} (hb : bitAt (flag true b) b = true) (code : BitVec 12)
    (sev : Sev) : StatSet b (twinEvent b code sev s) :=
  have hreport := (reportI_keepsRegs false twinSrc code sev 0#32 s).table hw
  ⟨tset_tabWf hreport, bitAt_orReg hreport hb⟩

/-! ### The loss of IN_SYNC (R363) and what is sent -/

theorem syncLost_frame (s : State) : ∃ regs, syncLost s = { s with regs, twin := { s.twin with inSync := false } } := by
  unfold syncLost
  split
  case isTrue => exact ⟨_, rfl⟩
  case isFalse h =>
    have hsync : s.twin.inSync = false := by simpa using h
    exact ⟨s.regs, by rw [← hsync]⟩

theorem syncLost_statSet {b : Nat} {s : State} (h : StatSet b s) : StatSet b (syncLost s) := by
  unfold syncLost
  split
  · exact StatSet.orReg (s := { s with twin := { s.twin with inSync := false } }) (h.congr rfl) _
  · exact h

/-- What is sent on the link counts in SEQ and goes to the outputs. -/
theorem linkSend_seq (type : Nat) (stroke : BitVec 64) (payload : List Byte) (s : State) :
    ∃ seq out, linkSend type stroke payload s = { s with twin := { s.twin with seq }, out } := by
  unfold linkSend
  split
  · exact ⟨_, _, rfl⟩
  · split
    · exact ⟨_, _, rfl⟩
    · refine List.foldlRecOn _ _ (motive := fun t : State => ∃ seq out, t = { s with twin := { s.twin with seq }, out }) ⟨_, _, rfl⟩ ?_
      rintro _ ⟨_, _, rfl⟩ _ _
      exact ⟨_, _, rfl⟩

end Sys2Proof.Machine
end

section
/-! Heartbeats as received (R341–R345, R363): what a path notes, and the renewal of the lease. -/

namespace Sys2Proof.Machine

theorem member_eq_true {s : State} (ht : isTwin s = true) (hr : running s = true) : member s = true := by
  rw [member, ht, hr]
  rfl

theorem stale_eq_false {f : TwinFlags} {r : BitVec 64} {s : State} (h : f.hold = false ∨ s.eng.stroke.toNat ≤ r.toNat + 1) :
    stale f r s = false := by
  rcases h with h | h
  · simp [stale, h]
  · simp [stale, Nat.not_lt.mpr h]

theorem stale_eq_true {f : TwinFlags} {r : BitVec 64} {s : State} (hh : f.hold = true) (h : r.toNat + 1 < s.eng.stroke.toNat) :
    stale f r s = true := by
  simp [stale, hh, h]

/-- The twin's part once a heartbeat is noted on its path, before the lease is renewed. -/
structure Noted (s : State) (p : TwinPath) (f : TwinFlags) (x : TwinState) : Prop where
  path : vget {} x.paths (pathBit p) = { seen := true, stroke := s.eng.stroke, flags := f, lost := false }
  hold : x.hold = s.twin.hold
  inSync : x.inSync = s.twin.inSync
  last : x.last = s.twin.last
  commit : x.commit = s.twin.commit
  yield : x.yield = s.twin.yield
  peerSeen : x.peerSeen = s.twin.peerSeen

/-- A heartbeat on an enabled path is noted; one of a holder renews the lease (R341, R343). -/
theorem heartbeat_noted {s : State} {p : TwinPath} {f : TwinFlags} {r : BitVec 64} (hm : member s = true)
    (hp : twinPol s (pathBit p) = true) (hs : stale f r s = false) (e : Word) (d : Int) :
    ∃ x, Noted s p f x ∧ heartbeat p f e r d s = if f.hold then renewal r d { s with twin := x } else { s with twin := x } := by
  have hpath : vget {} (vput s.twin.paths (pathBit p) { seen := true, stroke := s.eng.stroke, flags := f, lost := false }) (pathBit p) =
      { seen := true, stroke := s.eng.stroke, flags := f, lost := false } := by
    rw [vget_vput, if_pos (by cases p <;> decide)]
  unfold heartbeat
  rw [if_neg (by simp [hm, hp, hs])]
  dsimp only
  repeat' split
  all_goals
    refine ⟨_, ?_, rfl⟩
    exact ⟨hpath, rfl, rfl, rfl, rfl, rfl, rfl⟩

/-- A heartbeat on a disabled path, or a stale one, is discarded. -/
theorem heartbeat_discarded {s : State} {p : TwinPath} {f : TwinFlags} {r : BitVec 64}
    (h : twinPol s (pathBit p) = false ∨ stale f r s = true) (e : Word) (d : Int) : heartbeat p f e r d s = s := by
  unfold heartbeat
  rw [if_pos (by rcases h with h | h <;> simp [h])]

/-! ### The renewal -/

/-- The later of two strokes. -/
def laterStroke (a b : BitVec 64) : BitVec 64 := if a.toNat < b.toNat then b else a

theorem toNat_laterStroke (a b : BitVec 64) : (laterStroke a b).toNat = max a.toNat b.toNat := by
  unfold laterStroke
  split
  · omega
  · omega

theorem coxYield_frame (s : State) : ∃ y, coxYield s = { s with twin := { s.twin with yield := y } } ∧ y.isSome = true := by
  unfold coxYield
  split
  case isTrue h => exact ⟨s.twin.yield, rfl, h⟩
  case isFalse => exact ⟨_, rfl, rfl⟩

/-- A holder that hears a renewal yields to a newer epoch, and from seat B to an equal one (R345). -/
theorem renewal_holder {s : State} (h : s.twin.hold = true) (r : BitVec 64) (d : Int) :
    ∃ y, renewal r d s = { s with twin := { s.twin with peerSeen := true, last := laterStroke s.twin.last r, yield := y } } ∧
      y.isSome = (s.twin.yield.isSome || decide (0 < d) || (decide (d = 0) && seatB s)) := by
  have hrenew : renewal r d s =
      holderHears d { s with twin := { s.twin with peerSeen := true, last := laterStroke s.twin.last r } } := if_pos h
  rw [hrenew, holderHears]
  split
  case isTrue hd =>
    obtain ⟨y, hy, hsome⟩ := coxYield_frame { s with twin := { s.twin with peerSeen := true, last := laterStroke s.twin.last r } }
    refine ⟨y, hy, hsome.trans ?_⟩
    rcases hd with hd | ⟨hd, hb⟩
    · simp [hd]
    · have hseat : seatB s = true := hb
      simp [hd, hseat]
  case isFalse hd =>
    obtain ⟨hle, hne⟩ := not_or.mp hd
    have hseat : d = 0 → seatB s = false := fun h0 => Bool.eq_false_iff.mpr fun hb => hne ⟨h0, hb⟩
    refine ⟨s.twin.yield, rfl, ?_⟩
    by_cases h0 : d = 0
    · simp [h0, hseat h0]
    · simp [hle, h0]

/-- A request for a resync changes the resync's own fields and what the link sends. -/
theorem resyncAsk_frame (force : Bool) (s : State) : ∃ seq resync rsCut rsSent out,
    resyncAsk force s = { s with twin := { s.twin with seq, resync, rsCut, rsSent }, out } := by
  unfold resyncAsk
  split
  · obtain ⟨_, _, h⟩ := linkSend_seq 9 s.eng.stroke (Config.linkPayload 9 [0])
      { s with twin := { s.twin with resync := true, rsCut := none, rsSent := 0 } }
    rw [h]
    exact ⟨_, _, _, _, _, rfl⟩
  · exact ⟨_, _, _, _, _, rfl⟩

/-- A shadow that hears a renewal three strokes past its commit is out of sync (R363). -/
theorem renewal_shadow {s : State} (h : s.twin.hold = false) (r : BitVec 64) (d : Int) : ∃ regs seq resync rsCut rsSent out,
    renewal r d s = { s with regs, out, twin := { s.twin with
      peerSeen := true, last := laterStroke s.twin.last r, inSync := s.twin.inSync && decide (r.toNat < s.twin.commit.toNat + 3)
      seq, resync, rsCut, rsSent } } := by
  have hrenew : renewal r d s = resyncAsk false
      (if s.twin.commit.toNat + 3 ≤ r.toNat then
        syncLost { s with twin := { s.twin with peerSeen := true, last := laterStroke s.twin.last r } }
       else { s with twin := { s.twin with peerSeen := true, last := laterStroke s.twin.last r } }) := by
    rw [renewal]
    dsimp only
    rw [if_neg (by simp [h])]
    rfl
  have hsync : ∃ regs, (if s.twin.commit.toNat + 3 ≤ r.toNat then
        syncLost { s with twin := { s.twin with peerSeen := true, last := laterStroke s.twin.last r } }
      else { s with twin := { s.twin with peerSeen := true, last := laterStroke s.twin.last r } }) =
      { s with regs, twin := { s.twin with
        peerSeen := true, last := laterStroke s.twin.last r, inSync := s.twin.inSync && decide (r.toNat < s.twin.commit.toNat + 3) } } := by
    split
    case isTrue hc =>
      obtain ⟨regs, hl⟩ := syncLost_frame { s with twin := { s.twin with peerSeen := true, last := laterStroke s.twin.last r } }
      exact ⟨regs, by rw [hl, decide_eq_false (by omega), Bool.and_false]⟩
    case isFalse hc => exact ⟨s.regs, by rw [decide_eq_true (by omega), Bool.and_true]⟩
  obtain ⟨regs, hsync⟩ := hsync
  rw [hrenew, hsync]
  obtain ⟨_, _, _, _, _, hask⟩ := resyncAsk_frame false { s with regs, twin := { s.twin with
    peerSeen := true, last := laterStroke s.twin.last r, inSync := s.twin.inSync && decide (r.toNat < s.twin.commit.toNat + 3) } }
  exact ⟨_, _, _, _, _, _, hask⟩

/-- What a renewal on a path leaves: the path noted, L moved, and the holder or the shadow as R345 and R363 have it. -/
def Renewed (s : State) (p : TwinPath) (f : TwinFlags) (r : BitVec 64) (d : Int) (t : State) : Prop :=
  pathAt t p = { seen := true, stroke := s.eng.stroke, flags := f, lost := false } ∧ t.twin.peerSeen = true ∧
  t.twin.last.toNat = max s.twin.last.toNat r.toNat ∧ t.twin.hold = s.twin.hold ∧
  (s.twin.hold = true → t.twin.inSync = s.twin.inSync ∧
    t.twin.yield.isSome = (s.twin.yield.isSome || decide (0 < d) || (decide (d = 0) && seatB s))) ∧
  (s.twin.hold = false → t.twin.yield = s.twin.yield ∧
    t.twin.inSync = (s.twin.inSync && decide (r.toNat < s.twin.commit.toNat + 3))) ∧
  { t with twin := s.twin, regs := s.regs, host := s.host, out := s.out } = s

theorem heartbeat_renewed {s : State} {p : TwinPath} {f : TwinFlags} {r : BitVec 64} (hm : member s = true)
    (hp : twinPol s (pathBit p) = true) (hf : f.hold = true) (hs : s.eng.stroke.toNat ≤ r.toNat + 1) (e : Word) (d : Int) :
    Renewed s p f r d (settle (heartbeat p f e r d s)) := by
  obtain ⟨x, hx, hbeat⟩ := heartbeat_noted hm hp (stale_eq_false (.inr hs)) e d
  rw [hbeat, if_pos hf]
  obtain ⟨hpath, hhold, hsync, hlast, hcommit, hyield, -⟩ := hx
  have hmax : (laterStroke x.last r).toNat = max s.twin.last.toNat r.toNat := by rw [toNat_laterStroke, hlast]
  cases h : s.twin.hold with
  | true =>
    obtain ⟨y, hrenew, hsome⟩ := renewal_holder (s := { s with twin := x }) (hhold.trans h) r d
    rw [hrenew]
    refine ⟨hpath, rfl, hmax, hhold, fun _ => ⟨hsync, hsome.trans ?_⟩, fun hn => absurd (h.symm.trans hn) (by decide), rfl⟩
    rw [hyield]
    rfl
  | false =>
    obtain ⟨_, _, _, _, _, _, hrenew⟩ := renewal_shadow (s := { s with twin := x }) (hhold.trans h) r d
    rw [hrenew]
    refine ⟨hpath, rfl, hmax, hhold, fun hn => absurd (h.symm.trans hn) (by decide), fun _ => ⟨hyield, ?_⟩, rfl⟩
    show (x.inSync && decide (r.toNat < x.commit.toNat + 3)) = _
    rw [hsync, hcommit]

/-! ### The frames that carry a heartbeat -/

theorem linkFrame_good {s : State} {h : TwinHdr} (ht : isTwin s = true) (hu : s.twin.up = true) (hg : frameGood s h = true)
    (hk : h.typeOk = true) : linkFrame h s = (s, true) := by
  simp [linkFrame, ht, hu, hg, hk]

/-- The state once the peer's seat and image are found to agree with this unit's. -/
def peerKnown (s : State) : State := { s with twin := { s.twin with seatClash := false, imageDiff := false } }

/-- A peer in the other seat with the same image raises nothing (R367). -/
theorem peerCheck_same {s : State} (hi : NoInjection s) {seat : Bool} (hseat : seat ≠ seatB s) :
    peerCheck seat (imageId s) s = peerKnown s := by
  simp [peerCheck, detect_clear hi, hseat, peerKnown]

theorem marker_same {s : State} {h : TwinHdr} (hi : NoInjection s) (ht : isTwin s = true) (hu : s.twin.up = true) (hg : frameGood s h = true)
    (hk : h.typeOk = true) (hseat : h.flags.seat ≠ seatB s) :
    marker h (imageId s) s = heartbeat .link h.flags h.epoch h.stroke (h.epoch - s.twin.epoch).toInt (peerKnown s) := by
  rw [marker, linkFrame_good ht hu hg hk, peerCheck_same hi hseat]
  rfl

/-- What a renewal leaves does not rest on what is known of the peer's seat and image. -/
theorem Renewed.of_peerKnown {s t : State} {p : TwinPath} {f : TwinFlags} {r : BitVec 64} {d : Int} (h : Renewed (peerKnown s) p f r d t) :
    Renewed s p f r d t := by
  obtain ⟨hpath, hpeer, hlast, hhold, hholder, hshadow, hframe⟩ := h
  exact ⟨hpath, hpeer, hlast, hhold, hholder, hshadow, congrArg (fun u : State => { u with twin := s.twin }) hframe⟩

/-- A pin word with HOLD renews for the stroke of its arrival, by the low four bits of its epoch (R342). -/
theorem leasePin_hold {s : State} {w : BitVec 8} (hv : s.sys.vio.getLsbD 5 = false) (hw : w.getLsbD 0 = true) :
    ∃ e, leasePin w true s = heartbeat .pins
      { hold := true, ready := w.getLsbD 1, inSync := w.getLsbD 2, handover := w.getLsbD 3, seat := !seatB s } e s.eng.stroke
      (w.extractLsb' 4 4 - s.twin.epoch.extractLsb' 0 4).toInt s := by
  unfold leasePin
  rw [hv, if_neg (by decide), hw]
  exact ⟨_, rfl⟩

/-- Beacon frames that this member takes (R342). -/
def BeaconOurs (s : State) (b : Beacon) : Prop :=
  b.magic = 0x5457424E#32 ∧ b.version = 1#8 ∧ b.flags.seat ≠ seatB s ∧ b.image = (imageId s).extractLsb' 0 32 ∧
    bitAt (reg s Reg.TWIN_BCN_CFG) b.hdr.port.val = true ∧ fld (reg s Reg.TWIN_BCN_CFG) 31 16 ≠ 0

/-- The tag that R342 asks of a beacon while BAUTH = 1 is not the one it carries. -/
def beaconForged (s : State) (b : Beacon) : Bool :=
  bitAt (reg s Reg.TWIN_CFG) 30 && b.tag != beaconTag s b.flags.seat b.stroke (beaconBytes b.flags b.epoch b.stroke b.image)

section
variable {s : State} {b : Beacon} (hl : linkUp s b.hdr.port.val = true) (hf : b.hdr.fcsOk = true) (hn : b.hdr.len ≤ 1522)
include hl hf hn

theorem beacon_other (ho : ¬ BeaconOurs s b) : beacon b s = s := by
  unfold beacon
  rw [frameCheck_good hl hf hn]
  refine if_pos ?_
  by_contra hc
  simp only [Bool.or_eq_true, not_or, Bool.not_eq_true, Bool.not_eq_false', bne_eq_false_iff_eq, beq_eq_false_iff_ne] at hc
  obtain ⟨⟨⟨⟨⟨⟨⟨-, -⟩, hcfg⟩, hport⟩, hmagic⟩, hver⟩, hseat⟩, himage⟩ := hc
  exact ho ⟨hmagic, hver, hseat, himage, hcfg, hport⟩

theorem beacon_ours (ht : isTwin s = true) (hi : NoInjection s) (ho : BeaconOurs s b) : beacon b s =
    if beaconForged s b then twinEvent 9 0x709#12 .note s
    else heartbeat .beacon b.flags b.epoch b.stroke (b.epoch - s.twin.epoch).toInt s := by
  obtain ⟨hmagic, hver, hseat, himage, hcfg, hport⟩ := ho
  unfold beacon
  rw [frameCheck_good hl hf hn]
  dsimp only
  rw [if_neg (by simp [ht, hmagic, hver, hseat, himage, hcfg, hport, lo64])]
  rw [← beaconForged]
  cases hb : beaconForged s b with
  | true => rw [detect_found hi rfl, if_pos rfl, if_pos rfl, twinStat, twinEvent]
  | false => rw [detect_clear hi rfl, if_neg Bool.false_ne_true, if_neg Bool.false_ne_true]

end

end Sys2Proof.Machine
end

section
/-! Heartbeats (R341–R345, R363, R367). -/

open Sys2Proof Sys2Proof.Machine

/-- Settles O39: each path notes the heartbeat and renews the lease by one lemma, and what is discarded leaves the state. -/
theorem heartbeats : Obligations.Heartbeats := by
  intro s hi ht hr
  have hm := member_eq_true ht hr
  refine ⟨fun h image hup hg hk hseat himage => ?marker, fun w hp hv hw => ?pins, fun w => gives_done rfl rfl, fun b hl hf hn => ⟨fun ho => ?other,
    fun ho hbad => ?forged, fun ho hbad hp hh hs => ?beacon⟩⟩
  case marker =>
    subst himage
    have hmarker := marker_same hi ht hup hg hk hseat
    refine ⟨fun hp hh hs => ?renewal, fun hp hh => ?noHolder, fun hd => ?discarded⟩
    case renewal =>
      exact goes_done rfl hmarker (Renewed.of_peerKnown (heartbeat_renewed (s := peerKnown s) (p := .link) hm hp hh hs h.epoch (h.epoch - s.twin.epoch).toInt))
    case noHolder =>
      obtain ⟨x, ⟨hpath, -, hsync, hlast, -, hyield, hpeer⟩, hbeat⟩ :=
        heartbeat_noted (s := peerKnown s) (p := .link) (r := h.stroke) hm hp (stale_eq_false (.inl hh)) h.epoch (h.epoch - s.twin.epoch).toInt
      rw [hh, if_neg Bool.false_ne_true] at hbeat
      exact goes_done rfl (hmarker.trans hbeat) ⟨hlast, hpeer, hyield, hsync, rfl, congrArg PathSt.seen hpath⟩
    case discarded =>
      refine gives_done rfl (hmarker.trans (heartbeat_discarded (hd.imp id fun hd => ?_) ..))
      exact stale_eq_true hd.1 hd.2
  case pins =>
    obtain ⟨e, hpin⟩ := leasePin_hold hv hw
    exact goes_done rfl hpin (heartbeat_renewed (p := .pins) hm hp rfl (Nat.le_succ _) e _)
  case other => exact gives_done rfl (beacon_other hl hf hn ho)
  case forged =>
    have hforged : beaconForged s b = true := by simpa [beaconForged] using hbad
    refine gives_done rfl ?_
    rw [beacon_ours hl hf hn ht hi ho, if_pos hforged]
    rfl
  case beacon =>
    have hgenuine : ¬ beaconForged s b = true := fun hf => hbad (by simpa [beaconForged] using hf)
    refine goes_done rfl ((beacon_ours hl hf hn ht hi ho).trans (if_neg hgenuine)) ?_
    exact heartbeat_renewed (p := .beacon) hm hp hh hs ..
end

section
/-! Cox (R343–R353): the lease, the acquisition, and how a holder stops. -/

namespace Sys2Proof.Machine

theorem NoInjection.twin {s : State} (hi : NoInjection s) (x : TwinState) : NoInjection { s with twin := x } := hi.congr rfl

theorem strokeDue_congr {s t : State} (h : t.eng = s.eng) : strokeDue t = strokeDue s := by
  rw [strokeDue, h, strokeDue]

theorem twinEvent_eng (b : Nat) (code : BitVec 12) (sev : Sev) (s : State) : (twinEvent b code sev s).eng = s.eng :=
  report_eng ..

/-- The member's mode follows cox; of the rest only the ports' pending emission does (R278, R353). -/
theorem setDrive_frame (live : Bool) (s : State) :
    ∃ port, setDrive live s = { s with sys := { s.sys with mode := if live then .live else .shadow }, port } := by
  unfold setDrive
  dsimp only
  split
  · exact ⟨_, rfl⟩
  · exact ⟨_, rfl⟩

/-! ### The lease (R343) -/

/-- Strokes without a renewal after which the lease is over. -/
def leaseLength (s : State) : Nat := if seatB s = true ∧ s.twin.peerSeen = false then 12 else 4

theorem leaseExpired_over {s : State} (hm : member s = true) (hh : s.twin.hold = false) (hp : s.eng.phase = .finished)
    (hl : s.twin.last.toNat + leaseLength s ≤ s.eng.stroke.toNat) :
    leaseExpired s = { s with twin := { s.twin with expired := true } } := by
  unfold leaseLength at hl
  simp [leaseExpired, hm, hh, hp, hl]

theorem leaseExpired_running {s : State} (hl : s.eng.stroke.toNat < s.twin.last.toNat + leaseLength s) : leaseExpired s = s := by
  unfold leaseLength at hl
  simp [leaseExpired, hl]

/-! ### Acquisition (R344, R353, R354) -/

/-- The newer of the two epochs plus 1, skipping 0 (R344). -/
theorem nextEpoch_eq (s : State) :
    let e := if 0 < (s.twin.peerEpoch - s.twin.epoch).toInt then s.twin.peerEpoch else s.twin.epoch
    nextEpoch s = if e = 0xFFFFFFFF#32 then 1#32 else e + 1 := by
  dsimp only
  unfold nextEpoch newer
  simp only [decide_eq_true_eq]
  generalize (if 0 < (s.twin.peerEpoch - s.twin.epoch).toInt then s.twin.peerEpoch else s.twin.epoch) = e
  have hwrap : e + 1 = 0#32 ↔ e = 0xFFFFFFFF#32 := by bv_omega
  simp only [hwrap]

theorem nextEpoch_ne_zero (s : State) : nextEpoch s ≠ 0#32 := by
  unfold nextEpoch
  generalize (if newer s.twin.peerEpoch s.twin.epoch then s.twin.peerEpoch else s.twin.epoch) + 1 = e
  dsimp only
  split
  case isTrue => decide
  case isFalse h => exact h

/-- The state as an acquisition leaves it before its records. -/
def coxTaken (s : State) : State :=
  let t := sectionDrop (setDrive true s)
  { t with twin := { t.twin with
      epoch := nextEpoch t, hold := true, take := none, expired := false, resync := false, rsReset := false, rsCut := none } }

/-- Strokes before the acquisition that no shipment has committed. -/
def unverified (s : State) : Nat := (coxStroke s).toNat - 1 - s.twin.commit.toNat

theorem coxTaken_frame (s : State) : ∃ port, coxTaken s = { s with
    port
    sys := { s.sys with mode := .live }
    twin := { s.twin with
      callsIn := [], rdIn := none, carryBad := none, secOf := none, secBad := false
      epoch := nextEpoch s, hold := true, take := none, expired := false, resync := false, rsReset := false, rsCut := none } } := by
  obtain ⟨port, h⟩ := setDrive_frame true s
  rw [coxTaken, h]
  exact ⟨port, rfl⟩

/-- The records of an acquisition: cox is taken, and the strokes that nothing verified (R353, R354). -/
theorem acquire_eq {s : State} (hi : NoInjection s) :
    let u := twinEvent 0 0x700#12 .note (coxTaken s)
    let v := report twinSrc 0x70B#12 .note 0#32 u
    acquire s = if unverified s = 0 then u
      else { v with twin := { v.twin with unverAt := v.twin.commit + 1, unverN := Nat.min 65535 (unverified s) } } := by
  obtain ⟨port, hframe⟩ := coxTaken_frame s
  have htaken : NoInjection (coxTaken s) := hi.congr (by rw [hframe])
  have hevent := twinEvent_noInjection htaken 0 0x700#12 .note
  have hrecords : acquire s =
      let u := detect false twinSrc 0x70B#12 .note 0#32 (unverified s != 0)
        (twinStat 0 (detect false twinSrc 0x700#12 .note 0#32 true (coxTaken s)).1)
      if unverified s = 0 then u.1
      else { u.1 with twin := { u.1.twin with unverAt := u.1.twin.commit + 1, unverN := Nat.min 65535 (unverified s) } } := by
    unfold acquire coxTaken unverified
    rfl
  rw [hrecords, twinStat_detect htaken]
  dsimp only
  split
  case isTrue h => rw [h, detect_clear hevent (show ((0 : Nat) != 0) = false from rfl)]
  case isFalse h => rw [detect_found hevent (bne_iff_ne.mpr h)]

theorem unverified_of_committed {s : State} (h : strokeDue s = s.twin.commit + 1) : unverified s = 0 := by
  have hcox : coxStroke s = s.twin.commit + 1 := h
  have hle : (s.twin.commit + 1).toNat ≤ s.twin.commit.toNat + 1 := Nat.mod_le _ _
  rw [unverified, hcox]
  omega

theorem acquire_statSet {s : State} (hi : NoInjection s) (hw : tabWf 0#32 s.regs = true) : StatSet 0 (acquire s) := by
  obtain ⟨_, htaken⟩ := coxTaken_frame s
  have hset : StatSet 0 (twinEvent 0 0x700#12 .note (coxTaken s)) := twinEvent_statSet (by rw [htaken]; exact hw) (by decide) ..
  have hreport := hset.report twinSrc 0x70B#12 .note 0#32
  rw [acquire_eq hi]
  dsimp only
  generalize report twinSrc 0x70B#12 .note 0#32 (twinEvent 0 0x700#12 .note (coxTaken s)) = v at hreport ⊢
  split
  · exact hset
  · exact hreport.congr rfl

/-- Beside its records an acquisition notes the strokes that nothing verified, where there are any. -/
theorem acquire_frame {s : State} (hi : NoInjection s) : ∃ regs logs unverAt unverN,
    acquire s = { coxTaken s with
      regs, err := { (coxTaken s).err with logs }, twin := { (coxTaken s).twin with unverAt, unverN } } ∧
    (strokeDue s = s.twin.commit + 1 → unverN = (coxTaken s).twin.unverN) := by
  rw [acquire_eq hi]
  dsimp only
  generalize coxTaken s = u
  obtain ⟨regs, logs, hevent⟩ := twinEvent_frame (code := 0x700#12) (sev := .note) rfl 0 u
  rw [hevent]
  split
  case isTrue => exact ⟨regs, logs, u.twin.unverAt, u.twin.unverN, rfl, fun _ => rfl⟩
  case isFalse hn =>
    obtain ⟨regs', logs', hreport⟩ := report_frame (code := 0x70B#12) (sev := .note) rfl twinSrc 0#32 { u with regs, err := { u.err with logs } }
    rw [hreport]
    exact ⟨regs', logs', u.twin.commit + 1, Nat.min 65535 (unverified s), rfl, fun hd => absurd (unverified_of_committed hd) hn⟩

/-- What an acquisition leaves (R344, R353, R354). -/
def Acquired (s t : State) : Prop :=
  t.twin.hold = true ∧ t.sys.mode = .live ∧ t.twin.take = none ∧ t.twin.expired = false ∧ t.twin.commit = s.twin.commit ∧
  t.twin.callsIn = [] ∧ t.twin.rdIn = none ∧ t.twin.carryBad = none ∧ t.twin.epoch ≠ 0#32 ∧
  (let e := if 0 < (s.twin.peerEpoch - s.twin.epoch).toInt then s.twin.peerEpoch else s.twin.epoch
   t.twin.epoch = if e = 0xFFFFFFFF#32 then 1#32 else e + 1) ∧
  (strokeDue s = s.twin.commit + 1 → t.twin.unverN = s.twin.unverN) ∧ (tabWf 0#32 s.regs = true → bitAt (reg t Reg.TWIN_STAT) 0 = true)

theorem Acquired.settle {s t : State} (h : Acquired s t) : Acquired s (settle t) := h

theorem acquire_acquired {s : State} (hi : NoInjection s) : Acquired s (acquire s) := by
  have hbit (hw : tabWf 0#32 s.regs = true) := (acquire_statSet hi hw).bit
  obtain ⟨port, htaken⟩ := coxTaken_frame s
  obtain ⟨regs, logs, unverAt, unverN, hframe, hunver⟩ := acquire_frame hi
  rw [htaken] at hframe hunver
  rw [hframe] at hbit ⊢
  exact ⟨rfl, rfl, rfl, rfl, rfl, rfl, rfl, rfl, nextEpoch_ne_zero s, nextEpoch_eq s, hunver, hbit⟩

theorem acquire_noInjection {s : State} (hi : NoInjection s) : NoInjection (acquire s) := by
  obtain ⟨_, htaken⟩ := coxTaken_frame s
  obtain ⟨_, _, _, _, hframe, -⟩ := acquire_frame hi
  exact hi.congr (by rw [hframe, htaken])

theorem mayTake_iff {s : State} : mayTake s = true ↔
    s.twin.diag = false ∧ bitAt (reg s Reg.TWIN_STAT) 11 = false ∧ (s.twin.inSync = true ∨ s.twin.peerSeen = false ∨ twinPol s 3 = true) := by
  simp [mayTake, or_assoc, and_assoc]

section
variable {s : State} (hm : member s = true) (hh : s.twin.hold = false)
include hm hh

theorem acquireCox_offered (ht : s.twin.take = some (strokeDue s)) : acquireCox s = acquire s := by
  simp [acquireCox, hm, hh, ht, coxStroke]

theorem acquireCox_expired (ht : s.twin.take ≠ some (strokeDue s)) (he : s.twin.expired = true) :
    acquireCox s = if mayTake s then acquire s else s := by
  simp [acquireCox, hm, hh, ht, he, coxStroke]

end

theorem acquireCox_holder {s : State} (h : s.twin.hold = true) : acquireCox s = s := by
  simp [acquireCox, h]

/-! ### The end of holding (R346, R349) -/

theorem coxDrop_frame (s : State) : ∃ regs port, coxDrop s = { s with
    regs, port
    sys := { s.sys with mode := .shadow }
    twin := { s.twin with
      hold := false, inSync := false, last := strokeDue s, commit := strokeDue s - 1, release := none, yield := none, take := none
      expired := false, resync := false, rsCut := none } } := by
  obtain ⟨port, hdrive⟩ := setDrive_frame false s
  obtain ⟨regs, hsync⟩ := syncLost_frame (setDrive false s)
  unfold coxDrop
  rw [hsync, hdrive]
  exact ⟨regs, port, rfl⟩

theorem coxDrop_statSet {b : Nat} {s : State} (h : StatSet b s) : StatSet b (coxDrop s) := by
  obtain ⟨_, hdrive⟩ := setDrive_frame false s
  have hset : StatSet b (setDrive false s) := h.congr (by rw [hdrive])
  exact (syncLost_statSet hset).congr rfl

/-- What a holder that stops leaves, with its cause `b` in TWIN_STAT. -/
def Dropped (s : State) (b : Nat) (t : State) : Prop :=
  t.twin.hold = false ∧ t.sys.mode = .shadow ∧ t.twin.inSync = false ∧ t.twin.last = strokeDue s ∧ t.twin.epoch = s.twin.epoch ∧
  t.twin.release = none ∧ t.twin.yield = none ∧ (tabWf 0#32 s.regs = true → bitAt (reg t Reg.TWIN_STAT) b = true)

theorem Dropped.settle {s t : State} {b : Nat} (h : Dropped s b t) : Dropped s b (settle t) := h

/-- A holder that stops with a record (R343, R349). -/
theorem coxDrop_dropped {code : BitVec 12} {sev : Sev} (hd : diagCode code sev = false) {b : Nat} (hb : bitAt (flag true b) b = true) (s : State) :
    Dropped s b (coxDrop (twinEvent b code sev s)) := by
  have hbit (hw : tabWf 0#32 s.regs = true) := (coxDrop_statSet (twinEvent_statSet hw hb code sev)).bit
  obtain ⟨_, _, hdrop⟩ := coxDrop_frame (twinEvent b code sev s)
  have hepoch : (twinEvent b code sev s).twin.epoch = s.twin.epoch := by rw [twinEvent_twin hd]
  rw [hdrop] at hbit ⊢
  exact ⟨rfl, rfl, rfl, strokeDue_congr (twinEvent_eng ..), hepoch, rfl, rfl, hbit⟩

theorem coxDrop_noInjection {s : State} (hi : NoInjection s) : NoInjection (coxDrop s) := by
  obtain ⟨_, _, hdrop⟩ := coxDrop_frame s
  exact hi.congr (by rw [hdrop])

theorem yieldComplete_over {s : State} (hi : NoInjection s) {y : BitVec 64} (hy : s.twin.yield = some y) (hh : s.twin.hold = true)
    (hl : y.toNat < (strokeDue s).toNat) : yieldComplete s = coxDrop (twinEvent 2 0x702#12 .degrade s) := by
  have hnow : y.toNat < (coxStroke s).toNat := hl
  unfold yieldComplete
  rw [hy]
  dsimp only
  rw [twinStat_detect hi, if_pos (by simp [hh, hnow])]

/-! ### Offers and hand-over (R349–R351) -/

theorem ready_iff {s : State} : ready s = true ↔
    s.twin.diag = false ∧ s.sys.mode = .shadow ∧ (s.twin.inSync = true ∨ twinPol s 3 = true) := by
  simp [ready, and_assoc]

theorem offerFrame_good {s : State} {h : TwinHdr} (ht : isTwin s = true) (hr : running s = true) (hu : s.twin.up = true)
    (hg : frameGood s h = true) (hk : h.typeOk = true) (target : BitVec 64) :
    offerFrame h target s =
      if ready s = true ∧ s.eng.stroke.toNat < target.toNat then { s with twin := { s.twin with take := some target } } else s := by
  simp [offerFrame, linkFrame_good ht hu hg hk, member_eq_true ht hr]

theorem peerReady_iff {s : State} : peerReady s = true ↔
    ∃ x, peerLatest s = some x ∧ x.flags.ready = true ∧ (strokeDue s).toNat ≤ x.stroke.toNat + 2 := by
  unfold peerReady
  cases h : peerLatest s with
  | none => simp
  | some x =>
    show (x.flags.ready && decide ((strokeDue s).toNat ≤ x.stroke.toNat + 2)) = true ↔ _
    simp

theorem handoverRelease_due {s : State} (hi : NoInjection s) {r : BitVec 64} (hr : s.twin.release = some r) (hh : s.twin.hold = true)
    (hl : r.toNat ≤ (strokeDue s).toNat) : handoverRelease s =
      if peerReady s then coxDrop (twinEvent 1 0x701#12 .note s)
      else
        let n := strokeDue s + 1
        let u := twinEvent 6 0x706#12 .fault s
        linkSend 7 s.eng.stroke (natBytes 8 n.toNat) { u with twin := { u.twin with offer := some n, release := some n } } := by
  have hnow : ¬ (coxStroke s).toNat < r.toNat := Nat.not_lt.mpr hl
  unfold handoverRelease
  rw [hr]
  dsimp only
  rw [twinStat_detect hi, twinStat_detect hi, if_neg (by simp [hh, hnow]), offerSend, twinEvent_eng]
  rfl

section
variable {s : State} {p : Pend} (hm : member s = true)
include hm

theorem handoverCall_gives (hi : NoInjection s) (hh : s.twin.hold = true) (h : ∃ x, peerLatest s = some x ∧ x.flags.ready = true ∧
    (pbyte p.call.payload 0 ≠ 0 ∨ x.flags.inSync = true)) : handoverCall p s = (coxDrop (twinEvent 1 0x701#12 .note s), .done) := by
  obtain ⟨x, hx, hready, hsync⟩ := h
  have hgo : (x.flags.ready && (!decide (pbyte p.call.payload 0 = 0) || x.flags.inSync)) = true := by simpa [hready] using hsync
  unfold handoverCall
  simp only [hm, hh, hx, hgo, twinStat_detect hi, Bool.not_true, Bool.false_eq_true, if_false, if_true]

theorem handoverCall_keeps (hh : s.twin.hold = true) (h : ¬ ∃ x, peerLatest s = some x ∧ x.flags.ready = true ∧
    (pbyte p.call.payload 0 ≠ 0 ∨ x.flags.inSync = true)) : handoverCall p s = (twinStat 5 s, .done) := by
  unfold handoverCall
  cases hx : peerLatest s with
  | none => simp [hm, hh]
  | some x =>
    have hgo : ¬ (x.flags.ready && (!decide (pbyte p.call.payload 0 = 0) || x.flags.inSync)) = true :=
      fun hgo => h ⟨x, hx, by simpa using hgo⟩
    simp only [hm, hh, hgo, Bool.not_true, Bool.false_eq_true, if_false, if_true]

theorem handoverCall_shadow (hh : s.twin.hold = false) : handoverCall p s =
    if s.twin.diag = false ∧ (pbyte p.call.payload 0 ≠ 0 ∨ s.twin.inSync = true) then (acquire s, .done) else (s, .done) := by
  simp [handoverCall, hm, hh]

end

/-! ### What a receipt leaves -/

/-- A detector that is no cause of self-diagnosis changes the registers and the logs alone. -/
theorem detect_frame {s : State} (hi : NoInjection s) {code : BitVec 12} {sev : Sev} (hd : diagCode code sev = false) (alters : Bool)
    (src : BitVec 16) (info : Word) (cond : Bool) :
    ∃ regs logs, (detect alters src code sev info cond s).1 = { s with regs, err := { s.err with logs } } := by
  cases cond with
  | true =>
    rw [detect_found hi rfl]
    exact report_frame hd ..
  | false =>
    rw [detect_clear hi rfl]
    exact ⟨_, _, rfl⟩

/-- LATE_SEEN and REJ_SEEN as a receipt sets them (R66). -/
def receiptSeen (r : Receipt) (s : State) : State :=
  let s := if r.status = stLate then callStat 3 s else s
  if r.status = stRejected then callStat 4 s else s

theorem receiptSeen_frame (r : Receipt) (s : State) : ∃ regs, receiptSeen r s = { s with regs } := by
  unfold receiptSeen
  dsimp only
  split_ifs <;> exact ⟨_, rfl⟩

theorem writeWords_twin (a : Nat) (ws : List Word) (s : State) :
    (writeWords a ws s).twin = s.twin ∧ (writeWords a ws s).sys = s.sys := by
  obtain ⟨_, _, h⟩ := writeWords_frame a ws s
  rw [h]
  exact ⟨rfl, rfl⟩

/-- A receipt leaves the twin's part and the system controller alone. -/
theorem writeReceipt_twin {s : State} (hi : NoInjection s) (r : Receipt) :
    (writeReceipt r s).twin = s.twin ∧ (writeReceipt r s).sys = s.sys := by
  obtain ⟨_, hseen⟩ := receiptSeen_frame r s
  have hinj : NoInjection (receiptSeen r s) := hi.congr (by rw [hseen])
  obtain ⟨_, _, hring⟩ := detect_frame hinj (code := 0x311#12) (sev := .note) rfl true callSrc 0#32 (rcptFull (receiptSeen r s))
  unfold writeReceipt
  dsimp only
  rw [← receiptSeen.eq_def, hring, hseen]
  split
  · exact ⟨rfl, rfl⟩
  · split
    · exact writeWords_twin ..
    · exact writeWords_twin ..

theorem receiptApplied_twin {s : State} (hi : NoInjection s) (p : Pend) (k : BitVec 64) :
    (receiptApplied p k s).twin = s.twin ∧ (receiptApplied p k s).sys = s.sys := by
  have hlapse (bits : Word) (t : State) : (lapseAt k bits t).twin = t.twin ∧ (lapseAt k bits t).sys = t.sys := by
    unfold lapseAt
    dsimp only
    split_ifs <;> exact ⟨rfl, rfl⟩
  obtain ⟨htwin, hsys⟩ := writeReceipt_twin hi ⟨p.call.id, if p.late || decide (p.due.toNat < k.toNat) then stLate else stOnTime, 0, k, callIrq p.call⟩
  unfold receiptApplied
  dsimp only
  split
  · exact ⟨(hlapse ..).1.trans htwin, (hlapse ..).2.trans hsys⟩
  · exact ⟨htwin, hsys⟩

/-- An applied call leaves the twin's part and the system controller as its own effect does. -/
theorem Applies.twin {i : Instr} {s t : State} {p : Pend} (h : Applies i s p t) (hi : NoInjection t) :
    ∃ u, exec i s = .next u ∧ u.twin = t.twin ∧ u.sys = t.sys :=
  have hreceipt := receiptApplied_twin (s := { t with call := { t.call with pend := dropPend p t.call.pend } }) (hi.congr rfl) p (strokeDue s)
  ⟨_, h, hreceipt⟩

/-! ### Self-diagnosis (R348) -/

theorem diagRemains_iff {s : State} : diagRemains s = true ↔
    bitAt (reg s Reg.DET_STAT) 2 = true ∨ bitAt (reg s Reg.ERR_STAT) 3 = true ∨ bitAt (reg s Reg.LO_STAT) 0 = true ∨
      reg s Reg.PWR_STAT &&& 0x47#32 ≠ 0#32 ∨ reg s Reg.PIN_STAT &&& 0x3F#32 ≠ 0#32 ∨
      (sps s ≠ 0 ∧ 65536000000000 / sps s < 65536 * s.eng.tskew.natAbs) := by
  have hskew : (sps s ≠ 0 ∧ strokeLen (sps s) < 65536 * s.eng.tskew.natAbs) ↔
      (sps s ≠ 0 ∧ 65536000000000 / sps s < 65536 * s.eng.tskew.natAbs) :=
    and_congr_right fun h => by rw [strokeLen, if_neg h]
  rw [← hskew]
  simp [diagRemains, or_assoc]

end Sys2Proof.Machine
end

section
/-! Cox (R343–R353). -/

open Sys2Proof Sys2Proof.Machine

/-- Settles O40, command by command: what an acquisition leaves and what a holder that stops leaves, each one lemma, under the condition of its
command. -/
theorem coxHolding : Obligations.CoxHolding := by
  intro s hi ht hr
  have hm := member_eq_true ht hr
  refine ⟨fun hh hp => ⟨fun hl => gives_done rfl (leaseExpired_over hm hh hp hl), fun hl => gives_done rfl (leaseExpired_running hl)⟩,
    fun hh htake => goes_done rfl (acquireCox_offered hm hh htake) (acquire_acquired hi).settle,
    fun hh htake he => ⟨fun hmay => ?may, fun hmay => ?mayNot⟩,
    fun hh => gives_done rfl (acquireCox_holder hh),
    fun y hy hh hl => goes_done rfl (yieldComplete_over hi hy hh hl) (coxDrop_dropped rfl (by decide) s).settle,
    fun h target hu hg hk => ?offer, fun r hrel hh hl => ⟨fun hready => ?release, fun hready => ?renew⟩, fun p hd => ?handover, fun m => ?diag⟩
  case may =>
    exact goes_done rfl ((acquireCox_expired hm hh htake he).trans (if_pos (mayTake_iff.mpr hmay))) (acquire_acquired hi).settle
  case mayNot =>
    exact gives_done rfl ((acquireCox_expired hm hh htake he).trans (if_neg (mt mayTake_iff.mp hmay)))
  case offer =>
    have htakes : (ready s = true ∧ s.eng.stroke.toNat < target.toNat) ↔ _ :=
      (and_congr_left' ready_iff).trans (by rw [and_assoc, and_assoc])
    have hoffer := offerFrame_good ht hr hu hg hk target
    exact ⟨fun h => gives_done rfl (hoffer.trans (if_pos (htakes.mpr h))), fun h => gives_done rfl (hoffer.trans (if_neg (mt htakes.mp h)))⟩
  case release =>
    exact goes_done rfl ((handoverRelease_due hi hrel hh hl).trans (if_pos (peerReady_iff.mpr hready))) (coxDrop_dropped rfl (by decide) s).settle
  case renew =>
    exact gives_done rfl ((handoverRelease_due hi hrel hh hl).trans (if_neg (mt peerReady_iff.mp hready)))
  case handover =>
    have hu : NoInjection (charged s p) := hi.congr rfl
    have hmu : member (charged s p) = true := hm
    have hshadow (hh : s.twin.hold = false) := handoverCall_shadow (s := charged s p) (p := p) hmu hh
    refine ⟨fun hh hgives => ?gives, fun hh hgives => ?keeps, fun hh hdiag hmay => ?takes, fun hh hmay => ?refuses⟩
    case gives =>
      obtain ⟨hhold, hmode, hsync, hlast, -⟩ := coxDrop_dropped (code := 0x701#12) (sev := .note) rfl (b := 1) (by decide) (charged s p)
      have happlies : Applies .twinHandover s p _ := applies_due hd rfl (handoverCall_gives hmu hu hh hgives)
      obtain ⟨u, hx, htwin, hsys⟩ := happlies.twin (coxDrop_noInjection (twinEvent_noInjection hu 1 0x701#12 .note))
      refine ⟨u, hx, ?_⟩
      dsimp only
      rw [htwin, hsys]
      exact ⟨hhold, hmode, hsync, hlast⟩
    case keeps => exact applies_due hd rfl (handoverCall_keeps hmu hh hgives)
    case takes =>
      obtain ⟨hhold, hmode, -, hexpired, -⟩ := acquire_acquired hu
      have happlies : Applies .twinHandover s p _ := applies_due hd rfl ((hshadow hh).trans (if_pos ⟨hdiag, hmay⟩))
      obtain ⟨u, hx, htwin, hsys⟩ := happlies.twin (acquire_noInjection hu)
      refine ⟨u, hx, ?_⟩
      dsimp only
      rw [htwin, hsys]
      exact ⟨hhold, hmode, hexpired⟩
    case refuses =>
      refine applies_due hd rfl ((hshadow hh).trans (if_neg fun ⟨hdiag, hsync⟩ => ?_))
      rcases hmay with hbad | ⟨hrequest, hbad⟩
      · exact absurd (hbad.symm.trans hdiag) (by decide)
      · exact absurd (hbad.symm.trans (hsync.resolve_left hrequest)) (by decide)
  case diag =>
    exact ⟨fun h => gives_done rfl (if_pos (diagRemains_iff.mpr h)), fun h => gives_done rfl (if_neg (mt diagRemains_iff.mp h))⟩
end

section
/-! Frames of the link that are discarded (R367), and the sections of a shipment as a shadow takes them (R358–R361). -/

namespace Sys2Proof.Machine

/-! ### Discarded frames -/

/-- A frame with a bad CRC or tag is counted and logged. -/
theorem linkBad_eq {s : State} (hi : NoInjection s) : linkBad s =
    twinEvent 9 0x709#12 .note { s with twin := { s.twin with tagErr := satInc max32 s.twin.tagErr } } := by
  unfold linkBad
  exact twinStat_detect (hi.twin _) 9 0x709#12 .note

theorem linkBad_frame {s : State} (hi : NoInjection s) : ∃ regs logs, linkBad s = { s with
    regs, err := { s.err with logs }, twin := { s.twin with tagErr := satInc max32 s.twin.tagErr } } := by
  obtain ⟨regs, logs, h⟩ := twinEvent_frame (code := 0x709#12) (sev := .note) rfl 9
    { s with twin := { s.twin with tagErr := satInc max32 s.twin.tagErr } }
  exact ⟨regs, logs, (linkBad_eq hi).trans h⟩

theorem linkFrame_bad {s : State} {h : TwinHdr} (ht : isTwin s = true) (hu : s.twin.up = true) (hg : frameGood s h = false) :
    linkFrame h s = (linkBad s, false) := by
  simp [linkFrame, ht, hu, hg]

/-- A frame of another TYPE is counted. -/
theorem linkFrame_otherType {s : State} {h : TwinHdr} (ht : isTwin s = true) (hu : s.twin.up = true) (hg : frameGood s h = true)
    (hk : h.typeOk = false) : linkFrame h s = ({ s with twin := { s.twin with tagErr := satInc max32 s.twin.tagErr } }, false) := by
  simp [linkFrame, ht, hu, hg, hk]

/-- Frames that hold no part of a state section. -/
def plainFrames (h : TwinHdr) (v : BitVec 64) (b : InputBlock) (bl : List (Nat × BitVec 2 × BitVec 8)) (rt : List (Nat × Word))
    (tr : List SrcTreat) (ok : Bool) (c : RsCtl) (it : RsItem) : List Instr :=
  [.marker h v, .offer h v, .input h b, .freeze h bl rt tr ok, .close h v ok, .rsctl h c, .resync h it]

section
variable {s t : State} {h : TwinHdr} (hd : linkFrame h s = (t, false))
include hd

theorem shadowFrame_dropped : shadowFrame h s = (t, false) := by
  simp [shadowFrame, hd]

/-- A frame that is discarded does nothing more. -/
theorem gives_plainFrames (v : BitVec 64) (b : InputBlock) (bl : List (Nat × BitVec 2 × BitVec 8)) (rt : List (Nat × Word))
    (tr : List SrcTreat) (ok : Bool) (c : RsCtl) (it : RsItem) : ∀ i ∈ plainFrames h v b bl rt tr ok c it, Gives i s t := by
  have hs := shadowFrame_dropped hd
  simp only [plainFrames, List.forall_mem_cons, List.not_mem_nil, false_imp_iff, implies_true, and_true]
  refine ⟨gives_done rfl ?_, gives_done rfl ?_, gives_done rfl ?_, gives_done rfl ?_, gives_done rfl ?_, gives_done rfl ?_, gives_done rfl ?_⟩
  · simp [marker, hd]
  · simp [offerFrame, hd]
  · simp [inputFrame, hs]
  · simp [freezeFrame, hs]
  · simp [closeFrame, hs]
  · simp [resyncCtl, hd]
  · simp [resyncFrame, hs]

/-- A discarded frame of a state section takes the section with it (R360). -/
theorem gives_sectionFrames (hu : t.twin.up = true) (hm : t.sys.mode = s.sys.mode) (cs : List (CallRec × BitVec 64)) (rd : BitVec 17)
    (n o : Nat) (ws : List Word) : ∀ i ∈ [Instr.calls h cs rd, .carry h n o ws],
      Gives i s (if s.sys.mode = .shadow then { t with twin := { t.twin with secBad := true } } else t) := by
  have hs := shadowFrame_dropped hd
  have hlost : sectionLost t = if s.sys.mode = .shadow then { t with twin := { t.twin with secBad := true } } else t := by
    simp [sectionLost, hu, hm]
  simp only [List.forall_mem_cons, List.not_mem_nil, false_imp_iff, implies_true, and_true, ← hlost]
  refine ⟨gives_done rfl ?_, gives_done rfl ?_⟩
  · simp [callsFrame, hs]
  · simp [carryFrame, hs]

end

/-! ### The state section -/

theorem shadowFrame_good {s : State} {h : TwinHdr} (ht : isTwin s = true) (hu : s.twin.up = true) (hg : frameGood s h = true)
    (hk : h.typeOk = true) (hm : s.sys.mode = .shadow) : shadowFrame h s = (s, true) := by
  simp [shadowFrame, linkFrame_good ht hu hg hk, hm]

/-- What a shadow holds of a state section, emptied. -/
def sectionEmpty (x : TwinState) : TwinState := { x with callsIn := [], rdIn := none, carryBad := none, secBad := false, secOf := none }

theorem sectionDrop_eq (s : State) : sectionDrop s = { s with twin := sectionEmpty s.twin } := rfl

/-- A frame of the state section of stroke `k` goes on with that section, or opens it on an empty one. -/
def sectionAt (k : BitVec 64) (x : TwinState) : TwinState :=
  { (if x.secOf = none ∨ x.secOf = some k then x else sectionEmpty x) with secOf := some k }

theorem sectionFor_eq (k : BitVec 64) (s : State) : sectionFor k s = { s with twin := sectionAt k s.twin } := by
  unfold sectionFor sectionAt
  cases h : s.twin.secOf with
  | none => simp
  | some j =>
    by_cases hj : j = k
    · simp [hj]
    · simp [hj, sectionDrop_eq]

/-- A shipped call without a bulk area, as the pending table will hold it. -/
def shippedPend (s : State) (e : CallRec × BitVec 64) : Pend :=
  let d := dueOf { s with eng := { s.eng with stroke := e.2 } } e.1
  ⟨e.1, e.2, BitVec.ofNat 64 d.1, d.2, callRejects s e.1, armsOf s e.1 [], false⟩

theorem shippedCall_plain (s : State) {e : CallRec × BitVec 64} (hb : bulkOf e.1 = none) : shippedCall e.2 e.1 s = (s, shippedPend s e) := by
  have hread : readBulk e.1 s = (s, []) := by simp only [readBulk, hb]
  unfold shippedCall
  rw [hread]
  rfl

theorem shippedCalls_plain (s : State) {cs : List (CallRec × BitVec 64)} (hb : ∀ e ∈ cs, bulkOf e.1 = none) (ps : List Pend) :
    cs.foldl (fun (r : State × List Pend) e =>
      let p := shippedCall e.2 e.1 r.1
      (p.1, r.2 ++ [p.2])) (s, ps) = (s, ps ++ cs.map (shippedPend s)) := by
  induction cs generalizing ps with
  | nil => simp
  | cons e cs ih =>
    rw [List.forall_mem_cons] at hb
    rw [List.foldl_cons, shippedCall_plain s hb.1, ih hb.2, List.append_assoc]
    rfl

/-- The frame CALLS adds its calls to the section (R358). -/
theorem callsFrame_taken {s : State} {h : TwinHdr} (hs : shadowFrame h s = (s, true)) {cs : List (CallRec × BitVec 64)}
    (hb : ∀ e ∈ cs, bulkOf e.1 = none) (rd : BitVec 17) : callsFrame h cs rd s = { s with twin := { sectionAt h.stroke s.twin with
      rdIn := some rd, callsIn := (sectionAt h.stroke s.twin).callsIn ++ cs.map (shippedPend s) } } := by
  unfold callsFrame
  rw [hs]
  dsimp only
  rw [sectionFor_eq, shippedCalls_plain _ hb]
  rfl

/-! ### Carry -/

section
variable {s t : State} (hmem : t.mem = s.mem)
include hmem

theorem descWord_congr (n i : Nat) : descWord t n i = descWord s n i := by
  rw [descWord, peek, hmem, descWord, peek]

theorem stripCrew_congr (n : Nat) : stripCrew t n = stripCrew s n := by rw [stripCrew, descWord_congr hmem, stripCrew]
theorem carryBase_congr (n : Nat) : carryBase t n = carryBase s n := by rw [carryBase, descWord_congr hmem, carryBase]
theorem carryLen_congr (n : Nat) : carryLen t n = carryLen s n := by rw [carryLen, descWord_congr hmem, carryLen]

theorem holdWalk_congr (c w : Nat) (l : List Nat) (at_ : Nat) : holdWalk t c w l at_ = holdWalk s c w l at_ := by
  induction l generalizing at_ with
  | nil => rfl
  | cons n l ih => rw [holdWalk, holdWalk, stripCrew_congr hmem, carryBase_congr hmem, carryLen_congr hmem, ih, ih]

/-- The carry is read from memory, the image and the hold bits alone (R377). -/
theorem carryRead_congr (heng : t.eng = s.eng) (hmsvc : t.msvc = s.msvc) (c w : Nat) : carryRead t c w = carryRead s c w := by
  have hpeek (a : Nat) : peek t a = peek s a := by rw [peek, hmem, peek]
  have hlen : holdLen t c = holdLen s c := by
    unfold holdLen
    congr 1
    funext h n
    rw [stripCrew_congr hmem, carryLen_congr hmem]
  have hword : holdWord t c w = holdWord s c w := by rw [holdWord, heng, hlen, holdWalk_congr hmem, holdWord]
  rw [carryRead, hword, hmsvc]
  simp only [hpeek]
  rfl

end

/-- The words of CARRY agree with this unit's own carry. -/
def carryAgrees (s : State) (n ofs : Nat) (ws : List Word) : Prop :=
  ∀ j, j < ws.length → ws.getD j 0#32 = carryRead s (stripCrew s n) (carryBase s n + ofs + j)

theorem carryAgrees_iff (s : State) (n ofs : Nat) (ws : List Word) : carryAgrees s n ofs ws ↔
    ¬ (ws.zipIdx.any fun e => carryRead s (stripCrew s n) (carryBase s n + ofs + e.2) != e.1) = true := by
  rw [List.any_eq_true]
  constructor
  · rintro hsame ⟨e, he, hne⟩
    obtain ⟨hlt, hval⟩ := List.mem_zipIdx' he
    have hj := hsame e.2 hlt
    rw [List.getD_eq_getElem _ _ hlt, ← hval] at hj
    exact absurd hj.symm (by simpa using hne)
  · intro hnone j hj
    by_contra hne
    refine hnone ⟨(ws[j], j), List.mk_mem_zipIdx_iff_getElem?.mpr (List.getElem?_eq_getElem hj), ?_⟩
    rw [List.getD_eq_getElem _ _ hj] at hne
    simpa using Ne.symm hne

/-- The lowest strip found to differ, with one more. -/
def lowestStrip (n : Nat) : Option Nat → Nat
  | some m => min m n
  | none => n

/-- The frame CARRY keeps the lowest strip that differs (R360). -/
theorem carryFrame_taken {s : State} {h : TwinHdr} (hs : shadowFrame h s = (s, true)) (n ofs : Nat) (ws : List Word) :
    (carryAgrees s n ofs ws → carryFrame h n ofs ws s = { s with twin := sectionAt h.stroke s.twin }) ∧
    (¬ carryAgrees s n ofs ws → carryFrame h n ofs ws s = { s with twin := { sectionAt h.stroke s.twin with
      carryBad := some (lowestStrip n (sectionAt h.stroke s.twin).carryBad) } }) := by
  have hmem (x : TwinState) : ({ s with twin := x } : State).mem = s.mem := rfl
  have hread (x : TwinState) (c w : Nat) : carryRead { s with twin := x } c w = carryRead s c w := carryRead_congr (hmem x) rfl rfl c w
  unfold carryFrame
  rw [hs]
  dsimp only
  rw [if_neg (by decide), sectionFor_eq]
  simp only [hread, stripCrew_congr (hmem _), carryBase_congr (hmem _)]
  constructor
  · intro hc
    rw [if_neg ((carryAgrees_iff ..).mp hc)]
  · intro hc
    rw [if_pos (not_not.mp (mt (carryAgrees_iff ..).mpr hc))]
    cases (sectionAt h.stroke s.twin).carryBad <;> rfl

/-! ### The closing frame (R360) -/

/-- CLOSE comes before this unit's FINISH of the stroke after its own, and its section is whole and not yet committed. -/
def closeFits (s : State) (k : BitVec 64) : Prop :=
  s.eng.phase = .drive ∧ s.eng.stroke = k + 1#64 ∧ s.twin.commit.toNat < k.toNat ∧ s.twin.secBad = false ∧
    (s.twin.secOf = none ∨ s.twin.secOf = some k)

/-- The shipment agrees with this unit's own stroke. -/
def closeEqual (s : State) (k digest : BitVec 64) : Prop :=
  digest = s.eng.digest ∧ s.eng.digestOf = k ∧ s.twin.carryBad = none

/-- The section is committed: its calls join the pending table (R358, R360). -/
def sectionCommit (k : BitVec 64) (s : State) : State :=
  sectionDrop { s with
    call := { s.call with pend := s.call.pend ++ s.twin.callsIn, rd := s.twin.rdIn.getD s.call.rd }
    twin := { s.twin with commit := k, unver := false } }

section
variable {s : State} {h : TwinHdr} (hs : shadowFrame h s = (s, true))
include hs

theorem closeFrame_badSection (digest : BitVec 64) : closeFrame h digest false s = sectionDrop (linkBad s) := by
  simp [closeFrame, hs]

theorem closeFrame_misfit (hf : ¬ closeFits s h.stroke) (digest : BitVec 64) : closeFrame h digest true s = sectionDrop s := by
  unfold closeFrame
  rw [hs]
  dsimp only
  rw [if_neg (by decide)]
  refine if_pos ?_
  by_contra hc
  simp only [Bool.not_true, Bool.false_or, Bool.or_eq_true, bne_iff_ne, decide_eq_true_eq, Bool.and_eq_true, not_or, not_and, not_not,
    Nat.not_le, Bool.not_eq_true] at hc
  obtain ⟨⟨⟨⟨hphase, hstroke⟩, hcommit⟩, hbad⟩, hof⟩ := hc
  exact hf ⟨hphase, hstroke, hcommit, hbad, or_iff_not_imp_left.mpr hof⟩

section
variable (hf : closeFits s h.stroke)
include hf

/-- A CLOSE that fits commits its section, after the record of what differs (R360). -/
theorem closeFrame_fits (digest : BitVec 64) : closeFrame h digest true s =
    let d := detect false twinSrc 0x703#12 .degrade 0#32 (digest != s.eng.digest || s.eng.digestOf != h.stroke || s.twin.carryBad.isSome) s
    sectionCommit h.stroke (if d.2 then
        syncLost { d.1 with twin := { d.1.twin with diff := if d.1.twin.carryBad.isSome then d.1.twin.carryBad else d.1.twin.diff } }
      else d.1) := by
  obtain ⟨hphase, hstroke, hcommit, hbad, hof⟩ := hf
  have hfits : ¬ (!true || s.eng.phase != .drive || s.eng.stroke != h.stroke + 1 || decide (h.stroke.toNat ≤ s.twin.commit.toNat)
      || s.twin.secBad || (s.twin.secOf != none && s.twin.secOf != some h.stroke)) = true := by
    have hsec : ¬ (s.twin.secOf ≠ none ∧ s.twin.secOf ≠ some h.stroke) := fun ⟨h0, h1⟩ => hof.elim h0 h1
    have hstroke' : s.eng.stroke = h.stroke + 1 := hstroke
    simpa [hphase, hstroke', hbad, hcommit] using hsec
  unfold closeFrame
  rw [hs]
  dsimp only
  rw [if_neg (by decide), if_neg hfits]
  rfl

theorem closeFrame_equal (hi : NoInjection s) {digest : BitVec 64} (he : closeEqual s h.stroke digest) :
    closeFrame h digest true s = sectionCommit h.stroke s := by
  obtain ⟨hdigest, hof, hcarry⟩ := he
  rw [closeFrame_fits hs hf, detect_clear hi (by simp [hdigest, hof, hcarry])]
  rfl

theorem closeFrame_differs (hi : NoInjection s) {digest : BitVec 64} (he : ¬ closeEqual s h.stroke digest) :
    let u := report twinSrc 0x703#12 .degrade 0#32 s
    closeFrame h digest true s = sectionCommit h.stroke
      (syncLost { u with twin := { u.twin with diff := if u.twin.carryBad.isSome then u.twin.carryBad else u.twin.diff } }) := by
  have hdiffers : (digest != s.eng.digest || s.eng.digestOf != h.stroke || s.twin.carryBad.isSome) = true := by
    by_contra hc
    simp only [Bool.or_eq_true, bne_iff_ne, not_or, not_not, Bool.not_eq_true, Option.isSome_eq_false_iff, Option.isNone_iff_eq_none] at hc
    obtain ⟨⟨hdigest, hof⟩, hcarry⟩ := hc
    exact he ⟨hdigest, hof, hcarry⟩
  rw [closeFrame_fits hs hf, detect_found hi hdiffers]
  rfl

end

end

/-- The closing frame where the strokes differ: the record, IN_SYNC lost and the strip kept (R360, R363). -/
theorem syncLost_differs (s : State) :
    let u := report twinSrc 0x703#12 .degrade 0#32 s
    ∃ regs, syncLost { u with twin := { u.twin with diff := if u.twin.carryBad.isSome then u.twin.carryBad else u.twin.diff } } =
      { s with
        regs, err := u.err
        twin := { s.twin with inSync := false, diff := if s.twin.carryBad = none then s.twin.diff else s.twin.carryBad } } := by
  have hdiff : (if s.twin.carryBad.isSome then s.twin.carryBad else s.twin.diff) =
      if s.twin.carryBad = none then s.twin.diff else s.twin.carryBad := by
    cases s.twin.carryBad with
    | none => rfl
    | some _ => rfl
  obtain ⟨_, _, hreport⟩ := report_frame (code := 0x703#12) (sev := .degrade) rfl twinSrc 0#32 s
  dsimp only
  rw [hreport, ← hdiff]
  exact syncLost_frame _

end Sys2Proof.Machine
end

section
/-! Shipments (R358–R361, R367). -/

open Sys2Proof Sys2Proof.Machine

/-- Settles O41: a discarded frame ends at its header, and each section's frame by what it takes into the section; the closing frame commits it,
with a record where the strokes differ. -/
theorem shipments : Obligations.Shipments := by
  intro s h hi ht hu
  refine ⟨fun v b bl rt tr ok cs rd n o ws c it => ⟨fun hg => ?bad, fun hg hk => ?otherType⟩, fun hg hk hm => ?taken⟩
  case bad =>
    obtain ⟨_, _, hbad⟩ := linkBad_frame hi
    have hup : (linkBad s).twin.up = true := by rw [hbad]; exact hu
    have hmode : (linkBad s).sys.mode = s.sys.mode := by rw [hbad]
    have hd := linkFrame_bad ht hu hg
    rw [linkBad_eq hi] at hd hup hmode
    exact ⟨gives_plainFrames hd v b bl rt tr ok c it, gives_sectionFrames hd hup hmode cs rd n o ws⟩
  case otherType =>
    have hd := linkFrame_otherType ht hu hg hk
    exact ⟨gives_plainFrames hd v b bl rt tr ok c it, gives_sectionFrames hd hu rfl cs rd n o ws⟩
  case taken =>
    have hs := shadowFrame_good ht hu hg hk hm
    refine ⟨fun b => gives_done rfl ?input, fun bl rt tr => ⟨gives_done rfl ?freeze, gives_done rfl ?freezeBad⟩,
      fun cs rd hb => gives_done rfl (callsFrame_taken hs hb rd),
      fun n ofs ws => ⟨fun hc => gives_done rfl ((carryFrame_taken hs n ofs ws).1 hc), fun hc => gives_done rfl ((carryFrame_taken hs n ofs ws).2 hc)⟩,
      fun digest ok => ⟨fun ho => ?closeBad, fun ho hf => ?misfit, fun ho hf he => ?equal, fun ho hf he => ?differs⟩⟩
    case input => simp [inputFrame, hs]
    case freeze => simp [freezeFrame, hs]
    case freezeBad =>
      simp only [freezeFrame, hs, linkBad_eq hi]
      rfl
    case closeBad =>
      subst ho
      refine gives_done rfl ((closeFrame_badSection hs digest).trans ?_)
      rw [linkBad_eq hi]
      rfl
    case misfit =>
      subst ho
      exact gives_done rfl (closeFrame_misfit hs hf digest)
    case equal =>
      subst ho
      exact goes_done rfl (closeFrame_equal hs hf hi he) ⟨⟨rfl, rfl, rfl, rfl, rfl, rfl, rfl, rfl⟩, rfl, rfl, rfl, rfl⟩
    case differs =>
      subst ho
      obtain ⟨_, hlost⟩ := syncLost_differs s
      have hclose := closeFrame_differs hs hf hi he
      dsimp only at hclose hlost
      rw [hlost] at hclose
      exact goes_done rfl hclose ⟨⟨rfl, rfl, rfl, rfl, rfl, rfl, rfl, rfl⟩, rfl, rfl, rfl⟩
end

section
/-! The link of the twin (R366–R369): what is sent, and its ups and downs. -/

namespace Sys2Proof.Machine

/-! ### A payload of one frame (R367) -/

theorem chunksAux_nil {α : Type} (n f : Nat) : chunksAux n f ([] : List α) = [] := by
  cases f <;> rfl

theorem chunks_single {α : Type} {n : Nat} {l : List α} (h0 : l ≠ []) (hn : l.length ≤ n) : chunks n l = [l] := by
  cases l with
  | nil => exact absurd rfl h0
  | cons x xs => rw [chunks, List.length_cons, chunksAux, List.take_of_length_le hn, List.drop_of_length_le hn, chunksAux_nil]

theorem linkSend_single {s : State} {type : Nat} {payload : List Byte} (ho : linkOpen s type = true) (h0 : payload ≠ [])
    (hn : payload.length ≤ 4096) (stroke : BitVec 64) : linkSend type stroke payload s = frameSend type stroke payload s := by
  have hne : ¬ payload.isEmpty = true := by simpa using h0
  rw [linkSend, if_neg (by simp [ho]), if_neg hne, chunks_single h0 hn]
  rfl

/-! ### Link up (R366, R368) -/

theorem drawNonce_length (s : State) : (drawNonce s).length = 16 := rfl

/-- The twin's part of a link that comes up, with HELLO sent. -/
theorem twinUp_down {s : State} (ht : isTwin s = true) (hu : s.twin.up = false) (hl : loopHolds s 2 = false) : ∃ out,
    twinUp s = { s with out, freeCtr := s.freeCtr + 4, twin := { s.twin with
      up := true, lanes := 15#4, crypt := bitAt (reg s Reg.TWIN_CFG) 31, rate := bitAt (reg s Reg.TWIN_CFG) 29, nonce := drawNonce s, seq := 1#64 } } := by
  unfold twinUp
  rw [if_neg (by simp [ht, hu, hl])]
  dsimp only
  rw [linkSend_single (by simp [linkOpen]) (by simp [natBytes]) (by simp [natBytes, drawNonce_length])]
  exact ⟨_, rfl⟩

theorem twinUp_up {s : State} (hu : s.twin.up = true) : twinUp s = s := by
  simp [twinUp, hu]

/-! ### Link down (R356, R365, R366) -/

/-- The reset of a master that has no burst in progress (R412). -/
theorem masterReset_idle {s : State} (hi : NoInjection s) (m : Master) (perform : Burst → State → State) :
    ∃ fab, masterReset m perform none s = { s with fab, banks := vput s.banks (mNum m) {} } := by
  have hnone : burstComplete m perform none s = s := by
    unfold burstComplete
    dsimp only
    rw [detect_clear hi (by rfl)]
    rfl
  unfold masterReset
  rw [hnone]
  exact ⟨_, rfl⟩

theorem twinDown_down {s : State} (hu : s.twin.up = false) (lock : BitVec 4) (prog : Option Burst) : twinDown lock prog s = s := by
  simp [twinDown, hu]

/-- The twin's part as a link that goes down leaves it, before IN_SYNC is judged. -/
def linkLost (lock : BitVec 4) (x : TwinState) : TwinState :=
  { x with
    up := false, lanes := lock, downs := satInc 65535 x.downs, resync := false, rsReset := false, rsCut := none, peerNonce := [], skey := [] }

theorem twinDown_up {s : State} (hi : NoInjection s) (hu : s.twin.up = true) (lock : BitVec 4) : ∃ regs fab,
    twinDown lock none s = { s with
      regs, fab, banks := vput s.banks (mNum .twin) {}, err := (report twinSrc 0x705#12 .degrade 0#32 s).err
      twin := { linkLost lock s.twin with inSync := s.twin.hold && s.twin.inSync } } := by
  obtain ⟨regs, logs, hevent⟩ := twinEvent_frame (code := 0x705#12) (sev := .degrade) rfl 7 s
  have herr : (report twinSrc 0x705#12 .degrade 0#32 s).err = { s.err with logs } := by rw [← twinEvent_err 7, hevent]
  let v : State := { s with regs, err := { s.err with logs }, twin := linkLost lock s.twin }
  have hdown : twinDown lock none s =
      let w := masterReset .twin memPerform none v
      if w.twin.hold then w else syncLost w := by
    unfold twinDown
    rw [if_neg (by simp [hu]), twinStat_detect hi, hevent]
    rfl
  obtain ⟨fab, hreset⟩ := masterReset_idle (s := v) (hi.congr rfl) .twin memPerform
  rw [hdown, hreset, herr]
  dsimp only [v]
  cases hh : s.twin.hold with
  | true => exact ⟨regs, fab, by rw [if_pos (by exact hh)]; rfl⟩
  | false =>
    rw [if_neg (by simp [linkLost, hh])]
    obtain ⟨regs', hlost⟩ := syncLost_frame { v with fab, banks := vput v.banks (mNum .twin) {} }
    exact ⟨regs', fab, hlost.trans rfl⟩

/-! ### A silent path (R356) -/

/-- A path that is silent while another renews is lost, once (R356). -/
theorem pathLost_silent {s : State} (hi : NoInjection s) {p : TwinPath} (hm : member s = true) (hp : twinPol s (pathBit p) = true)
    (hs : (pathAt s p).seen = true) (hl : (pathAt s p).lost = false) (hk : (pathAt s p).stroke.toNat + 4 ≤ s.eng.stroke.toNat)
    (hq : ∃ q, q ≠ p ∧ (pathAt s q).seen = true ∧ s.eng.stroke.toNat < (pathAt s q).stroke.toNat + 4 ∧ (pathAt s q).flags.hold = true) :
    pathLost p s = orReg Reg.TWIN_STAT (flag true 8) (putPath p { pathAt s p with lost := true } (report twinSrc 0x70A#12 .note 0#32 s)) := by
  have hdead : pathLive s (pathAt s p) = false := by simp [pathLive, hk]
  have hothers : ([TwinPath.link, .pins, .beacon].any fun q => q != p && pathLive s (pathAt s q) && (pathAt s q).flags.hold) = true := by
    obtain ⟨q, hne, hseen, hlive, hhold⟩ := hq
    refine List.any_eq_true.mpr ⟨q, by cases q <;> decide, ?_⟩
    simp [hne, pathLive, hseen, hlive, hhold]
  unfold pathLost
  dsimp only
  rw [if_pos (by rw [hm, hp, hs, hl, hdead, hothers]; rfl), detect_found hi rfl]
  rfl

end Sys2Proof.Machine
end

section
/-! HELLO (R367, R368). -/

namespace Sys2Proof.Machine

/-- What follows a detector, where no slot is armed for it. -/
theorem detect_then {s : State} (hi : NoInjection s) (f : State → State) (alters : Bool) (src : BitVec 16) (code : BitVec 12) (sev : Sev)
    (info : Word) (cond : Bool) :
    (if (detect alters src code sev info cond s).2 then f (detect alters src code sev info cond s).1 else (detect alters src code sev info cond s).1) =
      if cond then f (report src code sev info s) else s := by
  cases cond with
  | true => rw [detect_found hi rfl, if_pos rfl, if_pos rfl]
  | false => rw [detect_clear hi rfl, if_neg Bool.false_ne_true, if_neg Bool.false_ne_true]

/-- The record of an image that comes to differ, and IN_SYNC lost with it; nothing where it does not (R367). -/
theorem imageCheck_frame (c : Bool) (s : State) : ∃ regs logs,
    (if c then syncLost (twinStat 10 (report twinSrc 0x708#12 .fault 0#32 s)) else s) =
      { s with regs, err := { s.err with logs }, twin := { s.twin with inSync := s.twin.inSync && !c } } := by
  cases c with
  | true =>
    obtain ⟨_, logs, hevent⟩ := twinEvent_frame (code := 0x708#12) (sev := .fault) rfl 10 s
    obtain ⟨regs, hlost⟩ := syncLost_frame (twinEvent 10 0x708#12 .fault s)
    rw [hevent] at hlost
    refine ⟨regs, logs, ?_⟩
    rw [if_pos rfl, Bool.not_true, Bool.and_false, twinStat, ← twinEvent, hevent, hlost]
  | false => exact ⟨s.regs, s.err.logs, by rw [if_neg Bool.false_ne_true, Bool.not_false, Bool.and_true]⟩

theorem peerCheck_frame {s : State} (hi : NoInjection s) (seat : Bool) (image : BitVec 64) : ∃ regs logs c,
    peerCheck seat image s = { s with
      regs, err := { s.err with logs }
      twin := { s.twin with inSync := s.twin.inSync && !c, seatClash := seat == seatB s, imageDiff := image != imageId s } } ∧
    (image ≠ imageId s → s.twin.imageDiff = false → c = true) ∧ (image = imageId s → c = false) := by
  have hseat (c : Bool) : ∃ regs logs, (if c then twinStat 11 (report twinSrc 0x707#12 .fault 0#32 s) else s) =
      { s with regs, err := { s.err with logs } } := by
    cases c with
    | true =>
      rw [if_pos rfl]
      exact twinEvent_frame (code := 0x707#12) (sev := .fault) rfl 11 s
    | false => exact ⟨s.regs, s.err.logs, rfl⟩
  unfold peerCheck
  dsimp only
  rw [detect_then hi (twinStat 11)]
  generalize (seat == seatB s && !(s.twin.seatClash && bitAt (reg s Reg.TWIN_STAT) 11)) = clash
  obtain ⟨regs, logs, hs⟩ := hseat clash
  rw [hs]
  generalize hu : ({ s with regs, err := { s.err with logs } } : State) = u
  have htwin : u.twin = s.twin := by rw [← hu]
  have hid : imageId u = imageId s := by rw [← hu]; rfl
  have hinj : NoInjection u := hi.congr (by rw [← hu])
  rw [detect_then hinj fun t => syncLost (twinStat 10 t)]
  obtain ⟨regs', logs', himage⟩ := imageCheck_frame (image != imageId u && !(u.twin.imageDiff && bitAt (reg s Reg.TWIN_STAT) 10)) u
  rw [himage, hid, htwin]
  refine ⟨regs', logs', image != imageId s && !(s.twin.imageDiff && bitAt (reg s Reg.TWIN_STAT) 10), ?_, fun hne hd => ?_, fun heq => ?_⟩
  · rw [← hu]
    rfl
  · simp [hne, hd]
  · simp [heq]

theorem hello_frame {s : State} (hi : NoInjection s) {h : TwinHdr} (ht : isTwin s = true) (hu : s.twin.up = true) (hc : h.crcOk = true)
    (hk : h.typeOk = true) (image : BitVec 64) (nonce : List Byte) : ∃ regs logs skey c,
    hello h image nonce s = { s with
      regs, err := { s.err with logs }
      twin := { s.twin with
        inSync := s.twin.inSync && !c, seatClash := h.flags.seat == seatB s, imageDiff := image != imageId s, peerNonce := nonce, skey } } ∧
    (image ≠ imageId s → s.twin.imageDiff = false → c = true) ∧ (image = imageId s → c = false) := by
  have hframe : linkFrame { h with tagOk := true } s = (s, true) := linkFrame_good ht hu (by simp [frameGood, hc]) hk
  obtain ⟨regs, logs, c, hpeer, hdiffers, hsame⟩ := peerCheck_frame hi h.flags.seat image
  unfold hello
  rw [hframe]
  dsimp only
  rw [if_neg (by decide), hpeer]
  exact ⟨regs, logs, _, c, rfl, hdiffers, hsame⟩

end Sys2Proof.Machine
end

section
/-! Resync (R364, R365): its request, its commands and the items of the set. -/

namespace Sys2Proof.Machine

theorem resyncAsk_forced {s : State} (hm : member s = true) (hh : s.twin.hold = false) (hs : s.twin.inSync = false) (hu : s.twin.up = true)
    (hp : s.twin.peerSeen = true) (hd : s.twin.imageDiff = false) : resyncAsk true s = linkSend 9 s.eng.stroke (Config.linkPayload 9 [0])
      { s with twin := { s.twin with resync := true, rsCut := none, rsSent := 0 } } := by
  simp [resyncAsk, hm, hh, hs, hu, hp, hd]

theorem resyncAsk_holder {s : State} (hh : s.twin.hold = true) (force : Bool) : resyncAsk force s = s := by
  simp [resyncAsk, hh]

theorem resyncCtl_good {s : State} {h : TwinHdr} (ht : isTwin s = true) (hu : s.twin.up = true) (hg : frameGood s h = true)
    (hk : h.typeOk = true) (c : RsCtl) : resyncCtl h c s = resyncControl c s := by
  simp [resyncCtl, linkFrame_good ht hu hg hk]

/-! ### The reset of the resync -/

theorem coxEnd_frame (s : State) : ∃ twin sys port, coxEnd s = { s with twin, sys, port } := by
  unfold coxEnd
  dsimp only
  split
  · obtain ⟨port, h⟩ := setDrive_frame false
      { s with twin := { s.twin with hold := false, offer := none, release := none, yield := none, take := none, expired := false } }
    exact ⟨_, _, port, h⟩
  · exact ⟨_, _, _, rfl⟩

/-- The engine's own state as an engine-reach reset leaves it (R436, R438, R441). -/
def engStopped (s : State) : State :=
  let s := callsDiscard s
  { s with
    eng := { s.eng with phase := .held }
    cores := Vector.replicate 128 {}
    crews := Vector.replicate 16 {}
    mix := { s.mix with out := [], done := 0#16 }
    patch := { s.patch with bridges := [], same := [], outBlk := fadeSinks s }
    scene := { s.scene with arm := none, fades := [], cuts := [], align := [] }
    msvc := { s.msvc with hold := [] }
    sys := { s.sys with rel := if s.sys.rel = 7 then 6 else s.sys.rel } }

/-- An engine-reach reset holds the engine, discards the pending calls and keeps every memory (R436). -/
theorem engReset_running {s : State} (hi : NoInjection s) (hp : s.eng.phase ≠ .held) :
    (engReset none s).eng.phase = .held ∧ (engReset none s).call.pend = [] ∧ (engReset none s).mem = s.mem := by
  have hreset : engReset none s = masterReset .eng memPerform none (coxEnd (engStopped s)) :=
    if_neg (by simpa [engHeld] using hp)
  obtain ⟨_, _, _, hcox⟩ := coxEnd_frame (engStopped s)
  obtain ⟨_, hmaster⟩ := masterReset_idle (s := coxEnd (engStopped s)) (hi.congr (by rw [hcox]; rfl)) .eng memPerform
  rw [hreset, hmaster, hcox]
  exact ⟨rfl, rfl, rfl⟩

theorem resyncControl_reset {s : State} (hm : member s = true) (hh : s.twin.hold = false) (hr : s.twin.resync = true) :
    let u := engReset none (causeSet 0x400#32 s)
    resyncControl .resetCmd s = { u with twin := { u.twin with rsReset := true, rsCut := none } } := by
  simp [resyncControl, hm, hh, hr]

/-- An item of the resync set reaches a shadow that is held in the resync's reset. -/
theorem resyncFrame_held {s : State} {h : TwinHdr} (hs : shadowFrame h s = (s, true)) (hr : s.twin.rsReset = true) (i : RsItem) :
    resyncFrame h i s = match i with
    | .bytes a bs =>
      let t := writeBytes a bs s
      { t with twin := { t.twin with rsSent := t.twin.rsSent + bs.length } }
    | .stage a bs => { s with stage := memPutBytes s.stage a bs, twin := { s.twin with rsSent := s.twin.rsSent + bs.length } }
    | .call c acc due late armed =>
      let p := shippedCall acc c s
      { p.1 with call := { p.1.call with pend := p.1.call.pend ++ [{ p.2 with due, late, armed }] } }
    | .callRd rd => { s with call := { s.call with rd } }
    | .sink i x => putSink i x s
    | .bridge ch b => { s with patch := { s.patch with bridges := tset none s.patch.bridges ch b } }
    | .asrc a x => putAsrc a x s
    | .tsel v => { s with mix := { s.mix with tsel := v, tselWas := v } }
    | .scene x => { s with scene := x }
    | .sceneEvt v => setReg Reg.SCENE_EVT v s := by
  unfold resyncFrame
  rw [hs]
  dsimp only
  exact if_neg (by simp [hr])

end Sys2Proof.Machine
end

section
/-! The cutover of a resync (R364, R365): what the patch's own work at it leaves of the copied state. -/

namespace Sys2Proof.Machine

/-- What a resync copies beside memory, and the calls. -/
structure Copied where
  call : CallState
  sinks : Tab Sink
  bridges : Tab (Option Bridge)
  scene : SceneState
  mix : MixState

def copied (s : State) : Copied := ⟨s.call, s.patch.sinks, s.patch.bridges, s.scene, s.mix⟩

theorem RecordsOnly.copied {s t : State} (h : RecordsOnly s t) : copied t = copied s := h.field Machine.copied

theorem detect_copied (alters : Bool) (src : BitVec 16) (code : BitVec 12) (sev : Sev) (info : Word) (cond : Bool) (s : State) :
    copied (detect alters src code sev info cond s).1 = copied s := by
  have hrecord (t : State) : copied (reportI true src code sev info (injFire src code t)) = copied t := (reportI_recordsOnly ..).copied
  unfold detect
  dsimp only
  split_ifs
  · exact ((lapse_recordsOnly ..).copied).trans (hrecord s)
  · exact hrecord s
  · exact (report_recordsOnly ..).copied
  · rfl

theorem noteUe_copied (k : Reader) (a : Nat) (s : State) : copied (noteUe k a s) = copied s := by
  have hlapse (t : State) : copied (if k = .engine then lapse detUncorr t else t) = copied t := by
    split
    · exact (lapse_recordsOnly ..).copied
    · rfl
  refine (hlapse _).trans ?_
  split_ifs <;> rfl

theorem noteCe_copied (a : Nat) (s : State) : copied (noteCe a s) = copied s := by
  unfold noteCe
  split_ifs <;> rfl

theorem eccCheck_copied (k : Reader) (a mark : Nat) (s : State) : copied (eccCheck k a mark s).1 = copied s := by
  unfold eccCheck
  dsimp only
  split_ifs <;> simp [detect_copied, noteUe_copied, noteCe_copied]

theorem readSeq_copied (a n : Nat) (s : State) : copied (readSeq a n s).1 = copied s := by
  induction n generalizing a s with
  | zero => rfl
  | succ n ih => exact (ih ..).trans (eccCheck_copied ..)

theorem publishSrc_copied (h i : Nat) (s : State) : copied (publishSrc h i s) = copied s :=
  readSeq_copied (outAddr s h i) (domN ((srcDom s i).getD 1)) s

theorem foldl_copied {α : Type} {f : State → α → State} (l : List α) (s : State) (h : ∀ s x, copied (f s x) = copied s) :
    copied (l.foldl f s) = copied s :=
  List.foldlRecOn l f (motive := fun t => copied t = copied s) rfl fun t ht x _ => (h t x).trans ht

theorem patchCutover_copied (k : BitVec 64) (s : State) : copied (patchCutover k s) = copied s :=
  (foldl_copied _ _ fun _ _ => publishSrc_copied ..).trans (foldl_copied _ _ fun _ _ => rfl)

theorem patchCutover_steady (k : BitVec 64) (s : State) : steady (patchCutover k s) = steady s := by
  unfold patchCutover
  simp

theorem causeLog_copied (s : State) : copied (causeLog s) = copied s := (causeLog_recordsOnly s).copied

/-! ### The cutover -/

theorem opSet_frame (s : State) : ∃ sys, opSet s = { s with sys } := by
  unfold opSet
  split
  · exact ⟨_, rfl⟩
  · exact ⟨_, rfl⟩

theorem receiptsOwed_none {s : State} (h : s.call.owed = []) : receiptsOwed s = s := by
  rw [receiptsOwed, h, List.foldl_nil, ← h]

/-- A detector that alters nothing and is no cause of self-diagnosis, with whatever slots are armed. -/
theorem twinStat_detect_frame {code : BitVec 12} {sev : Sev} (hd : diagCode code sev = false) (b : Nat) (s : State) : ∃ regs err,
    twinStat b (detect false twinSrc code sev 0#32 true s).1 = { s with regs, err } := by
  unfold detect
  dsimp only
  split
  · obtain ⟨_, _, h⟩ := reportI_frame hd true twinSrc 0#32 (injFire twinSrc code s)
    rw [Bool.and_false, if_neg Bool.false_ne_true, h]
    exact ⟨_, _, rfl⟩
  · obtain ⟨_, _, h⟩ := report_frame hd twinSrc 0#32 s
    rw [if_pos rfl, h]
    exact ⟨_, _, rfl⟩

theorem detBaseline_copied (k : BitVec 64) (s : State) : copied (detBaseline k s) = copied s := rfl

/-- The state before the cutover's own update: its causes logged, the lapse record opened at `k`, the patch read again. -/
def cutoverFrom (k : BitVec 64) (s : State) : State := patchCutover k (detBaseline k (causeLog s))

theorem cutoverFrom_copied (k : BitVec 64) (s : State) : copied (cutoverFrom k s) = copied s := by
  rw [cutoverFrom, patchCutover_copied, detBaseline_copied, causeLog_copied]

theorem cutoverFrom_steady (k : BitVec 64) (s : State) : steady (cutoverFrom k s) = { steady (causeLog s) with detBase := k } := by
  rw [cutoverFrom, patchCutover_steady, detBaseline_steady]

theorem cutoverFrom_detBase (k : BitVec 64) (s : State) : (cutoverFrom k s).eng.detBase = k := by
  have h := cutoverFrom_steady k s
  generalize cutoverFrom k s = t at h ⊢
  exact congrArg Steady.detBase h

theorem cutoverFrom_kept (k : BitVec 64) (s : State) : kept (cutoverFrom k s) = kept s := by
  rw [cutoverFrom, patchCutover_kept, detBaseline_kept, causeLog_kept]

theorem cutoverFrom_mem (k : BitVec 64) (s : State) : (cutoverFrom k s).mem = s.mem := by
  have h := cutoverFrom_kept k s
  generalize cutoverFrom k s = t at h ⊢
  exact congrArg Kept.mem h

/-- The cutover's own update (R364). -/
def cutoverAt (k : BitVec 64) (s : State) : State :=
  { s with
    eng := { s.eng with stroke := k, phase := .waiting, ovrCount := 0 }
    cores := Vector.replicate 128 { run := .asleep }
    mix := { s.mix with tselWas := s.mix.tsel, doneMax := 0 }
    sys := { s.sys with rel := if s.sys.rel = 6 then 7 else s.sys.rel }
    twin := { s.twin with
      last := k, peerSeen := false, expired := false
      rsReset := false, resync := false, rsCut := none, inSync := true, unver := false, commit := k - 1#64, diff := none } }

/-- Beside its record, the operating points and what the snapshots show, a cutover is its own update. -/
theorem resyncCutover_frame {s : State} {k : BitVec 64} (hk : s.twin.rsCut = some k) (hr : s.twin.rsReset = true)
    (hrst : bitAt (reg s Reg.RST_ENG) 0 = false) (hb : s.sys.bootHold = false) (hm : s.sys.modeHold = false) (ho : s.call.owed = []) :
    let u := cutoverAt k (cutoverFrom k s)
    ∃ regs err sys fin, resyncCutover s = { u with regs, err, sys, fin } ∧ fin.sinks = u.patch.sinks := by
  dsimp only
  obtain ⟨regs, err, hevent⟩ := twinStat_detect_frame (code := 0x704#12) (sev := .note) rfl 4 (cutoverAt k (cutoverFrom k s))
  have howed : (cutoverAt k (cutoverFrom k s)).call.owed = [] :=
    (congrArg (fun c : Copied => c.call.owed) (cutoverFrom_copied k s)).trans ho
  have hcut : resyncCutover s =
      let t := twinStat 4 (detect false twinSrc 0x704#12 .note 0#32 true (cutoverAt k (cutoverFrom k s))).1
      receiptsOwed (opSet { t with fin := finView t }) := by
    unfold resyncCutover cutoverAt cutoverFrom
    rw [hk]
    dsimp only
    rw [if_neg (by simp [hr, hrst, hb, hm])]
  rw [hcut, hevent]
  generalize cutoverAt k (cutoverFrom k s) = u at howed
  dsimp only
  obtain ⟨sys, hop⟩ := opSet_frame { u with regs, err, fin := finView { u with regs, err } }
  rw [hop, receiptsOwed_none (s := { u with regs, err, sys, fin := finView { u with regs, err } }) howed]
  exact ⟨regs, err, sys, _, rfl, rfl⟩

end Sys2Proof.Machine
end

section
/-! The link of the twin (R356, R364–R369). -/

open Sys2Proof Sys2Proof.Machine

/-- Settles O42: a resync from its request to the cutover, and what the link's ups and downs, its HELLO and a silent path leave. -/
theorem twinLink : Obligations.TwinLink := by
  intro s hi ht
  refine ⟨fun hr hh hs hu hp hd _ => gives_done rfl (resyncAsk_forced (member_eq_true ht hr) hh hs hu hp hd),
    fun hh _ => gives_done rfl (resyncAsk_holder hh true),
    fun h hg hk hu => ⟨fun hr hh => gives_done rfl ?request, fun hr hh hres => ?reset, fun hr hm => ?items⟩,
    fun k hk hr hrst hb hm ho => ?cutover, fun hu lock => ?down, fun hu hl => ?up, fun hu => ?isDown,
    fun hu => gives_done rfl (twinUp_up hu), fun h image nonce hu hc hk => ?hello, fun p hr hp hs hl hk hq => gives_done rfl ?path⟩
  case request =>
    rw [resyncCtl_good ht hu hg hk, resyncControl, if_pos (by simp [member_eq_true ht hr, hh])]
  case reset =>
    have hctl := (resyncCtl_good ht hu hg hk .resetCmd).trans (resyncControl_reset (member_eq_true ht hr) hh hres)
    refine goes_done rfl hctl ⟨rfl, rfl, ?_⟩
    by_cases hp : s.eng.phase = .held
    · have hheld : (causeSet 0x400#32 s).eng.phase = .held := hp
      rw [engReset_held hheld]
      exact ⟨hp, fun hne => absurd hp hne⟩
    · obtain ⟨hphase, hpend, hmem⟩ := engReset_running (s := causeSet 0x400#32 s) (hi.congr rfl) hp
      exact ⟨hphase, fun _ => ⟨hpend, hmem⟩⟩
  case items =>
    have hitem := resyncFrame_held (shadowFrame_good ht hu hg hk hm) hr
    exact ⟨fun c => gives_done rfl (by rw [resyncCtl_good ht hu hg hk, resyncControl, if_pos hr]),
      fun a bs => gives_done rfl (hitem (.bytes a bs)), fun a bs => gives_done rfl (hitem (.stage a bs)),
      fun ch b => gives_done rfl (hitem (.bridge ch b)), fun a x => gives_done rfl (hitem (.asrc a x)),
      fun v => gives_done rfl (hitem (.sceneEvt v)), fun rd => gives_done rfl (hitem (.callRd rd)),
      fun i x => gives_done rfl (hitem (.sink i x)), fun v => gives_done rfl (hitem (.tsel v)), fun x => gives_done rfl (hitem (.scene x))⟩
  case cutover =>
    obtain ⟨_, _, _, fin, hcut, hsinks⟩ := resyncCutover_frame hk hr hrst hb hm ho
    have hbase := cutoverFrom_detBase k s
    have hmem := cutoverFrom_mem k s
    have hcopied := cutoverFrom_copied k s
    generalize cutoverFrom k s = u at hcut hsinks hbase hmem hcopied
    obtain ⟨hcall, hsink, hbridge, hscene, hmix⟩ := Copied.mk.inj hcopied
    have htsel : u.mix.tsel = s.mix.tsel := congrArg MixState.tsel hmix
    exact goes_done rfl hcut ⟨rfl, rfl, hbase, rfl, rfl, rfl, rfl, rfl, rfl, hmem, hcall, hsink, hbridge, hscene, htsel, hsinks.trans hsink⟩
  case down =>
    intro e he
    have hexec : exec e.1 s = done (twinDown e.2 none s) := by
      rcases List.mem_cons.mp he with rfl | he
      · rfl
      · rw [List.mem_singleton.mp he]
        rfl
    obtain ⟨_, _, hdown⟩ := twinDown_up hi hu e.2
    exact goes_done hexec hdown ⟨rfl, rfl, rfl, rfl, rfl, rfl, rfl, rfl, vget_vput .., rfl, rfl⟩
  case up =>
    obtain ⟨_, hup⟩ := twinUp_down ht hu hl
    exact goes_done rfl hup ⟨rfl, rfl, rfl, rfl, rfl, drawNonce_length s, rfl, rfl⟩
  case isDown =>
    exact List.forall_mem_cons.mpr ⟨gives_done rfl (twinDown_down hu 0#4 none),
      List.forall_mem_singleton.mpr (gives_done rfl (twinDown_down hu 0#4 none))⟩
  case hello =>
    obtain ⟨_, _, _, c, hhello, hdiffers, hsame⟩ := hello_frame hi ht hu hc hk image nonce
    refine goes_done rfl hhello ⟨rfl, rfl, rfl, fun hne hd => ?_, fun heq => ?_⟩
    · exact (congrArg (fun c => s.twin.inSync && !c) (hdiffers hne hd)).trans (Bool.and_false _)
    · exact (congrArg (fun c => s.twin.inSync && !c) (hsame heq)).trans (Bool.and_true _)
  case path =>
    refine (pathLost_silent hi (member_eq_true ht hr) hp hs hl hk hq).trans ?_
    have htwin : (report twinSrc 0x70A#12 .note 0#32 s).twin = s.twin := report_twin rfl ..
    generalize report twinSrc 0x70A#12 .note 0#32 s = u at htwin ⊢
    have hpath : pathAt u p = pathAt s p := by rw [pathAt, htwin, pathAt]
    rw [← hpath]
    rfl
end

section
/-! One step of the machine: it runs the front command, goes on, and keeps the form of the memories (log entries 1 and 2). -/

namespace Sys2Proof.Machine

theorem step_cons {c : Instr} {q : List Instr} {s : State} (h : s.pending = c :: q) : step s = exec c { s with pending := q } := by
  simp only [step, h]

theorem step_nil {s : State} (h : s.pending = []) : step s = .next s := by
  simp only [step, h]

/-- Every command goes on: each arm of `exec` ends in `done`. -/
theorem exec_next (i : Instr) (s : State) : ∃ t, exec i s = .next t := by
  cases i <;> exact ⟨_, rfl⟩

theorem memoryOk_of_ok {q : List Instr} {s : State} (h : Ok q (kept s)) : MemoryOk s := ⟨h.mem, h.stage⟩

end Sys2Proof.Machine
end

section
/-! The step (log entries 1 and 2). -/

open Sys2Proof Sys2Proof.Machine

/-- Settles O58, by the two forms of the queue. -/
theorem stepRunsFront : Obligations.StepRunsFront :=
  ⟨fun _ _ _ => step_cons, fun _ => step_nil⟩

/-- Settles O59, by the form of the queue: what every command keeps (`exec_ok`) holds of the front command, run with the queue's rest. -/
theorem stepKeepsForm : Obligations.StepKeepsForm := by
  intro s ⟨hmem, hstage⟩
  cases hq : s.pending with
  | nil => exact ⟨s, step_nil hq, ⟨hmem, hstage⟩, hq⟩
  | cons c q =>
    have hstart : Ok q (kept { s with pending := q }) := ⟨rfl, hmem, hstage⟩
    obtain ⟨t, ht⟩ := exec_next c { s with pending := q }
    have hend := exec_ok q c _ t hstart ht
    exact ⟨t, (step_cons hq).trans ht, memoryOk_of_ok hend, hend.queue⟩
end

section
/-! Clearing a memory (R382, R390, R470): what it leaves where the list of its bytes has the canonical form, and where it has not. -/

namespace Sys2Proof.Machine

/-- A table in order, without the keys that `p` picks out. -/
theorem tget_filter {α : Type} [DecidableEq α] {d : α} {n : Nat} {t : Tab α} (h : tabFrom d n t = true) (p : Nat → Bool) (i : Nat) :
    tget d (t.filter fun e => !p e.1) i = if p i then d else tget d t i := by
  induction t generalizing n with
  | nil => simp [tget]
  | cons e t ih =>
    obtain ⟨k, v⟩ := e
    simp only [tabFrom, Bool.and_eq_true, decide_eq_true_eq] at h
    obtain ⟨-, ht⟩ := h
    have hbelow : i < k + 1 → tget d t i = d := tget_of_tabFrom ht
    cases hk : p k with
    | true =>
      rw [List.filter_cons_of_neg (by simp [hk]), ih ht]
      by_cases hik : i = k
      · simp [hik, hk]
      · by_cases hlt : i < k
        · simp [tget, hik, hlt, hbelow (by omega)]
        · simp [tget, hik, hlt]
    | false =>
      rw [List.filter_cons_of_pos (by simp [hk]), tget, ih ht, tget]
      by_cases hik : i = k
      · simp [hik, hk]
      · by_cases hlt : i < k
        · simp [hik, hlt]
        · simp [hik, hlt]

/-- A memory of canonical form reads 0 where it is cleared, and as before elsewhere (R382). -/
theorem memGet_zeroWhere {s : State} (h : Memory.wf s.mem = true) (p : Nat → Bool) (a : Nat) :
    memGet (zeroWhere p s).mem a = if p a then 0#8 else memGet s.mem a :=
  tget_filter h p a

/-- A state in SERVICE, Geode being cleared and named by TEST_ARG, whose memory lists the byte at 0 behind one of Geode's: that byte reads 0,
as a search by rising address ends before it. -/
def geodeListedFirst : State :=
  { State.reset with
    mem := [(geodeBase, 1#8), (0, 1#8)]
    regs := [(Reg.TEST_ARG, 7#32)]
    msvc := { clearing := [.geode] }
    sys := { mode := .service } }

theorem geodeListedFirst_noInjection : NoInjection geodeListedFirst := fun src code => by
  simp [injArmed, geodeListedFirst, State.reset, slotNames]

/-- The byte at 0 reads 0, and 1 once Geode's byte has left the list: no clearing of Geode leaves it as it read. -/
theorem geodeListedFirst_uncovered {p : Nat → Bool} {m : List Host.Cell} (hm : m = geodeListedFirst.mem.filter fun e => !p e.1)
    (hgeode : p geodeBase = true) (hzero : p 0 = false) : memGet m 0 ≠ if p 0 then 0#8 else memGet geodeListedFirst.mem 0 := by
  subst hm
  simp [geodeListedFirst, hgeode, hzero, memGet, tget]

end Sys2Proof.Machine
end

section
/-! The service of the memories, and Geode (R378–R382, R390–R394). -/

open Sys2Proof Sys2Proof.Machine

/-- Refutes O49: the statement allows a memory whose list of bytes is out of order. There a clearing of Geode changes what the byte at 0 reads. On
a memory of canonical form a clearing leaves what the statement says (`memGet_zeroWhere`). -/
theorem not_memoryService : ¬ Obligations.MemoryService := by
  intro h
  obtain ⟨hclear, -⟩ := h geodeListedFirst geodeListedFirst_noInjection
  obtain ⟨t, ht, hmem, -⟩ := hclear .geode (List.mem_singleton_self _)
  obtain rfl : settle (memClearDone .geode geodeListedFirst) = t := Host.Outcome.next.inj ht
  exact geodeListedFirst_uncovered (p := inKind .geode) (m := (settle (memClearDone .geode geodeListedFirst)).mem) rfl (by decide) (by decide) (hmem 0)

/-- Refutes O51: the statement allows a memory whose list of bytes is out of order. There the wipe of Geode changes what the byte at 0 reads. On
a memory of canonical form the wipe leaves what the statement says (`memGet_zeroWhere`). -/
theorem not_geodeAndKeys : ¬ Obligations.GeodeAndKeys := by
  intro h
  obtain ⟨-, -, -, -, -, -, hglitch, -⟩ := h geodeListedFirst .sc
  obtain ⟨t, ht, ⟨hmem, -⟩, -⟩ := hglitch
  obtain rfl : settle (geodeWipe 1 geodeListedFirst) = t := Host.Outcome.next.inj ht
  exact geodeListedFirst_uncovered (p := inKind .geode) (m := (settle (geodeWipe 1 geodeListedFirst)).mem) rfl (by decide) (by decide) (hmem 0)

/-- Refutes O57: the statement allows a memory whose list of bytes is out of order. There a MEM_BIST of Geode changes what the byte at 0 reads. On
a memory of canonical form the test leaves what the statement says (`memGet_zeroWhere`). -/
theorem not_injectionAndTests : ¬ Obligations.InjectionAndTests := by
  intro h
  obtain ⟨-, -, -, -, htests⟩ := h geodeListedFirst .sc (by decide)
  obtain ⟨-, -, -, -, hservice, -⟩ := htests rfl
  obtain ⟨-, hbist, -⟩ := hservice rfl rfl
  obtain ⟨t, ht, -, -, hmem, -⟩ := hbist .geode (by decide) (by decide)
  obtain rfl : settle (testRequest 0x10 geodeListedFirst) = t := Host.Outcome.next.inj ht
  exact geodeListedFirst_uncovered (p := inInst .geode 0) (m := (settle (testRequest 0x10 geodeListedFirst)).mem) rfl (by decide) (by decide) (hmem 0)
end

section
/-! The resets of SYSTEM and DEEP reach, and of the engine's (R436–R441): what they leave. -/

namespace Sys2Proof.Machine

/-! ### What runs before a reset of SYSTEM or DEEP reach -/

theorem putRows_frame (rs : List SlateRow) (s : State) :
    ∃ mem ecc, putRows rs s = { s with mem, msvc := { s.msvc with ecc } } := by
  induction rs generalizing s with
  | nil => exact ⟨_, _, rfl⟩
  | cons r rs ih =>
    obtain ⟨mem, ecc, h⟩ := ih (writeBytes r.a r.b s)
    exact ⟨mem, ecc, by rw [putRows, h]; rfl⟩

/-- A STORE that a reset ends changes memory and Slate's own state (R388). -/
theorem storeAbort_frame (s : State) :
    ∃ freeCtr mem ecc slate, storeAbort s = { s with freeCtr, mem, slate, msvc := { s.msvc with ecc } } := by
  unfold storeAbort
  split
  · exact ⟨_, _, _, _, rfl⟩
  · obtain ⟨_, _, h⟩ := putRows_frame _ { s with freeCtr := s.freeCtr + 1 }
    dsimp only
    rw [h]
    exact ⟨_, _, _, _, rfl⟩

theorem storeAbort_idle {s : State} (h : s.slate.run = none) : storeAbort s = s := by
  simp [storeAbort, h]

/-- The calls that a reset ends: those of an engine that is not held (R61). -/
def callsEnded (s : State) : State := if engHeld s then s else callsDiscard s

theorem callsEnded_frame (s : State) : ∃ call, callsEnded s = { s with call } := by
  unfold callsEnded
  split
  · exact ⟨_, rfl⟩
  · exact ⟨_, rfl⟩

theorem callsEnded_running {s : State} (h : s.eng.phase ≠ .held) : callsEnded s = callsDiscard s :=
  if_neg (by simpa [engHeld] using h)

/-! ### The registers that the keel keeps (R440, R455) -/

/-- What the keel's registers are put into, in a table of canonical form: RST_CAUSE comes first. -/
theorem tget_keelRows {t : Tab Word} (h : tabWf 0#32 t = true) (deep : Bool) (cause stat starts aux : Word) :
    let u := tset 0#32 (tset 0#32 t Reg.RST_CAUSE cause) Reg.GEODE_STAT stat
    tget 0#32 (if deep then u else tset 0#32 (tset 0#32 u Reg.RST_FSTART starts) Reg.PWR_AUX aux) Reg.RST_CAUSE = cause := by
  have hgeode : Reg.RST_CAUSE ≠ Reg.GEODE_STAT := by decide
  have hstarts : Reg.RST_CAUSE ≠ Reg.RST_FSTART := by decide
  have haux : Reg.RST_CAUSE ≠ Reg.PWR_AUX := by decide
  have hcause := tset_tabWf (i := Reg.RST_CAUSE) (v := cause) h
  have hkept : tget 0#32 (tset 0#32 (tset 0#32 t Reg.RST_CAUSE cause) Reg.GEODE_STAT stat) Reg.RST_CAUSE = cause := by
    rw [tget_tset hcause, if_neg hgeode, tget_tset h, if_pos rfl]
  cases deep with
  | true => exact hkept
  | false =>
    have hstat := tset_tabWf (i := Reg.GEODE_STAT) (v := stat) hcause
    dsimp only
    rw [if_neg Bool.false_ne_true, tget_tset (tset_tabWf hstat), if_neg haux, tget_tset hstat, if_neg hstarts, hkept]

theorem keelRegs_cause (deep : Bool) (bits : Word) (s : State) :
    tget 0#32 (keelRegs deep bits s) Reg.RST_CAUSE =
      (if deep then reg s Reg.RST_CAUSE &&& 3#32 else reg s Reg.RST_CAUSE) ||| bits :=
  tget_keelRows (State.reset_regs ▸ State.reset_tabWf) ..

/-! ### What such a reset leaves -/

/-- The state that `sysAssert` resets: no call waits and no STORE runs. -/
def beforeFall (s : State) : State := storeAbort (callsEnded s)

/-- The parts of a state that a reset of SYSTEM or DEEP reach reads, beside the memories and the calls. -/
structure SameKeel (s t : State) : Prop where
  regs : t.regs = s.regs
  sys : t.sys = s.sys
  twin : t.twin = s.twin
  geode : t.geode = s.geode

theorem beforeFall_sameKeel (s : State) : SameKeel s (beforeFall s) := by
  obtain ⟨_, hcalls⟩ := callsEnded_frame s
  obtain ⟨_, _, _, _, hstore⟩ := storeAbort_frame (callsEnded s)
  rw [beforeFall, hstore, hcalls]
  exact ⟨rfl, rfl, rfl, rfl⟩

theorem beforeFall_owed {s : State} (h : s.eng.phase ≠ .held) : (beforeFall s).call.owed =
    s.call.owed ++ s.call.pend.map fun p => ⟨p.call.id, stRejected, 6, s.eng.stroke, callIrq p.call⟩ := by
  obtain ⟨_, _, _, _, hstore⟩ := storeAbort_frame (callsEnded s)
  rw [beforeFall, hstore, callsEnded_running h, callsDiscard]

theorem beforeFall_mem {s : State} (h : s.slate.run = none) : (beforeFall s).mem = s.mem := by
  obtain ⟨_, hcalls⟩ := callsEnded_frame s
  rw [beforeFall, storeAbort_idle (by rw [hcalls]; exact h), hcalls]

/-- The state that a reset of SYSTEM or DEEP reach leaves, beside Geode and the memories. -/
def Fell (deep : Bool) (bits : Word) (s t : State) : Prop :=
  reg t Reg.RST_CAUSE = ((if deep then reg s Reg.RST_CAUSE &&& 3#32 else reg s Reg.RST_CAUSE) ||| bits) ∧
  t.sys.newCause = s.sys.newCause ||| bits ∧
  t.sys.rel = (if deep = true ∨ s.sys.rel = 0 then 0 else 1) ∧ t.sys.mode = .recovery ∧ t.sys.bootHold = true ∧ t.sys.fw = false ∧ t.sys.rstout = true ∧
  t.eng.phase = .held ∧ t.eng.img = none ∧ t.call.pend = [] ∧ t.twin.hold = false ∧ t.twin.epoch = (if deep then 0#32 else s.twin.epoch) ∧
  t.sys.straps = s.sys.straps ∧ t.sys.vio.extractLsb' 0 4 = s.sys.vio.extractLsb' 0 4 ∧
  (s.eng.phase ≠ .held → t.call.owed = s.call.owed ++ s.call.pend.map fun p => ⟨p.call.id, stRejected, 6, s.eng.stroke, callIrq p.call⟩)

/-- The same, with Geode kept, and with the memories kept where no STORE runs. -/
def FellPlain (deep : Bool) (bits : Word) (s t : State) : Prop :=
  Fell deep bits s t ∧ t.geode = s.geode ∧ (s.slate.run = none → t.mem = s.mem)

theorem sysAssert_vio (deep : Bool) (bits : Word) (s : State) : (sysAssert deep bits s).sys.vio = s.sys.vio := by
  have hsys := (beforeFall_sameKeel s).sys
  show (beforeFall s).sys.vio = s.sys.vio
  rw [hsys]

theorem sysAssert_straps (deep : Bool) (bits : Word) (s : State) : (sysAssert deep bits s).sys.straps = s.sys.straps := by
  have hsys := (beforeFall_sameKeel s).sys
  show (beforeFall s).sys.straps = s.sys.straps
  rw [hsys]

theorem sysAssert_geode (deep : Bool) (bits : Word) (s : State) : (sysAssert deep bits s).geode = s.geode :=
  (beforeFall_sameKeel s).geode

theorem sysAssert_cause (deep : Bool) (bits : Word) (s : State) : reg (sysAssert deep bits s) Reg.RST_CAUSE =
    (if deep then reg s Reg.RST_CAUSE &&& 3#32 else reg s Reg.RST_CAUSE) ||| bits := by
  have hcause : reg (beforeFall s) Reg.RST_CAUSE = reg s Reg.RST_CAUSE := by rw [reg, (beforeFall_sameKeel s).regs, reg]
  rw [← hcause]
  exact keelRegs_cause deep bits (beforeFall s)

theorem sysAssert_fell (deep : Bool) (bits : Word) (s : State) : Fell deep bits s (sysAssert deep bits s) := by
  obtain ⟨-, hsys, htwin, -⟩ := beforeFall_sameKeel s
  have hrel : (if (deep || decide (s.sys.rel = 0)) = true then 0 else 1) = if deep = true ∨ s.sys.rel = 0 then 0 else 1 := by simp
  exact ⟨sysAssert_cause .., congrArg (fun y : SysState => y.newCause ||| bits) hsys,
    (congrArg (fun y : SysState => if (deep || decide (y.rel = 0)) = true then 0 else 1) hsys).trans hrel,
    rfl, rfl, rfl, rfl, rfl, rfl, rfl, rfl, congrArg (fun x : TwinState => if deep then 0#32 else x.epoch) htwin,
    sysAssert_straps .., congrArg _ (sysAssert_vio ..), beforeFall_owed⟩

theorem sysAssert_plain (deep : Bool) (bits : Word) (s : State) : FellPlain deep bits s (sysAssert deep bits s) :=
  ⟨sysAssert_fell .., sysAssert_geode .., beforeFall_mem⟩

/-- The pins and the thermal latch are set beside it. -/
theorem Fell.pins {deep : Bool} {bits : Word} {s t : State} (h : Fell deep bits s t) (resetN tamper therm thermLog thermInj : Bool) :
    Fell deep bits s (settle { t with sys := { t.sys with resetN, tamper, therm, thermLog, thermInj } }) := h

theorem FellPlain.pins {deep : Bool} {bits : Word} {s t : State} (h : FellPlain deep bits s t) (resetN tamper therm thermLog thermInj : Bool) :
    FellPlain deep bits s (settle { t with sys := { t.sys with resetN, tamper, therm, thermLog, thermInj } }) := h

/-- A reset that a wipe of Geode goes before leaves the same (R390). -/
theorem geodeWipe_fell (bits : Word) (s : State) : Fell false bits s (sysAssert false bits (geodeWipe 0 s)) := by
  have hcause : reg (geodeWipe 0 s) Reg.RST_CAUSE = reg s Reg.RST_CAUSE :=
    reg_orReg_flag (by decide) (by decide) (zeroWhere (inKind .geode) s)
  obtain ⟨hreg, hrest⟩ := sysAssert_fell false bits (geodeWipe 0 s)
  rw [hcause] at hreg
  exact ⟨hreg, hrest⟩

/-! ### RST_ENG (R436) -/

theorem coxEnd_held (s : State) : ∃ twin sys port, coxEnd s = { s with twin, sys, port } ∧ twin.hold = false := by
  obtain ⟨twin, sys, port, h⟩ := coxEnd_frame s
  have htwin : (coxEnd s).twin.hold = false := by
    unfold coxEnd
    dsimp only
    split
    · obtain ⟨_, hd⟩ := setDrive_frame false
        { s with twin := { s.twin with hold := false, offer := none, release := none, yield := none, take := none, expired := false } }
      rw [hd]
    · rfl
  rw [h] at htwin
  exact ⟨twin, sys, port, h, htwin⟩

/-- An engine-reach reset of an engine with no burst in progress: what it changes beside the engine's own state (R436, R347, R412). -/
theorem engReset_stopped {s : State} (hi : NoInjection s) (hp : s.eng.phase ≠ .held) :
    ∃ twin sys port fab banks, engReset none s = { engStopped s with twin, sys, port, fab, banks } ∧ twin.hold = false := by
  have hreset : engReset none s = masterReset .eng memPerform none (coxEnd (engStopped s)) :=
    if_neg (by simpa [engHeld] using hp)
  obtain ⟨twin, sys, port, hcox, hhold⟩ := coxEnd_held (engStopped s)
  obtain ⟨fab, hmaster⟩ := masterReset_idle (s := coxEnd (engStopped s)) (hi.congr (by rw [hcox]; rfl)) .eng memPerform
  exact ⟨twin, sys, port, fab, _, by rw [hreset, hmaster, hcox], hhold⟩

theorem and_one_of_bitAt {v : Word} (h : bitAt v 0 = true) : v &&& 1#32 = 1#32 := by
  rw [bitAt] at h
  rw [BitVec.and_one_eq_setWidth_ofBool_getLsbD, h]
  rfl

theorem rstEng_again {v : Word} {s : State} (h : bitAt v 0 = false ∨ bitAt (reg s Reg.RST_ENG) 0 = true) (prog : Option Burst) :
    rstEngWrite v prog s = setReg Reg.RST_ENG (v &&& 1#32) s :=
  if_neg (by rcases h with h | h <;> simp [h])

theorem rstEng_asserts {v : Word} {s : State} (h : bitAt v 0 = true) (hw : bitAt (reg s Reg.RST_ENG) 0 = false) :
    rstEngWrite v none s = engReset none (causeSet 0x200#32 (setReg Reg.RST_ENG 1#32 s)) := by
  simp [rstEngWrite, h, hw, and_one_of_bitAt h]

/-! ### Pulses of the reset pins (R439) -/

theorem pulsePasses_long {ns : Nat} (h : 1000 ≤ ns) (s : State) : pulsePasses ns s = true := by
  simp [pulsePasses, h]

theorem pulsePasses_short {ns : Nat} (h : ns < 100) (s : State) : pulsePasses ns s = false := by
  simp [pulsePasses, show ¬ 1000 ≤ ns by omega, show ¬ 100 ≤ ns by omega]

theorem resetPulse_dormant {s : State} (h : s.sys.mode = .dormant) (ns : Nat) (low : Bool) : resetPulse ns low s = s := by
  simp [resetPulse, h]

theorem resetPulse_long {ns : Nat} {s : State} (h : 1000 ≤ ns) (hm : s.sys.mode ≠ .dormant) (hr : s.sys.resetN = false) (low : Bool) :
    resetPulse ns low s =
      let t := sysAssert false 4#32 { s with freeCtr := s.freeCtr + 1 }
      { t with sys := { t.sys with resetN := low } } := by
  simp [resetPulse, hm, hr, pulsePasses_long h]

theorem resetPulse_short {ns : Nat} {s : State} (h : ns < 100) (hm : s.sys.mode ≠ .dormant) (hr : s.sys.resetN = false) (low : Bool) :
    resetPulse ns low s = { s with freeCtr := s.freeCtr + 1 } := by
  simp [resetPulse, hm, hr, pulsePasses_short h]

theorem tamperPulse_long {ns : Nat} {s : State} (h : 1000 ≤ ns) (hm : s.sys.mode ≠ .dormant) (ht : s.sys.tamper = false) (low : Bool) :
    tamperPulse ns low s =
      let t := sysAssert false 16#32 (geodeWipe 0 { s with freeCtr := s.freeCtr + 1 })
      { t with sys := { t.sys with tamper := low } } := by
  have hmode : (geodeWipe 0 { s with freeCtr := s.freeCtr + 1 }).sys.mode = s.sys.mode := rfl
  simp [tamperPulse, hm, ht, pulsePasses_long h, hmode]

/-- A thermal trip with no slot armed for it resets the device (R428). -/
theorem thermTrip_resets {s : State} (hi : NoInjection s) :
    thermTrip s =
      let t := sysAssert false 0x80#32 s
      { t with sys := { t.sys with therm := true, thermLog := true, thermInj := false } } := by
  simp [thermTrip, hi powSrc 0x806#12]

end Sys2Proof.Machine
end

section
/-! The reset sources (R427, R436–R442). -/

open Sys2Proof Sys2Proof.Machine

/-- Settles O52: each source runs `sysAssert`, whose fields `sysAssert_plain` gives; RST_ENG runs the engine's reset. -/
theorem resetSources : Obligations.ResetSources := by
  intro s hi
  have plain (deep : Bool) (bits : Word) : FellPlain deep bits s (settle (sysAssert deep bits s)) := sysAssert_plain deep bits s
  refine ⟨⟨_, rfl, plain ..⟩, ⟨_, rfl, plain ..⟩, goes_done rfl (thermTrip_resets hi) ⟨(sysAssert_plain false 0x80#32 s).pins .., rfl, rfl, rfl⟩, ?_, ?_, ?_, ?_, ?_, ?_, ?_, ?_,
    ?_, ?_⟩
  · intro hm
    refine ⟨goes_done rfl (if_neg (by simpa using hm)) (plain ..), fun ns low hn hr => ?_, fun ns low hn ht => ?_⟩
    · exact goes_done rfl (resetPulse_long hn hm hr low) ⟨(sysAssert_plain false 4#32 { s with freeCtr := s.freeCtr + 1 }).pins .., rfl⟩
    · refine goes_done rfl (tamperPulse_long hn hm ht low) ⟨(geodeWipe_fell 16#32 { s with freeCtr := s.freeCtr + 1 }).pins .., rfl, ?_⟩
      obtain ⟨-, hgeode, -⟩ := sysAssert_plain false 16#32 (geodeWipe 0 { s with freeCtr := s.freeCtr + 1 })
      exact ⟨congrArg GeodeState.root hgeode, congrArg GeodeState.idKey hgeode, congrArg GeodeState.keys hgeode, congrArg GeodeState.wipeLog hgeode⟩
  · intro hm
    refine ⟨gives_done rfl (if_pos (by simp [hm])), fun ns low => gives_done rfl (resetPulse_dormant hm ns low), ?_⟩
    exact goes_done rfl (show wakeUp s = sysAssert false 0x100#32 s by simp [wakeUp, hm]) (plain ..)
  · intro hd hr
    refine gives_done rfl ?_
    unfold wakeUp
    split
    · contradiction
    · contradiction
    · rfl
  · exact fun ns low hn hm hr => gives_done rfl (resetPulse_short hn hm hr low)
  · exact fun m v => ⟨fun hv => gives_done rfl (if_pos hv), fun hv => goes_done rfl (if_neg hv) (plain ..)⟩
  · exact fun hen => goes_done rfl (if_pos hen) (plain ..)
  · exact fun hen => gives_done rfl (if_neg (by simp [hen]))
  · exact fun m v => gives_done rfl rfl
  · exact fun m v => ⟨fun hk => goes_done rfl (if_pos hk) (plain ..), fun hk => gives_done rfl (if_neg hk)⟩
  · intro m v
    refine ⟨fun h => gives_done rfl (rstEng_again h none), fun hv hr hp hw => ?_⟩
    obtain ⟨_, _, _, _, _, hreset, hhold⟩ := engReset_stopped (s := causeSet 0x200#32 (setReg Reg.RST_ENG 1#32 s)) (hi.congr rfl) hp
    refine goes_done rfl ((rstEng_asserts hv hr).trans hreset) ⟨rfl, rfl, hhold, rfl, rfl, rfl, rfl, ?_, ?_, rfl⟩
    · have hreg : reg (setReg Reg.RST_ENG 1#32 s) Reg.RST_ENG = 1#32 := (tget_tset hw).trans (if_pos rfl)
      exact (reg_orReg_flag (by decide) (i := 9) (by decide) (setReg Reg.RST_ENG 1#32 s)).trans hreg
    · have hreg : reg (setReg Reg.RST_ENG 1#32 s) Reg.RST_CAUSE = reg s Reg.RST_CAUSE := tget_tset_ne (by decide) (by decide) s.regs
      exact ((reg_orReg (tset_tabWf hw) Reg.RST_CAUSE Reg.RST_CAUSE 0x200#32).trans (if_pos rfl)).trans (congrArg (· ||| 0x200#32) hreg)
end

section
/-! The supply's events, the auxiliary outputs and the I/O banks (R428, R429, R493): what each gives where no slot is armed for it. -/

namespace Sys2Proof.Machine

theorem detectTimed_found {alters : Bool} {src : BitVec 16} {code : BitVec 12} {sev : Sev} {info : Word} {s : State} (hi : NoInjection s) :
    detectTimed alters src code sev info s = (report src code sev info s, true) :=
  detect_found hi (by rw [hi src code]; rfl)

theorem supplyEvent_reports {s : State} (hi : NoInjection s) (code : BitVec 12) (sev : Sev) (bit : Nat) :
    supplyEvent code sev bit s = orReg Reg.PWR_STAT (flag true bit) (report powSrc code sev 0#32 s) := by
  rw [supplyEvent, detectTimed_found hi]
  rfl

theorem auxOverload_off {s : State} {b : Bool}
    (h : bitAt (reg s Reg.PWR_AUX) (if b then 1 else 0) = false ∨ s.sys.mode = .dormant ∨ s.sys.mode = .retain) : auxOverload b s = s :=
  if_pos (by rcases h with h | h | h <;> simp [auxOn, h])

theorem bitAt_flag {i : Nat} (h : i < 32) : bitAt (flag true i) i = true := by
  show (BitVec.ofNat 32 (2 ^ i)).getLsbD i = true
  rw [BitVec.getLsbD_ofNat, Nat.testBit_two_pow_self, decide_eq_true h]
  rfl

/-- Auxiliary output `n` switched off, with its bit of PWR_STAT. -/
def auxOff (n : Nat) (s : State) : State :=
  orReg Reg.PWR_STAT (flag true (3 + n)) (setReg Reg.PWR_AUX (reg s Reg.PWR_AUX &&& ~~~flag true n) s)

theorem auxOff_enables {n : Nat} (hn : 3 + n < 32) {s : State} (hw : tabWf 0#32 s.regs = true) :
    reg (auxOff n s) Reg.PWR_AUX = reg s Reg.PWR_AUX &&& ~~~flag true n :=
  (reg_orReg_flag hn (by decide) (setReg Reg.PWR_AUX (reg s Reg.PWR_AUX &&& ~~~flag true n) s)).trans ((tget_tset hw).trans (if_pos rfl))

theorem auxOff_stat {n : Nat} (hn : 3 + n < 32) {s : State} (hw : tabWf 0#32 s.regs = true) :
    bitAt (reg (auxOff n s) Reg.PWR_STAT) (3 + n) = true :=
  bitAt_orReg (s := setReg Reg.PWR_AUX (reg s Reg.PWR_AUX &&& ~~~flag true n) s) (tset_tabWf hw) (bitAt_flag hn)

theorem auxOff_err (n : Nat) (s : State) : (auxOff n s).err = s.err := rfl

theorem auxOverload_on {s : State} (hi : NoInjection s) {b : Bool} (h : bitAt (reg s Reg.PWR_AUX) (if b then 1 else 0) = true)
    (hd : s.sys.mode ≠ .dormant) (hr : s.sys.mode ≠ .retain) :
    auxOverload b s = auxOff (if b then 1 else 0) (report powSrc 0x803#12 .degrade 0#32 s) := by
  simp [auxOverload, auxOn, h, hd, hr, detectTimed_found hi, auxOff]

/-- A bank without supply: its class read anew, and its ports' outputs Hi-Z (R493). -/
def bankDown (b : Nat) (s : State) : State :=
  { s with
    freeCtr := s.freeCtr + 1
    sys := { s.sys with vio := s.sys.vio ||| BitVec.ofNat 6 (2 ^ b), vioCls := vput s.sys.vioCls b (Config.vioLowClass s.freeCtr % 4) }
    port := { s.port with ports := vmap (fun p x =>
      if p / 16 = b then { x with emit := x.emit.map fun e => { e with drive := false } } else x) s.port.ports } }

/-- The record of a bank whose supply is low, its bit of PIN_STAT, then the bank's state. -/
def bankFails (b : Nat) (s : State) : State :=
  bankDown b (orReg Reg.PIN_STAT (flag true b) (report (sysSrc 6 (b + 1)) 0x807#12 .fault 0#32 s))

theorem bankDown_err (b : Nat) (s : State) : (bankDown b s).err = s.err := rfl
theorem bankDown_mem (b : Nat) (s : State) : (bankDown b s).mem = s.mem := rfl
theorem bankDown_mode (b : Nat) (s : State) : (bankDown b s).sys.mode = s.sys.mode := rfl
theorem bankDown_vio (b : Nat) (s : State) : (bankDown b s).sys.vio = s.sys.vio ||| BitVec.ofNat 6 (2 ^ b) := rfl
theorem bankDown_reg (b off : Nat) (s : State) : reg (bankDown b s) off = reg s off := rfl

theorem bankFails_recorded (b : Nat) (s : State) : (bankFails b s).err = (report (sysSrc 6 (b + 1)) 0x807#12 .fault 0#32 s).err := by
  rw [bankFails, bankDown_err, orReg_err]

theorem bankFails_mem (b : Nat) (s : State) : (bankFails b s).mem = s.mem := by
  rw [bankFails, bankDown_mem, orReg_mem, (report_recordsOnly ..).mem]

theorem bankFails_vio (b : Nat) (s : State) : (bankFails b s).sys.vio = s.sys.vio ||| BitVec.ofNat 6 (2 ^ b) := by
  rw [bankFails, bankDown_vio, orReg_sys, (report_recordsOnly ..).sys]

theorem bankFails_mode (b : Nat) (s : State) : (bankFails b s).sys.mode = s.sys.mode := by
  rw [bankFails, bankDown_mode, orReg_sys, (report_recordsOnly ..).sys]

theorem bankFails_cause {b : Nat} (hb : b < 32) (s : State) : reg (bankFails b s) Reg.RST_CAUSE = reg s Reg.RST_CAUSE := by
  have hother : Reg.RST_CAUSE ≠ Reg.PIN_STAT := by decide
  have hkept : Reg.RST_CAUSE ≠ Reg.ERR_STAT := by decide
  rw [bankFails, bankDown_reg, reg_orReg_flag hb hother, reg_report hkept]

theorem bankFails_stat {b : Nat} (hb : b < 32) {s : State} (hw : tabWf 0#32 s.regs = true) : bitAt (reg (bankFails b s) Reg.PIN_STAT) b = true := by
  rw [bankFails, bankDown_reg]
  exact bitAt_orReg ((reportI_keepsRegs ..).table hw) (bitAt_flag hb)

theorem vioLow_found {s : State} (hi : NoInjection s) (b : Nat) :
    vioLow b s =
      if decide (b = 4) && (bankFails b s).sys.mode != .dormant then
        let t := sysAssert false 4#32 (bankFails b s)
        { t with sys := { t.sys with resetN := true } }
      else bankFails b s := by
  rw [vioLow, detectTimed_found hi]
  rfl

theorem vioLow_plain {s : State} (hi : NoInjection s) {b : Nat} (hb : b ≠ 4) : vioLow b s = bankFails b s := by
  rw [vioLow_found hi, if_neg (by simp [hb])]

theorem vioRestore_up (b : Nat) (cls : BitVec 2) (s : State) :
    vioRestore b cls s = { s with sys := { s.sys with
      vio := s.sys.vio &&& ~~~BitVec.ofNat 6 (2 ^ b), vioCls := vput s.sys.vioCls b cls.toNat
      resetN := if b = 4 ∧ s.sys.vio.getLsbD 4 = true then false else s.sys.resetN } } := by
  have hreset : (s.sys.resetN && !(b == 4 && s.sys.vio.getLsbD b)) = if b = 4 ∧ s.sys.vio.getLsbD 4 = true then false else s.sys.resetN := by
    by_cases hb : b = 4
    · subst hb
      cases s.sys.vio.getLsbD 4 <;> simp
    · simp [hb]
  rw [vioRestore, hreset]

/-- VIO5's bank holds RESET_N: its fall resets the device (R493, log entry 91). -/
theorem vioLow_resets {s : State} (hi : NoInjection s) (hm : s.sys.mode ≠ .dormant) :
    vioLow 4 s =
      let t := sysAssert false 4#32 (bankFails 4 s)
      { t with sys := { t.sys with resetN := true } } := by
  rw [vioLow_found hi, if_pos (by simp [bankFails_mode, hm])]

end Sys2Proof.Machine
end

section
/-! The supply, the auxiliary outputs and the I/O banks (R428, R429, R454, R493). -/

open Sys2Proof Sys2Proof.Machine

/-- Settles O54, source by source: each makes its record and then its state. -/
theorem supplyAndBanks : Obligations.SupplyAndBanks := by
  intro s hi
  refine ⟨?_, fun b h => gives_done rfl (auxOverload_off h), ?_, fun m v => gives_done rfl rfl, fun mv tj mw => gives_done rfl rfl, ?_, ?_, ?_⟩
  · have gives {i : Instr} {code : BitVec 12} {sev : Sev} {w : Word} (bit : Nat) (he : exec i s = done (supplyEvent code sev bit s))
        (hw : flag true bit = w) : Gives i s (orReg Reg.PWR_STAT w (report (sysSrc 6 0) code sev 0#32 s)) :=
      hw ▸ gives_done he (supplyEvent_reports hi code sev bit)
    simp only [List.forall_mem_cons]
    exact ⟨gives 0 rfl rfl, gives 1 rfl rfl, gives 2 rfl rfl, gives 5 rfl rfl, gives 6 rfl rfl, List.forall_mem_nil _⟩
  · intro b hb hd hr hw
    have hreport : tabWf 0#32 (report powSrc 0x803#12 .degrade 0#32 s).regs = true := (reportI_keepsRegs ..).table hw
    have haux := reg_report (off := Reg.PWR_AUX) (by decide) powSrc 0x803#12 .degrade 0#32 s
    refine goes_done rfl (auxOverload_on hi hb hd hr) ?_
    rw [settle_reg, settle_reg, settle_err, auxOff_err, auxOff_enables (by cases b <;> decide) hreport, haux]
    cases b with
    | true => exact ⟨rfl, auxOff_stat (by decide) hreport, rfl⟩
    | false => exact ⟨rfl, auxOff_stat (by decide) hreport, rfl⟩
  · intro b hb
    refine goes_done rfl (vioLow_plain hi hb) ?_
    rw [settle_sys, settle_mem, settle_reg, settle_err]
    exact ⟨bankFails_vio .., bankFails_mem .., bankFails_stat (by omega), bankFails_recorded ..⟩
  · intro hm
    have hvio : (sysAssert false 4#32 (bankFails 4 s)).sys.vio = s.sys.vio ||| 16#6 := by rw [sysAssert_vio, bankFails_vio]; rfl
    have hcause : reg (sysAssert false 4#32 (bankFails 4 s)) Reg.RST_CAUSE = reg s Reg.RST_CAUSE ||| 4#32 := by
      rw [sysAssert_cause, bankFails_cause (by decide)]
      rfl
    have hphase : (sysAssert false 4#32 (bankFails 4 s)).eng.phase = .held := rfl
    refine goes_done rfl (vioLow_resets hi hm) ?_
    generalize sysAssert false 4#32 (bankFails 4 s) = t at hphase hvio hcause ⊢
    exact ⟨rfl, hphase, hvio, hcause⟩
  · intro b cls
    exact gives_done rfl (vioRestore_up b.val cls s)
end

section
/-! The fabric where nothing waits (R402–R410): how a burst goes from its master to its target and back. -/

namespace Sys2Proof.Machine

/-! ### Waiting -/

theorem runWaiting_idle {s : State} (h : s.fab.wait = []) : runWaiting s = s := by
  rw [runWaiting, h, List.foldl_nil]

theorem busDone_idle {s : State} (h : s.fab.wait = []) : busDone s = done s := by
  rw [busDone, runWaiting_idle h]

theorem portBusy_idle {s : State} (h : BusIdle s) (b : Burst) : portBusy s b = false := by
  unfold portBusy
  rw [h.collided, List.any_nil, Bool.or_false, Bool.and_eq_false_iff]
  right
  split
  · simp [h.lock]
  · rfl

theorem busBlocked_idle {s : State} (h : BusIdle s) (i : Instr) : busBlocked i s = false := by
  simp [busBlocked, waitsBefore, h.wait, h.collided, portBusy_idle h]

theorem busRun_idle {s : State} (h : BusIdle s) (i : Instr) : busRun i s = busDo i s :=
  if_neg (by simp [busBlocked_idle h])

/-- What a command of the fabric gives where nothing waits, before it and after it. -/
theorem gives_bus {i : Instr} {s t : State} (h : BusIdle s) (he : exec i s = busDone (busRun i s)) (hd : busDo i s = t) (ht : t.fab.wait = []) :
    Gives i s t := by
  rw [Gives, he, busRun_idle h, hd, busDone_idle ht, done_eq]

/-! ### Locks -/

theorem vmap_same {α : Type} {n : Nat} {f : Nat → α → α} {v : Vector α n} (h : ∀ i (hi : i < n), f i v[i] = v[i]) : vmap f v = v := by
  refine Vector.ext fun i hi => ?_
  simpa [vmap] using h i hi

theorem freeLocks_none {s : State} (h : ∀ i, lockAt s i = none) (m : Master) : freeLocks m s = s := by
  have hlock : vmap (fun _ x => if x = some (mNum m) then none else x) s.fab.lock = s.fab.lock :=
    vmap_same fun i hi => by
      have hnone : s.fab.lock[i] = none := by simpa [lockAt, vget, hi] using h i
      simp [hnone]
  rw [freeLocks, hlock]

theorem endSequence_idle {s : State} (h : ∀ i, lockAt s i = none) (b : Burst) (lock : Bool) : endSequence b lock s = s := by
  rw [endSequence, freeLocks_none h, ite_self]

theorem endSequence_frame (b : Burst) (lock : Bool) (s : State) :
    ∃ v, endSequence b lock s = { s with fab := { s.fab with lock := v } } := by
  unfold endSequence
  split
  · exact ⟨_, rfl⟩
  · exact ⟨_, rfl⟩

theorem hostAttr_idle {s : State} (h : lockLen s = 0) (b : Burst) : hostAttr b s = (s, b.lock && lockMaster b.master) :=
  if_neg fun ⟨_, _, _, hlen⟩ => hlen h

theorem hostNote_other {b : Burst} (h : b.master ≠ .host) (r : BitVec 2) (s : State) : hostNote b r s = s :=
  if_pos (Or.inl h)

theorem hostNote_pass (b : Burst) (s : State) : hostNote b rPass s = s :=
  if_pos (Or.inr rfl)

/-! ### A burst that its target serves -/

/-- The port takes the burst: whose turn it is next, and the burst noted (R408, R423). -/
def portTaken (b : Burst) (s : State) : State := noteBurst b (granted b s)

theorem granted_frame (b : Burst) (s : State) :
    ∃ last taken, granted b s = { s with fab := { s.fab with last, taken } } := by
  unfold granted
  split
  · exact ⟨_, _, rfl⟩
  · exact ⟨_, _, rfl⟩

theorem portTaken_frame (b : Burst) (s : State) :
    ∃ last taken lastAddr lastWr, portTaken b s = { s with fab := { s.fab with last, taken, lastAddr, lastWr } } := by
  obtain ⟨_, _, h⟩ := granted_frame b s
  unfold portTaken noteBurst
  rw [h]
  split
  · exact ⟨_, _, _, _, rfl⟩
  · exact ⟨_, _, _, _, rfl⟩

theorem portTaken_noInjection {s : State} (h : NoInjection s) (b : Burst) : NoInjection (portTaken b s) := by
  obtain ⟨_, _, _, _, hp⟩ := portTaken_frame b s
  exact h.congr (by rw [hp])

theorem portTaken_lock (b : Burst) (s : State) : (portTaken b s).fab.lock = s.fab.lock := by
  obtain ⟨_, _, _, _, h⟩ := portTaken_frame b s
  rw [h]

theorem portTaken_wait (b : Burst) (s : State) : (portTaken b s).fab.wait = s.fab.wait := by
  obtain ⟨_, _, _, _, h⟩ := portTaken_frame b s
  rw [h]

theorem decodeBurst_target {s : State} (hi : NoInjection s) {b : Burst} (h : noTarget s b = false) : decodeBurst b s = (s, false) := by
  simp [decodeBurst, h, detect_clear hi]

theorem decodeBurst_none {s : State} (hi : NoInjection s) {b : Burst} (h : noTarget s b = true) : decodeBurst b s =
    (noteUnmapped b.master (targetOf b.addr.toNat) b.write b.addr.toNat (report (fabSrc b.master) 0x100#12 .note 0#32 s), true) := by
  simp [decodeBurst, h, detect_found hi]

theorem busServe_malformed {b : Burst} (h : burstOk b = false ∨ burst4k b = true) (s : State) : busServe b s = (⟨s, rRefused, []⟩, true) :=
  if_pos (by rcases h with h | h <;> simp [h])

theorem busServe_unmapped {s : State} (hi : NoInjection s) {b : Burst} (hok : burstOk b = true) (h4 : burst4k b = false) (h : noTarget s b = true) :
    busServe b s = (⟨noteUnmapped b.master (targetOf b.addr.toNat) b.write b.addr.toNat (report (fabSrc b.master) 0x100#12 .note 0#32 s),
      rUnmapped, []⟩, true) := by
  simp [busServe, hok, h4, decodeBurst_none hi h]

/-- A burst out of sequence is answered by its target, and leaves the locks as they are. -/
theorem busServe_served {s : State} (h : BusIdle s) {b : Burst} (hok : burstOk b = true) (h4 : burst4k b = false) (ht : noTarget s b = false)
    (hl : b.lock = false) {a : Answer} (ha : targetServe b (portTaken b s) = (a, true)) (hf : a.s.fab.lock = s.fab.lock) :
    busServe b s = (a, true) := by
  have hsame : { b with lock := false } = b := by rw [← hl]
  have hlen : lockLen (portTaken b s) = 0 := by
    obtain ⟨_, _, _, _, hp⟩ := portTaken_frame b s
    rw [hp]
    exact h.len
  have hend : endSequence b false a.s = a.s := endSequence_idle (fun i => by rw [lockAt, hf]; exact h.lock i) b false
  have hform : (!burstOk b || burst4k b) = false := by simp [hok, h4]
  have hserve : busServe b s = lockServe b false (portTaken b s) := by
    simp only [busServe, hform, decodeBurst_target h.inj ht, Bool.false_eq_true, if_false]
    rw [← portTaken, hostAttr_idle hlen, hl, Bool.false_and]
  rw [hserve, lockServe]
  simp only [Bool.false_eq_true, if_false, Bool.not_true]
  rw [hsame, ha, if_pos rfl, hend]

/-! ### The answer as bytes -/

theorem answerBytes_none (b : Burst) (s : State) (r : BitVec 2) : answerBytes b ⟨s, r, []⟩ = List.replicate (16 * b.beats.length) 0#8 := by
  have hzero (n : Nat) : (List.range n).flatMap (fun _ => leBytes 0#32) = List.replicate (4 * n) 0#8 := by
    induction n with
    | zero => rfl
    | succ n ih =>
      rw [List.range_succ, List.flatMap_append, ih, Nat.mul_succ, List.replicate_add]
      rfl
  rw [show 16 * b.beats.length = 4 * (4 * b.beats.length) by omega, ← hzero]
  rfl

theorem answerBytes_unserved (b : Burst) (s : State) (r : BitVec 2) : (if b.write then [] else answerBytes b ⟨s, r, []⟩) = noData b := by
  rw [answerBytes_none, noData]

end Sys2Proof.Machine
end

section
/-! Bursts at central memory (R372, R403–R406): what a good one reads and writes, and what refuses a write. -/

namespace Sys2Proof.Machine

theorem fabricBurst_served {s : State} {b : Burst} {a : Answer} (hm : b.master ≠ .host) (h : busServe b s = (a, true)) :
    fabricBurst b s = emit (.fabric b.master a.resp (if b.write then [] else answerBytes b a)) a.s := by
  simp [fabricBurst, h, hostNote_other hm]

theorem pathOf_central (lc : Nat) (m : Master) : pathOf lc m 0 = .rw := by
  cases m <;> rfl

theorem noTarget_central {b : Burst} (h : targetOf b.addr.toNat = 0) (s : State) : noTarget s b = false := by
  simp [noTarget, h, pathOf_central]

theorem targetServe_read {b : Burst} (h : targetOf b.addr.toNat = 0) (hw : b.write = false) (s : State) : targetServe b s = (memRead b s, true) := by
  simp [targetServe, memServe, h, pathOf_central, hw]

theorem targetServe_write {b : Burst} {s t : State} {r : BitVec 2} (h : targetOf b.addr.toNat = 0) (hw : b.write = true)
    (hm : memWrite b s = (t, some r)) : targetServe b s = (⟨t, r, []⟩, true) := by
  simp [targetServe, memServe, h, pathOf_central, hw, hm]

theorem fabCapture_frame (m : Master) (t : Nat) (r : BitVec 2) (write : Bool) (a : Nat) (s : State) :
    ∃ info addr, fabCapture m t r write a s = { s with fab := { s.fab with info, addr } } := by
  unfold fabCapture
  split
  · exact ⟨_, _, rfl⟩
  · exact ⟨_, _, rfl⟩

theorem noteUnmapped_wait (m : Master) (t : Nat) (write : Bool) (a : Nat) (s : State) : (noteUnmapped m t write a s).fab.wait = s.fab.wait := by
  obtain ⟨_, _, h⟩ := fabCapture_frame m t rUnmapped write a s
  unfold noteUnmapped
  rw [h]
  rfl

theorem RecordsOnly.fab {s t : State} (h : RecordsOnly s t) : t.fab = s.fab := h.field State.fab

/-! ### Reads -/

theorem readBeats_good {s : State} (hi : NoInjection s) (m : Master) {ws : List BusWord} (h : ∀ w ∈ ws, isMeterWord w.a = false ∧ Good s w.a) :
    readBeats m ws s = (s, ws.map fun w => (w.a, memWord s.mem w.a), false) := by
  induction ws with
  | nil => rfl
  | cons w ws ih =>
    obtain ⟨hmeter, hgood⟩ := h w (List.mem_cons_self ..)
    have hrest := ih fun v hv => h v (List.mem_cons_of_mem _ hv)
    simp [readBeats, hmeter, readWord_good hi hgood, hrest]

theorem memRead_good {s : State} (hi : NoInjection s) {b : Burst}
    (ho : ∀ w ∈ burstWords b, clearingAt s w.a = false ∧ closedAt s b.master false w.a = false)
    (h : ∀ w ∈ burstWords b, isMeterWord w.a = false ∧ Good s w.a) :
    memRead b s = ⟨s, rPass, (burstWords b).map fun w => (w.a, memWord s.mem w.a)⟩ := by
  have hopen : ((burstWords b).any fun w => clearingAt s w.a || closedAt s b.master false w.a) = false :=
    List.any_eq_false.mpr fun w hw => by simp [ho w hw]
  simp [memRead, hopen, readBeats_good hi _ h]

/-! ### What judges a write (R31, R32) -/

theorem judgeWrite_passes {s : State} (hi : NoInjection s) {m : Master} {ws : List BusWord}
    (ho : ∀ w ∈ ws, clearingAt s w.a = false ∧ closedAt s m true w.a = false) (ha : ∀ w ∈ ws, armedAt s w.a = false)
    (hg : guardedMaster m = false ∨ ∀ w ∈ ws, ownedAt s w.a = false) : judgeWrite m ws s = (s, true) := by
  have hopen : (ws.any fun w => clearingAt s w.a || closedAt s m true w.a) = false :=
    List.any_eq_false.mpr fun w hw => by simp [ho w hw]
  have harmed : (ws.find? fun w => armedAt s w.a) = none := List.find?_eq_none.mpr fun w hw => by simp [ha w hw]
  have hbad : (if guardedMaster m then ws.find? fun w => ownedAt s w.a else none) = none := by
    rcases hg with hg | hg
    · simp [hg]
    · rw [List.find?_eq_none.mpr fun w hw => by simp [hg w hw], ite_self]
  simp [judgeWrite, hopen, harmed, hbad, detect_clear hi]

/-- ENGINE_OWNED refuses the burst, with a record that names its first such word (R32). -/
theorem judgeWrite_owned {s : State} (hi : NoInjection s) {m : Master} {ws : List BusWord}
    (ho : ∀ w ∈ ws, clearingAt s w.a = false ∧ closedAt s m true w.a = false) (ha : ∀ w ∈ ws, armedAt s w.a = false)
    (hg : guardedMaster m = true) (hs : s.sys.mode ≠ .service) {w : BusWord} (hw : (ws.find? fun w => ownedAt s w.a) = some w) :
    judgeWrite m ws s = (report (fabSrc m) 0x305#12 .note (wOf (w.a / 16)) s, false) := by
  have hopen : (ws.any fun w => clearingAt s w.a || closedAt s m true w.a) = false :=
    List.any_eq_false.mpr fun w hw => by simp [ho w hw]
  have harmed : (ws.find? fun w => armedAt s w.a) = none := List.find?_eq_none.mpr fun w hw => by simp [ha w hw]
  simp [judgeWrite, hopen, harmed, hg, hw, hs, detect_clear hi, detect_found hi, infoAddr]

/-! ### Writes of whole words -/

theorem targetOf_isProg {a : Nat} (h : isProg a = true) : targetOf a = 2 := by
  simp only [isProg, Bool.and_eq_true, decide_eq_true_eq] at h
  obtain ⟨⟨hlo, hhi⟩, -⟩ := h
  unfold targetOf
  simp only [coreBase, geodeBase] at hlo hhi
  repeat' split
  all_goals omega

theorem writeWordsIn_central (all : List BusWord) {ws : List BusWord} (h : ∀ w ∈ ws, w.en = 15#4 ∧ targetOf w.a = 0) (s : State) :
    writeWordsIn all ws s = (ws.foldl (fun t w => writeWord w.a w.d t) s, true) := by
  induction ws generalizing s with
  | nil => rfl
  | cons w ws ih =>
    obtain ⟨hen, ht⟩ := h w (List.mem_cons_self ..)
    have hprog : isProg w.a = false := Bool.eq_false_iff.mpr fun hp => by
      have := targetOf_isProg hp
      omega
    have hword : writeBusWord all w s = (writeWord w.a w.d s, true) := by
      simp [writeBusWord, wholeWord, hen, hprog, putBusWord, ht]
    rw [writeWordsIn, hword]
    exact ih (fun v hv => h v (List.mem_cons_of_mem _ hv)) _

theorem writeWords_fold_fab (ws : List BusWord) (s : State) : (ws.foldl (fun t w => writeWord w.a w.d t) s).fab = s.fab := by
  induction ws generalizing s with
  | nil => rfl
  | cons w ws ih => exact ih _

/-- A write burst that is judged well and does not collide is performed whole. -/
theorem memWrite_performed {s : State} (hi : NoInjection s) {b : Burst} (hj : judgeWrite b.master (burstWords b) s = (s, true))
    (hc : b.collides = false) (h : ∀ w ∈ burstWords b, w.en = 15#4 ∧ targetOf w.a = 0) :
    memWrite b s = ((burstWords b).foldl (fun t w => writeWord w.a w.d t) s, some rPass) := by
  have hbeats (t : State) : writeBeats (burstWords b) t = ((burstWords b).foldl (fun t w => writeWord w.a w.d t) t, true) :=
    writeWordsIn_central _ h t
  have hperform (t : State) : writePerform b t = ⟨(burstWords b).foldl (fun t w => writeWord w.a w.d t) t, rPass, []⟩ := by
    simp [writePerform, hbeats]
  have hfree (a : Nat) : collideCheck a false s = (s, false) := by simp [collideCheck, detect_clear hi]
  unfold memWrite
  dsimp only
  rw [hj]
  rw [if_neg (by simp)]
  cases hws : burstWords b with
  | nil => rfl
  | cons w ws =>
    dsimp only
    rw [← hws]
    by_cases hs : sampleClass s w.a = true
    · simp [hs, hc, hfree, hbeats]
    · simp [hs, hc, hperform]

theorem memWrite_refused {s t : State} {b : Burst} (hj : judgeWrite b.master (burstWords b) s = (t, false)) : memWrite b s = (t, some rRefused) := by
  simp [memWrite, hj]

end Sys2Proof.Machine
end

section
/-! Bursts of the fabric (R32, R372, R402–R406). -/

open Sys2Proof Sys2Proof.Machine

/-- Settles O43, by the decoder's answer: refused, unmapped, or what central memory does with the burst. -/
theorem fabricBursts : Obligations.FabricBursts := by
  intro s b h
  have hrun {t : State} (hd : fabricBurst b s = t) (ht : t.fab.wait = []) : Gives (.fabricBurst b) s t := gives_bus h rfl hd ht
  have hu : noteBurst b (granted b s) = portTaken b s := rfl
  have htaken : NoInjection (portTaken b s) := portTaken_noInjection h.inj b
  obtain ⟨last, taken, lastAddr, lastWr, hport⟩ := portTaken_frame b s
  have hserved (hb : ToCentral b) {a : Answer} (ha : targetServe b (portTaken b s) = (a, true)) (hf : a.s.fab = (portTaken b s).fab) :
      Gives (.fabricBurst b) s (emit (.fabric b.master a.resp (if b.write then [] else answerBytes b a)) a.s) := by
    have hserve := busServe_served h hb.form hb.page (noTarget_central hb.target s) hb.lock ha (by rw [hf, portTaken_lock])
    refine hrun (fabricBurst_served hb.master hserve) ?_
    rw [emit_fab, hf, portTaken_wait, h.wait]
  refine ⟨fun hm hform => ?_, fun hm hok h4 ht => ?_, fun hb hw ho hgood => ?_, fun hb hw hc ho hwords hown => ?_,
    fun hb hw ho ha hg hs w hfirst => ?_⟩
  · have hserve := fabricBurst_served hm (busServe_malformed hform s)
    rw [answerBytes_unserved] at hserve
    exact hrun hserve h.wait
  · have hserve := fabricBurst_served hm (busServe_unmapped h.inj hok h4 ht)
    rw [answerBytes_unserved] at hserve
    refine hrun hserve ?_
    rw [emit_fab, noteUnmapped_wait, (report_recordsOnly ..).fab, h.wait]
  · have hread : memRead b (portTaken b s) = ⟨portTaken b s, rPass, (burstWords b).map fun w => (w.a, memWord s.mem w.a)⟩ := by
      rw [hport] at htaken ⊢
      exact memRead_good htaken ho hgood
    have hgives := hserved hb ((targetServe_read hb.target hw _).trans (by rw [hread])) rfl
    rw [hw] at hgives
    exact hgives
  · have hjudge : judgeWrite b.master (burstWords b) (portTaken b s) = (portTaken b s, true) := by
      rw [hport] at htaken ⊢
      exact judgeWrite_passes htaken ho (fun w hw => (hwords w hw).2) hown
    have hwrite := memWrite_performed htaken hjudge hc fun w hw => ⟨(hwords w hw).1, hb.words w hw⟩
    have hgives := hserved hb (targetServe_write hb.target hw hwrite) (writeWords_fold_fab ..)
    rw [hw] at hgives
    exact hgives
  · have hjudge : judgeWrite b.master (burstWords b) (portTaken b s) =
        (report (fabSrc b.master) 0x305#12 .note (wOf (w.a / 16)) (portTaken b s), false) := by
      rw [hport] at htaken ⊢
      exact judgeWrite_owned htaken ho ha hg hs hfirst
    have hgives := hserved hb (targetServe_write hb.target hw (memWrite_refused hjudge)) (report_recordsOnly ..).fab
    rw [hw] at hgives
    exact hgives
end

section
/-! Locked ports, collided writes and timeouts (R374, R410, R411). -/

namespace Sys2Proof.Machine

/-! ### A burst that waits -/

theorem portBusy_locked {s : State} {b : Burst} {i n : Nat} (hg : gateway b = false) (hi : lockOf b = some i) (hn : lockAt s i = some n)
    (hm : n ≠ mNum b.master) : portBusy s b = true := by
  simp [portBusy, hg, hi, hn, hm]

theorem busBlocked_port {s : State} {b : Burst} (h : portBusy s b = true) : busBlocked (.fabricBurst b) s = true := by
  simp [busBlocked, busBursts, h]

/-- Nothing runs while the port of the one burst that waits is busy. -/
theorem waitPass_busy {s : State} {b : Burst} (hw : s.fab.wait = [.fabricBurst b]) (h : portBusy s b = true) : waitPass s = s := by
  have hblocked : busBlocked (.fabricBurst b) { s with fab := { s.fab with wait := [] } } = true := busBlocked_port h
  have hready : waitReady s = [] := by simp [waitReady, hw, hblocked]
  simp [waitPass, waitPick, hready]

theorem fabricBurst_waits {s : State} {b : Burst} (hw : s.fab.wait = []) (h : portBusy s b = true) :
    Gives (.fabricBurst b) s { s with fab := { s.fab with wait := [.fabricBurst b] } } := by
  have hrun : busRun (.fabricBurst b) s = { s with fab := { s.fab with wait := [.fabricBurst b] } } := by
    rw [busRun, if_pos (busBlocked_port h), hw]
    rfl
  have hpass := waitPass_busy (s := { s with fab := { s.fab with wait := [.fabricBurst b] } }) rfl h
  have hwaiting : runWaiting { s with fab := { s.fab with wait := [.fabricBurst b] } } = { s with fab := { s.fab with wait := [.fabricBurst b] } } := hpass
  show busDone (busRun (.fabricBurst b) s) = _
  rw [hrun, busDone, hwaiting, done_eq]

/-- What a command gives that runs at once and leaves nothing waiting. -/
theorem gives_busDone {i : Instr} {s t u : State} (he : exec i s = busDone u) (h : u = t) (hw : t.fab.wait = []) : Gives i s t := by
  rw [Gives, he, h, busDone_idle hw, done_eq]

theorem goes_busDone {i : Instr} {s t u : State} {p : State → Prop} (he : exec i s = busDone u) (h : u = t) (hw : t.fab.wait = [])
    (hp : p (settle t)) : Goes (exec i s) p :=
  ⟨settle t, gives_busDone he h hw, hp⟩

theorem says_settle_emit {s t : State} (h : t.out = s.out) (o : Out) : Says s (settle (emit o t)) o :=
  ⟨_, by rw [settle, emit, h, List.append_assoc]; rfl⟩

/-! ### Collided writes (R374) -/

theorem collidedEnd_other {b : Burst} (hm : b.master ≠ .host) (r : BitVec 2) (s : State) :
    ∃ v, collidedEnd b r s = emit (.fabric b.master r []) { s with fab := { s.fab with lock := v } } := by
  obtain ⟨v, h⟩ := endSequence_frame b b.lock s
  exact ⟨v, by rw [collidedEnd, hostNote_other hm, h]⟩

/-- A collision is logged, and the write is discarded. -/
theorem collideCheck_found {s : State} (hi : NoInjection s) (a : Nat) :
    collideCheck a true s = (orReg Reg.MEM_STAT 4#32 (report (memSrc a) 0x002#12 .degrade 0#32 s), true) := by
  simp [collideCheck, detect_found hi]

theorem putBusWord_frame (a : Nat) (v : Word) (s : State) :
    ∃ mem ecc hold, putBusWord a v s = { s with mem, msvc := { s.msvc with ecc, hold } } := by
  unfold putBusWord writeCrew
  dsimp only
  split
  · split
    · split
      · exact ⟨_, _, _, rfl⟩
      · exact ⟨_, _, _, rfl⟩
    · exact ⟨_, _, _, rfl⟩
  · exact ⟨_, _, _, rfl⟩

/-- Whole words are all written. -/
theorem writeWordsIn_whole {all ws : List BusWord} (h : ∀ w ∈ ws, wholeWord all w = true) (s : State) :
    ∃ mem ecc hold, writeWordsIn all ws s = ({ s with mem, msvc := { s.msvc with ecc, hold } }, true) := by
  induction ws generalizing s with
  | nil => exact ⟨_, _, _, rfl⟩
  | cons w ws ih =>
    obtain ⟨_, _, _, hput⟩ := putBusWord_frame w.a w.d s
    have hword : writeBusWord all w s = (putBusWord w.a w.d s, true) := if_pos (h w (List.mem_cons_self ..))
    obtain ⟨mem, ecc, hold, hrest⟩ := ih (fun v hv => h v (List.mem_cons_of_mem _ hv)) (putBusWord w.a w.d s)
    refine ⟨mem, ecc, hold, ?_⟩
    rw [writeWordsIn, hword, if_pos rfl, hrest, hput]

/-- The state with the collided writes `cs` left. -/
def collidedLeft (cs : List Collided) (s : State) : State := { s with msvc := { s.msvc with collided := cs } }

theorem collidedRetry_again {s : State} {c : Collided} {cs : List Collided} (h : s.msvc.collided = c :: cs) (ht : c.tries < 15) :
    collidedRetry true s = collidedLeft (⟨c.b, c.tries + 1⟩ :: cs) s := by
  simp [collidedRetry, h, ht, collidedLeft]

theorem collidedRetry_over {s : State} {c : Collided} {cs : List Collided} (h : s.msvc.collided = c :: cs) (ht : 15 ≤ c.tries) :
    collidedRetry true s =
      collidedEnd c.b rRefused (collideCheck (((burstWords c.b).head?.map (·.a)).getD c.b.addr.toNat) true (collidedLeft cs s)).1 := by
  simp [collidedRetry, h, Nat.not_lt.mpr ht, collidedLeft]

theorem collidedRetry_done {s : State} {c : Collided} {cs : List Collided} (h : s.msvc.collided = c :: cs) :
    collidedRetry false s = collidedEnd c.b (writePerform c.b (collidedLeft cs s)).resp (writePerform c.b (collidedLeft cs s)).s := by
  simp [collidedRetry, h, collidedLeft]

/-! ### What a record makes of the logs -/

/-- The logs after a record rest on the logs, the engine's state and the window before it. -/
theorem collect_err_congr {s t : State} (he : t.err = s.err) (hg : t.eng = s.eng) (i : Nat) (src : BitVec 16) (code : BitVec 12) (sev : Sev)
    (inj : Bool) (info : Word) : (collect i src code sev inj info t).err = (collect i src code sev inj info s).err := by
  have heng : engHeld t = engHeld s := by rw [engHeld, hg, engHeld]
  unfold collect
  rw [he, hg, heng]
  dsimp only
  split
  · rfl
  · repeat' split
    all_goals rfl

theorem collect_eng_congr {s t : State} (hg : t.eng = s.eng) (i : Nat) (src : BitVec 16) (code : BitVec 12) (sev : Sev)
    (inj : Bool) (info : Word) : (collect i src code sev inj info t).eng = (collect i src code sev inj info s).eng := by
  rw [collect_eng, collect_eng, hg]

theorem report_err_congr {s t : State} {code : BitVec 12} {sev : Sev} (hd : diagCode code sev = false) (he : t.err = s.err) (hg : t.eng = s.eng)
    (src : BitVec 16) (info : Word) : (report src code sev info t).err = (report src code sev info s).err := by
  simp only [report, reportI, hd, Bool.false_eq_true, if_false]
  split
  · exact collect_err_congr he hg ..
  · exact collect_err_congr (collect_err_congr he hg ..) (collect_eng_congr hg ..) ..

/-! ### Timeouts (R411) -/

/-- An EXPIRED answer captured and counted (R411, R423). -/
def expiredNoted (b : Burst) (s : State) : State :=
  let t := fabCapture b.master (targetOf b.addr.toNat) rExpired b.write b.addr.toNat s
  orReg Reg.FAB_STAT 2#32 { t with fab := { t.fab with tmo := satInc max32 t.fab.tmo } }

theorem expiredNoted_frame (b : Burst) (s : State) :
    ∃ regs info addr, expiredNoted b s = { s with regs, fab := { s.fab with info, addr, tmo := satInc max32 s.fab.tmo } } := by
  obtain ⟨_, _, h⟩ := fabCapture_frame b.master (targetOf b.addr.toNat) rExpired b.write b.addr.toNat s
  rw [expiredNoted, h]
  exact ⟨_, _, _, rfl⟩

/-- A read that its target does not end is logged and answered EXPIRED. -/
theorem fabTimeout_expires {s : State} (hi : NoInjection s) {b : Burst} (hok : burstOk b = true) (h4 : burst4k b = false) (ht : noTarget s b = false)
    (hp : portBusy s b = false) (hm : b.master ≠ .host) (hw : b.write = false) :
    fabTimeout b s = emit (.fabric b.master rExpired (noData b)) (endSequence b (b.lock && lockMaster b.master)
      (expiredNoted b (report (fabSrc b.master) 0x101#12 .fault 0#32 (granted b { s with freeCtr := s.freeCtr + 1 })))) := by
  have hform : (!burstOk b || burst4k b || noTarget s b || portBusy s b) = false := by simp [hok, h4, ht, hp]
  obtain ⟨_, _, hgrant⟩ := granted_frame b { s with freeCtr := s.freeCtr + 1 }
  have hinj : NoInjection (granted b { s with freeCtr := s.freeCtr + 1 }) := hi.congr (by rw [hgrant])
  unfold fabTimeout
  simp only [hform, hw, Bool.false_eq_true, if_false, Bool.false_and, detect_found hinj, hostNote_other hm, expiredNoted]
  simp [noData, hw]

theorem fabTimeout_frame (b : Burst) (s : State) : ∃ t, endSequence b (b.lock && lockMaster b.master)
      (expiredNoted b (report (fabSrc b.master) 0x101#12 .fault 0#32 (granted b { s with freeCtr := s.freeCtr + 1 }))) = t ∧
    t.fab.tmo = satInc max32 s.fab.tmo ∧ t.fab.wait = s.fab.wait ∧ t.mem = s.mem ∧ t.out = s.out ∧
    t.err = (report (fabSrc b.master) 0x101#12 .fault 0#32 s).err := by
  obtain ⟨_, _, hgrant⟩ := granted_frame b { s with freeCtr := s.freeCtr + 1 }
  have herr : (report (fabSrc b.master) 0x101#12 .fault 0#32 (granted b { s with freeCtr := s.freeCtr + 1 })).err =
      (report (fabSrc b.master) 0x101#12 .fault 0#32 s).err := report_err_congr rfl (by rw [hgrant]) (by rw [hgrant]) ..
  obtain ⟨_, _, hreport⟩ := report_frame (code := 0x101#12) (sev := .fault) rfl (fabSrc b.master) 0#32
    (granted b { s with freeCtr := s.freeCtr + 1 })
  obtain ⟨_, _, _, hnote⟩ := expiredNoted_frame b (report (fabSrc b.master) 0x101#12 .fault 0#32 (granted b { s with freeCtr := s.freeCtr + 1 }))
  obtain ⟨_, hend⟩ := endSequence_frame b (b.lock && lockMaster b.master)
    (expiredNoted b (report (fabSrc b.master) 0x101#12 .fault 0#32 (granted b { s with freeCtr := s.freeCtr + 1 })))
  refine ⟨_, rfl, ?_⟩
  rw [hend, hnote, ← herr, hreport, hgrant]
  exact ⟨rfl, rfl, rfl, rfl, rfl⟩

/-- The port forced free, its owner's sequence broken (R411, R423). -/
def lockBroken (t n : Nat) (s : State) : State :=
  let c := orReg Reg.FAB_STAT 4#32 (fabCapture (masterOf n) (lockTarget t) rPass (vget false s.fab.lastWr t) (vget 0 s.fab.lastAddr t) s)
  { c with fab := { c.fab with lock := vput c.fab.lock t none, broken := vput c.fab.broken t (some n) } }

theorem lockBroken_frame (t n : Nat) (s : State) : ∃ info addr, lockBroken t n s = { orReg Reg.FAB_STAT 4#32 s with
    fab := { s.fab with info, addr, lock := vput s.fab.lock t none, broken := vput s.fab.broken t (some n) } } := by
  obtain ⟨_, _, h⟩ := fabCapture_frame (masterOf n) (lockTarget t) rPass (vget false s.fab.lastWr t) (vget 0 s.fab.lastAddr t) s
  rw [lockBroken, h]
  exact ⟨_, _, rfl⟩

theorem fabLockTmo_free {t : Nat} {s : State} (h : lockAt s t = none) : fabLockTmo t s = s := by
  simp [fabLockTmo, h]

theorem fabLockTmo_locked {t n : Nat} {s : State} (hi : NoInjection s) (h : lockAt s t = some n) : fabLockTmo t s =
    (if masterOf n = .host then setReg Reg.HOST_LOCK 0#32 else id) (lockBroken t n (report (fabSrc (masterOf n)) 0x102#12 .degrade 0#32 s)) := by
  simp only [fabLockTmo, h, detect_found hi, lockBroken]
  split
  · rfl
  · rfl

/-- The same where HOST's attribute ends with it. -/
theorem lockBroken_parts (t n : Nat) (s : State) {f : State → State} (hf : f = id ∨ f = setReg Reg.HOST_LOCK 0#32) :
    (f (lockBroken t n s)).fab.lock = vput s.fab.lock t none ∧ (f (lockBroken t n s)).fab.broken = vput s.fab.broken t (some n) ∧
      (f (lockBroken t n s)).fab.wait = s.fab.wait ∧ (f (lockBroken t n s)).mem = s.mem ∧ (f (lockBroken t n s)).err = s.err := by
  obtain ⟨_, _, h⟩ := lockBroken_frame t n s
  rw [h]
  rcases hf with rfl | rfl
  · exact ⟨rfl, rfl, rfl, rfl, rfl⟩
  · exact ⟨rfl, rfl, rfl, rfl, rfl⟩

/-- What the forced release leaves. -/
theorem fabLockTmo_frees {t n : Nat} {s : State} (hi : NoInjection s) (h : lockAt s t = some n) : ∃ u, fabLockTmo t s = u ∧
    u.fab.lock = vput s.fab.lock t none ∧ u.fab.broken = vput s.fab.broken t (some n) ∧ u.fab.wait = s.fab.wait ∧ u.mem = s.mem ∧
    u.err = (report (fabSrc (masterOf n)) 0x102#12 .degrade 0#32 s).err := by
  have hrec := report_recordsOnly (fabSrc (masterOf n)) 0x102#12 .degrade 0#32 s
  have hparts := lockBroken_parts t n (report (fabSrc (masterOf n)) 0x102#12 .degrade 0#32 s)
    (f := if masterOf n = .host then setReg Reg.HOST_LOCK 0#32 else id) (by split <;> simp)
  rw [hrec.fab, hrec.mem] at hparts
  exact ⟨_, fabLockTmo_locked hi h, hparts⟩

theorem fabLockTmo_host {t : Nat} {s : State} (hi : NoInjection s) (hw : tabWf 0#32 s.regs = true) (h : lockAt s t = some 1) :
    lockLen (fabLockTmo t s) = 0 := by
  obtain ⟨_, _, hbroken⟩ := lockBroken_frame t 1 (report (fabSrc .host) 0x102#12 .degrade 0#32 s)
  have htable : tabWf 0#32 (lockBroken t 1 (report (fabSrc .host) 0x102#12 .degrade 0#32 s)).regs = true := by
    rw [hbroken]
    exact tset_tabWf ((reportI_keepsRegs ..).table hw)
  have hzero : reg (fabLockTmo t s) Reg.HOST_LOCK = 0#32 := by
    have hlocked := fabLockTmo_locked hi h
    rw [show masterOf 1 = .host from rfl, if_pos rfl] at hlocked
    rw [hlocked]
    exact (tget_tset htable).trans (if_pos rfl)
  rw [lockLen, hzero]
  rfl

end Sys2Proof.Machine
end

section
/-! Locks, collided writes and timeouts (R374, R404, R410, R411, R423, R487). -/

open Sys2Proof Sys2Proof.Machine

/-- Settles O44, command by command: what each leaves with nothing waiting. -/
theorem locksAndTimeouts : Obligations.LocksAndTimeouts := by
  intro s hi hw
  refine ⟨fun b i n hg hl hn hm => fabricBurst_waits hw (portBusy_locked hg hl hn hm), fun still hc => ?_, fun c cs hc hm => ⟨fun ht => ?_, fun ht => ?_, fun hwhole => ?_⟩,
    fun b hok h4 ht hp hm hread => ?_, fun i => ⟨fun hn => gives_busDone rfl (fabLockTmo_free hn) hw, fun n hn => ?_⟩, fun m v => gives_done rfl rfl⟩
  · exact gives_busDone rfl (by rw [collidedRetry, hc]) hw
  · exact gives_busDone rfl (collidedRetry_again hc ht) hw
  · obtain ⟨regs, logs, hreport⟩ := report_frame (code := 0x002#12) (sev := .degrade) rfl
      (memSrc (((burstWords c.b).head?.map (·.a)).getD c.b.addr.toNat)) 0#32 (collidedLeft cs s)
    have hcheck := collideCheck_found (s := collidedLeft cs s) (hi.congr rfl) (((burstWords c.b).head?.map (·.a)).getD c.b.addr.toNat)
    have hover := collidedRetry_over hc ht
    rw [hcheck, hreport] at hover
    obtain ⟨_, hend⟩ := collidedEnd_other hm rRefused (orReg Reg.MEM_STAT 4#32 { collidedLeft cs s with regs, err := { (collidedLeft cs s).err with logs } })
    exact goes_busDone rfl (hover.trans hend) hw ⟨rfl, rfl, says_settle_emit rfl _⟩
  · obtain ⟨mem, ecc, hold, hwrite⟩ := writeWordsIn_whole hwhole (collidedLeft cs s)
    have hbeats : writeBeats (burstWords c.b) (collidedLeft cs s) = _ := hwrite
    have hperform : writePerform c.b (collidedLeft cs s) = ⟨(writeBeats (burstWords c.b) (collidedLeft cs s)).1, rPass, []⟩ := by
      rw [writePerform, hbeats]
      rfl
    have hdone := collidedRetry_done hc
    rw [hperform, hbeats] at hdone
    obtain ⟨_, hend⟩ := collidedEnd_other hm rPass { collidedLeft cs s with mem, msvc := { (collidedLeft cs s).msvc with ecc, hold } }
    exact goes_busDone rfl (hdone.trans hend) hw ⟨rfl, (congrArg (fun r => State.mem r.1) hbeats).symm, says_settle_emit rfl _⟩
  · obtain ⟨t, hframe, htmo, hwait, hmem, hout, herr⟩ := fabTimeout_frame b s
    have hexpires := fabTimeout_expires hi hok h4 ht hp hm hread
    rw [hframe] at hexpires
    exact goes_busDone rfl hexpires (hwait.trans hw) ⟨htmo, hmem, herr, says_settle_emit hout _⟩
  · obtain ⟨u, hframe, hlock, hbroken, hwait, hmem, herr⟩ := fabLockTmo_frees hi hn
    refine goes_busDone rfl hframe (hwait.trans hw) ⟨?_, ?_, hmem, herr, fun htable hone => ?_⟩
    · rw [lockAt, settle_fab, hlock, vget_vput, ite_self]
    · rw [settle_fab, hbroken, vget_vput, if_pos i.isLt]
    · subst hone
      exact (congrArg lockLen hframe).symm.trans (fabLockTmo_host hi htable hn)
end

section
/-! MODE and SX of the DMA engine (R415): 24-bit words packed into 32-bit ones and back. -/

namespace Sys2Proof.Machine

/-! ### Runs of equal length -/

/-- A list of whole runs, cut into them. -/
theorem chunks_blocks {α : Type} {k : Nat} (hk : 0 < k) {n : Nat} {l : List α} (h : l.length = k * n) :
    chunks k l = (List.range n).map fun i => (l.drop (k * i)).take k := by
  have hfuel (f : Nat) (hf : l.length ≤ f) : chunksAux k f l = (List.range n).map fun i => (l.drop (k * i)).take k := by
    induction n generalizing l f with
    | zero =>
      have hnil : l = [] := List.length_eq_zero_iff.mp (by simpa using h)
      rw [hnil, chunksAux_nil]
      rfl
    | succ n ih =>
      obtain ⟨x, xs, rfl⟩ : ∃ x xs, l = x :: xs := List.exists_cons_of_length_pos (by rw [h, Nat.mul_succ]; omega)
      obtain ⟨f, rfl⟩ : ∃ g, f = g + 1 := Nat.exists_eq_add_one.mpr (by simp at hf; omega)
      have hdrop : ((x :: xs).drop k).length = k * n := by rw [List.length_drop, h, Nat.mul_succ]; omega
      rw [chunksAux, ih hdrop f (by rw [hdrop]; rw [h, Nat.mul_succ] at hf; omega), List.range_succ_eq_map, List.map_cons, List.map_map, Nat.mul_zero,
        List.drop_zero]
      refine congrArg _ (List.map_congr_left fun i _ => ?_)
      rw [Function.comp_apply, List.drop_drop, Nat.mul_succ, Nat.add_comm]
  exact hfuel l.length le_rfl

/-- Runs of one length, joined, have their lengths added, and each stands at its place. -/
theorem flatMap_blocks {α : Type} {m n : Nat} {f : Nat → List α} (h : ∀ i, i < n → (f i).length = m) :
    ((List.range n).flatMap f).length = m * n ∧ ∀ i, i < n → (((List.range n).flatMap f).drop (m * i)).take m = f i := by
  induction n with
  | zero => simp
  | succ n ih =>
    obtain ⟨hlen, hat⟩ := ih fun i hi => h i (by omega)
    rw [List.range_succ, List.flatMap_append, List.flatMap_singleton]
    refine ⟨by rw [List.length_append, hlen, h n (by omega), Nat.mul_succ], fun i hi => ?_⟩
    by_cases hin : i < n
    · have hfit : m * i + m ≤ m * n := by
        rw [← Nat.mul_succ]
        exact Nat.mul_le_mul_left m hin
      rw [List.drop_append_of_le_length (by omega), List.take_append_of_le_length (by rw [List.length_drop]; omega), hat i hin]
    · obtain rfl : i = n := by omega
      rw [← hlen, List.drop_left, List.take_of_length_le (by rw [h i hi])]

/-- A run of a list of whole runs is whole. -/
theorem block_length {α : Type} {k i n : Nat} (hi : i < n) {l : List α} (hl : l.length = k * n) : ((l.drop (k * i)).take k).length = k := by
  have hfit : k * i + k ≤ k * n := by
    rw [← Nat.mul_succ]
    exact Nat.mul_le_mul_left k hi
  rw [List.length_take, List.length_drop]
  omega

/-- What a list of runs becomes, run by run. -/
theorem flatMap_chunks {α : Type} {k m n : Nat} (hk : 0 < k) {l : List α} (hl : l.length = k * n) {f : List α → List α}
    (hf : ∀ c, c.length = k → (f c).length = m) :
    ((chunks k l).flatMap f).length = m * n ∧
      ∀ i, i < n → (((chunks k l).flatMap f).drop (m * i)).take m = f ((l.drop (k * i)).take k) := by
  rw [chunks_blocks hk hl, List.flatMap_map]
  exact flatMap_blocks fun i hi => hf _ (block_length hi hl)

/-! ### One run -/

/-- Three bytes as a 32-bit word: above them with SX the sign, without it below them 0. -/
def unpacked (sx : Bool) (c : List Byte) : List Byte :=
  if sx then c ++ (if (c.getD 2 0#8).msb then [255#8] else [0#8]) else 0#8 :: c

/-- Four bytes as a 24-bit word: the low three with SX, without it the high three. -/
def packed (sx : Bool) (c : List Byte) : List Byte := if sx then c.take 3 else c.drop 1

theorem unpacked_length (sx : Bool) {c : List Byte} (h : c.length = 3) : (unpacked sx c).length = 4 := by
  unfold unpacked
  split
  · split <;> simp [h]
  · simp [h]

theorem packed_length (sx : Bool) {c : List Byte} (h : c.length = 4) : (packed sx c).length = 3 := by
  unfold packed
  split <;> simp [h]

/-- The value of a word of three bytes, extended by its sign (R415). -/
theorem signExtend_three (x y z : Byte) : ((BitVec.ofNat 24 (leNat [x, y, z])).signExtend 32).toNat =
    leNat [x, y, z, if z.msb then 255#8 else 0#8] := by
  have hx := x.isLt
  have hy := y.isLt
  have hz := z.isLt
  have hval : (BitVec.ofNat 24 (leNat [x, y, z])).toNat = x.toNat + 256 * (y.toNat + 256 * z.toNat) := by
    simp only [leNat, BitVec.toNat_ofNat]
    omega
  have hmsb : (BitVec.ofNat 24 (leNat [x, y, z])).msb = z.msb := by
    rw [BitVec.msb_eq_decide, BitVec.msb_eq_decide, hval, decide_eq_decide]
    omega
  rw [BitVec.toNat_signExtend, BitVec.toNat_setWidth, hval, hmsb]
  cases z.msb with
  | true => simp [leNat]; omega
  | false => simp [leNat]; omega

theorem unpacked_value (sx : Bool) {c : List Byte} (h : c.length = 3) :
    leNat (unpacked sx c) = if sx then ((BitVec.ofNat 24 (leNat c)).signExtend 32).toNat else 256 * leNat c := by
  obtain ⟨x, y, z, rfl⟩ := List.length_eq_three.mp h
  cases sx with
  | true =>
    rw [if_pos rfl, signExtend_three]
    unfold unpacked
    simp only [if_true, List.getD_cons_succ, List.getD_cons_zero]
    split <;> rfl
  | false => simp [unpacked, leNat]

theorem packed_value (sx : Bool) {c : List Byte} (h : c.length = 4) :
    leNat (packed sx c) = if sx then leNat c % 2 ^ 24 else leNat c / 256 := by
  obtain ⟨w, x, y, z, rfl⟩ : ∃ w x y z, c = [w, x, y, z] := by
    obtain ⟨w, c, rfl⟩ := List.exists_cons_of_length_pos (l := c) (by omega)
    obtain ⟨x, y, z, rfl⟩ := List.length_eq_three.mp (by simpa using h)
    exact ⟨w, x, y, z, rfl⟩
  have hw := w.isLt
  have hx := x.isLt
  have hy := y.isLt
  cases sx with
  | true => simp [packed, leNat]; omega
  | false => simp [packed, leNat]; omega

/-! ### The modes -/

theorem dmaData_unpacks {d : Desc} (h : d.mode = 1) (bs : List Byte) : dmaData d bs = (chunks 3 bs).flatMap (unpacked d.sx) := by
  simp only [dmaData, h]
  rfl

theorem dmaData_packs {d : Desc} (h : d.mode = 2) (bs : List Byte) : dmaData d bs = (chunks 4 bs).flatMap (packed d.sx) := by
  simp only [dmaData, h]
  rfl

theorem dmaData_mode1 {d : Desc} {bs : List Byte} {n : Nat} (h : d.mode = 1) (hl : bs.length = 3 * n) :
    (dmaData d bs).length = 4 * n ∧ ∀ i, i < n →
      leNat (((dmaData d bs).drop (4 * i)).take 4) = if d.sx then ((BitVec.ofNat 24 (leNat ((bs.drop (3 * i)).take 3))).signExtend 32).toNat
        else 256 * leNat ((bs.drop (3 * i)).take 3) := by
  obtain ⟨hlen, hat⟩ := flatMap_chunks (by decide) hl fun c => unpacked_length d.sx (c := c)
  rw [dmaData_unpacks h]
  exact ⟨hlen, fun i hi => by rw [hat i hi, unpacked_value d.sx (block_length hi hl)]⟩

theorem dmaData_mode2 {d : Desc} {bs : List Byte} {n : Nat} (h : d.mode = 2) (hl : bs.length = 4 * n) :
    (dmaData d bs).length = 3 * n ∧ ∀ i, i < n →
      leNat (((dmaData d bs).drop (3 * i)).take 3) = if d.sx then leNat ((bs.drop (4 * i)).take 4) % 2 ^ 24 else leNat ((bs.drop (4 * i)).take 4) / 256 := by
  obtain ⟨hlen, hat⟩ := flatMap_chunks (by decide) hl fun c => packed_length d.sx (c := c)
  rw [dmaData_packs h]
  exact ⟨hlen, fun i hi => by rw [hat i hi, packed_value d.sx (block_length hi hl)]⟩

end Sys2Proof.Machine
end

section
/-! What the bursts of the DMA engine leave alone: the state of its channels. -/

namespace Sys2Proof.Machine

/-! ### Records and detectors -/

theorem RecordsOnly.dma {s t : State} (h : RecordsOnly s t) : t.dma = s.dma := h.field State.dma

@[simp] theorem report_dma (src : BitVec 16) (code : BitVec 12) (sev : Sev) (info : Word) (s : State) : (report src code sev info s).dma = s.dma :=
  (report_recordsOnly ..).dma

@[simp] theorem detect_dma (alters : Bool) (src : BitVec 16) (code : BitVec 12) (sev : Sev) (info : Word) (cond : Bool) (s : State) :
    (detect alters src code sev info cond s).1.dma = s.dma := by
  have hrecord : (reportI true src code sev info (injFire src code s)).dma = s.dma := (reportI_recordsOnly ..).dma
  unfold detect
  dsimp only
  split_ifs
  · exact ((lapse_recordsOnly ..).dma).trans hrecord
  · exact hrecord
  · exact report_dma ..
  · rfl

/-! ### Reads -/

@[simp] theorem noteCe_dma (a : Nat) (s : State) : (noteCe a s).dma = s.dma := by
  unfold noteCe
  split_ifs <;> rfl

@[simp] theorem noteUe_dma (k : Reader) (a : Nat) (s : State) : (noteUe k a s).dma = s.dma := by
  have hlapse (t : State) : (if k = .engine then lapse detUncorr t else t).dma = t.dma := by
    split
    · exact (lapse_recordsOnly ..).dma
    · rfl
  refine (hlapse _).trans ?_
  split_ifs <;> rfl

@[simp] theorem eccCheck_dma (k : Reader) (a mark : Nat) (s : State) : (eccCheck k a mark s).1.dma = s.dma := by
  unfold eccCheck
  dsimp only
  split_ifs <;> simp

@[simp] theorem readWord_dma (k : Reader) (a : Nat) (s : State) : (readWord k a s).1.dma = s.dma := eccCheck_dma ..

@[simp] theorem readMeter_dma (m : Master) (a : Nat) (s : State) : (readMeter m a s).1.dma = s.dma := by
  unfold readMeter
  simp -proj only [ite_fst, apply_ite State.dma, fst_mk, setBank_dma, readWord_dma]
  split
  · with_reducible rfl
  · split <;> simp -proj only [fst_mk, readWord_dma]

@[simp] theorem readBeats_dma (m : Master) (ws : List BusWord) (s : State) : (readBeats m ws s).1.dma = s.dma := by
  induction ws generalizing s with
  | nil => rfl
  | cons w ws ih =>
    rw [readBeats]
    refine (ih _).trans ?_
    split
    · exact readMeter_dma ..
    · exact readWord_dma ..

@[simp] theorem memRead_dma (b : Burst) (s : State) : (memRead b s).s.dma = s.dma := by
  unfold memRead
  dsimp only
  split_ifs
  · rfl
  · exact readBeats_dma ..
  · exact readBeats_dma ..

/-! ### Writes -/

@[simp] theorem putBusWord_dma (a : Nat) (v : Word) (s : State) : (putBusWord a v s).dma = s.dma := by
  obtain ⟨_, _, _, h⟩ := putBusWord_frame a v s
  rw [h]

@[simp] theorem writeBusWord_dma (all : List BusWord) (w : BusWord) (s : State) : (writeBusWord all w s).1.dma = s.dma := by
  unfold writeBusWord
  dsimp only
  split_ifs <;> simp

@[simp] theorem writeWordsIn_dma (all ws : List BusWord) (s : State) : (writeWordsIn all ws s).1.dma = s.dma := by
  induction ws generalizing s with
  | nil => rfl
  | cons w ws ih =>
    rw [writeWordsIn]
    split
    · exact (ih _).trans (writeBusWord_dma ..)
    · exact writeBusWord_dma ..

@[simp] theorem judgeWrite_dma (m : Master) (ws : List BusWord) (s : State) : (judgeWrite m ws s).1.dma = s.dma := by
  have hlapse (t : State) : (detLapse detDirect t).dma = t.dma := (detLapse_recordsOnly ..).dma
  unfold judgeWrite
  dsimp only
  split_ifs <;> simp [hlapse]

@[simp] theorem collideCheck_dma (a : Nat) (collides : Bool) (s : State) : (collideCheck a collides s).1.dma = s.dma := by
  unfold collideCheck
  dsimp only
  split_ifs <;> simp

theorem collideChecks_dma (ws : List BusWord) (s : State) : (ws.foldl (fun s w => (collideCheck w.a true s).1) s).dma = s.dma := by
  induction ws generalizing s with
  | nil => rfl
  | cons w ws ih => exact (ih _).trans (collideCheck_dma ..)

@[simp] theorem memWrite_dma (b : Burst) (s : State) : (memWrite b s).1.dma = s.dma := by
  unfold memWrite
  dsimp only
  split
  · exact judgeWrite_dma ..
  · split
    · exact judgeWrite_dma ..
    · split
      · exact (collideChecks_dma ..).trans (judgeWrite_dma ..)
      · split
        · exact (writeWordsIn_dma ..).trans ((collideCheck_dma ..).trans (judgeWrite_dma ..))
        · split
          · exact judgeWrite_dma ..
          · exact (writeWordsIn_dma ..).trans (judgeWrite_dma ..)

/-! ### Bursts and runs -/

@[simp] theorem granted_dma (b : Burst) (s : State) : (granted b s).dma = s.dma := by
  obtain ⟨_, _, h⟩ := granted_frame b s
  rw [h]

@[simp] theorem noteUnmapped_dma (m : Master) (t : Nat) (write : Bool) (a : Nat) (s : State) : (noteUnmapped m t write a s).dma = s.dma := by
  obtain ⟨_, _, h⟩ := fabCapture_frame m t rUnmapped write a s
  unfold noteUnmapped
  rw [h]
  rfl

@[simp] theorem decodeBurst_dma (b : Burst) (s : State) : (decodeBurst b s).1.dma = s.dma := by
  unfold decodeBurst
  dsimp only
  split_ifs <;> simp

@[simp] theorem memServe_dma (b : Burst) (s : State) : (memServe b s).1.s.dma = s.dma := by
  have hwrite := memWrite_dma b s
  unfold memServe
  split
  · rfl
  · split
    · rfl
    · exact detect_dma ..
    · split
      · rfl
      · exact memRead_dma ..
    · split
      · split <;> simp_all
      · exact memRead_dma ..

@[simp] theorem memBurst_dma (b : Burst) (s : State) : (memBurst b s).1.s.dma = s.dma := by
  unfold memBurst
  dsimp only
  split_ifs
  · rfl
  · exact decodeBurst_dma ..
  · simp

@[simp] theorem readRun_dma (m : Master) (ps : List Piece) (s : State) : (readRun m ps s).1.dma = s.dma := by
  induction ps generalizing s with
  | nil => rfl
  | cons p ps ih => exact (ih _).trans (memBurst_dma ..)

@[simp] theorem writeRun_dma (m : Master) (go : Nat → Bool) (ps : List Piece) (bs : List Byte) (s : State) :
    (writeRun m go ps bs s).1.dma = s.dma := by
  induction ps generalizing bs s with
  | nil => rfl
  | cons p ps ih =>
    refine (ih ..).trans ?_
    split
    · exact memBurst_dma ..
    · rfl

@[simp] theorem dmaMove_dma (d : Desc) (n : Nat) (go : Nat → Bool) (s : State) : (dmaMove d n go s).1.dma = s.dma := by
  unfold dmaMove
  dsimp only
  split
  · exact (writeRun_dma ..).trans (readRun_dma ..)
  · exact readRun_dma ..

end Sys2Proof.Machine
end

section
/-! The channels of the DMA engine (R414–R422): a descriptor fetched, done, aborted, and the halt of all. -/

namespace Sys2Proof.Machine

/-! ### A channel's state -/

theorem dmaAt_putDma {c : Nat} (h : c < 16) (x : DmaCh) (s : State) : dmaAt (putDma c x s) c = x := by
  rw [dmaAt, putDma, vget_vput, if_pos h]

theorem dmaAt_putDma_ne {c j : Nat} (h : c ≠ j) (x : DmaCh) (s : State) : dmaAt (putDma c x s) j = dmaAt s j :=
  vget_vput_ne _ _ _ h

theorem putDma_putDma (c : Nat) (x y : DmaCh) (s : State) : putDma c y (putDma c x s) = putDma c y s := by
  rw [putDma, putDma, vput_vput, putDma]

theorem dmaAt_congr {s t : State} (h : t.dma = s.dma) (c : Nat) : dmaAt t c = dmaAt s c := by
  rw [dmaAt, h, dmaAt]

/-- A record that is no cause of self-diagnosis neither reads nor changes a channel. -/
theorem report_putDma {code : BitVec 12} {sev : Sev} (hd : diagCode code sev = false) (src : BitVec 16) (info : Word) (c : Nat) (x : DmaCh)
    (s : State) : report src code sev info (putDma c x s) = putDma c x (report src code sev info s) := by
  have hcollect (i : Nat) (t : State) : collect i src code sev false info (putDma c x t) = putDma c x (collect i src code sev false info t) := by
    have hheld : engHeld (putDma c x t) = engHeld t := rfl
    have herr : (putDma c x t).err = t.err := rfl
    have heng : (putDma c x t).eng = t.eng := rfl
    simp only [collect, hheld, herr, heng]
    cases coalesce (fun r => sameRec r src code false (engHeld t) t.eng.stroke t.err.win) (vget {} t.err.logs i).recs with
    | some rs => rfl
    | none =>
      dsimp only
      split_ifs <;> rfl
  simp only [report, reportI, hd, Bool.false_eq_true, if_false]
  split <;> simp only [hcollect]

/-- A channel as it stops with a code and a residue. -/
def stopped (code resid : Nat) (x : DmaCh) : DmaCh := { x with busy := false, aborting := false, code, resid }

theorem dmaStop_quiet {c : Nat} (h : c < 16) (code resid : Nat) (x : DmaCh) (s : State) :
    dmaStop c code resid false (putDma c x s) = putDma c (stopped code resid x) s := by
  rw [dmaStop, dmaAt_putDma h, putDma_putDma, if_neg Bool.false_ne_true]
  rfl

theorem dmaStop_irq {c : Nat} (h : c < 16) (code resid : Nat) (x : DmaCh) (s : State) :
    dmaStop c code resid true (putDma c x s) = dmaIrq c (putDma c (stopped code resid x) s) := by
  rw [dmaStop, dmaAt_putDma h, putDma_putDma, if_pos rfl]
  rfl

/-! ### START and ABORT (R417, R419) -/

theorem dmaStart_busy {m : Master} {s : State} (h : (dmaAt s (bank s m).dma).busy = true) : dmaStart m s = s := by
  simp [dmaStart, h]

theorem dmaStart_halted {m : Master} {s : State} (h : (dmaAt s (bank s m).dma).busy = false) (hh : bitAt (reg s Reg.DMA_GSTAT) 16 = true) :
    dmaStart m s = progError m Reg.DMA_CTRL s := by
  simp [dmaStart, h, hh]

theorem dmaStart_starts {m : Master} {s : State} (h : (dmaAt s (bank s m).dma).busy = false) (hh : bitAt (reg s Reg.DMA_GSTAT) 16 = false) :
    let cur := (regAt s Reg.DMA_HEAD_LO (bank s m).dma).toNat / 32 * 32 + fld (regAt s Reg.DMA_HEAD_HI (bank s m).dma) 3 0 * 2 ^ 32
    dmaStart m s = putDma (bank s m).dma { busy := true, cur := cur } s := by
  simp [dmaStart, h, hh]

theorem dmaAbort_busy {m : Master} {s : State} (h : (dmaAt s (bank s m).dma).busy = true) :
    dmaAbort m s = putDma (bank s m).dma { dmaAt s (bank s m).dma with aborting := true } s := by
  simp [dmaAbort, h]

theorem dmaAbort_idle {m : Master} {s : State} (h : (dmaAt s (bank s m).dma).busy = false) : dmaAbort m s = s := by
  simp [dmaAbort, h]

/-! ### A descriptor fetched (R416) -/

theorem beatsOf_fetch {a : Nat} (h : a % 16 = 0) : beatsOf a (List.replicate 32 (some 0#8)) = [⟨0xFFFF#16, 0#128⟩, ⟨0xFFFF#16, 0#128⟩] := by
  rw [beatsOf, h]
  decide

theorem burstWords_fetch {a : Nat} (h : a % 32 = 0) (hlt : a < 2 ^ 36) :
    burstWords (readBurst .dma a 32) = (List.range 8).map fun i => ⟨a + 4 * i, 15#4, 0#32⟩ := by
  have haddr : (BitVec.ofNat 36 (a / 16 * 16)).toNat = a := by
    rw [BitVec.toNat_ofNat]
    omega
  rw [burstWords, readBurst, beatsOf_fetch (by omega), haddr]
  rfl

/-- The answer to a fetch: eight words by their addresses. -/
def fetchData (m : List Host.Cell) (a : Nat) : List (Nat × Word) := (List.range 8).map fun j => (a + 4 * j, memWord m (a + 4 * j))

theorem fetchData_words (m : List Host.Cell) (a : Nat) :
    (List.range 8).map (fun i => (((fetchData m a).find? fun e => e.1 == a + 4 * i).map (·.2)).getD 0#32) = memWords m a 8 := by
  refine List.map_congr_left fun i hi => ?_
  have hfind : (List.range 8).find? ((fun e : Nat × Word => e.1 == a + 4 * i) ∘ fun j => (a + 4 * j, memWord m (a + 4 * j))) = some i := by
    rw [List.find?_range_eq_some]
    refine ⟨by simp, hi, fun j hj => ?_⟩
    simp only [Function.comp_apply, Bool.not_eq_true', beq_eq_false_iff_ne]
    omega
  rw [fetchData, List.find?_map, hfind]
  rfl

/-- A descriptor fetch that passes. -/
theorem memBurst_read {s : State} (hi : NoInjection s) {b : Burst} (hb : ToCentral b) (hw : b.write = false)
    (ho : ∀ w ∈ burstWords b, clearingAt s w.a = false ∧ closedAt s b.master false w.a = false)
    (hg : ∀ w ∈ burstWords b, isMeterWord w.a = false ∧ Good s w.a) :
    memBurst b s = (⟨granted b s, rPass, (burstWords b).map fun w => (w.a, memWord s.mem w.a)⟩, true) := by
  obtain ⟨_, _, hgrant⟩ := granted_frame b s
  have hinj : NoInjection (granted b s) := hi.congr (by rw [hgrant])
  have hread : memRead b (granted b s) = ⟨granted b s, rPass, (burstWords b).map fun w => (w.a, memWord s.mem w.a)⟩ := by
    rw [hgrant] at hinj ⊢
    exact memRead_good hinj ho hg
  have hform : (!burstOk b || burst4k b) = false := by simp [hb.form, hb.page]
  simp [memBurst, hform, decodeBurst_target hi (noTarget_central hb.target s), memServe, hb.target, pathOf_central, hw, hread]

/-- The channel with the descriptor that it has fetched. -/
def withDesc (d : Desc) (x : DmaCh) : DmaCh :=
  { x with desc := some d, fetched := x.fetched + 1, circ := if x.fetched = 0 then d.circ else x.circ }

theorem dmaDescFetched_reads {s : State} (hi : NoInjection s) {c : Nat} (hbusy : (dmaAt s c).busy = true) (hnone : (dmaAt s c).desc = none)
    (habort : (dmaAt s c).aborting = false) (hal : (dmaAt s c).cur % 32 = 0) (hlt : (dmaAt s c).cur < 2 ^ 36)
    (hb : ToCentral (readBurst .dma (dmaAt s c).cur 32))
    (ho : ∀ w ∈ burstWords (readBurst .dma (dmaAt s c).cur 32),
      clearingAt s w.a = false ∧ closedAt s .dma false w.a = false ∧ isMeterWord w.a = false ∧ Good s w.a) :
    let d := descOf (memWords s.mem (dmaAt s c).cur 8)
    let t := putDma c (withDesc d (dmaAt s c)) (granted (readBurst .dma (dmaAt s c).cur 32) s)
    dmaDescFetched c s =
      if d.bad then dmaStop c 4 d.len false t
      else if descAligned (dmaAt s c).cur d then t
      else dmaStop c 3 d.len true (report (dmaSrc c) 0xB01#12 .note 0#32 t) := by
  have hburst : memBurst (readBurst .dma (dmaAt s c).cur 32) s =
      (⟨granted (readBurst .dma (dmaAt s c).cur 32) s, rPass, fetchData s.mem (dmaAt s c).cur⟩, true) := by
    rw [memBurst_read hi hb rfl (fun w hw => ⟨(ho w hw).1, (ho w hw).2.1⟩) fun w hw => (ho w hw).2.2, burstWords_fetch hal hlt, List.map_map]
    rfl
  obtain ⟨_, _, hgrant⟩ := granted_frame (readBurst .dma (dmaAt s c).cur 32) s
  have hinj (x : DmaCh) : NoInjection (putDma c x (granted (readBurst .dma (dmaAt s c).cur 32) s)) := hi.congr (by rw [hgrant]; rfl)
  have hcirc (d : Desc) : (if ((dmaAt s c).fetched == 0) = true then d.circ else (dmaAt s c).circ) =
      if (dmaAt s c).fetched = 0 then d.circ else (dmaAt s c).circ := by simp
  unfold dmaDescFetched
  dsimp only
  rw [if_neg (by simp [hbusy, hnone]), hburst]
  dsimp only
  rw [if_neg (by decide), fetchData_words, if_neg (by simp [habort]), hcirc, ← withDesc]
  generalize descOf (memWords s.mem (dmaAt s c).cur 8) = d
  cases hbad : d.bad with
  | true => rfl
  | false =>
    cases halign : descAligned (dmaAt s c).cur d with
    | true => simp [detect_clear (hinj _)]
    | false => simp [detect_found (hinj _)]

/-! ### A descriptor done (R417, R422) -/

theorem reg_dmaIrq {c off : Nat} (hc : c < 16) (ho : off ≠ Reg.DMA_IRQ) (s : State) : reg (dmaIrq c s) off = reg s off :=
  reg_orReg_flag (by omega) ho s

theorem dmaIrq_putDma (c j : Nat) (x : DmaCh) (s : State) : dmaIrq c (putDma j x s) = putDma j x (dmaIrq c s) := rfl

/-- The channel with one more descriptor done. -/
def descCounted (x : DmaCh) : DmaCh := { x with done := (x.done + 1) % 4294967296 }

/-- The descriptor's data is moved: the channel counts it, and goes on in the state that its interrupt leaves. -/
theorem dmaDescDone_moved {s u : State} {c : Nat} {d : Desc} (hb : (dmaAt s c).busy = true) (ha : (dmaAt s c).aborting = false)
    (hd : (dmaAt s c).desc = some d) (hm : dmaMove d d.len (fun _ => true) s = (u, true)) :
    dmaDescDone c s = dmaNext c d (putDma c (descCounted (dmaAt s c)) (if d.irq then dmaIrq c u else u)) := by
  unfold dmaDescDone descCounted
  generalize dmaAt s c = x at hb ha hd
  obtain ⟨busy, code, resid, cur, desc, circ, fetched, done, aborting⟩ := x
  obtain rfl : busy = true := hb
  obtain rfl : desc = some d := hd
  obtain rfl : aborting = false := ha
  dsimp only
  rw [if_neg (by decide), hm, if_neg (by simp)]
  cases d.irq with
  | true => rfl
  | false => rfl

theorem dmaNext_ends {c : Nat} (hc : c < 16) {d : Desc} (h : d.next = 0) (y : DmaCh) (v : State) :
    dmaNext c d (putDma c y v) = putDma c (stopped 1 0 y) v := by
  rw [dmaNext, if_pos h, dmaStop_quiet hc]

theorem dmaNext_follows {v : State} (hi : NoInjection v) {c : Nat} (hc : c < 16) {d : Desc} (h : d.next ≠ 0) {y : DmaCh}
    (hl : y.circ = true ∨ (d.next ≠ y.cur ∧ y.fetched < (reg v Reg.DMA_CHAIN_MAX).toNat)) :
    dmaNext c d (putDma c y v) = putDma c { y with cur := d.next, desc := none } v := by
  have hinj : NoInjection (putDma c y v) := hi.congr rfl
  have hmax : reg (putDma c y v) Reg.DMA_CHAIN_MAX = reg v Reg.DMA_CHAIN_MAX := rfl
  have hloop : (!y.circ && (d.next == y.cur || decide ((reg v Reg.DMA_CHAIN_MAX).toNat ≤ y.fetched))) = false := by
    rcases hl with hl | ⟨hne, hlt⟩
    · simp [hl]
    · simp [hne, Nat.not_le.mpr hlt]
  simp only [dmaNext, h, dmaAt_putDma hc, hmax, hloop, detect_clear hinj, putDma_putDma, if_false, Bool.false_eq_true]

theorem dmaNext_loops {v : State} (hi : NoInjection v) {c : Nat} (hc : c < 16) {d : Desc} (h : d.next ≠ 0) {y : DmaCh}
    (hcirc : y.circ = false) (hl : d.next = y.cur ∨ (reg v Reg.DMA_CHAIN_MAX).toNat ≤ y.fetched) :
    dmaNext c d (putDma c y v) = dmaIrq c (putDma c (stopped 7 0 y) (report (dmaSrc c) 0xB02#12 .note 0#32 v)) := by
  have hinj : NoInjection (putDma c y v) := hi.congr rfl
  have hmax : reg (putDma c y v) Reg.DMA_CHAIN_MAX = reg v Reg.DMA_CHAIN_MAX := rfl
  have hloop : (!y.circ && (d.next == y.cur || decide ((reg v Reg.DMA_CHAIN_MAX).toNat ≤ y.fetched))) = true := by
    rcases hl with hl | hl <;> simp [hcirc, hl]
  simp only [dmaNext, h, dmaAt_putDma hc, hmax, hloop, detect_found hinj, if_false, if_true, report_putDma (code := 0xB02#12) (sev := .note) rfl, dmaStop_irq hc]

/-! ### ABORT done (R419) -/

theorem dmaAborted_stops {s u : State} {c n : Nat} {d : Desc} (hb : (dmaAt s c).busy = true) (ha : (dmaAt s c).aborting = true)
    (hd : (dmaAt s c).desc = some d) (hm : dmaMove d (dmaGroup d n) (fun _ => true) s = (u, true)) :
    dmaAborted c n s = dmaStop c 2 (d.len - dmaGroup d n) true u := by
  simp [dmaAborted, hd, hb, ha, hm]

/-- A channel stops as it stands. -/
theorem dmaStop_here (c code resid : Nat) (s : State) : dmaStop c code resid true s = dmaIrq c (putDma c (stopped code resid (dmaAt s c)) s) := rfl

/-! ### The halt of every channel (R420, R421) -/

/-- The code that a running channel ends with. -/
def haltCode (one : Option Nat) (c : Nat) (x : DmaCh) : Nat := if one = some c ∧ x.desc ≠ none then 6 else 5

theorem dmaHaltCh_other {one : Option Nat} {resp c j : Nat} (h : c ≠ j) (issued : Nat → Nat) (s : State) :
    dmaAt (dmaHaltCh one resp issued c s) j = dmaAt s j := by
  have hstop (code resid : Nat) (t : State) : dmaAt (dmaStop c code resid true t) j = dmaAt t j := dmaAt_putDma_ne h _ t
  unfold dmaHaltCh
  dsimp only
  split
  · rfl
  · split
    · exact hstop ..
    · split <;> exact (hstop ..).trans (dmaAt_congr (dmaMove_dma ..) j)

theorem dmaHaltCh_stops {one : Option Nat} {resp c : Nat} (hc : c < 16) (issued : Nat → Nat) (s : State) :
    (dmaAt (dmaHaltCh one resp issued c s) c).busy = false ∧
      ((dmaAt s c).busy = true → (dmaAt (dmaHaltCh one resp issued c s) c).code = haltCode one c (dmaAt s c)) := by
  have hstop (code resid : Nat) (t : State) : dmaAt (dmaStop c code resid true t) c = stopped code resid (dmaAt t c) := dmaAt_putDma hc _ t
  unfold dmaHaltCh
  dsimp only
  split
  next hb => exact ⟨by simpa using hb, fun h => by simp [h] at hb⟩
  next hb =>
    split
    next hd =>
      rw [hstop]
      exact ⟨rfl, fun _ => by simp [haltCode, hd, stopped]⟩
    next d hd =>
      split
      next hone =>
        rw [hstop]
        exact ⟨rfl, fun _ => by simpa [haltCode, hd, stopped] using hone⟩
      next hone =>
        rw [hstop]
        exact ⟨rfl, fun _ => by simpa [haltCode, hd, stopped] using hone⟩

/-- The channels are stopped one after the other. -/
theorem haltChannels {one : Option Nat} {resp : Nat} (issued : Nat → Nat) (s : State) {n : Nat} (hn : n ≤ 16) :
    let t := (List.range n).foldl (fun s i => dmaHaltCh one resp issued i s) s
    (∀ i, n ≤ i → dmaAt t i = dmaAt s i) ∧
      ∀ i, i < n → (dmaAt t i).busy = false ∧ ((dmaAt s i).busy = true → (dmaAt t i).code = haltCode one i (dmaAt s i)) := by
  induction n with
  | zero => exact ⟨fun i _ => rfl, fun i hi => absurd hi (by omega)⟩
  | succ n ih =>
    obtain ⟨hlater, hearlier⟩ := ih (by omega)
    rw [List.range_succ, List.foldl_append, List.foldl_cons, List.foldl_nil]
    refine ⟨fun i hi => ?_, fun i hi => ?_⟩
    · rw [dmaHaltCh_other (by omega), hlater i (by omega)]
    · by_cases hin : i = n
      · subst hin
        have hstop := dmaHaltCh_stops (one := one) (resp := resp) (c := i) (by omega) issued
          ((List.range i).foldl (fun s i => dmaHaltCh one resp issued i s) s)
        rwa [hlater i le_rfl] at hstop
      · rw [dmaHaltCh_other (Ne.symm hin)]
        exact hearlier i (by omega)

@[simp] theorem dmaFailed_dma (a resp : Nat) (last : Bool) (s : State) : (dmaFailed a resp last s).dma = s.dma := by
  unfold dmaFailed
  split_ifs <;> simp

/-- What stands before the channels are stopped: the failing burst and the records. -/
def haltLogged (c a resp : Nat) (last : Bool) (s : State) : State :=
  let s := dmaFailed a resp last s
  let s := if last then (detect false (dmaSrc c) 0xB03#12 .degrade 0#32 true s).1 else s
  (detect false (dmaSrc 0) 0xB00#12 .degrade 0#32 true s).1

theorem haltLogged_dma (c a resp : Nat) (last : Bool) (s : State) : (haltLogged c a resp last s).dma = s.dma := by
  unfold haltLogged
  dsimp only
  split <;> simp

theorem dmaHaltEvent_idle {s : State} (h : ∀ i, i < 16 → (dmaAt s i).busy = false) (c a resp : Nat) (last : Bool) (issued : Nat → Nat) :
    dmaHaltEvent c a resp last issued s = s := by
  have hnone : ((List.range 16).any fun i => (dmaAt s i).busy) = false := List.any_eq_false.mpr fun i hi => by simp [h i (List.mem_range.mp hi)]
  simp [dmaHaltEvent, hnone]

theorem dmaHaltEvent_halts {s : State} {c resp : Nat} (hc : c < 16) (hr : resp ≠ 0) (hb : (dmaAt s c).busy = true) (hd : (dmaAt s c).desc ≠ none)
    (a : Nat) (last : Bool) (issued : Nat → Nat) :
    let t := (List.range 16).foldl (fun s i => dmaHaltCh (if last then some c else none) resp issued i s) (haltLogged c a resp last s)
    dmaHaltEvent c a resp last issued s = orReg Reg.DMA_GSTAT 0x10000#32 { t with dma := { t.dma with errAddr := a, errResp := resp } } := by
  have hsome : ((List.range 16).any fun i => (dmaAt s i).busy) = true := List.any_eq_true.mpr ⟨c, List.mem_range.mpr hc, hb⟩
  have hlast : (last && (dmaAt s c).busy && (dmaAt s c).desc.isSome) = last := by simp [hb, Option.isSome_iff_ne_none.mpr hd]
  unfold dmaHaltEvent
  dsimp only
  rw [if_neg (by simp [hr, hsome]), hlast]
  simp only [haltLogged]

end Sys2Proof.Machine
end

section
/-! The DMA engine (R414–R422). -/

open Sys2Proof Sys2Proof.Machine

/-- Settles O48, command by command, then mode by mode. -/
theorem dmaChannels : Obligations.DmaChannels := by
  refine ⟨fun s c hi => ⟨fun m hm => ?_, ?_, fun d u hb ha hd hm hregs herr hdma => ?_, fun d n u hb ha hd hm hdma => ?_, fun a r issued h => ?_,
    fun a r issued hr hb hd last => ?_⟩, fun d bs h => ?_, fun d bs n h hl => dmaData_mode1 h hl, fun d bs n h hl => dmaData_mode2 h hl⟩
  · rw [← hm]
    exact ⟨fun h => ⟨gives_done rfl (dmaStart_busy h), gives_done rfl (dmaAbort_busy h)⟩, fun h => gives_done rfl (dmaAbort_idle h),
      fun h hh => gives_done rfl (dmaStart_halted h hh), fun h hh => gives_done rfl (dmaStart_starts h hh)⟩
  · intro b d y hb hd ha hal hlt hto ho u
    have hread := dmaDescFetched_reads hi hb hd ha hal hlt hto ho
    refine ⟨fun hbad => gives_done rfl (hread.trans ?_), fun hbad hal => gives_done rfl (hread.trans ?_), fun hbad hal => gives_done rfl (hread.trans ?_)⟩
    · rw [if_pos hbad, dmaStop_quiet c.isLt]
      rfl
    · rw [if_neg (by simpa using hbad), if_pos hal]
      rfl
    · rw [if_neg (by simpa using hbad), if_neg (by simpa using hal), report_putDma rfl, dmaStop_irq c.isLt]
      rfl
  · have hdone := dmaDescDone_moved hb ha hd hm
    have hinj : NoInjection (if d.irq then dmaIrq c.val u else u) := hi.congr (by rw [← herr]; split <;> rfl)
    have hmax : reg (if d.irq then dmaIrq c.val u else u) Reg.DMA_CHAIN_MAX = reg s Reg.DMA_CHAIN_MAX := by
      have hreg : reg u Reg.DMA_CHAIN_MAX = reg s Reg.DMA_CHAIN_MAX := by rw [reg, hregs, reg]
      have hother : Reg.DMA_CHAIN_MAX ≠ Reg.DMA_IRQ := by decide
      split
      · rw [reg_dmaIrq c.isLt hother, hreg]
      · exact hreg
    refine ⟨fun h => gives_done rfl (hdone.trans ?_), fun h hl => gives_done rfl (hdone.trans ?_), fun h hcirc hl => gives_done rfl (hdone.trans ?_)⟩
    · rw [dmaNext_ends c.isLt h]
      rfl
    · rw [dmaNext_follows hinj c.isLt h (y := descCounted (dmaAt s c)) (by rw [hmax]; exact hl)]
      rfl
    · rw [dmaNext_loops hinj c.isLt h (y := descCounted (dmaAt s c)) hcirc (by rw [hmax]; exact hl)]
      rfl
  · have hstop := (dmaAborted_stops hb ha hd hm).trans (dmaStop_here ..)
    rw [dmaAt_congr hdma] at hstop
    exact gives_done rfl hstop
  · exact gives_done rfl (dmaHaltEvent_idle h ..)
  · have hresp : r.toNat ≠ 0 := fun h0 => hr (BitVec.eq_of_toNat_eq h0)
    have hhalts := dmaHaltEvent_halts c.isLt hresp hb hd a.toNat last fun i => vget 0 issued i
    obtain ⟨-, hstop⟩ := haltChannels (one := if last then some c.val else none) (resp := r.toNat) (fun i => vget 0 issued i)
      (haltLogged c.val a.toNat r.toNat last s) le_rfl
    have hwas (i : Nat) : dmaAt (haltLogged c.val a.toNat r.toNat last s) i = dmaAt s i := dmaAt_congr (haltLogged_dma ..) i
    simp only [hwas] at hstop
    generalize (List.range 16).foldl _ (haltLogged c.val a.toNat r.toNat last s) = t at hhalts hstop
    refine goes_done rfl hhalts ⟨rfl, rfl, fun i h => (hstop i h).1, ((hstop c.val c.isLt).2 hb).trans ?_, fun i h hne hbi => ((hstop i h).2 hbi).trans ?_⟩
    · cases last with
      | true => simp [haltCode, hd]
      | false => simp [haltCode]
    · cases last with
      | true => simp [haltCode, Ne.symm hne]
      | false => simp [haltCode]
  · rw [dmaData, if_pos h]
end

section
/-! The registers behind the host's ports (R4, R5, R477, R478): one aligned word of the register space, from the host's request to the register. -/

namespace Sys2Proof.Machine

/-! ### A plain register -/

/-- SYS_IRQ_PIN as the register map has it (R485). -/
def pinRow : RegRow := { off := Reg.SYS_IRQ_PIN, acc := .rw, rw := 0xFFFF#32 }

theorem rowAt_pin : Reg.rowAt Reg.SYS_IRQ_PIN = some pinRow := by decide

theorem regRead_pin (m : Master) (s : State) : regRead m Reg.SYS_IRQ_PIN s = (s, reg s Reg.SYS_IRQ_PIN) := by
  rw [regRead, rowAt_pin]
  rfl

theorem regWrite_pin (m : Master) (v : Word) (s : State) :
    regWrite m Reg.SYS_IRQ_PIN v s = (setReg Reg.SYS_IRQ_PIN (v &&& 0xFFFF#32) s, true) := by
  have haction : actions.find? (fun a => a.off == Reg.SYS_IRQ_PIN) = none := rfl
  have hrow : rowWrite m pinRow Reg.SYS_IRQ_PIN v s = setReg Reg.SYS_IRQ_PIN (v &&& 0xFFFF#32) s := by
    rw [rowWrite, haction]
    rfl
  rw [regWrite, if_neg (by decide), rowAt_pin]
  exact congrArg (·, true) hrow

/-! ### Its bursts -/

theorem leNat_leBytes (v : Word) : leNat (leBytes v) = v.toNat := by
  have hv := v.isLt
  simp only [leBytes, leNat, BitVec.extractLsb'_toNat, Nat.shiftRight_eq_div_pow]
  omega

theorem pieceBurst_beats (write : Bool) (p : HostPiece) : (pieceBurst write p).beats = beatsOf p.a p.bs := rfl
theorem pieceBurst_addr (write : Bool) (p : HostPiece) : (pieceBurst write p).addr = BitVec.ofNat 36 (p.a / 16 * 16) := rfl

theorem leNat_zeros (n : Nat) (l : List Byte) : leNat (List.replicate n 0#8 ++ l) = 256 ^ n * leNat l := by
  induction n with
  | zero => simp
  | succ n ih =>
    rw [List.replicate_succ, List.cons_append, leNat, ih, Nat.pow_succ]
    simp only [BitVec.toNat_ofNat, Nat.zero_mod, Nat.zero_add]
    ring

/-- The host's write of the register, and its read, as bursts. -/
def pinWrite (v : Word) : Burst := pieceBurst true ⟨Reg.SYS_IRQ_PIN, (leBytes v).map some⟩
def pinRead : Burst := pieceBurst false ⟨Reg.SYS_IRQ_PIN, wantBytes 4⟩

theorem beatsOf_pin (v : Word) :
    beatsOf Reg.SYS_IRQ_PIN ((leBytes v).map some) = [⟨0xF00#16, BitVec.ofNat 128 (v.toNat * 2 ^ 64)⟩] := by
  have hen : (2#16 ^ 8 ||| 2#16 ^ 9 ||| 2#16 ^ 10 ||| 2#16 ^ 11) = 0xF00#16 := by decide
  have hdata : leNat ([0#8, 0#8, 0#8, 0#8, 0#8, 0#8, 0#8, 0#8] ++ leBytes v) = v.toNat * 2 ^ 64 := by
    refine (leNat_zeros 8 (leBytes v)).trans ?_
    rw [leNat_leBytes, Nat.mul_comm]
    norm_num
  rw [← hdata]
  unfold beatsOf
  simp [chunks, chunksAux, Reg.SYS_IRQ_PIN, leBytes, hen]

theorem pinWrite_beats (v : Word) : (pinWrite v).beats = [⟨0xF00#16, BitVec.ofNat 128 (v.toNat * 2 ^ 64)⟩] := by
  rw [pinWrite, pieceBurst_beats]
  exact beatsOf_pin v

theorem pinWrite_addr (v : Word) : (pinWrite v).addr = 0x100#36 := by
  rw [pinWrite, pieceBurst_addr]
  show BitVec.ofNat 36 (Reg.SYS_IRQ_PIN / 16 * 16) = 0x100#36
  rfl

theorem pinRead_addr : pinRead.addr = 0x100#36 := by decide

theorem burstWords_pinWrite (v : Word) : burstWords (pinWrite v) = [⟨Reg.SYS_IRQ_PIN, 15#4, v⟩] := by
  have hdata : (BitVec.ofNat 128 (v.toNat * 2 ^ 64)).extractLsb' 64 32 = v := by
    have hv := v.isLt
    apply BitVec.eq_of_toNat_eq
    rw [BitVec.extractLsb'_toNat, BitVec.toNat_ofNat, Nat.shiftRight_eq_div_pow]
    omega
  rw [burstWords, pinWrite_beats, pinWrite_addr]
  generalize BitVec.ofNat 128 (v.toNat * 2 ^ 64) = d at hdata
  rw [show List.range 4 = [0, 1, 2, 3] from rfl]
  simp [Reg.SYS_IRQ_PIN, hdata]

theorem burstWords_pinRead : burstWords pinRead = [⟨Reg.SYS_IRQ_PIN, 15#4, 0#32⟩] := by decide

theorem pathOf_register (lc : Nat) : pathOf lc .host 7 = .rw := rfl

theorem noTarget_pin {b : Burst} (hm : b.master = .host) (ha : b.addr = 0x100#36) (s : State) : noTarget s b = false := by
  have htarget : targetOf (0x100#36).toNat = 7 := by decide
  have hblock : decide (0x150000 ≤ (0x100#36).toNat) = false := by decide
  rw [noTarget, hm, ha, htarget, hblock, pathOf_register]
  rfl

theorem targetServe_register {b : Burst} (ha : b.addr = 0x100#36) (s : State) : targetServe b s = (regBurst b s, true) := by
  rw [targetServe, if_pos]
  rw [ha]
  decide

/-- The register bridge writes the word. -/
theorem busServe_pinWrite {s : State} (h : BusIdle s) (v : Word) :
    busServe (pinWrite v) s = (⟨setReg Reg.SYS_IRQ_PIN (v &&& 0xFFFF#32) (portTaken (pinWrite v) s), rPass, []⟩, true) := by
  have hlength : (pinWrite v).beats.length = 1 := by rw [pinWrite_beats]; rfl
  have hserve : regBurst (pinWrite v) (portTaken (pinWrite v) s) = ⟨setReg Reg.SYS_IRQ_PIN (v &&& 0xFFFF#32) (portTaken (pinWrite v) s), rPass, []⟩ := by
    have hwrite : (pinWrite v).write = true := rfl
    simp [regBurst, burstWords_pinWrite, hlength, hwrite, regWrite_pin]
  have haddr := pinWrite_addr v
  refine busServe_served h ?_ ?_ (noTarget_pin rfl haddr s) rfl ((targetServe_register haddr _).trans (by rw [hserve])) (portTaken_lock ..)
  · rw [burstOk, hlength, haddr]
    decide
  · rw [burst4k, hlength, haddr]
    decide

/-- The register bridge reads the word. -/
theorem busServe_pinRead {s : State} (h : BusIdle s) :
    busServe pinRead s = (⟨portTaken pinRead s, rPass, [(Reg.SYS_IRQ_PIN, reg s Reg.SYS_IRQ_PIN)]⟩, true) := by
  have hreg : reg (portTaken pinRead s) Reg.SYS_IRQ_PIN = reg s Reg.SYS_IRQ_PIN := by
    obtain ⟨_, _, _, _, hport⟩ := portTaken_frame pinRead s
    rw [hport]
    rfl
  have hlength : pinRead.beats.length = 1 := by decide
  have hserve : regBurst pinRead (portTaken pinRead s) = ⟨portTaken pinRead s, rPass, [(Reg.SYS_IRQ_PIN, reg s Reg.SYS_IRQ_PIN)]⟩ := by
    have hwrite : pinRead.write = false := rfl
    simp [regBurst, burstWords_pinRead, hlength, hwrite, regRead_pin, hreg]
  exact busServe_served h (by decide) (by decide) (noTarget_pin rfl pinRead_addr s) rfl ((targetServe_register pinRead_addr _).trans (by rw [hserve])) (portTaken_lock ..)

/-! ### The host's requests for it (R476–R478) -/

theorem hostWrites_pin {s : State} (h : BusIdle s) (v : Word) : hostWrites [⟨Reg.SYS_IRQ_PIN, (leBytes v).map some⟩] s =
    setReg Reg.SYS_IRQ_PIN (v &&& 0xFFFF#32) (portTaken (pinWrite v) s) := by
  have hserve := busServe_pinWrite h v
  rw [hostWrites, List.foldl_cons, List.foldl_nil]
  dsimp only
  rw [← pinWrite, hserve]
  exact hostNote_pass ..

theorem hostReads_pin {s : State} (h : BusIdle s) : hostReads [⟨Reg.SYS_IRQ_PIN, wantBytes 4⟩] s =
    ⟨portTaken pinRead s, leBytes (reg s Reg.SYS_IRQ_PIN), false⟩ := by
  have hserve := busServe_pinRead h
  rw [hostReads, List.foldl_cons, List.foldl_nil]
  dsimp only
  rw [← pinRead, hserve, hostNote_pass]
  rfl

theorem BusIdle.congr {s t : State} (h : BusIdle s) (hf : t.fab = s.fab) (hc : t.msvc = s.msvc) (hr : t.regs = s.regs) (he : t.err = s.err) :
    BusIdle t :=
  ⟨hf ▸ h.wait, hc ▸ h.collided, fun i => by rw [lockAt, hf]; exact h.lock i, fun i => by rw [hf]; exact h.broken i,
    by rw [lockLen, reg, hr]; exact h.len, h.inj.congr (by rw [he])⟩

theorem pcieWrite_pin {s : State} (h : BusIdle s) (hs : s.sys.straps.hostif = false) (hu : s.host.up = true) (hd : s.host.d3 = false) (v : Word) :
    pcieWrite false Reg.SYS_IRQ_PIN ((leBytes v).map some) s = setReg Reg.SYS_IRQ_PIN (v &&& 0xFFFF#32) (portTaken (pinWrite v) s) := by
  have hpieces : pciePieces s false Reg.SYS_IRQ_PIN ((leBytes v).map some) = [⟨Reg.SYS_IRQ_PIN, (leBytes v).map some⟩] := rfl
  rw [pcieWrite, if_pos (by simp [pcieServes, hs, hu, hd]), hpieces, hostWrites_pin h]

theorem pcieRead_pin {s : State} (h : BusIdle s) (hs : s.sys.straps.hostif = false) (hu : s.host.up = true) (hd : s.host.d3 = false) :
    pcieRead false Reg.SYS_IRQ_PIN 4 s = emit (.completion (leBytes (reg s Reg.SYS_IRQ_PIN)) false) (portTaken pinRead s) := by
  have hpieces : pciePieces s false Reg.SYS_IRQ_PIN (wantBytes 4) = [⟨Reg.SYS_IRQ_PIN, wantBytes 4⟩] := rfl
  rw [pcieRead, if_neg (by simp [pcieServes, hs, hu, hd]), hpieces, hostReads_pin h]
  rfl

theorem pcieWrite_silent {s : State} (h : ¬ (s.sys.straps.hostif = false ∧ s.host.up = true ∧ s.host.d3 = false)) (bar2 : Bool) (off : Nat)
    (bs : List (Option Byte)) : pcieWrite bar2 off bs s = s :=
  if_neg fun hp => h (by simpa [pcieServes, and_assoc] using hp)

theorem pcieRead_silent {s : State} (h : ¬ (s.sys.straps.hostif = false ∧ s.host.up = true ∧ s.host.d3 = false)) (bar2 : Bool) (off n : Nat) :
    pcieRead bar2 off n s = s :=
  if_pos (by
    rw [Bool.not_eq_true', Bool.eq_false_iff]
    exact fun hp => h (by simpa [pcieServes, and_assoc] using hp))

theorem spiPieces_word (bs : List (Option Byte)) (h : bs.length = 4) :
    spiPieces (BitVec.ofNat 36 Reg.SYS_IRQ_PIN) bs = [⟨Reg.SYS_IRQ_PIN, bs⟩] := by
  have haddr : (BitVec.ofNat 36 Reg.SYS_IRQ_PIN).toNat / 4 * 4 = Reg.SYS_IRQ_PIN := by decide
  have hempty : bs.isEmpty = false := by cases bs <;> simp_all
  have htake : bs.take 4 = bs := List.take_of_length_le (by omega)
  have hdrop : bs.drop 4 = [] := List.drop_of_length_le (by omega)
  rw [spiPieces, haddr]
  simp [cutAt, hempty, Reg.SYS_IRQ_PIN, htake, hdrop, chunks, chunksAux_nil]

theorem spiWrite_pin {s : State} (h : BusIdle s) (v : Word) :
    ∃ fab : FabState, spiWrite (BitVec.ofNat 36 Reg.SYS_IRQ_PIN) (leBytes v) s =
      { setReg Reg.SYS_IRQ_PIN (v &&& 0xFFFF#32) s with fab, host := { s.host with spiErr := false } } ∧ fab.wait = s.fab.wait := by
  have hidle : BusIdle { s with host := { s.host with spiErr := false } } := h.congr rfl rfl rfl rfl
  have hdata : spiData (leBytes v) = (leBytes v).map some := by simp [spiData, leBytes]
  have hwhole : ((leBytes v).take 256).length % 4 = 0 := by simp [leBytes]
  obtain ⟨last, taken, lastAddr, lastWr, hport⟩ := portTaken_frame (pinWrite v) { s with host := { s.host with spiErr := false } }
  have hwrites := hostWrites_pin hidle v
  rw [hport] at hwrites
  refine ⟨{ s.fab with last, taken, lastAddr, lastWr }, ?_, rfl⟩
  unfold spiWrite
  dsimp only
  rw [hdata, spiPieces_word _ (by simp [leBytes]), hwrites, hwhole]
  rfl

theorem spiRead_pin {s : State} (h : BusIdle s) :
    ∃ fab : FabState, spiRead (BitVec.ofNat 36 Reg.SYS_IRQ_PIN) 4 s = emit (.miso (0xA5#8 :: leBytes (reg s Reg.SYS_IRQ_PIN))) { s with fab } ∧
      fab.wait = s.fab.wait := by
  obtain ⟨last, taken, lastAddr, lastWr, hport⟩ := portTaken_frame pinRead s
  have hreads := hostReads_pin h
  rw [hport] at hreads
  refine ⟨{ s.fab with last, taken, lastAddr, lastWr }, ?_, rfl⟩
  unfold spiRead
  dsimp only
  rw [show Nat.min 256 4 = 4 from rfl, spiPieces_word _ (by decide), hreads]
  simp

end Sys2Proof.Machine
end

section
/-! Interrupt messages, the resets of the endpoint and the flash master (R412, R475, R479, R484, R486). -/

namespace Sys2Proof.Machine

/-! ### The vectors that are pending rest on registers below the MSI-X table -/

/-- Every register below the MSI-X table reads as before. -/
def SameCauses (s t : State) : Prop := ∀ off inst, off < Reg.MSIX_TBL → regAt t off inst = regAt s off inst

theorem SameCauses.reg {s t : State} (h : SameCauses s t) {off : Nat} (ho : off < Reg.MSIX_TBL) : reg t off = reg s off := by
  have hkey : regKey off 0 = off := by simp [regKey]
  have hat := h off 0 ho
  rwa [regAt, regAt, hkey] at hat

theorem irqCauses_congr {s t : State} (h : SameCauses s t) (hn : t.net = s.net) : irqCauses t = irqCauses s := by
  have hport (p : Nat) : portIrq t p = portIrq s p := by
    simp only [portIrq, h Reg.PORT_CTRL p (by decide), h Reg.PORT_STAT p (by decide)]
  have hstream (i : Nat) : regAt t Reg.STR_STAT i = regAt s Reg.STR_STAT i := h Reg.STR_STAT i (by decide)
  have hnet : netCause t = netCause s := by
    simp only [netCause, h.reg (off := Reg.NET_STAT0) (by decide), h.reg (off := Reg.NET_STAT1) (by decide), hn, hstream]
  have herr : errCause t = errCause s := by
    simp only [errCause, h.reg (off := Reg.ERR_STAT) (by decide), h.reg (off := Reg.ERR_CTRL) (by decide)]
  have hports (lo n : Nat) : portIrqs t lo n = portIrqs s lo n := by simp only [portIrqs, hport]
  simp only [irqCauses, hports, hnet, herr, h.reg (off := Reg.SYS_IRQ_CAUSE) (by decide), h.reg (off := Reg.TIME_STAT) (by decide),
    h.reg (off := Reg.REF_HIST) (by decide), h.reg (off := Reg.REF_IRQEN) (by decide), h.reg (off := Reg.DMA_IRQ) (by decide),
    h.reg (off := Reg.DMA_IRQEN) (by decide), h.reg (off := Reg.FAB_STAT) (by decide), h.reg (off := Reg.TWIN_STAT) (by decide),
    h.reg (off := Reg.TWIN_IRQEN) (by decide), h.reg (off := Reg.PWR_STAT) (by decide), h.reg (off := Reg.SCENE_EVT) (by decide)]

theorem vecsPending_congr {s t : State} (h : SameCauses s t) (hn : t.net = s.net) (hs : t.sys = s.sys) : vecsPending t = vecsPending s := by
  have hactive : irqActive t = irqActive s := by
    simp only [irqActive, h.reg (off := Reg.SYS_IRQ_EN) (by decide), irqCauses_congr h hn]
  have hvec (c : Nat) (hc : c ∈ List.range 16) : vecOf t c = vecOf s c := by
    have hmap : Reg.SYS_IRQ_MAP + 4 * (c / 4) < Reg.MSIX_TBL := by
      have hc := List.mem_range.mp hc
      simp only [Reg.SYS_IRQ_MAP, Reg.MSIX_TBL]
      omega
    rw [vecOf, h.reg hmap, vecOf]
  have hfold : (List.range 16).foldl (fun v c => if bitAt (irqActive s) c then v ||| BitVec.ofNat 64 (2 ^ vecOf t c) else v) 0#64 =
      (List.range 16).foldl (fun v c => if bitAt (irqActive s) c then v ||| BitVec.ofNat 64 (2 ^ vecOf s c) else v) 0#64 :=
    List.foldl_ext _ _ _ fun v c hc => by rw [hvec c hc]
  simp only [vecsPending, hactive, hs, hfold]

/-- A write into the MSI-X table changes no cause. -/
theorem sameCauses_msix {s : State} (hw : tabWf 0#32 s.regs = true) {k : Nat} (hlo : Reg.MSIX_TBL ≤ k) (hhi : k < Reg.MSIX_TBL + 1024) (v : Word) :
    SameCauses s (setReg k v s) := fun off inst ho => by
  have hkey : regKey off inst ≠ k := by
    simp only [regKey, Reg.MSIX_TBL] at hlo hhi ho ⊢
    omega
  exact (tget_tset hw).trans (if_neg hkey)

theorem vecList_none {v : BitVec 64} (h : v = 0#64) : vecList v = [] := if_pos h

/-- Where the pending vectors are those already known, the end of a command sends nothing. -/
theorem settle_quiet {s : State} (h : vecsPending s = s.host.vecs) : (settle s).out = s.out ∧ (settle s).host.pba = s.host.pba := by
  have hnew : vecList (vecsPending s &&& ~~~s.host.vecs) = [] := vecList_none (by rw [h]; exact BitVec.and_not_self _)
  refine ⟨?_, ?_⟩
  · show s.out ++ ((vecList (vecsPending s &&& ~~~s.host.vecs)).filter _).map _ = _
    rw [hnew]
    simp
  · show (vecList (vecsPending s &&& ~~~s.host.vecs)).foldl _ _ = _
    rw [hnew]
    rfl

/-! ### SYS_IRQ_ACK and an unmasked vector -/

theorem irqAck_sends {s : State} {v : Nat} (h : (vecsPending s).getLsbD v = true) (hm : vecMasked s v = false) :
    irqAck v s = emit (vecMsg s v) s := by
  simp [irqAck, vecNow, h, hm]

theorem irqAck_masked {s : State} {v : Nat} (h : (vecsPending s).getLsbD v = true) (hm : vecMasked s v = true) :
    irqAck v s = { s with host := { s.host with pba := s.host.pba ||| BitVec.ofNat 64 (2 ^ v) } } := by
  simp [irqAck, vecNow, h, hm]

theorem irqAck_idle {s : State} {v : Nat} (h : (vecsPending s).getLsbD v = false) : irqAck v s = s := by
  simp [irqAck, vecNow, h]

/-- The entry of a vector with its mask cleared, and its PBA bit taken. -/
def unmasked (n : Nat) (s : State) : State :=
  { setReg (Reg.MSIX_TBL + 16 * n + 12) (reg s (Reg.MSIX_TBL + 16 * n + 12) &&& ~~~1#32) s with
    host := { s.host with pba := s.host.pba &&& ~~~BitVec.ofNat 64 (2 ^ n) } }

theorem unmasked_vecs {n : Nat} (hn : n < 64) {s : State} (hw : tabWf 0#32 s.regs = true) : vecsPending (unmasked n s) = vecsPending s :=
  vecsPending_congr (sameCauses_msix hw (by omega) (by omega) _) rfl rfl

theorem unmasked_mask {n : Nat} {s : State} (hw : tabWf 0#32 s.regs = true) : vecMasked (unmasked n s) n = false := by
  have hreg : reg (unmasked n s) (Reg.MSIX_TBL + 16 * n + 12) = reg s (Reg.MSIX_TBL + 16 * n + 12) &&& ~~~1#32 :=
    (tget_tset hw).trans (if_pos rfl)
  rw [vecMasked, hreg]
  simp [bitAt]

theorem unmasked_pba {n : Nat} (hn : n < 64) (s : State) : (unmasked n s).host.pba.getLsbD n = false := by
  show (s.host.pba &&& ~~~BitVec.ofNat 64 (2 ^ n)).getLsbD n = false
  rw [BitVec.getLsbD_and, BitVec.getLsbD_not, BitVec.getLsbD_ofNat, Nat.testBit_two_pow_self, decide_eq_true hn]
  exact Bool.and_false _

theorem unmasked_msg {n : Nat} {s : State} (hw : tabWf 0#32 s.regs = true) : vecMsg (unmasked n s) n = vecMsg s n := by
  have hreg (j : Nat) (hj : j < 12) : reg (unmasked n s) (Reg.MSIX_TBL + 16 * n + j) = reg s (Reg.MSIX_TBL + 16 * n + j) :=
    (tget_tset hw).trans (if_neg (by omega))
  have hbase := hreg 0 (by decide)
  rw [Nat.add_zero] at hbase
  simp only [vecMsg, hreg 4 (by decide), hreg 8 (by decide), hbase]

theorem msixUnmask_sends (n : Nat) (s : State) : msixUnmask n s =
    if s.host.pba.getLsbD n && vecNow (unmasked n s) n then emit (vecMsg (unmasked n s) n) (unmasked n s) else unmasked n s := rfl

/-! ### The endpoint's resets -/

theorem burstComplete_none {s : State} (hi : NoInjection s) (m : Master) (perform : Burst → State → State) : burstComplete m perform none s = s := by
  unfold burstComplete
  dsimp only
  rw [detect_clear hi (by rfl)]
  rfl

/-- The reset of a master with no burst in progress, where nothing waits (R412). -/
theorem masterReset_quiet {s : State} (hi : NoInjection s) (hw : s.fab.wait = []) (m : Master) (perform : Burst → State → State) :
    ∃ fab : FabState, masterReset m perform none s = { s with fab, banks := vput s.banks (mNum m) {} } ∧ fab.wait = [] := by
  refine ⟨(masterReset m perform none s).fab, ?_, ?_⟩
  · unfold masterReset
    rw [burstComplete_none hi]
  · unfold masterReset
    rw [burstComplete_none hi]
    show s.fab.wait.filter _ = []
    rw [hw, List.filter_nil]

theorem mNum_injective {m n : Master} (h : mNum m = mNum n) : m = n := by
  cases m <;> cases n <;> simp_all [mNum]

theorem bank_reset {s t : State} {m : Master} (h : t.banks = vput s.banks (mNum m) {}) :
    bank t m = {} ∧ ∀ x, x ≠ m → bank t x = bank s x := by
  refine ⟨?_, fun x hx => ?_⟩
  · rw [bank, h, vget_vput, ite_self]
  · rw [bank, h, vget_vput_ne _ _ _ fun he => hx (mNum_injective he).symm, bank]

theorem foldl_setReg (f : Nat → Nat) (g : Nat → Word) (l : List Nat) (s : State) :
    l.foldl (fun s i => setReg (f i) (g i) s) s = { s with regs := l.foldl (fun t i => tset 0#32 t (f i) (g i)) s.regs } := by
  induction l generalizing s with
  | nil => rfl
  | cons i l ih => exact ih _

/-- A run of registers written with a value each. -/
theorem tget_foldl_run {t : Tab Word} (h : tabWf 0#32 t = true) (base : Nat) (g : Nat → Word) (n j : Nat) :
    tget 0#32 ((List.range n).foldl (fun t i => tset 0#32 t (base + 4 * i) (g i)) t) (base + 4 * j) = if j < n then g j else tget 0#32 t (base + 4 * j) := by
  induction n with
  | zero => rfl
  | succ n ih =>
    rw [List.range_succ, List.foldl_append, List.foldl_cons, List.foldl_nil, tget_tset (foldl_tset_tabWf _ _ _ h), ih]
    by_cases hj : j = n
    · simp [hj]
    · rw [if_neg (by omega)]
      by_cases hlt : j < n
      · rw [if_pos hlt, if_pos (by omega)]
      · rw [if_neg hlt, if_neg (by omega)]

/-- The endpoint's registers after its reset, but for HOST_STAT. -/
def endpointRegs (s : State) : State := setReg Reg.HOST_LOCK 0#32 (setReg Reg.HOST_DWIN 0#32 (msixReset s))

theorem msixReset_frame (s : State) : ∃ regs, msixReset s = { s with regs } ∧ (tabWf 0#32 s.regs = true →
    tabWf 0#32 regs = true ∧ tget 0#32 regs (Reg.MSIX_TBL + 4 * 255) = 1#32) := by
  refine ⟨_, foldl_setReg (fun i => Reg.MSIX_TBL + 4 * i) (fun i => if i % 4 = 3 then 1#32 else 0#32) _ s, fun hw => ⟨foldl_tset_tabWf _ _ _ hw, ?_⟩⟩
  rw [tget_foldl_run hw Reg.MSIX_TBL (fun i => if i % 4 = 3 then 1#32 else 0#32), if_pos (by decide)]
  rfl

theorem endpointRegs_frame (s : State) : ∃ regs, endpointRegs s = { s with regs } ∧ (tabWf 0#32 s.regs = true →
    tabWf 0#32 regs = true ∧ tget 0#32 regs Reg.HOST_LOCK = 0#32 ∧ tget 0#32 regs Reg.HOST_DWIN = 0#32 ∧
    tget 0#32 regs (Reg.MSIX_TBL + 4 * 255) = 1#32) := by
  obtain ⟨r, hmsix, hr⟩ := msixReset_frame s
  refine ⟨tset 0#32 (tset 0#32 r Reg.HOST_DWIN 0#32) Reg.HOST_LOCK 0#32, by rw [endpointRegs, hmsix]; rfl, fun hw => ?_⟩
  obtain ⟨hrw, hmask⟩ := hr hw
  have hdwin := tset_tabWf (i := Reg.HOST_DWIN) (v := 0#32) hrw
  have hwindow : Reg.HOST_DWIN ≠ Reg.HOST_LOCK := by decide
  have hlocked : Reg.MSIX_TBL + 4 * 255 ≠ Reg.HOST_LOCK := by decide
  have hwindowed : Reg.MSIX_TBL + 4 * 255 ≠ Reg.HOST_DWIN := by decide
  refine ⟨tset_tabWf hdwin, ?_, ?_, ?_⟩
  · rw [tget_tset hdwin, if_pos rfl]
  · rw [tget_tset hdwin, if_neg hwindow, tget_tset hrw, if_pos rfl]
  · rw [tget_tset hdwin, if_neg hlocked, tget_tset hrw, if_neg hwindowed, hmask]

end Sys2Proof.Machine
end

section
/-! What the endpoint's resets and the flash master leave (R412, R475, R479, R486). -/

namespace Sys2Proof.Machine

/-! ### The reset of the endpoint -/

/-- What a reset of the endpoint leaves: the HOST master is at reset, nothing else is touched. -/
def EndpointCleared (s t : State) : Prop :=
  bank t .host = {} ∧ t.host.d3 = false ∧ t.mem = s.mem ∧ t.eng = s.eng ∧ (∀ x, x ≠ Master.host → bank t x = bank s x) ∧
    (tabWf 0#32 s.regs = true → lockLen t = 0 ∧ reg t Reg.HOST_DWIN = 0#32 ∧ vecMasked t 63 = true)

/-- The state after the endpoint's reset, from its registers and the fabric's port state. -/
def endpointAfter (regs : Tab Word) (fab : FabState) (s : State) : State :=
  { s with regs, fab, banks := vput s.banks (mNum .host) {}, host := { s.host with d3 := false, vecs := 0#64, pba := 0#64 } }

theorem endpointReset_eq {s : State} (hi : NoInjection s) (hw : s.fab.wait = []) (bits : Word) (perform : Burst → State → State) :
    ∃ regs fab, endpointReset bits perform none s = orReg Reg.HOST_STAT bits (endpointAfter regs fab s) ∧ fab.wait = [] ∧
      (tabWf 0#32 s.regs = true → tabWf 0#32 regs = true ∧ tget 0#32 regs Reg.HOST_LOCK = 0#32 ∧
        tget 0#32 regs Reg.HOST_DWIN = 0#32 ∧ tget 0#32 regs (Reg.MSIX_TBL + 4 * 255) = 1#32) := by
  obtain ⟨fab, hreset, hwait⟩ := masterReset_quiet hi hw .host perform
  obtain ⟨regs, hregs, hclear⟩ := endpointRegs_frame { s with fab, banks := vput s.banks (mNum .host) {} }
  refine ⟨regs, fab, ?_, hwait, hclear⟩
  unfold endpointReset
  rw [hreset]
  dsimp only
  rw [← endpointRegs, hregs]
  rfl

theorem endpointReset_cleared {s : State} (hi : NoInjection s) (hw : s.fab.wait = []) (bits : Word) (perform : Burst → State → State) :
    (endpointReset bits perform none s).fab.wait = [] ∧ (endpointReset bits perform none s).host.up = s.host.up ∧
      EndpointCleared s (endpointReset bits perform none s) ∧
      (tabWf 0#32 s.regs = true → ∃ was, reg (endpointReset bits perform none s) Reg.HOST_STAT = was ||| bits) := by
  obtain ⟨regs, fab, hreset, hwait, hclear⟩ := endpointReset_eq hi hw bits perform
  rw [hreset]
  obtain ⟨hown, hothers⟩ := bank_reset (s := s) (t := orReg Reg.HOST_STAT bits (endpointAfter regs fab s)) (m := .host) rfl
  refine ⟨hwait, rfl, ⟨hown, rfl, rfl, rfl, hothers, fun h => ?_⟩, fun h => ?_⟩
  · obtain ⟨hregs, hlock, hwindow, hmask⟩ := hclear h
    have hread {off : Nat} (hne : off ≠ Reg.HOST_STAT) : reg (orReg Reg.HOST_STAT bits (endpointAfter regs fab s)) off = tget 0#32 regs off :=
      (reg_orReg hregs _ off bits).trans (if_neg hne)
    have hlock' := hread (off := Reg.HOST_LOCK) (by decide)
    have hwindow' := hread (off := Reg.HOST_DWIN) (by decide)
    have hmask' := hread (off := Reg.MSIX_TBL + 16 * 63 + 12) (by decide)
    refine ⟨?_, hwindow'.trans hwindow, ?_⟩
    · rw [lockLen, hlock', hlock]
      rfl
    · rw [vecMasked, hmask', hmask]
      rfl
  · obtain ⟨hregs, _⟩ := hclear h
    exact ⟨_, (reg_orReg hregs _ _ bits).trans (if_pos rfl)⟩

/-- The end of a command, and the fields of the endpoint's link, leave what the reset cleared. -/
theorem EndpointCleared.settled {s t u : State} (h : EndpointCleared s t) (hb : u.banks = t.banks) (hd : u.host.d3 = t.host.d3) (hm : u.mem = t.mem)
    (he : u.eng = t.eng) (hr : u.regs = t.regs) : EndpointCleared s (settle u) := by
  have hbank (m : Master) : bank (settle u) m = bank t m := by rw [settle_bank, bank, hb, bank]
  have hreg (off : Nat) : reg (settle u) off = reg t off := by rw [settle_reg, reg, hr, reg]
  obtain ⟨hown, hpower, hmem, heng, hothers, hregs⟩ := h
  refine ⟨(hbank _).trans hown, hd.trans hpower, hm.trans hmem, he.trans heng, fun x hx => (hbank x).trans (hothers x hx), fun hw => ?_⟩
  obtain ⟨hlock, hwindow, hmask⟩ := hregs hw
  rw [lockLen, vecMasked, hreg, hreg, hreg]
  exact ⟨hlock, hwindow, hmask⟩

/-! ### The flash master's buffer -/

theorem flatMap_getD {α : Type} {m n i j : Nat} {f : Nat → List α} (h : ∀ i, i < n → (f i).length = m) (hi : i < n) (hj : j < m) (d : α) :
    ((List.range n).flatMap f).getD (m * i + j) d = (f i).getD j d := by
  rw [← (flatMap_blocks h).2 i hi]
  simp [List.getD_eq_getElem?_getD, hj, List.getElem?_drop]

theorem qspiBuf_getD (s : State) {i j : Nat} (hi : i < 64) (hj : j < 4) :
    (qspiBuf s).getD (4 * i + j) 0#8 = (leBytes (reg s (Reg.QSPI_BUF + 4 * i))).getD j 0#8 :=
  flatMap_getD (f := fun i => leBytes (reg s (Reg.QSPI_BUF + 4 * i))) (fun _ _ => rfl) hi hj 0#8

theorem qspiBuf_length (s : State) : (qspiBuf s).length = 256 :=
  (flatMap_blocks (m := 4) fun _ _ => rfl).1

theorem leBytes_wOf_leNat (a b c d : Byte) : leBytes (wOf (leNat [a, b, c, d])) = [a, b, c, d] := by
  have ha := a.isLt
  have hb := b.isLt
  have hc := c.isLt
  have hd := d.isLt
  simp only [leBytes, leNat, wOf, List.cons.injEq, and_true]
  refine ⟨?_, ?_, ?_, ?_⟩ <;>
  · apply BitVec.eq_of_toNat_eq
    rw [BitVec.extractLsb'_toNat, BitVec.toNat_ofNat, Nat.shiftRight_eq_div_pow]
    omega

theorem leBytes_bytesWord {bs : List Byte} (h : bs.length = 256) {i : Nat} (hi : i < 64) :
    leBytes (bytesWord bs i) = (bs.drop (4 * i)).take 4 := by
  have hlength : ((bs.drop (4 * i)).take 4).length = 4 := block_length hi h
  obtain ⟨a, b, c, d, hbytes⟩ := List.length_eq_four.mp hlength
  rw [bytesWord, hbytes, leBytes_wOf_leNat]

/-- The buffer's words written from a string of bytes hold that string. -/
theorem qspiBuf_written {s : State} {bs : List Byte} (hb : bs.length = 256)
    (h : ∀ i, i < 64 → reg s (Reg.QSPI_BUF + 4 * i) = bytesWord bs i) {p : Nat} (hp : p < 256) : (qspiBuf s).getD p 0#8 = bs.getD p 0#8 := by
  have hsplit : p = 4 * (p / 4) + p % 4 := (Nat.div_add_mod p 4).symm
  have hword : p / 4 < 64 := by omega
  have hbyte : p % 4 < 4 := Nat.mod_lt _ (by decide)
  rw [hsplit, qspiBuf_getD s hword hbyte, h _ hword, leBytes_bytesWord hb hword]
  simp [List.getD_eq_getElem?_getD, hbyte, List.getElem?_drop]

/-- The bytes of the buffer after an operation. -/
def qspiNew (v : Word) (data : List Byte) (s : State) : List Byte :=
  if bitAt v 31 then qspiBuf s else data.take (qspiLen v) ++ (qspiBuf s).drop (data.take (qspiLen v)).length

theorem qspiLen_le (v : Word) : qspiLen v ≤ 256 := Nat.min_le_left _ _

theorem qspiNew_length (v : Word) (data : List Byte) (s : State) : (qspiNew v data s).length = 256 := by
  have hlen := qspiLen_le v
  unfold qspiNew
  split
  · exact qspiBuf_length s
  · simp only [List.length_append, List.length_drop, List.length_take, qspiBuf_length]
    omega

theorem qspiNew_getD (v : Word) (data : List Byte) (s : State) (i : Nat) : (qspiNew v data s).getD i 0#8 =
    if bitAt v 31 = false ∧ i < min data.length (min 256 (fld v 23 15)) then data.getD i 0#8 else (qspiBuf s).getD i 0#8 := by
  have hlen : qspiLen v = min 256 (fld v 23 15) := rfl
  unfold qspiNew
  rw [← hlen]
  cases hwrite : bitAt v 31 with
  | true => simp
  | false =>
    rw [if_neg Bool.false_ne_true]
    by_cases hin : i < min data.length (qspiLen v)
    · have hleft : i < (data.take (qspiLen v)).length := by rw [List.length_take]; omega
      rw [if_pos ⟨rfl, hin⟩, List.getD_append _ _ _ _ hleft]
      simp [List.getD_eq_getElem?_getD, show i < qspiLen v by omega]
    · have hright : (data.take (qspiLen v)).length ≤ i := by rw [List.length_take]; omega
      rw [if_neg (fun h => hin h.2), List.getD_append_right _ _ _ _ hright]
      simp only [List.getD_eq_getElem?_getD, List.getElem?_drop]
      rw [Nat.add_sub_cancel' hright]

theorem bitAt_irqLatch {s : State} {c : Nat} (hc : c < 32) (hw : tabWf 0#32 s.regs = true) :
    bitAt (reg (irqLatch c s) Reg.SYS_IRQ_CAUSE) c = true :=
  bitAt_orReg hw (bitAt_flag hc)

/-- QSPI_DONE writes the buffer and latches HOSTQ. -/
theorem qspiDone_eq {s : State} {v : Word} (h : s.host.qbusy = some v) (data : List Byte) :
    ∃ regs, qspiDone data s = irqLatch 15 { s with regs, host := { s.host with qbusy := none, qdone := true } } ∧
      (tabWf 0#32 s.regs = true → tabWf 0#32 regs = true ∧
        ∀ i, i < 64 → tget 0#32 regs (Reg.QSPI_BUF + 4 * i) = bytesWord (qspiNew v data s) i) := by
  have hwords := foldl_setReg (fun i => Reg.QSPI_BUF + 4 * i) (bytesWord (qspiNew v data s)) (List.range 64) s
  have hnew : (if bitAt v 31 then qspiBuf s else data.take (qspiLen v) ++ (qspiBuf s).drop (data.take (qspiLen v)).length) = qspiNew v data s := rfl
  refine ⟨_, ?_, fun hw => ⟨foldl_tset_tabWf (fun i => Reg.QSPI_BUF + 4 * i) (bytesWord (qspiNew v data s)) (List.range 64) hw, fun i hi => ?_⟩⟩
  · unfold qspiDone
    rw [h]
    dsimp only
    rw [hnew, hwords]
  · rw [tget_foldl_run hw Reg.QSPI_BUF (bytesWord (qspiNew v data s)), if_pos hi]

theorem qspiDone_regs {s : State} (hw : tabWf 0#32 s.regs = true) {v : Word} (h : s.host.qbusy = some v) (data : List Byte) :
    bitAt (reg (qspiDone data s) Reg.SYS_IRQ_CAUSE) 15 = true ∧
      ∀ i, i < 64 → reg (qspiDone data s) (Reg.QSPI_BUF + 4 * i) = bytesWord (qspiNew v data s) i := by
  obtain ⟨regs, hdone, hregs⟩ := qspiDone_eq h data
  obtain ⟨hwf, hbuf⟩ := hregs hw
  rw [hdone]
  refine ⟨bitAt_irqLatch (by decide) hwf, fun i hi => ?_⟩
  have hother : Reg.QSPI_BUF + 4 * i ≠ Reg.SYS_IRQ_CAUSE := by
    simp only [Reg.QSPI_BUF, Reg.SYS_IRQ_CAUSE]
    omega
  exact ((reg_orReg hwf _ _ _).trans (if_neg hother)).trans (hbuf i hi)

end Sys2Proof.Machine
end

section
/-! The host's ports, command by command (R412, R473–R486). -/

namespace Sys2Proof.Machine

/-- SYS_IRQ_PIN written, and every other register as before. -/
theorem reg_pinWritten {s : State} (hw : tabWf 0#32 s.regs = true) (v : Word) :
    reg (setReg Reg.SYS_IRQ_PIN (v &&& 0xFFFF#32) s) Reg.SYS_IRQ_PIN = v &&& 0xFFFF#32 ∧
      ∀ o, o ≠ Reg.SYS_IRQ_PIN → reg (setReg Reg.SYS_IRQ_PIN (v &&& 0xFFFF#32) s) o = reg s o :=
  ⟨(tget_tset hw).trans (if_pos rfl), fun _ ho => (tget_tset hw).trans (if_neg ho)⟩

/-! ### PCIe -/

theorem pcieMemoryWrite_pin {s : State} (h : BusIdle s) (hs : s.sys.straps.hostif = false) (hu : s.host.up = true) (hd : s.host.d3 = false)
    (hw : tabWf 0#32 s.regs = true) (v : Word) : Goes (exec (.pcieMemoryWrite false Reg.SYS_IRQ_PIN ((leBytes v).map some)) s) fun t =>
      reg t Reg.SYS_IRQ_PIN = v &&& 0xFFFF#32 ∧ (∀ o, o ≠ Reg.SYS_IRQ_PIN → reg t o = reg s o) ∧ t.mem = s.mem := by
  obtain ⟨last, taken, lastAddr, lastWr, hport⟩ := portTaken_frame (pinWrite v) s
  have hwrite := pcieWrite_pin h hs hu hd v
  rw [hport] at hwrite
  obtain ⟨hpin, hothers⟩ := reg_pinWritten hw v
  exact ⟨_, gives_bus h rfl hwrite h.wait, hpin, hothers, rfl⟩

theorem pcieMemoryRead_pin {s : State} (h : BusIdle s) (hs : s.sys.straps.hostif = false) (hu : s.host.up = true) (hd : s.host.d3 = false) :
    Goes (exec (.pcieMemoryRead false Reg.SYS_IRQ_PIN 4) s) fun t =>
      t.regs = s.regs ∧ t.mem = s.mem ∧ Says s t (.completion (leBytes (reg s Reg.SYS_IRQ_PIN)) false) := by
  obtain ⟨last, taken, lastAddr, lastWr, hport⟩ := portTaken_frame pinRead s
  have hread := pcieRead_pin h hs hu hd
  rw [hport] at hread
  exact ⟨_, gives_bus h rfl hread h.wait, rfl, rfl, says_settle_emit rfl _⟩

theorem pcieConfig_answers {s : State} (hs : s.sys.straps.hostif = false) (hu : s.host.up = true) (p : Option (BitVec 2)) :
    (s.sys.rel < 5 → pcieConfig p s = emit (.config true) s) ∧
    (5 ≤ s.sys.rel → pcieConfig p s = emit (.config false) { s with host := { s.host with d3 := p.elim s.host.d3 (· == 3#2) } }) := by
  refine ⟨fun hr => ?_, fun hr => ?_⟩
  · simp [pcieConfig, hs, hu, hr]
  · cases p <;> simp [pcieConfig, hs, hu, Nat.not_lt.mpr hr]

theorem pcieUp_rises {s : State} (hs : s.sys.straps.hostif = false) (hr : 3 ≤ s.sys.rel) (ht : s.err.testBusy = false) (sp : BitVec 4) (w : BitVec 3) :
    pcieUp sp w s = { s with host := { s.host with up := true, speed := sp.toNat, width := w.toNat } } := by
  simp [pcieUp, pcieHeld, hs, ht, Nat.not_lt.mpr hr]

theorem pcieLinkDown_resets {s : State} (h : BusIdle s) (hs : s.sys.straps.hostif = false) :
    Goes (exec (.pcieLinkDown none) s) fun t => EndpointCleared s t ∧ t.host.up = false := by
  obtain ⟨hwait, _, hcleared, _⟩ := endpointReset_cleared h.inj h.wait 4#32 busPerform
  have hdown : pcieDown busPerform none s = { endpointReset 4#32 busPerform none s with
      host := { (endpointReset 4#32 busPerform none s).host with up := false, speed := 0, width := 0 } } :=
    if_neg (by simp [hs])
  generalize endpointReset 4#32 busPerform none s = t at hwait hcleared hdown
  exact goes_busDone rfl hdown hwait ⟨hcleared.settled rfl rfl rfl rfl rfl, rfl⟩

theorem endpointPulse_pcie {s : State} (hs : s.sys.straps.hostif = false) (bits : Word) :
    endpointPulse bits none s = endpointReset bits busPerform none s :=
  if_neg (by simp [hs])

@[simp] theorem settle_hostUp (s : State) : (settle s).host.up = s.host.up := rfl

theorem pcieHotReset_resets {s : State} (h : BusIdle s) (hs : s.sys.straps.hostif = false) :
    Goes (exec (.pcieHotReset none) s) fun t => EndpointCleared s t ∧ t.host.up = s.host.up := by
  obtain ⟨hwait, hup, hcleared, _⟩ := endpointReset_cleared h.inj h.wait 0#32 busPerform
  have hpulse := endpointPulse_pcie hs 0#32
  generalize endpointReset 0#32 busPerform none s = t at hwait hup hcleared hpulse
  refine goes_busDone rfl hpulse hwait ⟨hcleared.settled rfl rfl rfl rfl rfl, ?_⟩
  exact (settle_hostUp t).trans hup

theorem functionLevelReset_resets {s : State} (h : BusIdle s) (hs : s.sys.straps.hostif = false) :
    Goes (exec (.functionLevelReset none) s) fun t => EndpointCleared s t ∧ t.host.up = s.host.up ∧
      (tabWf 0#32 s.regs = true → bitAt (reg t Reg.HOST_STAT) 3 = true) := by
  obtain ⟨hwait, hup, hcleared, hstat⟩ := endpointReset_cleared h.inj h.wait 8#32 busPerform
  have hpulse := endpointPulse_pcie hs 8#32
  generalize endpointReset 8#32 busPerform none s = t at hwait hup hcleared hstat hpulse
  refine goes_busDone rfl hpulse hwait ⟨hcleared.settled rfl rfl rfl rfl rfl, ?_, fun hw => ?_⟩
  · exact (settle_hostUp t).trans hup
  · obtain ⟨was, hbits⟩ := hstat hw
    rw [settle_reg, hbits, bitAt, BitVec.getLsbD_or]
    exact Bool.or_true _

theorem trstN_resets {s : State} (h : BusIdle s) :
    Goes (exec (.trstN none) s) fun t => bank t .dbg = {} ∧ (∀ x, x ≠ Master.dbg → bank t x = bank s x) ∧ t.regs = s.regs ∧ t.mem = s.mem := by
  obtain ⟨fab, hreset, hwait⟩ := masterReset_quiet h.inj h.wait .dbg busPerform
  obtain ⟨hown, hothers⟩ := bank_reset (s := s) (t := { s with fab, banks := vput s.banks (mNum .dbg) {} }) (m := .dbg) rfl
  exact goes_busDone rfl hreset hwait ⟨hown, hothers, rfl, rfl⟩

/-! ### SPI -/

theorem spiBusy_idle {s : State} (h : BusIdle s) : spiBusy s = false := by
  rw [spiBusy, h.wait]
  rfl

theorem spiWrite_goes {s : State} (h : BusIdle s) (hs : s.sys.straps.hostif = true) (hw : tabWf 0#32 s.regs = true) (v : Word) :
    Goes (exec (.spiWrite (BitVec.ofNat 36 Reg.SYS_IRQ_PIN) (leBytes v)) s) fun t =>
      reg t Reg.SYS_IRQ_PIN = v &&& 0xFFFF#32 ∧ (∀ o, o ≠ Reg.SYS_IRQ_PIN → reg t o = reg s o) ∧ t.mem = s.mem ∧ t.host.spiErr = false := by
  obtain ⟨fab, hwrite, hwait⟩ := spiWrite_pin h v
  have hframe : spiWriteFrame (BitVec.ofNat 36 Reg.SYS_IRQ_PIN) (leBytes v) s = spiWrite (BitVec.ofNat 36 Reg.SYS_IRQ_PIN) (leBytes v) s := by
    rw [spiWriteFrame, hs, spiBusy_idle h, busRun_idle h]
    rfl
  obtain ⟨hpin, hothers⟩ := reg_pinWritten hw v
  exact goes_busDone rfl (hframe.trans hwrite) (hwait.trans h.wait) ⟨hpin, hothers, rfl, rfl⟩

theorem spiRead_goes {s : State} (h : BusIdle s) (hs : s.sys.straps.hostif = true) :
    Goes (exec (.spiRead (BitVec.ofNat 36 Reg.SYS_IRQ_PIN) 4) s) fun t =>
      t.regs = s.regs ∧ t.mem = s.mem ∧ Says s t (.miso (0xA5#8 :: leBytes (reg s Reg.SYS_IRQ_PIN))) := by
  obtain ⟨fab, hread, hwait⟩ := spiRead_pin h
  have hframe : spiReadFrame (BitVec.ofNat 36 Reg.SYS_IRQ_PIN) 4 s = spiRead (BitVec.ofNat 36 Reg.SYS_IRQ_PIN) 4 s := by
    rw [spiReadFrame, hs, busRun_idle h]
    rfl
  exact goes_busDone rfl (hframe.trans hread) (hwait.trans h.wait) ⟨rfl, rfl, says_settle_emit rfl _⟩

theorem spiStatus_reads {s : State} (h : BusIdle s) (hs : s.sys.straps.hostif = true) : spiStatus s = { s with
    host := { s.host with spiErr := false, spiDrop := false }
    out := s.out ++ [.miso [(flag (irqPin s) 3 ||| flag s.host.spiDrop 2 ||| flag s.host.spiErr 1).truncate 8]] } := by
  have hbyte : spiStatusByte s = (flag (irqPin s) 3 ||| flag s.host.spiDrop 2 ||| flag s.host.spiErr 1).truncate 8 := by
    rw [spiStatusByte, spiBusy_idle h]
    simp [flag]
  rw [spiStatus, if_pos hs, hbyte]
  rfl

/-! ### Interrupt messages -/

theorem msixUnmask_goes {s : State} (n : Fin 64) (hw : tabWf 0#32 s.regs = true) (hq : vecsPending s = s.host.vecs) :
    Goes (exec (.msixUnmask n) s) fun t => vecMasked t n.val = false ∧ t.host.pba.getLsbD n.val = false ∧
      (s.host.pba.getLsbD n.val = true → s.host.vecs.getLsbD n.val = true → Says s t (vecMsg s n.val)) ∧
      (s.host.pba.getLsbD n.val = false → t.out = s.out) := by
  have hvecs : vecsPending (unmasked n.val s) = s.host.vecs := (unmasked_vecs n.isLt hw).trans hq
  have hmask := unmasked_mask (n := n.val) hw
  have hpba := unmasked_pba n.isLt s
  have hnow : vecNow (unmasked n.val s) n.val = s.host.vecs.getLsbD n.val := by rw [vecNow, hvecs]
  have hsends := msixUnmask_sends n.val s
  rw [hnow] at hsends
  by_cases hsent : (s.host.pba.getLsbD n.val && s.host.vecs.getLsbD n.val) = true
  · rw [if_pos hsent, unmasked_msg hw] at hsends
    have hkept : s.host.pba.getLsbD n.val = true := (Bool.and_eq_true_iff.mp hsent).1
    obtain ⟨_, hquiet⟩ := settle_quiet (s := emit (vecMsg s n.val) (unmasked n.val s)) hvecs
    refine goes_done rfl hsends ⟨hmask, by rw [hquiet]; exact hpba, fun _ _ => says_settle_emit rfl _, fun hclear => ?_⟩
    exact absurd (hkept.symm.trans hclear) (by decide)
  · rw [if_neg hsent] at hsends
    obtain ⟨hout, hquiet⟩ := settle_quiet (s := unmasked n.val s) hvecs
    refine goes_done rfl hsends ⟨hmask, by rw [hquiet]; exact hpba, fun hk hp => ?_, fun _ => hout⟩
    exact absurd (by rw [hk, hp]; rfl) hsent

/-! ### The flash master -/

theorem qspiCmdWrite_starts {s : State} (hb : s.sys.wait = .none) (hq : s.host.qbusy = none) (m : Master) (v : Word) :
    qspiCmdWrite m v s = emit (.qspi v (reg s Reg.QSPI_ADDR) (if bitAt v 31 then (qspiBuf s).take (qspiLen v) else []))
      { s with host := { s.host with qbusy := some v, qdone := false } } := by
  have hboot : bootFetching s = false := by rw [bootFetching, hb]; rfl
  rw [qspiCmdWrite, hq, hboot]
  rfl

theorem qspiCmdWrite_busy {s : State} (hq : s.host.qbusy ≠ none) (m : Master) (v : Word) : qspiCmdWrite m v s = progError m Reg.QSPI_CMD s :=
  if_pos (by rw [Option.isSome_iff_ne_none.mpr hq]; rfl)

theorem qspiDone_goes {s : State} {v : Word} (hq : s.host.qbusy = some v) (hw : tabWf 0#32 s.regs = true) (data : List Byte) :
    Goes (exec (.qspiDone data) s) fun t => t.host.qbusy = none ∧ t.host.qdone = true ∧ bitAt (reg t Reg.SYS_IRQ_CAUSE) 15 = true ∧
      (∀ i, i < 256 → (qspiBuf t).getD i 0#8 =
        if bitAt v 31 = false ∧ i < min data.length (min 256 (fld v 23 15)) then data.getD i 0#8 else (qspiBuf s).getD i 0#8) := by
  obtain ⟨hcause, hwords⟩ := qspiDone_regs hw hq data
  have hhost : (qspiDone data s).host = { s.host with qbusy := none, qdone := true } := by
    obtain ⟨regs, hdone, _⟩ := qspiDone_eq hq data
    rw [hdone]
    rfl
  have hidle : (qspiDone data s).host.qbusy = none := by rw [hhost]
  have hended : (qspiDone data s).host.qdone = true := by rw [hhost]
  refine goes_done rfl rfl ⟨hidle, hended, hcause, fun i hi => ?_⟩
  exact (qspiBuf_written (s := settle (qspiDone data s)) (qspiNew_length v data s) hwords hi).trans (qspiNew_getD v data s i)

end Sys2Proof.Machine
end

section
/-! The host's ports (R412, R473–R486). -/

open Sys2Proof Sys2Proof.Machine

/-- Settles O47: the requests go through one word of the register space, the resets through what `endpointReset` leaves, and each port's
commands through their equations. -/
theorem hostPorts : Obligations.HostPorts := by
  unfold Obligations.HostPorts
  intro s h
  refine ⟨fun ⟨hs, hu, hd⟩ hw v => ⟨pcieMemoryWrite_pin h hs hu hd hw v, pcieMemoryRead_pin h hs hu hd⟩,
    fun hs hw v => ⟨spiWrite_goes h hs hw v, spiRead_goes h hs⟩, fun hs => gives_done rfl (spiStatus_reads h hs),
    fun hp bar2 off bs n => ⟨gives_bus h rfl (pcieWrite_silent hp bar2 off bs) h.wait, gives_bus h rfl (pcieRead_silent hp bar2 off n) h.wait⟩,
    fun hs hu off => ?_, fun hs hr ht sp w => gives_done rfl (pcieUp_rises hs hr ht sp w),
    fun hs => ⟨pcieLinkDown_resets h hs, pcieHotReset_resets h hs, functionLevelReset_resets h hs⟩, trstN_resets h,
    fun m v hp => ⟨fun hm => gives_done rfl (irqAck_sends hp hm), fun hm => gives_done rfl (irqAck_masked hp hm)⟩,
    fun m v hp => gives_done rfl (irqAck_idle hp), fun n hw hq => msixUnmask_goes n hw hq,
    fun m v hb => ⟨fun hq => gives_done rfl (qspiCmdWrite_starts hb hq m v), fun hq => gives_done rfl (qspiCmdWrite_busy hq m v)⟩,
    fun v data hq hw => qspiDone_goes hq hw data⟩
  exact ⟨fun hr p => gives_done rfl ((pcieConfig_answers hs hu p).1 hr), fun hr => gives_done rfl ((pcieConfig_answers hs hu none).2 hr),
    fun hr p => gives_done rfl ((pcieConfig_answers hs hu (some p)).2 hr)⟩
end
